-- ==== Sys2Proof/Word.lean ====
section
/-! DEFINITION. Plain numbers, bit fields and the shape of a register field (R7, R11, R12).
A register of this hardware is 32 bits wide and is read and written field by field, so a field's
value is a natural number below two to the field's width; the one place that truncates is `State.wr`. -/

namespace Sys2Proof

/-- The bits [lo + w - 1 : lo] of a word (R7). -/
def bits (v lo w : Nat) : Nat := (v / 2 ^ lo) % 2 ^ w

/-- One bit of a word, as a truth value. -/
def bit (v n : Nat) : Bool := v / 2 ^ n % 2 == 1

/-- A truth value as a one-bit field. -/
def b2n (b : Bool) : Nat := if b then 1 else 0

/-- `v` with bit `n` set. -/
def setBit (v n : Nat) : Nat := if bit v n then v else v + 2 ^ n

/-- `v` with bit `n` clear. -/
def clrBit (v n : Nat) : Nat := if bit v n then v - 2 ^ n else v

/-- The first number from `i` up, among the next `n`, that a test accepts. -/
def firstFrom (p : Nat → Bool) : Nat → Nat → Option Nat
  | 0, _ => none
  | k + 1, i => if p i then some i else firstFrom p k (i + 1)

/-- The quotient rounded up. -/
def ceilDiv (a b : Nat) : Nat := (a + b - 1) / b

/-- The access codes of R12. -/
inductive Access where
  | ro | rw | wo | w1c | rwl | rc
  deriving DecidableEq, Repr

/-- One register field (R11, R12): the INDEX of its page's first instance, how many instances the
page type has, its offset in the page, its lowest bit, its width, its access code, its reset value,
and whether a counter in it saturates (else it wraps). A reset of "—" reads 0 until it is loaded
(R605), so it stands as 0 here. -/
structure Field where
  page : Nat
  insts : Nat
  off : Nat
  lo : Nat
  width : Nat
  acc : Access
  reset : Nat
  sat : Bool
  rmin : Nat
  rmax : Nat
  who : Nat
  cls : Nat
  deriving DecidableEq, Repr

/-- The place of a field's value in the register store: instance `i` of its page and entry `b` of
what the field's selector or bank chooses (0 where it has none). -/
def Field.key (f : Field) (i b : Nat) : Nat :=
  (((f.page + i) * 0x1000 + f.off) * 32 + f.lo) * 0x10000 + b

/-- The page INDEX (R594) of a key of the register store. -/
def keyPage (k : Nat) : Nat := k / (0x10000 * 32 * 0x1000)

end Sys2Proof
end

