-- ==== Sys2Proof/Syntax.lean ====
section
/-! DEFINITION. The commands of the block: one constructor per row of spec/opcode_table.json, with the
operands the outside supplies (a port, a queue and command identifier, a register value and who writes
it, what a pin or a decoder shows). -/

namespace Sys2Proof

/-- Who makes a register access (R12, R490, R491, R607): a policy hart, in M-mode or not, with the
code-flash bank its instruction was fetched from (R517; 2 for none); a management hart, likewise; the
NVMe-MI window; the boot ROM. -/
inductive Initiator where
  | policy (hart : Nat) (mMode : Bool) (bank : Nat)
  | mgmt (hart bank : Nat)
  | mi
  | bootRom
  deriving DecidableEq, Repr

/-- The commands, in the order of the opcode table. -/
inductive Instr where
  /-- POWER_ON_RESET_RELEASE (R579). VDD_WATCH has been valid for 1 ms, so the WATCH power-on reset is released, MONOTONIC starts at
    0 and WAKE begins. -/
  | powerOnResetRelease (testEn : Bool)
  /-- VDD_WATCH_LOSS (R121). VDD_WATCH falls below its operating range and the device goes to OFF from any state. -/
  | vddWatchLoss
  /-- STRAP_SAMPLE_COMPLETE (R581). After 32 samples over 320 µs each strap takes the agreed value, or its safe value with a
    STRAP_UNSTABLE record. -/
  | strapSampleComplete (samples : List Nat)
  /-- RAIL_STAGE_VALID (R576). The rails of one stage become valid and the power sequencer raises the enable of the next stage. -/
  | railStageValid (early : Nat)
  /-- RAIL_ENABLE_TIMEOUT (R576). A rail is not valid within 3 ms of its enable, which leads to HALT with WAKE_FAIL, or to the
    loss of its stall group for VCCQ_FL. -/
  | railEnableTimeout (rail : Nat)
  /-- RAIL_OUT_OF_WINDOW (R621). A rail leaves its monitor window after becoming valid, which leads to OFF, to the loss of a
    stall group, or to CLOSING with cause POWER_FAIL after 10 µs. -/
  | railOutOfWindow (rail : Nat)
  /-- BOOT_SLOT_CHOICE (R523). The boot ROM chooses, verifies and appends the slot to start from the slot descriptor, falls
    back where needed, or boots in DIAGNOSE under the development override. -/
  | bootSlotChoice
  /-- DDR5_TRAINING_COMPLETE (R582). DDR5 training ends and LEDGER.DRAM_MAP.SIZE is set. -/
  | ddr5TrainingComplete (gib mts ms : Nat)
  /-- WAKE_COMPLETE (R121). Domains are ramped, MAIN and CORE are released and the straps are latched, so the device enters
    SELF_TEST. -/
  | wakeComplete
  /-- WAKE_TIMER_EXPIRY (R122). The WAKE timer expires and the device enters HALT with cause WAKE_FAIL. -/
  | wakeTimerExpiry
  /-- SELF_TEST_PHASE_COMPLETE (R574). A self-test phase finishes: failed tests are repeated once, stall groups are lost or HALT is
    taken, and the next phase starts. -/
  | selfTestPhaseComplete (transients firings : Nat) (fails : List (Nat × Nat)) (chans : List (List Nat))
  /-- SELF_TEST_COMPLETE (R121). Every test has passed, or every failure is confined to stall groups, so the device enters
    REBUILD. -/
  | selfTestComplete (ms : Nat)
  /-- SELF_TEST_TIMER_EXPIRY (R122). The self-test timer expires and the device enters HALT with cause SELF_TEST_FAIL. -/
  | selfTestTimerExpiry
  /-- REBUILD_PHASE_COMPLETE (R389). A rebuild phase ends (records, checkpoint load, summary headers, delta copies, replay, counter
    restore) and the next phase begins. -/
  | rebuildPhaseComplete (ms : Nat) (bad : List Nat)
  /-- REBUILD_COMPLETE (R121). Rebuild completes and the device enters SERVICE, applying held mode requests and starting the
    policy image. -/
  | rebuildComplete
  /-- REBUILD_TIMER_EXPIRY (R395). The rebuild timer expires, or a map cannot be completed, and the device enters HALT with cause
    REBUILD_FAIL. -/
  | rebuildTimerExpiry
  /-- VALID_WALK_COMPLETE (R394). The SERVICE walk that recounts VALID ends, and the Sweep may again offer RELOC and WEAR
    candidates and erase victims. -/
  | validWalkComplete
  /-- POWER_FAIL_DETECT (R368). PWR_FAIL_N has been low for 200 ns, or HOLDUP_SENSE has been below FAIL while the comparator is
    armed, which leads to CLOSING or to HALT. -/
  | powerFailDetect (comparator : Bool)
  /-- HOLDUP_THRESHOLD_CROSSING (R369). HOLDUP_SENSE passes the OK or FAIL threshold, which arms the FAIL comparator, holds or releases
    writes, and makes a HOLDUP record. -/
  | holdupThresholdCrossing (fail up : Bool)
  /-- BELL_UNIT_DURABLE (R377). A bell unit returns good program status and its sectors move by Bell durable. -/
  | bellUnitDurable (unit : Nat)
  /-- BELL_UNIT_FAIL (R378). A bell unit program fails and the unit is programmed once more on the next free die, or left to
    parity. -/
  | bellUnitFail (unit : Nat)
  /-- CLOSING_BELL_COMPLETE (R379). Every bell unit is durable or covered by parity, so BELL_OK is set and the device enters HALT. -/
  | closingBellComplete
  /-- CLOSING_BELL_TIMER_EXPIRY (R122). The 5 ms closing-bell timer expires and the device enters HALT with BELL_OK 0. -/
  | closingBellTimerExpiry
  /-- HALT_CTRL_ORDERLY (R135). Management firmware requests CLOSING with cause ORDERLY. -/
  | haltCtrlOrderly (who : Initiator)
  /-- HALT_CTRL_RESTART (R125). Management firmware leaves HALT for WAKE, which resets MAIN and CORE. -/
  | haltCtrlRestart (who : Initiator)
  /-- RESTART_DWELL_EXPIRY (R125). The restart condition has held for the restart dwell, so HALT is left for WAKE. -/
  | restartDwellExpiry
  /-- MODE_REQ (R128). A mode set or clear request reaches WATCH and is checked for requester, IN_SERVICE and state,
    then refused, held or queued. -/
  | modeReq (who : Initiator) (set clear : Nat)
  /-- MODE_INSTANT (R129). A mode change takes effect: MODE_CUR and MODE_RESULT are loaded, entry actions start and a MODE
    record is made. -/
  | modeInstant
  /-- IN_SERVICE_RISE (R128). IN_SERVICE rises, which disarms every injection point and clears DIAGNOSE. -/
  | inServiceRise (level : Bool)
  /-- SQ_DOORBELL (R145). The host writes an SQ tail doorbell, and FRONT fetches SQEs while the staging ring and contexts
    have room. -/
  | sqDoorbell (port sqid tail : Nat)
  /-- SQE_ARRIVAL (R145). A fetched SQE is written into its staging ring and holds a command context. -/
  | sqeArrival (port sqid cid opcode flags nsid : Nat) (dw : List Nat) (ranges : List (Nat × Nat)) (payload : List Nat)
  /-- INTAKE_EVALUATION (R147). Every 16 INTAKE cycles, INTAKE chooses a staged command by the two-level arbitration and
    evaluates it for admission. -/
  | intakeEvaluation
  /-- RETURN_WAIT_EXPIRY (R64). An out-of-contract command in a RETURN queue reaches its return wait and completes with Command
    Interrupted. -/
  | returnWaitExpiry (port sqid cid : Nat)
  /-- TOKEN_REFILL (R68). Every 1 µs the operation, byte and tax tokens of each RENTED pitch refill up to their caps, and
    the excess is forfeited. -/
  | tokenRefill
  /-- RLT_BLOCK_SHIFT (R196). A block shift of range-lock rows runs, one row per LEDGER cycle, and the waiting insertion is
    then written. -/
  | rltBlockShift
  /-- DEADLINE_FIRST_EXPIRY (R84). 98 % of a DEADLINE_FIRST read's bound has passed, so it completes with Unrecovered Read Error
    and the IU becomes a scrub item. -/
  | deadlineFirstExpiry (port sqid cid : Nat)
  /-- READ (R30). An NVMe Read is admitted and served by crate hit, zero read, uncorrectable or flash read. -/
  | read (port sqid cid : Nat)
  /-- WRITE (R227). An NVMe Write is admitted, granted HOST crates, and fetched from host memory. -/
  | write (port sqid cid : Nat)
  /-- FLUSH (R154). An NVMe Flush is accepted and covers the prior writes of its namespace or of all namespaces. -/
  | flush (port sqid cid : Nat)
  /-- FLUSH_COMPLETE (R155). Every covered sector has settled, been superseded or deferred, and the Flush completes
    successfully or with Deferred Write Fault. -/
  | flushComplete (port sqid cid : Nat)
  /-- WRITE_UNCORRECTABLE (R181). An NVMe Write Uncorrectable marks IU-aligned ranges uncorrectable through MARK_UNC. -/
  | writeUncorrectable (port sqid cid : Nat)
  /-- COMPARE (R139). An NVMe Compare reads its range under a shared lock and completes with Compare Failure on
    mismatch. -/
  | compare (port sqid cid : Nat)
  /-- WRITE_ZEROES (R170). An NVMe Write Zeroes deallocates whole IUs and writes zeros into the partly covered IUs. -/
  | writeZeroes (port sqid cid : Nat)
  /-- DATASET_MANAGEMENT (R170). A Dataset Management Deallocate deallocates every IU wholly inside its ranges. -/
  | datasetManagement (port sqid cid : Nat)
  /-- VERIFY (R139). An NVMe Verify reads its range under a shared lock and transfers no data. -/
  | verify (port sqid cid : Nat)
  /-- CREATE_IO_SQ (R138). The hardware-executed admin command creates an I/O submission queue, unbound. -/
  | createIoSq (port cid : Nat)
  /-- DELETE_IO_SQ (R157). The queue's commands are discarded, dropped or withdrawn and completed with SQ Deletion status
    before the Delete completes. -/
  | deleteIoSq (port cid : Nat)
  /-- CREATE_IO_CQ (R138). The hardware-executed admin command creates an I/O completion queue. -/
  | createIoCq (port cid : Nat)
  /-- DELETE_IO_CQ (R138). The hardware-executed admin command deletes an I/O completion queue. -/
  | deleteIoCq (port cid : Nat)
  /-- GET_LOG_PAGE (R141). Returns a supported log page, from hardware for C1h and C2h and from firmware otherwise. -/
  | getLogPage (port cid : Nat)
  /-- IDENTIFY (R504). Firmware serves Identify, and FRONT overwrites VID, SSVID and SN with the fused values. -/
  | identify (port cid : Nat)
  /-- ABORT (R161). INTAKE decides an Abort for the named command: not found, discarded while staged, or stopped
    after acceptance. -/
  | abort (port cid : Nat)
  /-- SET_FEATURES (R140). Sets a supported feature; saving is refused. -/
  | setFeatures (port cid : Nat)
  /-- GET_FEATURES (R140). Returns the current value of a supported feature. -/
  | getFeatures (port cid : Nat)
  /-- MODE_CONTROL_SET (R130). Set Features C0h requests that mode bits 0, 1 or 4 be set or cleared. -/
  | modeControlSet (port cid : Nat)
  /-- MODE_CONTROL_GET (R130). Get Features C0h returns MODES, RO_CAUSE and DIAG_BOOT. -/
  | modeControlGet (port cid : Nat)
  /-- POWER_MANAGEMENT_SET (R476). The host selects a power state, and the effective state follows pitches, ARCHIVE and the
    override. -/
  | powerManagementSet (port cid : Nat)
  /-- TIMESTAMP_SET (R561). Firmware writes the host's Set Features Timestamp value to WALL_SET. -/
  | timestampSet (port cid : Nat)
  /-- TIMESTAMP_GET (R561). Returns WALL with Synch 0 and its origin. -/
  | timestampGet (port cid : Nat)
  /-- ASYNCHRONOUS_EVENT_REQUEST (R138). The host posts an AER, up to four outstanding. -/
  | asynchronousEventRequest (port cid : Nat)
  /-- NAMESPACE_MANAGEMENT (R175). Creates a namespace, taking its IU size and granules, or deletes one, releasing them. -/
  | namespaceManagement (port cid : Nat)
  /-- NAMESPACE_ATTACHMENT (R138). Firmware attaches or detaches a namespace to or from controllers. -/
  | namespaceAttachment (port cid : Nat)
  /-- FORMAT_NVM (R142). Formats a namespace to LBA format 0 or 1 with the given Secure Erase Settings. -/
  | formatNvm (port cid : Nat)
  /-- FORMAT_COMPLETE (R142). The format finishes, and I/O to the namespace no longer returns Format In Progress. -/
  | formatComplete (nsid : Nat)
  /-- SANITIZE_BLOCK_ERASE (R141). A Sanitize with Block Erase starts under the SANITIZE entry condition. -/
  | sanitizeBlockErase (port cid : Nat)
  /-- SANITIZE_CRYPTO_ERASE (R141). A Sanitize with Crypto Erase starts and regenerates every media slot. -/
  | sanitizeCryptoErase (port cid : Nat)
  /-- SANITIZE_EXIT_FAILURE_MODE (R141). A Sanitize with Exit Failure Mode. -/
  | sanitizeExitFailureMode (port cid : Nat)
  /-- SANITIZE_COMPLETE (R131). The sanitize operation ends, SANITIZE is cleared, and every LBA is deallocated. -/
  | sanitizeComplete (ok : Bool)
  /-- FIRMWARE_IMAGE_DOWNLOAD (R525). The host downloads an image piece, which firmware stages and reports to the Gate. -/
  | firmwareImageDownload (port cid : Nat)
  /-- FIRMWARE_COMMIT (R159). The host commits a firmware image, which firmware passes to the Gate as a commit action. -/
  | firmwareCommit (port cid : Nat)
  /-- PITCH_RENT (R62). The host rents a pitch, or tests one without renting, through contract check, capacity test and
    table insertion. -/
  | pitchRent (port cid : Nat)
  /-- PITCH_RETURN (R63). The host returns a pitch it owns, unbinding its queues. -/
  | pitchReturn (port cid : Nat)
  /-- PITCH_BIND (R64). The host binds, rebinds or unbinds an I/O SQ to a pitch it owns. -/
  | pitchBind (port cid : Nat)
  /-- PITCH_CMD_RENT (R95). Firmware rents the pitch staged in the window. -/
  | pitchCmdRent (who : Initiator)
  /-- PITCH_CMD_RETURN (R95). Firmware returns a pitch it owns. -/
  | pitchCmdReturn (who : Initiator)
  /-- PITCH_CMD_LOAD (R95). Firmware loads a pitch's contract into the window. -/
  | pitchCmdLoad (who : Initiator)
  /-- PITCH_CMD_TEST (R95). Firmware tests the window's contract without renting. -/
  | pitchCmdTest (who : Initiator)
  /-- QB_CFG_WRITE (R64). Firmware binds, rebinds or unbinds a queue, subject to ownership, and the result is loaded into
    PITCH_RESULT.CODE. -/
  | qbCfgWrite (who : Initiator) (value : Nat)
  /-- CC_EN_CLEAR (R156). An NVMe controller reset stops fetching, discards staged commands, withdraws fetches and returns
    the controller's pitches. -/
  | ccEnClear (port : Nat)
  /-- CONTROLLER_RESET_COMPLETE (R156). Outstanding host reads have ended, CSTS.RDY reads 0, and a CTRL_RESET record is made. -/
  | controllerResetComplete (port : Nat)
  /-- CC_EN_SET (R586). The host enables the controller, and CSTS.RDY rises in SERVICE. -/
  | ccEnSet (port ams : Nat)
  /-- SHUTDOWN_NOTIFICATION (R158). CC.SHN stops fetching and accepting while accepted commands complete. -/
  | shutdownNotification (port shn : Nat)
  /-- SHUTDOWN_COMPLETE (R158). No command is outstanding and RESIDENT is 0, so CSTS.SHST reads 10b. -/
  | shutdownComplete (port : Nat)
  /-- PERST_N_ASSERT (R588). PERST_N, filtered for 1 µs, resets its port's link and configuration space, then its controller. -/
  | perstNAssert (port : Nat)
  /-- PERST_N_DEASSERT (R585). PERST_N rises and FRONT trains the port's link once HOST is powered. -/
  | perstNDeassert (port : Nat)
  /-- HOT_RESET (R588). A Hot Reset resets the port and then its controller. -/
  | hotReset (port : Nat)
  /-- FLR (R588). A Function Level Reset clears the function's registers and resets the controller, while the link
    stays up. -/
  | flr (port : Nat)
  /-- LINK_DOWN (R589). The port's link goes down: received TLPs are discarded by Credit release, and outstanding reads
    are withdrawn. -/
  | linkDown (port : Nat)
  /-- LINK_UP (R628). The link trains, credits are advertised, and the LINK capacities are scaled by width and rate. -/
  | linkUp (port width rate : Nat)
  /-- DEVICE_CONTROL_WRITE (R423). The host writes Max_Payload_Size, and INTAKE rescales LINK_UP and runs the capacity test again. -/
  | deviceControlWrite (port mps : Nat)
  /-- CREDIT_RECEIVE (R99). A TLP passes the data-link checks into the receive buffer, and OCC rises by its credits. -/
  | creditReceive (counter n : Nat)
  /-- CREDIT_RELEASE (R99). The transaction layer frees a TLP's buffer entries, and its credits move to PEND. -/
  | creditRelease (counter n : Nat)
  /-- CREDIT_ADVERTISE (R99). An UpdateFC carrying pending credits is handed to the data-link layer. -/
  | creditAdvertise (counter n : Nat)
  /-- HOST_READ_COMPLETION (R228). A completion for a device-initiated read of host memory returns write data, or an error that
    ends the command with Data Transfer Error. -/
  | hostReadCompletion (port tag : Nat) (ok : Bool)
  /-- WRITE_DATA_RESIDENCY (R99). A sector's last beat is written into its HOST crate, and when the whole command is resident
    INSERTs follow and the completion is posted. -/
  | writeDataResidency (port sqid cid : Nat) (sector data : Nat)
  /-- HALF_MOVE_RECEIPT (R104). A crossing message carrying the second half of a conserved move is applied at its receiver, or
    is held or counted in TRANSIT. -/
  | halfMoveReceipt (index : Nat)
  /-- LCACHE_FILL (R204). Miss data arrives from DRAM, its LINE_CRC is checked, and it fills the allocated way, evicting a
    victim to write-back. -/
  | lcacheFill (line : Nat) (crcOk : Bool)
  /-- PREFETCH_ARRIVAL (R218). A prefetched line arrives and enters the tray, replacing the oldest unused line, or is
    discarded. -/
  | prefetchArrival (line : Nat) (crcOk : Bool)
  /-- CIX_REBALANCE (R195). A background rebalance moves crate-index rows group by group until a group with two free rows is
    reached. -/
  | cixRebalance (group : Nat)
  /-- NS_CMD_INIT (R182). Firmware fills a new namespace's ledger lines with DEALLOCATED entries. -/
  | nsCmdInit (who : Initiator)
  /-- NS_CMD_RELEASE (R182). Firmware frees a deleted namespace's granules and its lock regions. -/
  | nsCmdRelease (who : Initiator)
  /-- NS_CMD_DEALLOC_ALL (R182). Firmware asks INTAKE to deallocate every IU of a namespace under a namespace-wide lock. -/
  | nsCmdDeallocAll (who : Initiator)
  /-- NS_CMD_COMPLETE (R198). A running NS_CMD ends, and BUSY clears with its result code. -/
  | nsCmdComplete
  /-- CIX_PROBE_GO (R198). Firmware runs a crate-index probe search that changes no row. -/
  | cixProbeGo (who : Initiator)
  /-- DRAM_WRITE_REFUSED (R176). The memory controller refuses a write into the LEDGER or SWEEP region from a wrong source, and
    counts and records it. -/
  | dramWriteRefused (who : Initiator) (addr : Nat)
  /-- RANGE_CLEAN (R210). The range engine writes back the DIRTY lines in range. -/
  | rangeClean (who : Initiator) (force all : Bool)
  /-- RANGE_INVALIDATE (R210). The range engine removes the clean lines in range, and with FORCE includes locked lines. -/
  | rangeInvalidate (who : Initiator) (force all : Bool)
  /-- RANGE_CLEAN_INVALIDATE (R210). The range engine writes back and removes the lines in range. -/
  | rangeCleanInvalidate (who : Initiator) (force all : Bool)
  /-- RANGE_PREFETCH (R217). Firmware requests up to 256 lines of a range into the tray. -/
  | rangePrefetch (who : Initiator) (all : Bool)
  /-- RANGE_OP_COMPLETE (R211). The walk is done and the last write-back accepted, so BUSY clears and RANGE_RES is loaded. -/
  | rangeOpComplete
  /-- LOCK_APPLY (R206). The staged lock configuration is checked and, if accepted, a lock sync starts. -/
  | lockApply (who : Initiator)
  /-- LOCK_SYNC_COMPLETE (R206). The lock sync has cleaned non-region lines and brought region lines into locked ways, counting
    overflow. -/
  | lockSyncComplete
  /-- CACHE_DISABLE (R213). A write of ENABLE 0 starts clean-then-disable, with write-through and an ALL walk. -/
  | cacheDisable (who : Initiator)
  /-- CACHE_DISABLE_COMPLETE (R213). The last write-back is accepted, every line is removed, and ENABLED clears. -/
  | cacheDisableComplete
  /-- CACHE_ENABLE (R214). A write of ENABLE 1 cancels a pending disable or enables the cache empty, with a lock sync. -/
  | cacheEnable (who : Initiator)
  /-- WAY_POWER_OFF (R215). Power-down of a way is requested, and the way leaves allocation and drains. -/
  | wayPowerOff (who : Initiator) (way : Nat)
  /-- WAY_DRAIN_COMPLETE (R215). The drained way's banks are powered off and ON clears. -/
  | wayDrainComplete (way : Nat)
  /-- WAY_POWER_ON (R216). The way is powered on and joins allocation empty within 5 µs. -/
  | wayPowerOn (who : Initiator) (way : Nat)
  /-- ROW_TAKE (R189). The write path takes the oldest RESIDENT row of a write group for programming and sets it TAKEN. -/
  | rowTake (group : Nat)
  /-- PAD_WAIT_EXPIRY (R234). PAD_WAIT passes since a unit's first row, so the unit is issued with pad positions. -/
  | padWaitExpiry (group : Nat)
  /-- STRIPE_WAIT_EXPIRY (R237). A stripe closes short, releasing its unfilled positions and issuing its parity unit. -/
  | stripeWaitExpiry (serial : Nat)
  /-- CRATE_GRANT_REQUEST (R262). A class's request for crates is decided all or none in class order, with fallback or EMPTY. -/
  | crateGrantRequest (cls count pool kind owner otag who : Nat)
  /-- CRATE_FREE (R268). The owner's free sets REL, and frees the crate when REFS is 0, after the R269 checks. -/
  | crateFree (handle owner : Nat)
  /-- CRATE_REFERENCE_RELEASE (R268). A reference is released, freeing the crate when it was the last and REL is set. -/
  | crateReferenceRelease (handle owner : Nat)
  /-- LEND_GO (R272). Firmware borrows a crate from a pool, which is checked against LEND_MAX, zeroed and returned as
    a handle. -/
  | lendGo (who : Initiator) (pool : Nat)
  /-- RETURN_HANDLE (R272). Firmware returns a lent crate by handle, checked under R269. -/
  | returnHandle (who : Initiator) (handle : Nat)
  /-- WIN_DATA_ACCESS (R273). Firmware reads or writes 4 B of a lent crate through the window, and WIN_OFF advances. -/
  | winDataAccess (who : Initiator) (write : Bool) (value : Nat)
  /-- SENSE_START (R78). At a point where a die can begin a sense, it serves the waiting reads in the class order of R78. -/
  | senseStart (ch die : Nat)
  /-- CHANNEL_BURST (R81). Between bursts the channel serves the next data transfer or load burst in the order of R81 and
    R298. -/
  | channelBurst (ch : Nat)
  /-- STATUS_POLL (R291). The status poll interval expires and Read Status Enhanced reports ready, suspended or failed
    status. -/
  | statusPoll (ch die status : Nat)
  /-- PROGRAM_SUSPEND (R294). A read waits at a die whose program has run at least 60 µs, so a suspend is issued. -/
  | programSuspend (ch die : Nat)
  /-- ERASE_SUSPEND (R294). A read waits at a die whose erase has run at least 300 µs, so the erase is suspended. -/
  | eraseSuspend (ch die : Nat)
  /-- LOAD_ABANDON (R294). A load's run reaches 60 µs with a read waiting, so the burst is cut and Reset LUN is issued. -/
  | loadAbandon (ch die : Nat)
  /-- ERASE_START (R80). An erase begins when no accepted read waits at its die and the wear ceilings allow. -/
  | eraseStart (ch die : Nat)
  /-- ERASE_PENDING_CLOSE (R80). An erase has been pending 10 ms, so its die closes to new slots. -/
  | erasePendingClose (ch die : Nat)
  /-- READ_TIMEOUT (R291). A read is not ready in time: Reset LUN and one repeat, or the die is lost. -/
  | readTimeout (ch die : Nat)
  /-- PROGRAM_TIMEOUT (R291). A program is not ready in time, so it has failed and Reset LUN is issued. -/
  | programTimeout (ch die : Nat)
  /-- ERASE_TIMEOUT (R291). An erase is not ready in time, so it has failed and the block is retired. -/
  | eraseTimeout (ch die : Nat)
  /-- SUSPEND_TIMEOUT (R295). A suspend is not acknowledged, so the operation runs to its end unsuspended. -/
  | suspendTimeout (ch die : Nat)
  /-- RESET_TIMEOUT (R291). A reset is not ready in time, so the die, or the target's dies, are lost. -/
  | resetTimeout (ch die : Nat) (target : Bool)
  /-- FEATURE_TIMEOUT (R291). A feature, ZQ or training command is not ready in time: Reset LUN and repeat, or the die is
    lost. -/
  | featureTimeout (ch die : Nat)
  /-- ZQ_INTERVAL_EXPIRY (R290). The ZQ interval or a temperature step triggers a ZQ Calibration Short on a target. -/
  | zqIntervalExpiry (ch die : Nat) (ok : Bool)
  /-- IDENTITY_CHECK (R299). The identity check period expires and Read ID of one target is compared with identification. -/
  | identityCheck (ch die : Nat) (ok : Bool)
  /-- VCCQ_FL_OUT_OF_RANGE (R301). A group's VCCQ_FL stays outside its range for 10 µs and the stall group is lost. -/
  | vccqFlOutOfRange (group : Nat)
  /-- HARD_DECODE_COMPLETE (R312). A hard decoder finishes a codeword, and the header check routes it onward or to the soft queue. -/
  | hardDecodeComplete (read iters : Nat) (ok headerOk : Bool)
  /-- SOFT_PASS_COMPLETE (R313). A soft pass ends, decoded or failed into the retry ladder. -/
  | softPassComplete (read : Nat) (ok : Bool)
  /-- FULL_SOFT_DECODE_COMPLETE (R313). A full soft decode of multi-sense input ends, at ladder steps 9 to 11. -/
  | fullSoftDecodeComplete (read : Nat) (ok : Bool)
  /-- SOFT_WAIT_EXPIRY (R315). A non-URGENT host codeword's soft pass has not started within SOFT_WAIT, so it leaves the queue
    for the retry ladder. -/
  | softWaitExpiry (read : Nat)
  /-- SCRUB_PACE (R321). Once a second, each scrub walker sets its pace from the codewords and time left. -/
  | scrubPace
  /-- SCRUB_CYCLE_END (R321). A scrub cycle's time ends: a late cycle is counted and the next cycle begins. -/
  | scrubCycleEnd
  /-- SCRUB_STATE_SAVE (R323). Every 10 minutes the walker positions and the wear and temperature state are saved to RECORDS. -/
  | scrubStateSave
  /-- CORRECTABLE_ERROR (R325). A SECDED correctable error is corrected, counted and tabled per memory group. -/
  | correctableError (group addr syndrome : Nat)
  /-- UNCORRECTABLE_ERROR (R327). An uncorrectable memory error is counted and handled by its group's action. -/
  | uncorrectableError (group addr what : Nat)
  /-- MEMORY_SCRUB_WALK (R326). A background walker reads a memory word and writes the corrected value back unless another write
    intervened. -/
  | memoryScrubWalk (group addr : Nat) (bad : Bool)
  /-- CAM_PARITY_WALK (R329). Every 100 µs the key copies of both tables are checked and a bad copy is rewritten. -/
  | camParityWalk (bad : List (Nat × Nat))
  /-- VICTIM_NAME (R340). Firmware names a band and kind as victim, checked in the code order of R340. -/
  | victimName (who : Initiator)
  /-- HARDWARE_VICTIM_NAMING (R341). The hardware names the offered RETIRE, RESTRIPE or low-free RELOC candidate itself. -/
  | hardwareVictimNaming (kind : Nat)
  /-- VICTIM_WALK_TIMEOUT (R341). A victim's walk has not finished 10 s after naming, so the band is treated as forced. -/
  | victimWalkTimeout (band : Nat)
  /-- SWEEP_COPY_START (R343). A copy of a victim IU starts, within credit or as data safety, through the Sweep path. -/
  | sweepCopyStart (band : Nat)
  /-- VICTIM_ERASE (R345). A member block with VALID 0 and all copies resolved is erased. -/
  | victimErase (block : Nat)
  /-- SWEEP_CTRL_RESUME (R361). Firmware clears the Sweep's CORE_PAUSE. -/
  | sweepCtrlResume (who : Initiator)
  /-- SWEEP_EPOCH (R352). Every 1 s the fill level is latched, T_p updated, the SLC target set, the candidates refreshed
    and the wear rollover checked. -/
  | sweepEpoch
  /-- LAP_COMPLETE (R386). The lap's lines and journal records are durable, so a LAP record is made and H advances. -/
  | lapComplete
  /-- LAP_LATE (R386). A lap has not completed 0.9 s after it began, so writes are held as a SLOT wait. -/
  | lapLate
  /-- ROLLING_WALK (R387). The rolling walk takes and logs the next ledger line. -/
  | rollingWalk
  /-- JOURNAL_FLUSH (R376). The record journal is flushed to RECORDS at a lap or when half full. -/
  | journalFlush
  /-- RECORDS_SAVE (R376). Every 10 minutes the block records and the erase-count table are saved whole. -/
  | recordsSave
  /-- CIPHER_UNIT_COMPLETE (R401). A pipe finishes a unit, or breaks at a 512 B boundary for higher-ranked work. -/
  | cipherUnitComplete (encipher : Bool) (id : Nat)
  /-- MEDIA_KEY_GENERATE (R407). Firmware generates a media slot key while the namespace permits it and USE is 0. -/
  | mediaKeyGenerate (who : Initiator)
  /-- KEY_RECORD_WRITTEN (R408). The new key record is written in code flash, the slot is used, and the old record erased. -/
  | keyRecordWritten (ok : Bool)
  /-- JOB_GO (R412). A CUSER page starts a GCM, CTR or XTS job or chunk after source, destination and order checks. -/
  | jobGo (who : Initiator) (page flags : Nat)
  /-- JOB_COMPLETE (R413). A job or chunk ends, with its tag placed and compared at LAST, and its code loaded. -/
  | jobComplete (page : Nat)
  /-- JOB_ABORT (R418). The job ends at the next 512 B boundary with code 7 and the chaining state is cleared. -/
  | jobAbort (who : Initiator) (page : Nat)
  /-- JOB_SAVE (R414). The page's chaining state is written as a purpose-3 blob and the page cleared. -/
  | jobSave (who : Initiator) (page : Nat)
  /-- JOB_RESTORE (R414). A chaining-state blob is loaded after INDEX and slot checks. -/
  | jobRestore (who : Initiator) (page : Nat)
  /-- LOAD_PLAIN (R418). A general slot is loaded from KEY_W staging. -/
  | loadPlain (who : Initiator) (page slot : Nat)
  /-- GENERATE (R418). A general slot key is generated and its purpose-2 blob written out. -/
  | generate (who : Initiator) (page slot : Nat)
  /-- LOAD_WRAPPED (R418). A general slot is loaded from a wrapped blob after tag checks. -/
  | loadWrapped (who : Initiator) (page slot : Nat)
  /-- CLEAR (R418). A general slot is cleared and released by its page. -/
  | clear (who : Initiator) (page slot : Nat)
  /-- PORTER_BURST (R424). A free Porter port serves an aged burst or the highest-priority ready burst. -/
  | porterBurst (prt : Nat)
  /-- DESCRIPTOR_START (R429). A firmware channel fetches and checks a descriptor, taking crate references or ending it with
    code 4 or 5. -/
  | descriptorStart (ch : Nat)
  /-- WRITE_RESPONSE_ERROR (R433). An error response ends the descriptor with code 2 or makes a late record, and poisons a crate
    destination. -/
  | writeResponseError (ch : Nat)
  /-- PORTER_TIMER_EXPIRY (R431). A Porter timer expires and gives its channel a start token. -/
  | porterTimerExpiry (timer : Nat)
  /-- CH_CTRL_GO (R430). A write adds one start token to the channel. -/
  | chCtrlGo (who : Initiator) (ch : Nat)
  /-- CH_CTRL_STOP (R436). The channel stops at its next burst boundary. -/
  | chCtrlStop (who : Initiator) (ch : Nat)
  /-- CHANNEL_STOP_COMPLETE (R436). Responses to sent bursts have returned, and a code 7 record is made and the channel is STOPPED. -/
  | channelStopComplete (ch : Nat)
  /-- CH_CTRL_ENABLE (R433). A write to ENABLE enables the channel, or with 0 clears ERROR and STOPPED. -/
  | chCtrlEnable (who : Initiator) (ch : Nat) (on : Bool)
  /-- CPL_POP (R439). The oldest completion record is removed. -/
  | cplPop (who : Initiator) (ch : Nat)
  /-- ISLAND_GATE (R450). An idle island has counted GATE_CFG.IDLE cycles and stops its clock. -/
  | islandGate (island : Nat)
  /-- ISLAND_WAKE (R451). A request toward a gated island restarts its clock within 40 ns. -/
  | islandWake (island ns : Nat)
  /-- WAKE_FAILURE (R452). An island has not restarted within 80 ns, which is handled as a watchdog expiry. -/
  | wakeFailure (src dst : Nat)
  /-- CROSSING_WATCHDOG_EXPIRY (R454). A crossing's watchdog expires, and the channel or group is lost, admission stops, or the access
    is dropped. -/
  | crossingWatchdogExpiry (src dst : Nat)
  /-- POL_VOTE_WRITE (R469). Policy firmware sets its domain votes. -/
  | polVoteWrite (who : Initiator) (domains : Nat)
  /-- MGT_VOTE_WRITE (R469). Management firmware sets its domain votes. -/
  | mgtVoteWrite (who : Initiator) (domains : Nat)
  /-- DOMAIN_POWER_ON (R468). The first vote powers a domain on in ascending order and restores its retained fields. -/
  | domainPowerOn (domain : Nat)
  /-- DOMAIN_POWER_OFF (R461). After the last vote, the domain's crossings close and drain, its terms are latched, and it is
    isolated. -/
  | domainPowerOff (domain : Nat)
  /-- DVFS_REQ (R473). Firmware requests a CORE clock and VDD_CORE, clamped to the plan or held until order allows. -/
  | dvfsReq (who : Initiator) (clk vdd : Nat)
  /-- VDD_SETTLED (R471). A commanded VDD_CORE level has settled, so pending clock raises proceed. -/
  | vddSettled
  /-- NONOP_ENTRY (R479). With no I/O and no blocking vote, the device flushes, saves state and powers domains off for PS3
    or PS4. -/
  | nonopEntry
  /-- APST_ITPT_EXPIRY (R480). The idle time expires and APST enters its target state or waits. -/
  | apstItptExpiry
  /-- NONOP_EXIT_COMPLETE (R482). The exit steps finish, acceptance resumes and the POWER wait ends. -/
  | nonopExitComplete
  /-- TEMPERATURE_SAMPLE (R483). Every 100 µs WATCH samples the sensors, forms the composite and applies the thresholds. -/
  | temperatureSample (readings : List Int)
  /-- TEMP_HISTORY_SAMPLE (R362). Once a second the temperature histogram, extremes, mean and threshold times are updated. -/
  | tempHistorySample
  /-- WDOG_KICK (R494). A policy hart reloads its watchdog with 0xC3A5, and other values are counted. -/
  | wdogKick (who : Initiator) (key : Nat)
  /-- WDOG_WARNING (R494). Half the watchdog period passes and a warning interrupt is raised on the hart. -/
  | wdogWarning (hart : Nat)
  /-- WDOG_EXPIRY (R494). A policy watchdog expires and CORE is reset with cause WATCHDOG. -/
  | wdogExpiry (hart : Nat)
  /-- MWDOG_KICK (R495). A management hart reloads the shared watchdog with 0x5AC3. -/
  | mwdogKick (who : Initiator) (key : Nat)
  /-- MWDOG_EXPIRY (R495). The management watchdog expires and both management harts restart from the boot ROM. -/
  | mwdogExpiry
  /-- CORE_RST_GO (R496). Management firmware or an M-mode policy hart resets CORE. -/
  | coreRstGo (who : Initiator)
  /-- CORE_RESET_RELEASE (R497). The conditions are met, so CORE is released, the boot ROM starts the policy image, and marked
    commands are replayed. -/
  | coreResetRelease
  /-- MACHINE_TIMER_INTERRUPT (R493). mtime reaches a hart's compare register and a machine timer interrupt becomes pending. -/
  | machineTimerInterrupt (hart : Nat)
  /-- ADM_TAKE (R508). Policy firmware takes the oldest admin command awaiting it. -/
  | admTake (who : Initiator)
  /-- ADM_CPL_GO (R502). Firmware posts an admin completion, refused if the command is not outstanding or the status is
    reserved or unlisted. -/
  | admCplGo (who : Initiator) (value : Nat)
  /-- FL_CMD_ERASE (R517). Firmware erases a FWDATA sector after the checks of R517 and a count record. -/
  | flCmdErase (who : Initiator)
  /-- FL_CMD_PROGRAM (R517). Firmware programs an erased FWDATA word. -/
  | flCmdProgram (who : Initiator)
  /-- FLASH_OPERATION_COMPLETE (R515). A code-flash program or erase ends on its bank and the next waiting operation is served. -/
  | flashOperationComplete (bank : Nat)
  /-- FLASH_OPERATION_SUSPEND (R516). A waiting read suspends a program sequence after 50 µs, or an erase after 500 µs, of run. -/
  | flashOperationSuspend (bank : Nat)
  /-- PIECE_REPORT (R525). Firmware reports a downloaded piece, which is checked, merged into coverage, and may take the
    slot lock. -/
  | pieceReport (who : Initiator)
  /-- SLOT_LOCK_HOLD_EXPIRY (R526). LOCK_HOLD seconds pass without a commit, so the slot lock is released and staging discarded. -/
  | slotLockHoldExpiry
  /-- COMMIT_ACTION_000B (R528). The downloaded image is written to the slot. -/
  | commitAction000b (who : Initiator)
  /-- COMMIT_ACTION_001B (R528). The image is written and NEXT is set to the slot. -/
  | commitAction001b (who : Initiator)
  /-- COMMIT_ACTION_010B (R533). A trial slot is confirmed as CURRENT, or NEXT is set to a valid slot. -/
  | commitAction010b (who : Initiator)
  /-- COMMIT_ACTION_011B (R531). The image is written and then activated through QUIESCE. -/
  | commitAction011b (who : Initiator)
  /-- PUMP_WRITE (R530). A write of PUMP_HI queues a 64-bit image or record word. -/
  | pumpWrite (who : Initiator) (hi : Nat)
  /-- SLOT_WRITE_COMPLETE (R530). The slot is written, header last, and verified, completing or refusing the commit. -/
  | slotWriteComplete
  /-- ACT_READY (R531). New policy firmware ends QUIESCE, the commit completes and TRIAL is set. -/
  | actReady (who : Initiator)
  /-- ACTIVATION_ALLOWANCE_EXPIRY (R532). The allowance expires without ACT_READY, so the activation is abandoned and the old images
    restart. -/
  | activationAllowanceExpiry
  /-- REC_CMD_BEGIN (R536). Firmware begins a configuration record write. -/
  | recCmdBegin (who : Initiator)
  /-- REC_CMD_END (R536). The record is checked and written to both CONFIG areas. -/
  | recCmdEnd (who : Initiator)
  /-- REC_CMD_CANCEL (R539). A record write is cancelled. -/
  | recCmdCancel (who : Initiator)
  /-- OWNER_LOCK_WRITE (R537). The NVMe-MI window sets or clears the owner lock and RO_CAUSE.OWNER. -/
  | ownerLockWrite (who : Initiator) (value : Bool)
  /-- RECORD_STORE (R549). WATCH stores one record per cycle from the ports, applying the rate limit, SEQ, WALL and RCRC. -/
  | recordStore
  /-- RING_SAVE (R554). Unsaved ring records are saved to RECORDS at 4,096 records or after 60 s. -/
  | ringSave (ok : Bool)
  /-- FAULT_RELEASE (R552). Management firmware or the window releases the fault freeze. -/
  | faultRelease (who : Initiator)
  /-- LOG_CTRL_FREEZE (R558). A bank sets or clears its freeze, refused within MAX_MS after a stretch. -/
  | logCtrlFreeze (who : Initiator) (on : Bool)
  /-- FREEZE_MAX_EXPIRY (R558). A freeze stretch reaches MAX_MS, so every bank's freeze clears and a LOG_FREEZE record is made. -/
  | freezeMaxExpiry
  /-- FW_POST (R559). Firmware posts a firmware record, refused for a code outside range. -/
  | fwPost (who : Initiator)
  /-- CUR_CMD_OLDEST (R557). The bank's cursor moves to the oldest record of its area. -/
  | curCmdOldest (who : Initiator)
  /-- CUR_CMD_NEWEST (R557). The bank's cursor moves to the newest record of its area. -/
  | curCmdNewest (who : Initiator)
  /-- WIN0_READ (R557). A read of WIN0 copies the named record whole into the bank's buffer. -/
  | win0Read (who : Initiator)
  /-- WIN15_READ (R557). A read of WIN15 advances the cursor to the next record. -/
  | win15Read (who : Initiator)
  /-- WALL_SET_HI (R562). A write sets the WALL offset and stores a TIME_SET record in the same cycle. -/
  | wallSetHi (who : Initiator) (ms : Nat)
  /-- RATE_BUCKET_REFILL (R550). Each limited code's token bucket refills at RATE up to BURST. -/
  | rateBucketRefill (code : Nat)
  /-- TALLY_ROUND (R103). Every 1 µs the parity toggles, islands latch their terms, and the Tally checks the invariants. -/
  | tallyRound
  /-- TALLY_CLR (R114). Returns the Tally from FAULT to BASELINE if every violation was injected; otherwise the write is
    recorded as ignored. -/
  | tallyClr (who : Initiator)
  /-- INJ_ARM (R567). A write of ARM 1 checks and arms an injection point, making an INJ_ARM record. -/
  | injArm (who : Initiator) (page mode count : Nat)
  /-- INJ_DISARM (R572). A point is disarmed by ARM 0 or another disarm cause, making an INJ_DISARM record. -/
  | injDisarm (who : Initiator) (page : Nat)
  /-- DISARM_ALL (R572). INJFAB.DISARM.ALL disarms every point. -/
  | disarmAll (who : Initiator)
  /-- MI_REGISTER_READ (R606). The NVMe-MI endpoint reads up to 64 register dwords of a window page. -/
  | miRegisterRead (nmd0 nmd1 : Nat)
  /-- MI_REGISTER_WRITE (R606). The NVMe-MI endpoint writes up to 64 register dwords with the window's permissions. -/
  | miRegisterWrite (nmd0 nmd1 : Nat) (data : List Nat)
  /-- MI_OTHER_COMMAND (R606). Any other NVMe-MI command is passed to management firmware or answered with Internal Error. -/
  | miOtherCommand (opcode : Nat)
  /-- REGISTER_WRITE (R650). A write to a register with no row of its own sets its fields under the access codes, locks and
    range checks. -/
  | registerWrite (who : Initiator) (addr value : Nat)
  /-- RC_FIELD_READ (R13). A read of an RC field returns its value and clears it. -/
  | rcFieldRead (who : Initiator) (addr : Nat)
  /-- LO_WORD_READ (R604). A read of a _LO word latches the _HI word for that initiator. -/
  | loWordRead (who : Initiator) (addr : Nat)
  /-- PAGE_ACCESS_FAULT (R595). An access of the wrong width, alignment or index is refused with a bus error or dropped, and
    recorded. -/
  | pageAccessFault (who : Initiator) (addr width : Nat) (write : Bool)
  /-- SOFT_CLEAR (R597). PAGE_CTRL.SOFT_CLEAR clears EVT_RAW and CNT_VAL. -/
  | softClear (who : Initiator) (page : Nat)
  /-- EVT_PEND_CLEAR (R599). A W1C write clears EVT_RAW bits through EVT_PEND. -/
  | evtPendClear (who : Initiator) (page mask : Nat)
  /-- EVT_FORCE (R598). A write sets EVT_RAW bits with FORCED, raising only the interrupt. -/
  | evtForce (who : Initiator) (page mask : Nat)
  /-- PAGE_LOCK (R601). A write of LOCK 1 locks the page's RWL fields. -/
  | pageLock (who : Initiator) (page : Nat)
  /-- CNT_SEL_WRITE (R597). Selecting a counted event sets CNT_VAL to 0. -/
  | cntSelWrite (who : Initiator) (page event : Nat)
  /-- PAGE_CTRL_VOTE (R600). A page's VOTE bit writes the writer's own vote on the page's domain. -/
  | pageCtrlVote (who : Initiator) (page : Nat) (vote : Bool)
  /-- EXTEST (R630). JTAG EXTEST drives the boundary cells, in board test mode only. -/
  | extest (cells : List Nat)
  /-- SAMPLE_PRELOAD (R630). JTAG SAMPLE/PRELOAD captures and preloads the boundary chain in board test mode. -/
  | samplePreload (captured preload : List Nat)
  /-- IDCODE (R629). JTAG IDCODE shifts out 0xA962_4A7B. -/
  | idcode
  /-- BYPASS (R629). JTAG BYPASS, or any unlisted code, selects the bypass register. -/
  | bypass (code : Nat)
  /-- KTR_CFG (R633). At Update-DR the Korern configuration is applied, or an enable refused outside DIAGNOSE. -/
  | ktrCfg (value : Nat)
  /-- KTR_STAT (R633). JTAG reads the Korern status register. -/
  | ktrStat
  /-- TRST_N_ASSERT (R591). TRST_N resets only the test access port. -/
  | trstNAssert
  /-- KTR_TRIG_IN (R634). KTR_TRIG_IN high for 20 ns makes a LOG packet and a Logbook record of code 0x01B. -/
  | ktrTrigIn
  /-- KTR_SYNC (R632). After 65,536 words since the last SYNC, a SYNC packet with MONOTONIC is sent. -/
  | ktrSync
  /-- CQ_HEAD_DOORBELL (R53). The host writes a completion-queue head doorbell, freeing entries so that completions held for a
    full CQ can be posted. -/
  | cqHeadDoorbell (port cqid head : Nat)
  /-- COMPLETION_TIMEOUT (R156). A device-initiated read of host memory reaches the Completion Timeout of Device Control 2 with
    no completion, ending its command with Data Transfer Error and letting a controller reset
    proceed. -/
  | completionTimeout (port tag : Nat)
  /-- VR_ALERT_N (R621). The board's VDD_CORE regulator asserts VR_ALERT_N and the device logs the event without acting
    on it. -/
  | vrAlertN
  /-- PORTER_WRITE_RESPONSE (R434). A good write response returns for a Porter beat, releasing the descriptor's crate reference and,
    for a RESP descriptor, making its completion record and chain token. -/
  | porterWriteResponse (ch : Nat)
  /-- CODE_FLASH_DATA_READ (R513). A processor data read of code flash is served, or returns zeros with a count and a Logbook
    record for an execute-only window or DEVREC, or a bus error on an uncorrectable word. -/
  | codeFlashDataRead (who : Initiator) (addr : Nat)
  /-- REGISTER_READ_REFUSED (R499). A register read that is refused returns zero or a bus error and is counted and recorded: by the
    Inspector, by a non-owner of a CUSER or PCHAN page, or because the target domain is off. -/
  | registerReadRefused (who : Initiator) (addr : Nat)
  deriving DecidableEq, Repr

end Sys2Proof
end

