-- ==== Sys2Proof/Decode.lean ====
section
/-! DEFINITION. The commands a word of the opcode table spells. The table gives none of its rows a bit
pattern: a command of this block arrives on a pin, a port, a register or a bus, not as a word. -/

namespace Sys2Proof

/-- The command that a word spells by the table's bits: none, since no row has any. -/
def decodeTableWord (_nbits _w : Nat) : Option Instr := none

end Sys2Proof
end

