-- ==== Sys2Proof/Config.lean ====
section
/-! DEFINITION. What an implementation fixes and what the spec leaves open: constants without a body,
so that nothing proved of the model depends on their value. -/

namespace Sys2Proof.Config

/-- The n-th value the spec leaves undefined or random (log entry 3): a key drawn by the random bit
generator, an undefined word, the bytes of an erring beat. -/
opaque freeValue : Nat → Nat

/-- What deciphering yields under a key the data was not enciphered under (R403). -/
opaque garble : Nat → Nat → Nat → Nat

/-- The device wrap key derived from the fuse array (R409). -/
opaque wrapKey : Nat

/-- The fused identity (R504): 0 VID, 1 SSVID, 2 SN. -/
opaque identity : Nat → Nat

/-- The development override fuse (R523). -/
opaque devFuse : Bool

/-- The fused window of program trims (R503). -/
opaque trimLo : Nat

/-- The upper end of the trim window (R503). -/
opaque trimHi : Nat

/-- The key hash in the fuse array: the SHA-384 of the public key that images are signed under (R521). -/
opaque keyHash : Nat

/-- The rated program-erase cycles of a die descriptor, by descriptor and cell mode (R285, R353). -/
opaque ratedCycles : Nat → Nat → Nat

/-- The n-th of the numbers that a snapshot carries and the spec does not state, for a free number (log entry 3). -/
opaque estimate : Nat → Nat → Nat

/-- The credits CAP that each flow-control credit counter advertises in all (R98): a count the spec does not state; 0
for a type advertised as infinite. -/
opaque creditCap : Nat → Nat

end Sys2Proof.Config
end

