-- ==== Sys2Proof/Machine/RegTable.lean ====
section
/-! DEFINITION. Every register field the register tables of the spec give (R95, R117, R135, R171, R198,
R222, R255, R275, R303, R331 to R333, R366, R367, R397, R398, R417, R418, R438, R439, R463, R486,
R506 to R508, R538, R539, R563, R564, R566, R575, R592, R597), one definition each: page INDEX (R596),
offset, bits, access code and reset value as the table gives them. A register that stands several
times at a fixed stride takes its number as an argument. -/

namespace Sys2Proof.R

/-! The INTAKE page (R95, R171). -/
def INTAKE.PITCH_SEL_PITCH : Field := ⟨0x11, 1, 0x100, 0, 10, .rw, 0, false, 0, 1023, 1, 0⟩
def INTAKE.PITCH_CMD_OP : Field := ⟨0x11, 1, 0x104, 0, 3, .wo, 0, false, 0, 7, 1, 0⟩
def INTAKE.PITCH_CMD_BUSY : Field := ⟨0x11, 1, 0x104, 31, 1, .ro, 0, false, 0, 1, 0, 4⟩
def INTAKE.PITCH_RESULT_CODE : Field := ⟨0x11, 1, 0x108, 0, 4, .ro, 0, false, 0, 15, 0, 3⟩
def INTAKE.PITCH_RESULT_RESOURCE : Field := ⟨0x11, 1, 0x108, 8, 4, .ro, 0, false, 0, 15, 0, 0⟩
def INTAKE.PITCH_RESULT_DROPPED : Field := ⟨0x11, 1, 0x108, 16, 16, .ro, 0, true, 0, 65535, 0, 1⟩
def INTAKE.PITCH_C0_CLASS : Field := ⟨0x11, 1, 0x110, 0, 2, .rw, 0, false, 0, 3, 1, 0⟩
def INTAKE.PITCH_C0_DIR : Field := ⟨0x11, 1, 0x110, 2, 1, .rw, 0, false, 0, 1, 1, 0⟩
def INTAKE.PITCH_C0_RECOVERY : Field := ⟨0x11, 1, 0x110, 3, 1, .rw, 0, false, 0, 1, 1, 0⟩
def INTAKE.PITCH_C0_POWER_FLOOR : Field := ⟨0x11, 1, 0x110, 4, 3, .rw, 0, false, 0, 7, 1, 0⟩
def INTAKE.PITCH_C0_ACT_PAUSE : Field := ⟨0x11, 1, 0x110, 8, 5, .rw, 0, false, 0, 31, 1, 0⟩
def INTAKE.PITCH_C1_BYTE_RATE : Field := ⟨0x11, 1, 0x114, 0, 18, .rw, 0, false, 0, 262143, 1, 0⟩
def INTAKE.PITCH_C2_OP_RATE : Field := ⟨0x11, 1, 0x118, 0, 27, .rw, 0, false, 0, 134217727, 1, 0⟩
def INTAKE.PITCH_C3_MAX_SIZE : Field := ⟨0x11, 1, 0x11C, 0, 13, .rw, 0, false, 0, 8191, 1, 0⟩
def INTAKE.PITCH_C4_BURST_OPS : Field := ⟨0x11, 1, 0x120, 0, 16, .rw, 0, false, 0, 65535, 1, 0⟩
def INTAKE.PITCH_C5_BURST_BYTES : Field := ⟨0x11, 1, 0x124, 0, 16, .rw, 0, false, 0, 65535, 1, 0⟩
def INTAKE.PITCH_C6_BOUND_US : Field := ⟨0x11, 1, 0x128, 0, 22, .rw, 0, false, 0, 4194303, 1, 0⟩
def INTAKE.PITCH_C7_AMP : Field := ⟨0x11, 1, 0x12C, 0, 10, .rw, 0, false, 0, 1023, 1, 0⟩
def INTAKE.PITCH_STATE_STATE : Field := ⟨0x11, 1, 0x130, 0, 2, .ro, 0, false, 0, 3, 0, 5⟩
def INTAKE.PITCH_STATE_OWNER : Field := ⟨0x11, 1, 0x130, 4, 1, .ro, 0, false, 0, 1, 0, 0⟩
def INTAKE.PITCH_STATE_PORT : Field := ⟨0x11, 1, 0x130, 5, 1, .ro, 0, false, 0, 1, 0, 0⟩
def INTAKE.PITCH_TOK_OPS_VALUE : Field := ⟨0x11, 1, 0x134, 0, 32, .ro, 0, false, 0, 4294967295, 0, 0⟩
def INTAKE.PITCH_TOK_UNITS_VALUE : Field := ⟨0x11, 1, 0x138, 0, 32, .ro, 0, false, 0, 4294967295, 0, 0⟩
def INTAKE.PITCH_TOK_TAX_VALUE : Field := ⟨0x11, 1, 0x13C, 0, 32, .ro, 0, false, 0, 4294967295, 0, 0⟩
def INTAKE.PITCH_AMP_MEAS_T : Field := ⟨0x11, 1, 0x140, 0, 10, .ro, 0, false, 0, 1023, 0, 0⟩
def INTAKE.CAP_SEL_RESOURCE : Field := ⟨0x11, 1, 0x150, 0, 4, .rw, 0, false, 0, 7, 1, 0⟩
def INTAKE.CAP_LIMIT_VALUE : Field := ⟨0x11, 1, 0x154, 0, 32, .ro, 0, false, 0, 4294967295, 0, 0⟩
def INTAKE.CAP_USED_VALUE : Field := ⟨0x11, 1, 0x158, 0, 32, .ro, 0, false, 0, 4294967295, 0, 0⟩
def INTAKE.QB_SEL_SQID : Field := ⟨0x11, 1, 0x160, 0, 12, .rw, 1, false, 1, 2048, 1, 0⟩
def INTAKE.QB_SEL_PORT : Field := ⟨0x11, 1, 0x160, 12, 1, .rw, 0, false, 0, 1, 1, 0⟩
def INTAKE.QB_CFG_PITCH : Field := ⟨0x11, 1, 0x164, 0, 10, .rw, 0, false, 0, 1023, 1, 0⟩
def INTAKE.QB_CFG_BOUND : Field := ⟨0x11, 1, 0x164, 10, 1, .rw, 0, false, 0, 1, 1, 0⟩
def INTAKE.QB_CFG_MODE : Field := ⟨0x11, 1, 0x164, 11, 1, .rw, 0, false, 0, 1, 1, 0⟩
def INTAKE.QB_CFG_UNPITCHED_CLASS : Field := ⟨0x11, 1, 0x164, 12, 1, .rw, 0, false, 0, 1, 1, 0⟩
def INTAKE.QB_CFG_RETURN_WAIT : Field := ⟨0x11, 1, 0x164, 16, 16, .rw, 0x271, false, 0, 65535, 1, 0⟩
def INTAKE.FILL_LEVEL_F : Field := ⟨0x11, 1, 0x170, 0, 14, .ro, 0, false, 0, 16383, 0, 0⟩
def INTAKE.RLT_USE_ROWS : Field := ⟨0x11, 1, 0x200, 0, 13, .ro, 0, false, 0, 8191, 0, 0⟩
def INTAKE.RLT_USE_PEAK : Field := ⟨0x11, 1, 0x200, 16, 13, .rc, 0, false, 0, 8191, 0, 0⟩
def INTAKE.RLT_FULL_COUNT : Field := ⟨0x11, 1, 0x204, 0, 32, .rc, 0, true, 0, 4294967295, 0, 0⟩
def INTAKE.RLT_RSV_ROWS : Field := ⟨0x11, 1, 0x208, 0, 11, .rwl, 0x200, false, 0, 1024, 1, 0⟩
def INTAKE.CTX_USE_ALL : Field := ⟨0x11, 1, 0x20C, 0, 17, .ro, 0, false, 0, 131071, 0, 0⟩
def INTAKE.CTX_USE_RSV : Field := ⟨0x11, 1, 0x20C, 17, 15, .ro, 0, false, 0, 32767, 0, 0⟩
def INTAKE.ABORT_STAT_DONE : Field := ⟨0x11, 1, 0x210, 0, 16, .rc, 0, false, 0, 65535, 0, 0⟩
def INTAKE.ABORT_STAT_MISSED : Field := ⟨0x11, 1, 0x210, 16, 16, .rc, 0, false, 0, 65535, 0, 0⟩
def INTAKE.RESET_STAT_DISCARDED : Field := ⟨0x11, 1, 0x214, 0, 32, .rc, 0, false, 0, 4294967295, 0, 1⟩
def INTAKE.DEFER_NS_NSID : Field := ⟨0x11, 1, 0x218, 0, 9, .rw, 1, false, 1, 256, 1, 0⟩
def INTAKE.DEFER_FLAG_PENDING : Field := ⟨0x11, 1, 0x21C, 0, 1, .ro, 0, false, 0, 1, 0, 0⟩
def INTAKE.DEFER_TOTAL_COUNT : Field := ⟨0x11, 1, 0x220, 0, 32, .ro, 0, false, 0, 4294967295, 0, 0⟩
def INTAKE.ARB_CFG_LEVEL2_SHARE : Field := ⟨0x11, 1, 0x224, 0, 6, .rwl, 0x10, false, 2, 63, 1, 0⟩
def INTAKE.ARB_CFG_ADMIN_GAP : Field := ⟨0x11, 1, 0x224, 8, 6, .rwl, 4, false, 1, 63, 1, 0⟩
/-- Every field of the INTAKE page, in the order of its table. -/
def INTAKE.fields : List Field :=
  [INTAKE.PITCH_SEL_PITCH, INTAKE.PITCH_CMD_OP, INTAKE.PITCH_CMD_BUSY, INTAKE.PITCH_RESULT_CODE, INTAKE.PITCH_RESULT_RESOURCE, INTAKE.PITCH_RESULT_DROPPED, INTAKE.PITCH_C0_CLASS, INTAKE.PITCH_C0_DIR, INTAKE.PITCH_C0_RECOVERY, INTAKE.PITCH_C0_POWER_FLOOR, INTAKE.PITCH_C0_ACT_PAUSE, INTAKE.PITCH_C1_BYTE_RATE, INTAKE.PITCH_C2_OP_RATE, INTAKE.PITCH_C3_MAX_SIZE, INTAKE.PITCH_C4_BURST_OPS, INTAKE.PITCH_C5_BURST_BYTES] ++
  [INTAKE.PITCH_C6_BOUND_US, INTAKE.PITCH_C7_AMP, INTAKE.PITCH_STATE_STATE, INTAKE.PITCH_STATE_OWNER, INTAKE.PITCH_STATE_PORT, INTAKE.PITCH_TOK_OPS_VALUE, INTAKE.PITCH_TOK_UNITS_VALUE, INTAKE.PITCH_TOK_TAX_VALUE, INTAKE.PITCH_AMP_MEAS_T, INTAKE.CAP_SEL_RESOURCE, INTAKE.CAP_LIMIT_VALUE, INTAKE.CAP_USED_VALUE, INTAKE.QB_SEL_SQID, INTAKE.QB_SEL_PORT, INTAKE.QB_CFG_PITCH, INTAKE.QB_CFG_BOUND] ++
  [INTAKE.QB_CFG_MODE, INTAKE.QB_CFG_UNPITCHED_CLASS, INTAKE.QB_CFG_RETURN_WAIT, INTAKE.FILL_LEVEL_F, INTAKE.RLT_USE_ROWS, INTAKE.RLT_USE_PEAK, INTAKE.RLT_FULL_COUNT, INTAKE.RLT_RSV_ROWS, INTAKE.CTX_USE_ALL, INTAKE.CTX_USE_RSV, INTAKE.ABORT_STAT_DONE, INTAKE.ABORT_STAT_MISSED, INTAKE.RESET_STAT_DISCARDED, INTAKE.DEFER_NS_NSID, INTAKE.DEFER_FLAG_PENDING, INTAKE.DEFER_TOTAL_COUNT] ++
  [INTAKE.ARB_CFG_LEVEL2_SHARE, INTAKE.ARB_CFG_ADMIN_GAP]

/-! The TALLY page (R117). -/
def TALLY.TALLY_STATE_STATE : Field := ⟨0x8, 1, 0x100, 0, 2, .ro, 0, false, 0, 3, 0, 5⟩
def TALLY.TALLY_STATE_INJECTED_ONLY : Field := ⟨0x8, 1, 0x100, 4, 1, .ro, 0, false, 0, 1, 0, 0⟩
def TALLY.TALLY_STATE_STALE : Field := ⟨0x8, 1, 0x100, 5, 1, .ro, 0, false, 0, 1, 0, 0⟩
def TALLY.TALLY_FAULT_INV : Field := ⟨0x8, 1, 0x104, 0, 4, .ro, 0, false, 0, 15, 0, 0⟩
def TALLY.TALLY_FAULT_SUB : Field := ⟨0x8, 1, 0x104, 8, 10, .ro, 0, false, 0, 1023, 0, 0⟩
def TALLY.TALLY_FAULT_MORE : Field := ⟨0x8, 1, 0x104, 24, 7, .ro, 0, true, 0, 127, 0, 0⟩
def TALLY.TALLY_FAULT_INJ : Field := ⟨0x8, 1, 0x104, 31, 1, .ro, 0, false, 0, 1, 0, 0⟩
def TALLY.TALLY_FTIME_LO_VALUE : Field := ⟨0x8, 1, 0x108, 0, 32, .ro, 0, false, 0, 4294967295, 0, 0⟩
def TALLY.TALLY_FTIME_HI_VALUE : Field := ⟨0x8, 1, 0x10C, 0, 32, .ro, 0, false, 0, 4294967295, 0, 0⟩
def TALLY.TALLY_EXP_LO_VALUE : Field := ⟨0x8, 1, 0x110, 0, 32, .ro, 0, false, 0, 4294967295, 0, 0⟩
def TALLY.TALLY_EXP_HI_VALUE : Field := ⟨0x8, 1, 0x114, 0, 32, .ro, 0, false, 0, 4294967295, 0, 0⟩
def TALLY.TALLY_OBS_LO_VALUE : Field := ⟨0x8, 1, 0x118, 0, 32, .ro, 0, false, 0, 4294967295, 0, 0⟩
def TALLY.TALLY_OBS_HI_VALUE : Field := ⟨0x8, 1, 0x11C, 0, 32, .ro, 0, false, 0, 4294967295, 0, 0⟩
def TALLY.TALLY_CLR_CLEAR : Field := ⟨0x8, 1, 0x120, 0, 1, .wo, 0, false, 0, 1, 2, 0⟩
def TALLY.TALLY_ROUNDS_COUNT : Field := ⟨0x8, 1, 0x124, 0, 32, .ro, 0, false, 0, 4294967295, 0, 0⟩
def TALLY.TALLY_LATE_COUNT : Field := ⟨0x8, 1, 0x128, 0, 16, .ro, 0, true, 0, 65535, 0, 0⟩
def TALLY.TALLY_SNAP_SEL_TERM : Field := ⟨0x8, 1, 0x130, 0, 5, .rw, 0, false, 0, 31, 2, 0⟩
def TALLY.TALLY_SNAP_SEL_ROUND : Field := ⟨0x8, 1, 0x130, 8, 1, .rw, 0, false, 0, 1, 2, 0⟩
def TALLY.TALLY_SNAP_LO_VALUE : Field := ⟨0x8, 1, 0x134, 0, 32, .ro, 0, false, 0, 4294967295, 0, 0⟩
def TALLY.TALLY_SNAP_HI_VALUE : Field := ⟨0x8, 1, 0x138, 0, 32, .ro, 0, false, 0, 4294967295, 0, 0⟩
/-- Every field of the TALLY page, in the order of its table. -/
def TALLY.fields : List Field :=
  [TALLY.TALLY_STATE_STATE, TALLY.TALLY_STATE_INJECTED_ONLY, TALLY.TALLY_STATE_STALE, TALLY.TALLY_FAULT_INV, TALLY.TALLY_FAULT_SUB, TALLY.TALLY_FAULT_MORE, TALLY.TALLY_FAULT_INJ, TALLY.TALLY_FTIME_LO_VALUE, TALLY.TALLY_FTIME_HI_VALUE, TALLY.TALLY_EXP_LO_VALUE, TALLY.TALLY_EXP_HI_VALUE, TALLY.TALLY_OBS_LO_VALUE, TALLY.TALLY_OBS_HI_VALUE, TALLY.TALLY_CLR_CLEAR, TALLY.TALLY_ROUNDS_COUNT, TALLY.TALLY_LATE_COUNT] ++
  [TALLY.TALLY_SNAP_SEL_TERM, TALLY.TALLY_SNAP_SEL_ROUND, TALLY.TALLY_SNAP_LO_VALUE, TALLY.TALLY_SNAP_HI_VALUE]

/-! The DEVSTATE page (R135). -/
def DEVSTATE.DEV_STATE_STATE : Field := ⟨0x0, 1, 0x100, 0, 3, .ro, 1, false, 0, 7, 0, 5⟩
def DEVSTATE.DEV_STATE_PREV : Field := ⟨0x0, 1, 0x100, 4, 3, .ro, 0, false, 0, 7, 0, 0⟩
def DEVSTATE.DEV_STATE_HALT_CAUSE : Field := ⟨0x0, 1, 0x100, 8, 4, .ro, 0, false, 0, 15, 0, 0⟩
def DEVSTATE.DEV_STATE_BELL_OK : Field := ⟨0x0, 1, 0x100, 16, 1, .ro, 0, false, 0, 1, 0, 0⟩
def DEVSTATE.DEV_STATE_DIAG_BOOT : Field := ⟨0x0, 1, 0x100, 17, 1, .ro, 0, false, 0, 1, 0, 0⟩
def DEVSTATE.DEV_STATE_RESTARTS : Field := ⟨0x0, 1, 0x100, 20, 2, .ro, 0, false, 0, 3, 0, 0⟩
def DEVSTATE.MODE_CUR_MODES : Field := ⟨0x0, 1, 0x104, 0, 8, .ro, 0, false, 0, 255, 0, 0⟩
def DEVSTATE.MODE_REQ_SET : Field := ⟨0x0, 1, 0x108, 0, 8, .wo, 0, false, 0, 255, 7, 0⟩
def DEVSTATE.MODE_REQ_CLEAR : Field := ⟨0x0, 1, 0x108, 8, 8, .wo, 0, false, 0, 255, 7, 0⟩
def DEVSTATE.MODE_RESULT_CODE : Field := ⟨0x0, 1, 0x10C, 0, 4, .ro, 0, false, 0, 15, 0, 3⟩
def DEVSTATE.MODE_RESULT_BITS : Field := ⟨0x0, 1, 0x10C, 8, 8, .ro, 0, false, 0, 255, 0, 0⟩
def DEVSTATE.RO_CAUSE_POLICY : Field := ⟨0x0, 1, 0x110, 0, 1, .ro, 0, false, 0, 1, 0, 0⟩
def DEVSTATE.RO_CAUSE_END_OF_LIFE : Field := ⟨0x0, 1, 0x110, 1, 1, .ro, 0, false, 0, 1, 0, 0⟩
def DEVSTATE.RO_CAUSE_OWNER : Field := ⟨0x0, 1, 0x110, 2, 1, .ro, 0, false, 0, 1, 0, 0⟩
def DEVSTATE.DEG_INFO_CH_LOST : Field := ⟨0x0, 1, 0x114, 0, 7, .ro, 0, false, 0, 127, 0, 0⟩
def DEVSTATE.DEG_INFO_DIES_LOST : Field := ⟨0x0, 1, 0x114, 8, 11, .ro, 0, false, 0, 2047, 0, 0⟩
def DEVSTATE.TMR_CFG_WAKE : Field := ⟨0x0, 1, 0x118, 0, 8, .rwl, 0x64, false, 10, 255, 2, 0⟩
def DEVSTATE.TMR_CFG_SELF_TEST : Field := ⟨0x0, 1, 0x118, 8, 8, .rwl, 0x19, false, 5, 50, 2, 0⟩
def DEVSTATE.TMR_CFG_DWELL : Field := ⟨0x0, 1, 0x118, 16, 8, .rwl, 0xA, false, 1, 255, 2, 0⟩
def DEVSTATE.QZ_LAST_ALLOW : Field := ⟨0x0, 1, 0x11C, 0, 15, .ro, 0, false, 0, 32767, 0, 0⟩
def DEVSTATE.QZ_LAST_PAUSE : Field := ⟨0x0, 1, 0x11C, 15, 15, .ro, 0, false, 0, 32767, 0, 0⟩
def DEVSTATE.QZ_LAST_ABANDONED : Field := ⟨0x0, 1, 0x11C, 31, 1, .ro, 0, false, 0, 1, 0, 0⟩
def DEVSTATE.START_LAST_REBUILD : Field := ⟨0x0, 1, 0x120, 0, 13, .ro, 0, false, 0, 8191, 0, 0⟩
def DEVSTATE.START_LAST_SELF_TEST : Field := ⟨0x0, 1, 0x120, 16, 9, .ro, 0, false, 0, 511, 0, 0⟩
def DEVSTATE.DEG_INFO2_SG_LOST : Field := ⟨0x0, 1, 0x124, 0, 12, .ro, 0, false, 0, 4095, 0, 0⟩
def DEVSTATE.MODE_DENIED_COUNT : Field := ⟨0x0, 1, 0x128, 0, 16, .rc, 0, true, 0, 65535, 0, 1⟩
def DEVSTATE.HALT_CTRL_ORDERLY : Field := ⟨0x0, 1, 0x12C, 0, 1, .wo, 0, false, 0, 1, 2, 0⟩
def DEVSTATE.HALT_CTRL_RESTART : Field := ⟨0x0, 1, 0x12C, 8, 1, .wo, 0, false, 0, 1, 2, 0⟩
/-- Every field of the DEVSTATE page, in the order of its table. -/
def DEVSTATE.fields : List Field :=
  [DEVSTATE.DEV_STATE_STATE, DEVSTATE.DEV_STATE_PREV, DEVSTATE.DEV_STATE_HALT_CAUSE, DEVSTATE.DEV_STATE_BELL_OK, DEVSTATE.DEV_STATE_DIAG_BOOT, DEVSTATE.DEV_STATE_RESTARTS, DEVSTATE.MODE_CUR_MODES, DEVSTATE.MODE_REQ_SET, DEVSTATE.MODE_REQ_CLEAR, DEVSTATE.MODE_RESULT_CODE, DEVSTATE.MODE_RESULT_BITS, DEVSTATE.RO_CAUSE_POLICY, DEVSTATE.RO_CAUSE_END_OF_LIFE, DEVSTATE.RO_CAUSE_OWNER, DEVSTATE.DEG_INFO_CH_LOST, DEVSTATE.DEG_INFO_DIES_LOST] ++
  [DEVSTATE.TMR_CFG_WAKE, DEVSTATE.TMR_CFG_SELF_TEST, DEVSTATE.TMR_CFG_DWELL, DEVSTATE.QZ_LAST_ALLOW, DEVSTATE.QZ_LAST_PAUSE, DEVSTATE.QZ_LAST_ABANDONED, DEVSTATE.START_LAST_REBUILD, DEVSTATE.START_LAST_SELF_TEST, DEVSTATE.DEG_INFO2_SG_LOST, DEVSTATE.MODE_DENIED_COUNT, DEVSTATE.HALT_CTRL_ORDERLY, DEVSTATE.HALT_CTRL_RESTART]

/-! The LEDGER page (R198). -/
def LEDGER.DRAM_MAP_SIZE : Field := ⟨0x13, 1, 0x100, 0, 10, .ro, 0, false, 0, 1023, 0, 0⟩
def LEDGER.DRAM_MAP2_SWEEP : Field := ⟨0x13, 1, 0x104, 0, 18, .ro, 0, false, 0, 262143, 0, 0⟩
def LEDGER.LEDGER_REGION_GRANULES : Field := ⟨0x13, 1, 0x108, 0, 18, .ro, 0, false, 0, 262143, 0, 0⟩
def LEDGER.GRAN_FREE_COUNT : Field := ⟨0x13, 1, 0x10C, 0, 18, .ro, 0, false, 0, 262143, 0, 0⟩
def LEDGER.NS_SEL_NSID : Field := ⟨0x13, 1, 0x120, 0, 9, .rw, 1, false, 1, 256, 1, 0⟩
def LEDGER.NS_INFO_STATE : Field := ⟨0x13, 1, 0x124, 0, 2, .ro, 0, false, 0, 3, 0, 5⟩
def LEDGER.NS_INFO_IU : Field := ⟨0x13, 1, 0x124, 4, 2, .ro, 0, false, 0, 3, 0, 0⟩
def LEDGER.NS_IUS_LO_VALUE : Field := ⟨0x13, 1, 0x128, 0, 32, .ro, 0, false, 0, 4294967295, 0, 0⟩
def LEDGER.NS_IUS_HI_VALUE : Field := ⟨0x13, 1, 0x12C, 0, 6, .ro, 0, false, 0, 63, 0, 0⟩
def LEDGER.NS_GRANS_COUNT : Field := ⟨0x13, 1, 0x130, 0, 18, .ro, 0, false, 0, 262143, 0, 0⟩
def LEDGER.NS_CMD_OP : Field := ⟨0x13, 1, 0x134, 0, 2, .wo, 0, false, 0, 3, 1, 0⟩
def LEDGER.NS_CMD_BUSY : Field := ⟨0x13, 1, 0x134, 31, 1, .ro, 0, false, 0, 1, 0, 4⟩
def LEDGER.NS_CMD_RESULT_CODE : Field := ⟨0x13, 1, 0x138, 0, 3, .ro, 0, false, 0, 7, 0, 3⟩
def LEDGER.NS_CMD_RESULT_DROPPED : Field := ⟨0x13, 1, 0x138, 16, 16, .ro, 0, true, 0, 65535, 0, 1⟩
def LEDGER.UPD_INSERT_COUNT : Field := ⟨0x13, 1, 0x140, 0, 32, .ro, 0, false, 0, 4294967295, 0, 0⟩
def LEDGER.UPD_SETTLE_COUNT : Field := ⟨0x13, 1, 0x144, 0, 32, .ro, 0, false, 0, 4294967295, 0, 0⟩
def LEDGER.UPD_SWEEP_COUNT : Field := ⟨0x13, 1, 0x148, 0, 32, .ro, 0, false, 0, 4294967295, 0, 0⟩
def LEDGER.DISCARD_SETTLE_COUNT : Field := ⟨0x13, 1, 0x14C, 0, 32, .rc, 0, true, 0, 4294967295, 0, 2⟩
def LEDGER.DISCARD_SWEEP_COUNT : Field := ⟨0x13, 1, 0x150, 0, 32, .rc, 0, true, 0, 4294967295, 0, 2⟩
def LEDGER.REFUSED_COUNT : Field := ⟨0x13, 1, 0x154, 0, 16, .rc, 0, true, 0, 65535, 0, 0⟩
def LEDGER.ORPHAN_COUNT : Field := ⟨0x13, 1, 0x158, 0, 16, .rc, 0, true, 0, 65535, 0, 0⟩
def LEDGER.LINE_CRC_COUNT : Field := ⟨0x13, 1, 0x15C, 0, 16, .rc, 0, true, 0, 65535, 0, 2⟩
def LEDGER.DRAM_REFUSED_COUNT : Field := ⟨0x13, 1, 0x160, 0, 16, .rc, 0, true, 0, 65535, 0, 1⟩
def LEDGER.CIX_USE_ROWS : Field := ⟨0x13, 1, 0x164, 0, 14, .ro, 0, false, 0, 16383, 0, 0⟩
def LEDGER.CIX_USE_PEAK : Field := ⟨0x13, 1, 0x164, 16, 14, .rc, 0, false, 0, 16383, 0, 0⟩
def LEDGER.CIX_REBAL_ACTIVE : Field := ⟨0x13, 1, 0x168, 0, 1, .ro, 0, false, 0, 1, 0, 4⟩
def LEDGER.CIX_REBAL_COUNT : Field := ⟨0x13, 1, 0x168, 16, 16, .rc, 0, true, 0, 65535, 0, 0⟩
def LEDGER.RLT_SHIFT_ACTIVE : Field := ⟨0x13, 1, 0x16C, 0, 1, .ro, 0, false, 0, 1, 0, 4⟩
def LEDGER.RLT_SHIFT_COUNT : Field := ⟨0x13, 1, 0x16C, 16, 16, .rc, 0, true, 0, 65535, 0, 0⟩
def LEDGER.RLT_SHIFT_MAX_ROWS : Field := ⟨0x13, 1, 0x170, 0, 12, .rc, 0, false, 0, 4095, 0, 0⟩
def LEDGER.CIX_PROBE_NS_NSID : Field := ⟨0x13, 1, 0x174, 0, 9, .rw, 1, false, 1, 256, 1, 0⟩
def LEDGER.CIX_PROBE_IU_LO_VALUE : Field := ⟨0x13, 1, 0x178, 0, 32, .rw, 0, false, 0, 4294967295, 1, 0⟩
def LEDGER.CIX_PROBE_IU_HI_VALUE : Field := ⟨0x13, 1, 0x17C, 0, 6, .rw, 0, false, 0, 63, 1, 0⟩
def LEDGER.CIX_PROBE_CMD_GO : Field := ⟨0x13, 1, 0x180, 0, 1, .wo, 0, false, 0, 1, 1, 0⟩
def LEDGER.CIX_PROBE_RES_HIT : Field := ⟨0x13, 1, 0x184, 0, 1, .ro, 0, false, 0, 1, 0, 0⟩
def LEDGER.CIX_PROBE_RES_ROW : Field := ⟨0x13, 1, 0x184, 2, 14, .ro, 0, false, 0, 16383, 0, 0⟩
def LEDGER.CIX_PROBE_RES_STATE : Field := ⟨0x13, 1, 0x184, 16, 2, .ro, 0, false, 0, 3, 0, 0⟩
def LEDGER.CIX_PROBE_RES_UNITS : Field := ⟨0x13, 1, 0x184, 24, 8, .ro, 0, false, 0, 255, 0, 0⟩
def LEDGER.CAM_CFG_FILTER_OFF : Field := ⟨0x13, 1, 0x188, 0, 1, .rwl, 0, false, 0, 1, 1, 0⟩
/-- Every field of the LEDGER page, in the order of its table. -/
def LEDGER.fields : List Field :=
  [LEDGER.DRAM_MAP_SIZE, LEDGER.DRAM_MAP2_SWEEP, LEDGER.LEDGER_REGION_GRANULES, LEDGER.GRAN_FREE_COUNT, LEDGER.NS_SEL_NSID, LEDGER.NS_INFO_STATE, LEDGER.NS_INFO_IU, LEDGER.NS_IUS_LO_VALUE, LEDGER.NS_IUS_HI_VALUE, LEDGER.NS_GRANS_COUNT, LEDGER.NS_CMD_OP, LEDGER.NS_CMD_BUSY, LEDGER.NS_CMD_RESULT_CODE, LEDGER.NS_CMD_RESULT_DROPPED, LEDGER.UPD_INSERT_COUNT, LEDGER.UPD_SETTLE_COUNT] ++
  [LEDGER.UPD_SWEEP_COUNT, LEDGER.DISCARD_SETTLE_COUNT, LEDGER.DISCARD_SWEEP_COUNT, LEDGER.REFUSED_COUNT, LEDGER.ORPHAN_COUNT, LEDGER.LINE_CRC_COUNT, LEDGER.DRAM_REFUSED_COUNT, LEDGER.CIX_USE_ROWS, LEDGER.CIX_USE_PEAK, LEDGER.CIX_REBAL_ACTIVE, LEDGER.CIX_REBAL_COUNT, LEDGER.RLT_SHIFT_ACTIVE, LEDGER.RLT_SHIFT_COUNT, LEDGER.RLT_SHIFT_MAX_ROWS, LEDGER.CIX_PROBE_NS_NSID, LEDGER.CIX_PROBE_IU_LO_VALUE] ++
  [LEDGER.CIX_PROBE_IU_HI_VALUE, LEDGER.CIX_PROBE_CMD_GO, LEDGER.CIX_PROBE_RES_HIT, LEDGER.CIX_PROBE_RES_ROW, LEDGER.CIX_PROBE_RES_STATE, LEDGER.CIX_PROBE_RES_UNITS, LEDGER.CAM_CFG_FILTER_OFF]

/-! The LCACHE page (R222). -/
def LCACHE.CTRL_ENABLE : Field := ⟨0x14, 1, 0x100, 0, 1, .rw, 1, false, 0, 1, 1, 0⟩
def LCACHE.STAT_BUSY : Field := ⟨0x14, 1, 0x104, 0, 1, .ro, 0, false, 0, 1, 0, 4⟩
def LCACHE.STAT_ENABLED : Field := ⟨0x14, 1, 0x104, 1, 1, .ro, 1, false, 0, 1, 0, 0⟩
def LCACHE.STAT_DISABLE_PENDING : Field := ⟨0x14, 1, 0x104, 2, 1, .ro, 0, false, 0, 1, 0, 0⟩
def LCACHE.STAT_OP : Field := ⟨0x14, 1, 0x104, 4, 3, .ro, 0, false, 0, 7, 0, 0⟩
def LCACHE.RANGE_NS_NSID : Field := ⟨0x14, 1, 0x108, 0, 9, .rw, 1, false, 1, 256, 1, 0⟩
def LCACHE.RANGE_FIRST_LO_VALUE : Field := ⟨0x14, 1, 0x10C, 0, 32, .rw, 0, false, 0, 4294967295, 1, 0⟩
def LCACHE.RANGE_FIRST_HI_VALUE : Field := ⟨0x14, 1, 0x110, 0, 6, .rw, 0, false, 0, 63, 1, 0⟩
def LCACHE.RANGE_LAST_LO_VALUE : Field := ⟨0x14, 1, 0x114, 0, 32, .rw, 0, false, 0, 4294967295, 1, 0⟩
def LCACHE.RANGE_LAST_HI_VALUE : Field := ⟨0x14, 1, 0x118, 0, 6, .rw, 0, false, 0, 63, 1, 0⟩
def LCACHE.RANGE_CMD_OP : Field := ⟨0x14, 1, 0x11C, 0, 3, .wo, 0, false, 0, 7, 1, 0⟩
def LCACHE.RANGE_CMD_FORCE : Field := ⟨0x14, 1, 0x11C, 4, 1, .wo, 0, false, 0, 1, 1, 0⟩
def LCACHE.RANGE_CMD_ALL : Field := ⟨0x14, 1, 0x11C, 5, 1, .wo, 0, false, 0, 1, 1, 0⟩
def LCACHE.RANGE_RES_LINES : Field := ⟨0x14, 1, 0x120, 0, 18, .ro, 0, false, 0, 262143, 0, 0⟩
def LCACHE.RANGE_RES_BAD_RANGE : Field := ⟨0x14, 1, 0x120, 18, 1, .ro, 0, false, 0, 1, 0, 0⟩
def LCACHE.RANGE_SKIP_LOCKED : Field := ⟨0x14, 1, 0x124, 0, 18, .ro, 0, false, 0, 262143, 0, 0⟩
def LCACHE.RANGE_SKIP2_DIRTY : Field := ⟨0x14, 1, 0x128, 0, 18, .ro, 0, false, 0, 262143, 0, 0⟩
def LCACHE.RANGE_WB_LINES : Field := ⟨0x14, 1, 0x12C, 0, 18, .ro, 0, false, 0, 262143, 0, 0⟩
def LCACHE.RANGE_CFG_WB_RATE : Field := ⟨0x14, 1, 0x130, 0, 6, .rw, 8, false, 1, 32, 1, 0⟩
def LCACHE.RANGE_DROPPED_COUNT : Field := ⟨0x14, 1, 0x134, 0, 16, .rc, 0, true, 0, 65535, 0, 1⟩
def LCACHE.PF_CFG_WRITE : Field := ⟨0x14, 1, 0x138, 0, 1, .rw, 1, false, 0, 1, 1, 0⟩
def LCACHE.PF_CFG_SWEEP : Field := ⟨0x14, 1, 0x138, 1, 1, .rw, 1, false, 0, 1, 1, 0⟩
def LCACHE.PF_CFG_DEPTH : Field := ⟨0x14, 1, 0x138, 8, 5, .rw, 4, false, 0, 16, 1, 0⟩
def LCACHE.LOCK_CFG_WAYS : Field := ⟨0x14, 1, 0x140, 0, 8, .rw, 0, false, 0, 255, 1, 0⟩
def LCACHE.LOCK_SEL_RGN : Field := ⟨0x14, 1, 0x144, 0, 4, .rw, 0, false, 0, 15, 1, 0⟩
def LCACHE.LOCK_RGN_NS_NSID : Field := ⟨0x14, 1, 0x148, 0, 9, .rw, 1, false, 1, 256, 1, 0⟩
def LCACHE.LOCK_RGN_NS_VALID : Field := ⟨0x14, 1, 0x148, 31, 1, .rw, 0, false, 0, 1, 1, 0⟩
def LCACHE.LOCK_RGN_FIRST_LO_VALUE : Field := ⟨0x14, 1, 0x14C, 0, 32, .rw, 0, false, 0, 4294967295, 1, 0⟩
def LCACHE.LOCK_RGN_FIRST_HI_VALUE : Field := ⟨0x14, 1, 0x150, 0, 6, .rw, 0, false, 0, 63, 1, 0⟩
def LCACHE.LOCK_RGN_LAST_LO_VALUE : Field := ⟨0x14, 1, 0x154, 0, 32, .rw, 0, false, 0, 4294967295, 1, 0⟩
def LCACHE.LOCK_RGN_LAST_HI_VALUE : Field := ⟨0x14, 1, 0x158, 0, 6, .rw, 0, false, 0, 63, 1, 0⟩
def LCACHE.LOCK_CMD_APPLY : Field := ⟨0x14, 1, 0x15C, 0, 1, .wo, 0, false, 0, 1, 1, 0⟩
def LCACHE.LOCK_RESULT_CODE : Field := ⟨0x14, 1, 0x15C, 8, 3, .ro, 0, false, 0, 7, 0, 3⟩
def LCACHE.LOCK_RESULT_RGN : Field := ⟨0x14, 1, 0x15C, 16, 4, .ro, 0, false, 0, 15, 0, 0⟩
def LCACHE.LOCK_APPLIED_WAYS : Field := ⟨0x14, 1, 0x15C, 24, 8, .ro, 0, false, 0, 255, 0, 0⟩
def LCACHE.LOCK_USE_T0 : Field := ⟨0x14, 1, 0x160, 0, 16, .ro, 0, false, 0, 65535, 0, 0⟩
def LCACHE.LOCK_USE_T1 : Field := ⟨0x14, 1, 0x160, 16, 16, .ro, 0, false, 0, 65535, 0, 0⟩
def LCACHE.LOCK_USE2_T2 : Field := ⟨0x14, 1, 0x164, 0, 16, .ro, 0, false, 0, 65535, 0, 0⟩
def LCACHE.LOCK_OVERFLOW_LINES : Field := ⟨0x14, 1, 0x168, 0, 18, .ro, 0, false, 0, 262143, 0, 0⟩
def LCACHE.WAY_PWR_OFF : Field := ⟨0x14, 1, 0x170, 0, 16, .rw, 0, false, 0, 65535, 1, 0⟩
def LCACHE.WAY_PWR_STAT_ON : Field := ⟨0x14, 1, 0x174, 0, 16, .ro, 0xFFFF, false, 0, 65535, 0, 0⟩
def LCACHE.WAY_PWR_STAT_DRAINING : Field := ⟨0x14, 1, 0x174, 16, 16, .ro, 0, false, 0, 65535, 0, 4⟩
def LCACHE.WAY_PWR_REFUSED_COUNT : Field := ⟨0x14, 1, 0x178, 0, 16, .rc, 0, true, 0, 65535, 0, 1⟩
def LCACHE.HIT_COUNT : Field := ⟨0x14, 1, 0x180, 0, 32, .ro, 0, false, 0, 4294967295, 0, 0⟩
def LCACHE.MISS_COUNT : Field := ⟨0x14, 1, 0x184, 0, 32, .ro, 0, false, 0, 4294967295, 0, 0⟩
def LCACHE.TRAY_HIT_COUNT : Field := ⟨0x14, 1, 0x188, 0, 32, .ro, 0, false, 0, 4294967295, 0, 0⟩
def LCACHE.PF_ISSUED_COUNT : Field := ⟨0x14, 1, 0x18C, 0, 32, .ro, 0, false, 0, 4294967295, 0, 0⟩
def LCACHE.PF_WASTED_COUNT : Field := ⟨0x14, 1, 0x190, 0, 32, .ro, 0, false, 0, 4294967295, 0, 2⟩
def LCACHE.WB_COUNT : Field := ⟨0x14, 1, 0x194, 0, 32, .ro, 0, false, 0, 4294967295, 0, 0⟩
def LCACHE.DIRTY_LINES_COUNT : Field := ⟨0x14, 1, 0x198, 0, 18, .ro, 0, false, 0, 262143, 0, 0⟩
def LCACHE.TRAY_USE_LINES : Field := ⟨0x14, 1, 0x19C, 0, 9, .ro, 0, false, 0, 511, 0, 0⟩
def LCACHE.SRAM_UE_COUNT : Field := ⟨0x14, 1, 0x1A0, 0, 16, .rc, 0, true, 0, 65535, 0, 0⟩
/-- Every field of the LCACHE page, in the order of its table. -/
def LCACHE.fields : List Field :=
  [LCACHE.CTRL_ENABLE, LCACHE.STAT_BUSY, LCACHE.STAT_ENABLED, LCACHE.STAT_DISABLE_PENDING, LCACHE.STAT_OP, LCACHE.RANGE_NS_NSID, LCACHE.RANGE_FIRST_LO_VALUE, LCACHE.RANGE_FIRST_HI_VALUE, LCACHE.RANGE_LAST_LO_VALUE, LCACHE.RANGE_LAST_HI_VALUE, LCACHE.RANGE_CMD_OP, LCACHE.RANGE_CMD_FORCE, LCACHE.RANGE_CMD_ALL, LCACHE.RANGE_RES_LINES, LCACHE.RANGE_RES_BAD_RANGE, LCACHE.RANGE_SKIP_LOCKED] ++
  [LCACHE.RANGE_SKIP2_DIRTY, LCACHE.RANGE_WB_LINES, LCACHE.RANGE_CFG_WB_RATE, LCACHE.RANGE_DROPPED_COUNT, LCACHE.PF_CFG_WRITE, LCACHE.PF_CFG_SWEEP, LCACHE.PF_CFG_DEPTH, LCACHE.LOCK_CFG_WAYS, LCACHE.LOCK_SEL_RGN, LCACHE.LOCK_RGN_NS_NSID, LCACHE.LOCK_RGN_NS_VALID, LCACHE.LOCK_RGN_FIRST_LO_VALUE, LCACHE.LOCK_RGN_FIRST_HI_VALUE, LCACHE.LOCK_RGN_LAST_LO_VALUE, LCACHE.LOCK_RGN_LAST_HI_VALUE, LCACHE.LOCK_CMD_APPLY] ++
  [LCACHE.LOCK_RESULT_CODE, LCACHE.LOCK_RESULT_RGN, LCACHE.LOCK_APPLIED_WAYS, LCACHE.LOCK_USE_T0, LCACHE.LOCK_USE_T1, LCACHE.LOCK_USE2_T2, LCACHE.LOCK_OVERFLOW_LINES, LCACHE.WAY_PWR_OFF, LCACHE.WAY_PWR_STAT_ON, LCACHE.WAY_PWR_STAT_DRAINING, LCACHE.WAY_PWR_REFUSED_COUNT, LCACHE.HIT_COUNT, LCACHE.MISS_COUNT, LCACHE.TRAY_HIT_COUNT, LCACHE.PF_ISSUED_COUNT, LCACHE.PF_WASTED_COUNT] ++
  [LCACHE.WB_COUNT, LCACHE.DIRTY_LINES_COUNT, LCACHE.TRAY_USE_LINES, LCACHE.SRAM_UE_COUNT]

/-! The WPATH page (R255). -/
def WPATH.DENSE_CFG_MODE : Field := ⟨0x19, 1, 0x100, 0, 2, .ro, 0, false, 0, 3, 0, 0⟩
def WPATH.DENSE_CFG_BITS : Field := ⟨0x19, 1, 0x100, 4, 3, .ro, 0, false, 0, 7, 0, 0⟩
def WPATH.STRIPE_INFO_SETS : Field := ⟨0x19, 1, 0x104, 0, 6, .ro, 0, false, 0, 63, 0, 0⟩
def WPATH.STRIPE_INFO_CHSETS : Field := ⟨0x19, 1, 0x104, 8, 2, .ro, 0, false, 0, 3, 0, 0⟩
def WPATH.STRIPE_INFO_WIDTH_MAX : Field := ⟨0x19, 1, 0x104, 16, 6, .ro, 0, false, 0, 63, 0, 0⟩
def WPATH.STRIPE_INFO_IDLE_DIES : Field := ⟨0x19, 1, 0x104, 24, 8, .ro, 0, false, 0, 255, 0, 0⟩
def WPATH.OPEN_CFG_HOST : Field := ⟨0x19, 1, 0x108, 0, 5, .rwl, 0xC, false, 1, 24, 1, 0⟩
def WPATH.OPEN_CFG_FOLD : Field := ⟨0x19, 1, 0x108, 8, 6, .rwl, 0x18, false, 1, 32, 1, 0⟩
def WPATH.OPEN_CFG_RELOC : Field := ⟨0x19, 1, 0x108, 16, 5, .rwl, 8, false, 1, 16, 1, 0⟩
def WPATH.PAD_WAIT_US : Field := ⟨0x19, 1, 0x10C, 0, 14, .rwl, 0xC8, false, 20, 10000, 1, 0⟩
def WPATH.STRIPE_WAIT_US : Field := ⟨0x19, 1, 0x110, 0, 16, .rwl, 0x7D0, false, 200, 50000, 1, 0⟩
def WPATH.SLC_CFG_MAX : Field := ⟨0x19, 1, 0x114, 0, 10, .rwl, 0x320, false, 50, 800, 1, 0⟩
def WPATH.SLC_CFG_MIN : Field := ⟨0x19, 1, 0x114, 16, 10, .rwl, 0x32, false, 50, 800, 1, 0⟩
def WPATH.SLC_CFG2_SPAN : Field := ⟨0x19, 1, 0x118, 0, 7, .rwl, 0x3C, false, 10, 100, 1, 0⟩
def WPATH.WRITE_FLOOR_MIB : Field := ⟨0x19, 1, 0x11C, 0, 16, .rwl, 0x800, false, 256, 65535, 1, 0⟩
def WPATH.SLC_TARGET_MIB : Field := ⟨0x19, 1, 0x120, 0, 32, .ro, 0, false, 0, 4294967295, 0, 0⟩
def WPATH.SLC_ALLOC_MIB : Field := ⟨0x19, 1, 0x124, 0, 32, .ro, 0, false, 0, 4294967295, 0, 0⟩
def WPATH.SLC_HELD_MIB : Field := ⟨0x19, 1, 0x128, 0, 32, .ro, 0, false, 0, 4294967295, 0, 0⟩
def WPATH.SLC_FREE_MIB : Field := ⟨0x19, 1, 0x12C, 0, 32, .ro, 0, false, 0, 4294967295, 0, 0⟩
def WPATH.RESERVE_MIB : Field := ⟨0x19, 1, 0x130, 0, 32, .ro, 0, false, 0, 4294967295, 0, 0⟩
def WPATH.WGROUP_SEL_NSID : Field := ⟨0x19, 1, 0x134, 0, 9, .rw, 1, false, 1, 256, 1, 0⟩
def WPATH.WGROUP_MAP_GROUP : Field := ⟨0x19, 1, 0x138, 0, 2, .rw, 0, false, 0, 3, 1, 0⟩
def WPATH.OPEN_USE_HOST : Field := ⟨0x19, 1, 0x140, 0, 5, .ro, 0, false, 0, 31, 0, 0⟩
def WPATH.OPEN_USE_FOLD : Field := ⟨0x19, 1, 0x140, 8, 6, .ro, 0, false, 0, 63, 0, 0⟩
def WPATH.OPEN_USE_RELOC : Field := ⟨0x19, 1, 0x140, 16, 5, .ro, 0, false, 0, 31, 0, 0⟩
def WPATH.PARITY_USE_POOL2 : Field := ⟨0x19, 1, 0x144, 0, 9, .ro, 0, false, 0, 511, 0, 0⟩
def WPATH.PARITY_USE_POOL3 : Field := ⟨0x19, 1, 0x144, 16, 7, .ro, 0, false, 0, 127, 0, 0⟩
def WPATH.PROG_UNITS_COUNT : Field := ⟨0x19, 1, 0x148, 0, 32, .ro, 0, false, 0, 4294967295, 0, 0⟩
def WPATH.PROG_FAIL_COUNT : Field := ⟨0x19, 1, 0x14C, 0, 32, .rc, 0, true, 0, 4294967295, 0, 2⟩
def WPATH.REDO_COUNT : Field := ⟨0x19, 1, 0x150, 0, 32, .rc, 0, true, 0, 4294967295, 0, 0⟩
def WPATH.DEFER_CNT_C1 : Field := ⟨0x19, 1, 0x154, 0, 16, .rc, 0, true, 0, 65535, 0, 2⟩
def WPATH.DEFER_CNT_C2 : Field := ⟨0x19, 1, 0x154, 16, 16, .rc, 0, true, 0, 65535, 0, 2⟩
def WPATH.DEFER_CNT2_C3 : Field := ⟨0x19, 1, 0x158, 0, 16, .rc, 0, true, 0, 65535, 0, 2⟩
def WPATH.PAD_CW_COUNT : Field := ⟨0x19, 1, 0x15C, 0, 32, .ro, 0, false, 0, 4294967295, 0, 0⟩
def WPATH.SHORT_STRIPE_COUNT : Field := ⟨0x19, 1, 0x160, 0, 16, .rc, 0, true, 0, 65535, 0, 0⟩
def WPATH.FLOOR_HIT_UNBOUND : Field := ⟨0x19, 1, 0x164, 0, 16, .rc, 0, true, 0, 65535, 0, 0⟩
def WPATH.FLOOR_HIT_ALL : Field := ⟨0x19, 1, 0x164, 16, 16, .rc, 0, true, 0, 65535, 0, 0⟩
def WPATH.SLC_STALL_US : Field := ⟨0x19, 1, 0x168, 0, 32, .rc, 0, true, 0, 4294967295, 0, 0⟩
/-- Every field of the WPATH page, in the order of its table. -/
def WPATH.fields : List Field :=
  [WPATH.DENSE_CFG_MODE, WPATH.DENSE_CFG_BITS, WPATH.STRIPE_INFO_SETS, WPATH.STRIPE_INFO_CHSETS, WPATH.STRIPE_INFO_WIDTH_MAX, WPATH.STRIPE_INFO_IDLE_DIES, WPATH.OPEN_CFG_HOST, WPATH.OPEN_CFG_FOLD, WPATH.OPEN_CFG_RELOC, WPATH.PAD_WAIT_US, WPATH.STRIPE_WAIT_US, WPATH.SLC_CFG_MAX, WPATH.SLC_CFG_MIN, WPATH.SLC_CFG2_SPAN, WPATH.WRITE_FLOOR_MIB, WPATH.SLC_TARGET_MIB] ++
  [WPATH.SLC_ALLOC_MIB, WPATH.SLC_HELD_MIB, WPATH.SLC_FREE_MIB, WPATH.RESERVE_MIB, WPATH.WGROUP_SEL_NSID, WPATH.WGROUP_MAP_GROUP, WPATH.OPEN_USE_HOST, WPATH.OPEN_USE_FOLD, WPATH.OPEN_USE_RELOC, WPATH.PARITY_USE_POOL2, WPATH.PARITY_USE_POOL3, WPATH.PROG_UNITS_COUNT, WPATH.PROG_FAIL_COUNT, WPATH.REDO_COUNT, WPATH.DEFER_CNT_C1, WPATH.DEFER_CNT_C2] ++
  [WPATH.DEFER_CNT2_C3, WPATH.PAD_CW_COUNT, WPATH.SHORT_STRIPE_COUNT, WPATH.FLOOR_HIT_UNBOUND, WPATH.FLOOR_HIT_ALL, WPATH.SLC_STALL_US]

/-! The CRATEYD page (R275). -/
def CRATEYD.POOL_SEL_POOL : Field := ⟨0x18, 1, 0x100, 0, 2, .rw, 0, false, 0, 3, 1, 0⟩
def CRATEYD.POOL_CNT_FREE : Field := ⟨0x18, 1, 0x104, 0, 13, .ro, 0, false, 0, 8191, 0, 0⟩
def CRATEYD.POOL_CNT_HELD : Field := ⟨0x18, 1, 0x104, 16, 13, .ro, 0, false, 0, 8191, 0, 0⟩
def CRATEYD.POOL_CNT2_LENT : Field := ⟨0x18, 1, 0x108, 0, 13, .ro, 0, false, 0, 8191, 0, 0⟩
def CRATEYD.POOL_CNT2_LOW : Field := ⟨0x18, 1, 0x108, 16, 13, .rc, 0, false, 0, 8191, 0, 0⟩
def CRATEYD.POOL_RSV_FAST : Field := ⟨0x18, 1, 0x10C, 0, 13, .ro, 0, false, 0, 8191, 0, 0⟩
def CRATEYD.POOL_RSV_BELL : Field := ⟨0x18, 1, 0x10C, 16, 2, .ro, 0, false, 0, 3, 0, 0⟩
def CRATEYD.LEND_MAX_CRATES : Field := ⟨0x18, 1, 0x110, 0, 13, .rwl, 0, false, 0, 256, 1, 0⟩
def CRATEYD.WAITQ_REQS : Field := ⟨0x18, 1, 0x114, 0, 16, .ro, 0, false, 0, 65535, 0, 0⟩
def CRATEYD.LINK_BAD_COUNT : Field := ⟨0x18, 1, 0x118, 0, 16, .rc, 0, true, 0, 65535, 0, 0⟩
def CRATEYD.GRANTS_COUNT : Field := ⟨0x18, 1, 0x120, 0, 32, .ro, 0, false, 0, 4294967295, 0, 0⟩
def CRATEYD.FALLBACK_COUNT : Field := ⟨0x18, 1, 0x124, 0, 32, .rc, 0, true, 0, 4294967295, 0, 0⟩
def CRATEYD.EMPTY_COUNT : Field := ⟨0x18, 1, 0x128, 0, 32, .rc, 0, true, 0, 4294967295, 0, 0⟩
def CRATEYD.REFUSE_BAD_PTR : Field := ⟨0x18, 1, 0x12C, 0, 16, .rc, 0, true, 0, 65535, 0, 1⟩
def CRATEYD.REFUSE_STALE : Field := ⟨0x18, 1, 0x12C, 16, 16, .rc, 0, true, 0, 65535, 0, 1⟩
def CRATEYD.REFUSE2_DOUBLE_FREE : Field := ⟨0x18, 1, 0x130, 0, 16, .rc, 0, true, 0, 65535, 0, 1⟩
def CRATEYD.REFUSE2_NON_OWNER : Field := ⟨0x18, 1, 0x130, 16, 16, .rc, 0, true, 0, 65535, 0, 1⟩
def CRATEYD.REFUSE3_UNDERFLOW : Field := ⟨0x18, 1, 0x134, 0, 16, .rc, 0, true, 0, 65535, 0, 1⟩
def CRATEYD.REFUSE3_POISON_STALE : Field := ⟨0x18, 1, 0x134, 16, 16, .rc, 0, true, 0, 65535, 0, 1⟩
def CRATEYD.POISONED_CRATES : Field := ⟨0x18, 1, 0x138, 0, 16, .ro, 0, false, 0, 65535, 0, 0⟩
def CRATEYD.LEND_POOL : Field := ⟨0x18, 1, 0x140, 0, 2, .wo, 0, false, 0, 3, 1, 0⟩
def CRATEYD.LEND_GO : Field := ⟨0x18, 1, 0x140, 4, 1, .wo, 0, false, 0, 1, 1, 0⟩
def CRATEYD.LEND_BUSY : Field := ⟨0x18, 1, 0x140, 31, 1, .ro, 0, false, 0, 1, 0, 4⟩
def CRATEYD.LEND_RES_HANDLE : Field := ⟨0x18, 1, 0x144, 0, 32, .ro, 0, false, 0, 4294967295, 0, 0⟩
def CRATEYD.LEND_RES2_CODE : Field := ⟨0x18, 1, 0x148, 0, 3, .ro, 0, false, 0, 7, 0, 3⟩
def CRATEYD.LEND_RES2_DROPPED : Field := ⟨0x18, 1, 0x148, 16, 16, .ro, 0, true, 0, 65535, 0, 1⟩
def CRATEYD.RETURN_HANDLE : Field := ⟨0x18, 1, 0x14C, 0, 32, .wo, 0, false, 0, 4294967295, 1, 0⟩
def CRATEYD.RETURN_RES_CODE : Field := ⟨0x18, 1, 0x150, 0, 3, .ro, 0, false, 0, 7, 0, 3⟩
def CRATEYD.WIN_HANDLE_HANDLE : Field := ⟨0x18, 1, 0x154, 0, 32, .rw, 0, false, 0, 4294967295, 1, 0⟩
def CRATEYD.WIN_OFF_OFFSET : Field := ⟨0x18, 1, 0x158, 0, 18, .rw, 0, false, 0, 262143, 1, 0⟩
def CRATEYD.WIN_DATA_DATA : Field := ⟨0x18, 1, 0x15C, 0, 32, .rw, 0, false, 0, 4294967295, 1, 0⟩
def CRATEYD.WIN_RES_POISON : Field := ⟨0x18, 1, 0x160, 0, 1, .ro, 0, false, 0, 1, 0, 0⟩
def CRATEYD.WIN_RES_REFUSED : Field := ⟨0x18, 1, 0x160, 16, 16, .rc, 0, true, 0, 65535, 0, 1⟩
def CRATEYD.PROBE_ADDR : Field := ⟨0x18, 1, 0x170, 0, 26, .rw, 0, false, 0, 67108863, 1, 0⟩
def CRATEYD.PROBE_RES_STATE : Field := ⟨0x18, 1, 0x174, 0, 2, .ro, 0, false, 0, 3, 0, 0⟩
def CRATEYD.PROBE_RES_KIND : Field := ⟨0x18, 1, 0x174, 2, 2, .ro, 0, false, 0, 3, 0, 0⟩
def CRATEYD.PROBE_RES_OWNER : Field := ⟨0x18, 1, 0x174, 4, 3, .ro, 0, false, 0, 7, 0, 0⟩
def CRATEYD.PROBE_RES_REL : Field := ⟨0x18, 1, 0x174, 7, 1, .ro, 0, false, 0, 1, 0, 0⟩
def CRATEYD.PROBE_RES_POISON : Field := ⟨0x18, 1, 0x174, 8, 1, .ro, 0, false, 0, 1, 0, 0⟩
def CRATEYD.PROBE_RES_GEN : Field := ⟨0x18, 1, 0x174, 16, 8, .ro, 0, false, 0, 255, 0, 0⟩
def CRATEYD.PROBE_RES2_REFS : Field := ⟨0x18, 1, 0x178, 0, 17, .ro, 0, false, 0, 131071, 0, 0⟩
/-- Every field of the CRATEYD page, in the order of its table. -/
def CRATEYD.fields : List Field :=
  [CRATEYD.POOL_SEL_POOL, CRATEYD.POOL_CNT_FREE, CRATEYD.POOL_CNT_HELD, CRATEYD.POOL_CNT2_LENT, CRATEYD.POOL_CNT2_LOW, CRATEYD.POOL_RSV_FAST, CRATEYD.POOL_RSV_BELL, CRATEYD.LEND_MAX_CRATES, CRATEYD.WAITQ_REQS, CRATEYD.LINK_BAD_COUNT, CRATEYD.GRANTS_COUNT, CRATEYD.FALLBACK_COUNT, CRATEYD.EMPTY_COUNT, CRATEYD.REFUSE_BAD_PTR, CRATEYD.REFUSE_STALE, CRATEYD.REFUSE2_DOUBLE_FREE] ++
  [CRATEYD.REFUSE2_NON_OWNER, CRATEYD.REFUSE3_UNDERFLOW, CRATEYD.REFUSE3_POISON_STALE, CRATEYD.POISONED_CRATES, CRATEYD.LEND_POOL, CRATEYD.LEND_GO, CRATEYD.LEND_BUSY, CRATEYD.LEND_RES_HANDLE, CRATEYD.LEND_RES2_CODE, CRATEYD.LEND_RES2_DROPPED, CRATEYD.RETURN_HANDLE, CRATEYD.RETURN_RES_CODE, CRATEYD.WIN_HANDLE_HANDLE, CRATEYD.WIN_OFF_OFFSET, CRATEYD.WIN_DATA_DATA, CRATEYD.WIN_RES_POISON] ++
  [CRATEYD.WIN_RES_REFUSED, CRATEYD.PROBE_ADDR, CRATEYD.PROBE_RES_STATE, CRATEYD.PROBE_RES_KIND, CRATEYD.PROBE_RES_OWNER, CRATEYD.PROBE_RES_REL, CRATEYD.PROBE_RES_POISON, CRATEYD.PROBE_RES_GEN, CRATEYD.PROBE_RES2_REFS]

/-! The STALL page (R303). -/
def STALL.CH_STATE_STATE : Field := ⟨0x80, 96, 0x100, 0, 2, .ro, 0, false, 0, 3, 0, 5⟩
def STALL.CH_STATE_MODE : Field := ⟨0x80, 96, 0x100, 4, 1, .ro, 0, false, 0, 1, 0, 0⟩
def STALL.CH_STATE_LOST_CAUSE : Field := ⟨0x80, 96, 0x100, 8, 4, .ro, 0, false, 0, 15, 0, 0⟩
def STALL.CH_RATE_MTS : Field := ⟨0x80, 96, 0x104, 0, 12, .ro, 0, false, 0, 4095, 0, 0⟩
def STALL.CH_RATE_WEIGHT : Field := ⟨0x80, 96, 0x104, 16, 10, .ro, 0, false, 0, 1023, 0, 0⟩
def STALL.DIE_MAP_PRESENT : Field := ⟨0x80, 96, 0x108, 0, 16, .ro, 0, false, 0, 65535, 0, 0⟩
def STALL.DIE_MAP_IN_SERVICE : Field := ⟨0x80, 96, 0x108, 16, 16, .ro, 0, false, 0, 65535, 0, 0⟩
def STALL.DIE_SEL_DIE : Field := ⟨0x80, 96, 0x10C, 0, 4, .rw, 0, false, 0, 15, 1, 0⟩
def STALL.DIE_INFO_DESC : Field := ⟨0x80, 96, 0x110, 0, 6, .ro, 0, false, 0, 63, 0, 0⟩
def STALL.DIE_INFO_PLANES : Field := ⟨0x80, 96, 0x110, 8, 3, .ro, 0, false, 0, 7, 0, 0⟩
def STALL.DIE_INFO_STATE : Field := ⟨0x80, 96, 0x110, 12, 4, .ro, 0, false, 0, 15, 0, 5⟩
def STALL.DIE_INFO_SUSP : Field := ⟨0x80, 96, 0x110, 16, 3, .ro, 0, false, 0, 7, 0, 0⟩
def STALL.DIE_INFO_LOST_CAUSE : Field := ⟨0x80, 96, 0x110, 24, 4, .ro, 0, false, 0, 15, 0, 0⟩
def STALL.TMO_RD_US : Field := ⟨0x80, 96, 0x114, 0, 14, .rwl, 0x3E8, false, 100, 10000, 1, 0⟩
def STALL.TMO_PROG_US : Field := ⟨0x80, 96, 0x118, 0, 16, .rwl, 0x2710, false, 1000, 50000, 1, 0⟩
def STALL.TMO_ERASE_US : Field := ⟨0x80, 96, 0x11C, 0, 17, .rwl, 0x7530, false, 5000, 100000, 1, 0⟩
def STALL.TMO_SUSP_US : Field := ⟨0x80, 96, 0x120, 0, 8, .rwl, 0x28, false, 25, 200, 1, 0⟩
def STALL.TMO_SUSP_RST : Field := ⟨0x80, 96, 0x120, 16, 7, .rwl, 0x14, false, 5, 100, 1, 0⟩
def STALL.TMO_FEAT_US : Field := ⟨0x80, 96, 0x124, 0, 10, .rwl, 0x64, false, 10, 1000, 1, 0⟩
def STALL.POLL_CFG_INT : Field := ⟨0x80, 96, 0x128, 0, 6, .rwl, 4, false, 1, 64, 1, 0⟩
def STALL.ZQ_CFG_INTERVAL : Field := ⟨0x80, 96, 0x12C, 0, 11, .rwl, 0x80, false, 16, 1024, 1, 0⟩
def STALL.ZQ_CFG_TEMP_STEP : Field := ⟨0x80, 96, 0x12C, 16, 5, .rwl, 0xA, false, 2, 20, 1, 0⟩
def STALL.ID_CHECK_PERIOD : Field := ⟨0x80, 96, 0x130, 0, 7, .rwl, 0xA, false, 1, 100, 1, 0⟩
def STALL.ERASES_DONE_COUNT : Field := ⟨0x80, 96, 0x140, 0, 32, .ro, 0, false, 0, 4294967295, 0, 0⟩
def STALL.SENSES_COUNT : Field := ⟨0x80, 96, 0x144, 0, 32, .ro, 0, false, 0, 4294967295, 0, 0⟩
def STALL.PROGRAMS_COUNT : Field := ⟨0x80, 96, 0x148, 0, 32, .ro, 0, false, 0, 4294967295, 0, 0⟩
def STALL.SUSP_CNT_PROG : Field := ⟨0x80, 96, 0x14C, 0, 16, .rc, 0, true, 0, 65535, 0, 0⟩
def STALL.SUSP_CNT_ERASE : Field := ⟨0x80, 96, 0x14C, 16, 16, .rc, 0, true, 0, 65535, 0, 0⟩
def STALL.SUSP_CNT2_SIXTH : Field := ⟨0x80, 96, 0x150, 0, 16, .rc, 0, true, 0, 65535, 0, 0⟩
def STALL.SUSP_CNT2_NOSUSP : Field := ⟨0x80, 96, 0x150, 16, 16, .rc, 0, true, 0, 65535, 0, 2⟩
def STALL.TMO_CNT_READ : Field := ⟨0x80, 96, 0x154, 0, 8, .rc, 0, true, 0, 255, 0, 2⟩
def STALL.TMO_CNT_PROG : Field := ⟨0x80, 96, 0x154, 8, 8, .rc, 0, true, 0, 255, 0, 2⟩
def STALL.TMO_CNT_ERASE : Field := ⟨0x80, 96, 0x154, 16, 8, .rc, 0, true, 0, 255, 0, 2⟩
def STALL.TMO_CNT_OTHER : Field := ⟨0x80, 96, 0x154, 24, 8, .rc, 0, true, 0, 255, 0, 2⟩
def STALL.ODD_CNT_STATUS : Field := ⟨0x80, 96, 0x158, 0, 16, .rc, 0, true, 0, 65535, 0, 0⟩
def STALL.ODD_CNT_FEATURE : Field := ⟨0x80, 96, 0x158, 16, 16, .rc, 0, true, 0, 65535, 0, 0⟩
def STALL.RETRY_STEPS : Field := ⟨0x80, 96, 0x15C, 0, 32, .rc, 0, true, 0, 4294967295, 0, 0⟩
def STALL.ZQ_CNT_SHORT : Field := ⟨0x80, 96, 0x160, 0, 16, .ro, 0, false, 0, 65535, 0, 0⟩
def STALL.ZQ_CNT_FAIL : Field := ⟨0x80, 96, 0x160, 16, 16, .rc, 0, true, 0, 65535, 0, 2⟩
def STALL.CH_UTIL_ALL : Field := ⟨0x80, 96, 0x164, 0, 10, .ro, 0, false, 0, 1023, 0, 0⟩
def STALL.CH_UTIL_LOAD : Field := ⟨0x80, 96, 0x164, 16, 10, .ro, 0, false, 0, 1023, 0, 0⟩
/-- Every field of the STALL page, in the order of its table. -/
def STALL.fields : List Field :=
  [STALL.CH_STATE_STATE, STALL.CH_STATE_MODE, STALL.CH_STATE_LOST_CAUSE, STALL.CH_RATE_MTS, STALL.CH_RATE_WEIGHT, STALL.DIE_MAP_PRESENT, STALL.DIE_MAP_IN_SERVICE, STALL.DIE_SEL_DIE, STALL.DIE_INFO_DESC, STALL.DIE_INFO_PLANES, STALL.DIE_INFO_STATE, STALL.DIE_INFO_SUSP, STALL.DIE_INFO_LOST_CAUSE, STALL.TMO_RD_US, STALL.TMO_PROG_US, STALL.TMO_ERASE_US] ++
  [STALL.TMO_SUSP_US, STALL.TMO_SUSP_RST, STALL.TMO_FEAT_US, STALL.POLL_CFG_INT, STALL.ZQ_CFG_INTERVAL, STALL.ZQ_CFG_TEMP_STEP, STALL.ID_CHECK_PERIOD, STALL.ERASES_DONE_COUNT, STALL.SENSES_COUNT, STALL.PROGRAMS_COUNT, STALL.SUSP_CNT_PROG, STALL.SUSP_CNT_ERASE, STALL.SUSP_CNT2_SIXTH, STALL.SUSP_CNT2_NOSUSP, STALL.TMO_CNT_READ, STALL.TMO_CNT_PROG] ++
  [STALL.TMO_CNT_ERASE, STALL.TMO_CNT_OTHER, STALL.ODD_CNT_STATUS, STALL.ODD_CNT_FEATURE, STALL.RETRY_STEPS, STALL.ZQ_CNT_SHORT, STALL.ZQ_CNT_FAIL, STALL.CH_UTIL_ALL, STALL.CH_UTIL_LOAD]

/-! The DECODE page (R331). -/
def DECODE.CW_CFG_CODE : Field := ⟨0x70, 12, 0x100, 0, 4, .ro, 0, false, 0, 15, 0, 0⟩
def DECODE.HARD_CFG_ITER_WARN : Field := ⟨0x70, 12, 0x104, 0, 4, .rwl, 5, false, 1, 8, 1, 0⟩
def DECODE.SOFT_CFG_PASS_ITER : Field := ⟨0x70, 12, 0x108, 0, 4, .rwl, 8, false, 2, 8, 1, 0⟩
def DECODE.SOFT_CFG_FULL_ITER : Field := ⟨0x70, 12, 0x108, 8, 5, .rwl, 0x14, false, 8, 20, 1, 0⟩
def DECODE.SOFT_WAIT_US : Field := ⟨0x70, 12, 0x10C, 0, 8, .rwl, 0x14, false, 5, 200, 1, 0⟩
def DECODE.LLR_MAG_VALUE : Field := ⟨0x70, 12, 0x110, 0, 16, .rwl, 0x6666, false, 0, 65535, 1, 0⟩
def DECODE.CW_HARD_COUNT : Field := ⟨0x70, 12, 0x120, 0, 32, .ro, 0, false, 0, 4294967295, 0, 0⟩
def DECODE.ITER_SUM_COUNT : Field := ⟨0x70, 12, 0x124, 0, 32, .ro, 0, false, 0, 4294967295, 0, 0⟩
def DECODE.HARD_FAIL_COUNT : Field := ⟨0x70, 12, 0x128, 0, 32, .rc, 0, true, 0, 4294967295, 0, 2⟩
def DECODE.SOFT_PASS_OK : Field := ⟨0x70, 12, 0x12C, 0, 16, .rc, 0, true, 0, 65535, 0, 0⟩
def DECODE.SOFT_PASS_FAIL : Field := ⟨0x70, 12, 0x12C, 16, 16, .rc, 0, true, 0, 65535, 0, 2⟩
def DECODE.SOFT_OVERFLOW_COUNT : Field := ⟨0x70, 12, 0x130, 0, 16, .rc, 0, true, 0, 65535, 0, 0⟩
def DECODE.SOFT_OVERFLOW_PREEMPT : Field := ⟨0x70, 12, 0x130, 16, 16, .rc, 0, true, 0, 65535, 0, 0⟩
def DECODE.SOFT_USE_ENTRIES : Field := ⟨0x70, 12, 0x134, 0, 7, .ro, 0, false, 0, 127, 0, 0⟩
def DECODE.STEP_SEL_STEP : Field := ⟨0x70, 12, 0x138, 0, 4, .rw, 0, false, 0, 12, 1, 0⟩
def DECODE.STEP_CNT_COUNT : Field := ⟨0x70, 12, 0x13C, 0, 32, .rc, 0, true, 0, 4294967295, 0, 0⟩
def DECODE.HDR_ERR_COUNT : Field := ⟨0x70, 12, 0x140, 0, 16, .rc, 0, true, 0, 65535, 0, 2⟩
def DECODE.HDR_ERR_UNC : Field := ⟨0x70, 12, 0x140, 16, 16, .rc, 0, true, 0, 65535, 0, 0⟩
def DECODE.UNRECOVERED_COUNT : Field := ⟨0x70, 12, 0x144, 0, 16, .rc, 0, true, 0, 65535, 0, 0⟩
/-- Every field of the DECODE page, in the order of its table. -/
def DECODE.fields : List Field :=
  [DECODE.CW_CFG_CODE, DECODE.HARD_CFG_ITER_WARN, DECODE.SOFT_CFG_PASS_ITER, DECODE.SOFT_CFG_FULL_ITER, DECODE.SOFT_WAIT_US, DECODE.LLR_MAG_VALUE, DECODE.CW_HARD_COUNT, DECODE.ITER_SUM_COUNT, DECODE.HARD_FAIL_COUNT, DECODE.SOFT_PASS_OK, DECODE.SOFT_PASS_FAIL, DECODE.SOFT_OVERFLOW_COUNT, DECODE.SOFT_OVERFLOW_PREEMPT, DECODE.SOFT_USE_ENTRIES, DECODE.STEP_SEL_STEP, DECODE.STEP_CNT_COUNT] ++
  [DECODE.HDR_ERR_COUNT, DECODE.HDR_ERR_UNC, DECODE.UNRECOVERED_COUNT]

/-! The SCRUB page (R332). -/
def SCRUB.SCRUB_CFG_CYCLE_DAYS : Field := ⟨0x15, 1, 0x100, 0, 3, .rwl, 7, false, 1, 7, 1, 0⟩
def SCRUB.SCRUB_CYCLE_NUM : Field := ⟨0x15, 1, 0x104, 0, 32, .ro, 0, false, 0, 4294967295, 0, 0⟩
def SCRUB.SCRUB_PROG_PERMILLE : Field := ⟨0x15, 1, 0x108, 0, 10, .ro, 0, false, 0, 1023, 0, 0⟩
def SCRUB.SCRUB_AGE_HOURS : Field := ⟨0x15, 1, 0x10C, 0, 16, .ro, 0, false, 0, 65535, 0, 0⟩
def SCRUB.SCRUB_RATE_CWPS : Field := ⟨0x15, 1, 0x110, 0, 32, .ro, 0, false, 0, 4294967295, 0, 0⟩
def SCRUB.OUTCOME_WARN : Field := ⟨0x15, 1, 0x114, 0, 16, .rc, 0, true, 0, 65535, 0, 0⟩
def SCRUB.OUTCOME_RETRY : Field := ⟨0x15, 1, 0x114, 16, 16, .rc, 0, true, 0, 65535, 0, 0⟩
def SCRUB.OUTCOME2_LOST : Field := ⟨0x15, 1, 0x118, 0, 16, .rc, 0, true, 0, 65535, 0, 0⟩
def SCRUB.CAND_USE_ENTRIES : Field := ⟨0x15, 1, 0x11C, 0, 13, .ro, 0, false, 0, 8191, 0, 0⟩
def SCRUB.CAND_USE_OVER : Field := ⟨0x15, 1, 0x11C, 16, 16, .rc, 0, true, 0, 65535, 0, 0⟩
def SCRUB.LATE_COUNT : Field := ⟨0x15, 1, 0x120, 0, 16, .ro, 0, false, 0, 65535, 0, 0⟩
/-- Every field of the SCRUB page, in the order of its table. -/
def SCRUB.fields : List Field :=
  [SCRUB.SCRUB_CFG_CYCLE_DAYS, SCRUB.SCRUB_CYCLE_NUM, SCRUB.SCRUB_PROG_PERMILLE, SCRUB.SCRUB_AGE_HOURS, SCRUB.SCRUB_RATE_CWPS, SCRUB.OUTCOME_WARN, SCRUB.OUTCOME_RETRY, SCRUB.OUTCOME2_LOST, SCRUB.CAND_USE_ENTRIES, SCRUB.CAND_USE_OVER, SCRUB.LATE_COUNT]

/-! The MEMCHK page (R333). -/
def MEMCHK.GRP_SEL_GROUP : Field := ⟨0x9, 1, 0x100, 0, 5, .rw, 0, false, 0, 24, 1, 0⟩
def MEMCHK.ENT_SEL_ENTRY : Field := ⟨0x9, 1, 0x104, 0, 5, .rw, 0, false, 0, 31, 1, 0⟩
def MEMCHK.GRP_CE_COUNT : Field := ⟨0x9, 1, 0x108, 0, 32, .ro, 0, true, 0, 4294967295, 0, 0⟩
def MEMCHK.GRP_UE_COUNT : Field := ⟨0x9, 1, 0x10C, 0, 32, .ro, 0, true, 0, 4294967295, 0, 2⟩
def MEMCHK.GRP_OVER_COUNT : Field := ⟨0x9, 1, 0x110, 0, 16, .rc, 0, true, 0, 65535, 0, 0⟩
def MEMCHK.ENT_ADDR_LO_VALUE : Field := ⟨0x9, 1, 0x114, 0, 32, .ro, 0, false, 0, 4294967295, 0, 0⟩
def MEMCHK.ENT_ADDR_HI_VALUE : Field := ⟨0x9, 1, 0x118, 0, 8, .ro, 0, false, 0, 255, 0, 0⟩
def MEMCHK.ENT_INFO_VALID : Field := ⟨0x9, 1, 0x11C, 0, 1, .ro, 0, false, 0, 1, 0, 0⟩
def MEMCHK.ENT_INFO_SYNDROME : Field := ⟨0x9, 1, 0x11C, 8, 8, .ro, 0, false, 0, 255, 0, 0⟩
def MEMCHK.ENT_INFO_COUNT : Field := ⟨0x9, 1, 0x11C, 16, 16, .ro, 0, true, 0, 65535, 0, 0⟩
def MEMCHK.ENT_FIRST_LO_VALUE : Field := ⟨0x9, 1, 0x120, 0, 32, .ro, 0, false, 0, 4294967295, 0, 0⟩
def MEMCHK.ENT_FIRST_HI_VALUE : Field := ⟨0x9, 1, 0x124, 0, 32, .ro, 0, false, 0, 4294967295, 0, 0⟩
def MEMCHK.ENT_LAST_LO_VALUE : Field := ⟨0x9, 1, 0x128, 0, 32, .ro, 0, false, 0, 4294967295, 0, 0⟩
def MEMCHK.ENT_LAST_HI_VALUE : Field := ⟨0x9, 1, 0x12C, 0, 32, .ro, 0, false, 0, 4294967295, 0, 0⟩
def MEMCHK.ST_RESULT_FAILED : Field := ⟨0x9, 1, 0x130, 0, 25, .ro, 0, false, 0, 33554431, 0, 0⟩
def MEMCHK.ST_RESULT_DECODER : Field := ⟨0x9, 1, 0x130, 31, 1, .ro, 0, false, 0, 1, 0, 0⟩
def MEMCHK.SCRUB_PER_DRAM_H : Field := ⟨0x9, 1, 0x134, 0, 8, .rwl, 0x18, false, 1, 168, 1, 0⟩
def MEMCHK.CAM_PAR_COUNT : Field := ⟨0x9, 1, 0x138, 0, 16, .rc, 0, true, 0, 65535, 0, 0⟩
/-- Every field of the MEMCHK page, in the order of its table. -/
def MEMCHK.fields : List Field :=
  [MEMCHK.GRP_SEL_GROUP, MEMCHK.ENT_SEL_ENTRY, MEMCHK.GRP_CE_COUNT, MEMCHK.GRP_UE_COUNT, MEMCHK.GRP_OVER_COUNT, MEMCHK.ENT_ADDR_LO_VALUE, MEMCHK.ENT_ADDR_HI_VALUE, MEMCHK.ENT_INFO_VALID, MEMCHK.ENT_INFO_SYNDROME, MEMCHK.ENT_INFO_COUNT, MEMCHK.ENT_FIRST_LO_VALUE, MEMCHK.ENT_FIRST_HI_VALUE, MEMCHK.ENT_LAST_LO_VALUE, MEMCHK.ENT_LAST_HI_VALUE, MEMCHK.ST_RESULT_FAILED, MEMCHK.ST_RESULT_DECODER] ++
  [MEMCHK.SCRUB_PER_DRAM_H, MEMCHK.CAM_PAR_COUNT]

/-! The SWEEP page (R366). -/
def SWEEP.SWEEP_CTRL_RESUME : Field := ⟨0x16, 1, 0x100, 0, 1, .wo, 0, false, 0, 1, 1, 0⟩
def SWEEP.SWEEP_STAT_CORE_PAUSE : Field := ⟨0x16, 1, 0x104, 0, 1, .ro, 0, false, 0, 1, 0, 0⟩
def SWEEP.SWEEP_STAT_TALLY_STOP : Field := ⟨0x16, 1, 0x104, 1, 1, .ro, 0, false, 0, 1, 0, 0⟩
def SWEEP.SWEEP_STAT_FORCED_RUN : Field := ⟨0x16, 1, 0x104, 2, 1, .ro, 0, false, 0, 1, 0, 0⟩
def SWEEP.SWEEP_STAT_FOLD_HELD : Field := ⟨0x16, 1, 0x104, 3, 1, .ro, 0, false, 0, 1, 0, 0⟩
def SWEEP.SWEEP_STAT_BELOW_FLOOR : Field := ⟨0x16, 1, 0x104, 4, 1, .ro, 0, false, 0, 1, 0, 0⟩
def SWEEP.SWEEP_STAT_VICTIMS : Field := ⟨0x16, 1, 0x104, 8, 5, .ro, 0, false, 0, 31, 0, 0⟩
def SWEEP.CAND_SEL_KIND : Field := ⟨0x16, 1, 0x108, 0, 3, .rw, 0, false, 0, 5, 1, 0⟩
def SWEEP.CAND_BAND_BAND : Field := ⟨0x16, 1, 0x10C, 0, 32, .ro, 0xFFFFFFFF, false, 0, 4294967295, 0, 0⟩
def SWEEP.CAND_INFO_VALID_PM : Field := ⟨0x16, 1, 0x110, 0, 10, .ro, 0, false, 0, 1023, 0, 0⟩
def SWEEP.CAND_INFO_SET : Field := ⟨0x16, 1, 0x110, 10, 6, .ro, 0, false, 0, 63, 0, 0⟩
def SWEEP.CAND_INFO_GROUP : Field := ⟨0x16, 1, 0x110, 16, 2, .ro, 0, false, 0, 3, 0, 0⟩
def SWEEP.VICTIM_BAND : Field := ⟨0x16, 1, 0x114, 0, 32, .wo, 0, false, 0, 4294967295, 1, 0⟩
def SWEEP.VICTIM_CMD_KIND : Field := ⟨0x16, 1, 0x118, 0, 3, .wo, 0, false, 0, 7, 1, 0⟩
def SWEEP.VICTIM_CMD_GO : Field := ⟨0x16, 1, 0x118, 4, 1, .wo, 0, false, 0, 1, 1, 0⟩
def SWEEP.VICTIM_RES_CODE : Field := ⟨0x16, 1, 0x11C, 0, 3, .ro, 0, false, 0, 7, 0, 3⟩
def SWEEP.VICTIM_RES_DROPPED : Field := ⟨0x16, 1, 0x11C, 16, 16, .ro, 0, true, 0, 65535, 0, 1⟩
def SWEEP.CREDIT_LO_VALUE : Field := ⟨0x16, 1, 0x120, 0, 32, .ro, 0, false, 0, 4294967295, 0, 0⟩
def SWEEP.CREDIT_HI_VALUE : Field := ⟨0x16, 1, 0x124, 0, 16, .ro, 0, false, 0, 65535, 0, 0⟩
def SWEEP.CREDIT_CAP_MS : Field := ⟨0x16, 1, 0x128, 0, 7, .rwl, 0xA, false, 1, 100, 1, 0⟩
def SWEEP.FREE_CFG_LOW : Field := ⟨0x16, 1, 0x12C, 0, 10, .rwl, 0x10, false, 4, 1023, 1, 0⟩
def SWEEP.FREE_CFG_CRIT : Field := ⟨0x16, 1, 0x12C, 16, 10, .rwl, 4, false, 2, 1023, 1, 0⟩
def SWEEP.FREE_CFG2_SHARE : Field := ⟨0x16, 1, 0x130, 0, 6, .rwl, 0x14, false, 0, 40, 1, 0⟩
def SWEEP.FREE_MIN_BLOCKS : Field := ⟨0x16, 1, 0x134, 0, 16, .ro, 0, false, 0, 65535, 0, 0⟩
def SWEEP.WEAR_CFG_SPREAD : Field := ⟨0x16, 1, 0x138, 0, 13, .rwl, 0xC8, false, 20, 5000, 1, 0⟩
def SWEEP.RELOC_UNITS_COUNT : Field := ⟨0x16, 1, 0x140, 0, 32, .ro, 0, false, 0, 4294967295, 0, 0⟩
def SWEEP.FOLD_UNITS_COUNT : Field := ⟨0x16, 1, 0x144, 0, 32, .ro, 0, false, 0, 4294967295, 0, 0⟩
def SWEEP.WEAR_UNITS_COUNT : Field := ⟨0x16, 1, 0x148, 0, 32, .ro, 0, false, 0, 4294967295, 0, 0⟩
def SWEEP.RESTRIPE_UNITS_COUNT : Field := ⟨0x16, 1, 0x14C, 0, 32, .ro, 0, false, 0, 4294967295, 0, 0⟩
def SWEEP.COPY_FAIL_COUNT : Field := ⟨0x16, 1, 0x150, 0, 16, .rc, 0, true, 0, 65535, 0, 2⟩
def SWEEP.COPY_FAIL_ABANDON : Field := ⟨0x16, 1, 0x150, 16, 16, .rc, 0, true, 0, 65535, 0, 0⟩
def SWEEP.BANDS_ERASED_COUNT : Field := ⟨0x16, 1, 0x154, 0, 32, .ro, 0, false, 0, 4294967295, 0, 0⟩
def SWEEP.FORFEIT_US : Field := ⟨0x16, 1, 0x158, 0, 32, .rc, 0, true, 0, 4294967295, 0, 0⟩
def SWEEP.FORCED_COUNT : Field := ⟨0x16, 1, 0x15C, 0, 16, .rc, 0, true, 0, 65535, 0, 0⟩
def SWEEP.VALID_MISMATCH_COUNT : Field := ⟨0x16, 1, 0x15C, 16, 16, .rc, 0, true, 0, 65535, 0, 0⟩
def SWEEP.VICTIM_REFUSED_COUNT : Field := ⟨0x16, 1, 0x160, 0, 16, .rc, 0, true, 0, 65535, 0, 1⟩
/-- Every field of the SWEEP page, in the order of its table. -/
def SWEEP.fields : List Field :=
  [SWEEP.SWEEP_CTRL_RESUME, SWEEP.SWEEP_STAT_CORE_PAUSE, SWEEP.SWEEP_STAT_TALLY_STOP, SWEEP.SWEEP_STAT_FORCED_RUN, SWEEP.SWEEP_STAT_FOLD_HELD, SWEEP.SWEEP_STAT_BELOW_FLOOR, SWEEP.SWEEP_STAT_VICTIMS, SWEEP.CAND_SEL_KIND, SWEEP.CAND_BAND_BAND, SWEEP.CAND_INFO_VALID_PM, SWEEP.CAND_INFO_SET, SWEEP.CAND_INFO_GROUP, SWEEP.VICTIM_BAND, SWEEP.VICTIM_CMD_KIND, SWEEP.VICTIM_CMD_GO, SWEEP.VICTIM_RES_CODE] ++
  [SWEEP.VICTIM_RES_DROPPED, SWEEP.CREDIT_LO_VALUE, SWEEP.CREDIT_HI_VALUE, SWEEP.CREDIT_CAP_MS, SWEEP.FREE_CFG_LOW, SWEEP.FREE_CFG_CRIT, SWEEP.FREE_CFG2_SHARE, SWEEP.FREE_MIN_BLOCKS, SWEEP.WEAR_CFG_SPREAD, SWEEP.RELOC_UNITS_COUNT, SWEEP.FOLD_UNITS_COUNT, SWEEP.WEAR_UNITS_COUNT, SWEEP.RESTRIPE_UNITS_COUNT, SWEEP.COPY_FAIL_COUNT, SWEEP.COPY_FAIL_ABANDON, SWEEP.BANDS_ERASED_COUNT] ++
  [SWEEP.FORFEIT_US, SWEEP.FORCED_COUNT, SWEEP.VALID_MISMATCH_COUNT, SWEEP.VICTIM_REFUSED_COUNT]

/-! The HEALTH page (R367). -/
def HEALTH.SPARE_PCT : Field := ⟨0xA, 1, 0x100, 0, 16, .ro, 0, false, 0, 65535, 0, 0⟩
def HEALTH.SPARE_INIT : Field := ⟨0xA, 1, 0x100, 16, 16, .ro, 0, false, 0, 65535, 0, 0⟩
def HEALTH.SPARE_CFG_WARN : Field := ⟨0xA, 1, 0x104, 0, 16, .ro, 0, false, 0, 65535, 0, 0⟩
def HEALTH.SPARE_CFG_EOL : Field := ⟨0xA, 1, 0x104, 16, 16, .ro, 0, false, 0, 65535, 0, 0⟩
def HEALTH.SPARE_CFG2_FLOOR : Field := ⟨0xA, 1, 0x108, 0, 16, .ro, 0, false, 0, 65535, 0, 0⟩
def HEALTH.GOOD_BLOCKS_COUNT : Field := ⟨0xA, 1, 0x10C, 0, 32, .ro, 0, false, 0, 4294967295, 0, 0⟩
def HEALTH.RETIRED_COUNT : Field := ⟨0xA, 1, 0x110, 0, 32, .ro, 0, false, 0, 4294967295, 0, 0⟩
def HEALTH.RETIRED_PROG_COUNT : Field := ⟨0xA, 1, 0x114, 0, 32, .ro, 0, false, 0, 4294967295, 0, 2⟩
def HEALTH.RETIRED_ERASE_COUNT : Field := ⟨0xA, 1, 0x118, 0, 32, .ro, 0, false, 0, 4294967295, 0, 2⟩
def HEALTH.WEAR_MEAN_PPM : Field := ⟨0xA, 1, 0x11C, 0, 32, .ro, 0, false, 0, 4294967295, 0, 0⟩
def HEALTH.WEAR_MAX_PPM : Field := ⟨0xA, 1, 0x120, 0, 32, .ro, 0, false, 0, 4294967295, 0, 0⟩
def HEALTH.WEAR_BUDGET_DAY_PPM : Field := ⟨0xA, 1, 0x124, 0, 16, .ro, 0, false, 0, 65535, 0, 0⟩
def HEALTH.WEAR_BUDGET2_YEAR_PPM : Field := ⟨0xA, 1, 0x128, 0, 32, .ro, 0, false, 0, 4294967295, 0, 0⟩
def HEALTH.WEAR_USED_DAY_PPM : Field := ⟨0xA, 1, 0x12C, 0, 16, .ro, 0, false, 0, 65535, 0, 0⟩
def HEALTH.WEAR_USED2_YEAR_PPM : Field := ⟨0xA, 1, 0x130, 0, 32, .ro, 0, false, 0, 4294967295, 0, 0⟩
def HEALTH.BUDGET_REFUSED_COUNT : Field := ⟨0xA, 1, 0x134, 0, 32, .ro, 0, false, 0, 4294967295, 0, 1⟩
def HEALTH.HCFG_ITER_MEAN : Field := ⟨0xA, 1, 0x138, 0, 16, .ro, 0, false, 0, 65535, 0, 0⟩
def HEALTH.HCFG_MIN_CW : Field := ⟨0xA, 1, 0x138, 16, 16, .ro, 0, false, 0, 65535, 0, 0⟩
def HEALTH.HCFG2_SOFT_PPM : Field := ⟨0xA, 1, 0x13C, 0, 16, .ro, 0, false, 0, 65535, 0, 0⟩
def HEALTH.HCFG2_RETRY_PPM : Field := ⟨0xA, 1, 0x13C, 16, 16, .ro, 0, false, 0, 65535, 0, 0⟩
def HEALTH.BLOCKS_WATCH_COUNT : Field := ⟨0xA, 1, 0x140, 0, 32, .ro, 0, false, 0, 4294967295, 0, 0⟩
def HEALTH.BLOCKS_WEAK_COUNT : Field := ⟨0xA, 1, 0x144, 0, 32, .ro, 0, false, 0, 4294967295, 0, 0⟩
def HEALTH.CRIT_BITS : Field := ⟨0xA, 1, 0x148, 0, 8, .ro, 0, false, 0, 255, 0, 0⟩
def HEALTH.RATE_REFUSED_COUNT : Field := ⟨0xA, 1, 0x14C, 0, 32, .ro, 0, false, 0, 4294967295, 0, 1⟩
def HEALTH.TEMP_SEL_BIN : Field := ⟨0xA, 1, 0x150, 0, 5, .rw, 0, false, 0, 29, 1, 0⟩
def HEALTH.TEMP_BIN_SECONDS : Field := ⟨0xA, 1, 0x154, 0, 32, .ro, 0, false, 0, 4294967295, 0, 0⟩
def HEALTH.TEMP_EXT_MAX : Field := ⟨0xA, 1, 0x158, 0, 16, .ro, 0, false, 0, 65535, 0, 0⟩
def HEALTH.TEMP_EXT_MIN : Field := ⟨0xA, 1, 0x158, 16, 16, .ro, 0, false, 0, 65535, 0, 0⟩
def HEALTH.TEMP_AVG_HUNDREDTHS : Field := ⟨0xA, 1, 0x15C, 0, 16, .ro, 0, false, 0, 65535, 0, 0⟩
def HEALTH.TEMP_ABOVE_HOST_SECONDS : Field := ⟨0xA, 1, 0x160, 0, 32, .ro, 0, false, 0, 4294967295, 0, 0⟩
def HEALTH.TEMP_ABOVE_WARN_SECONDS : Field := ⟨0xA, 1, 0x164, 0, 32, .ro, 0, false, 0, 4294967295, 0, 0⟩
def HEALTH.TEMP_ABOVE_CRIT_SECONDS : Field := ⟨0xA, 1, 0x168, 0, 32, .ro, 0, false, 0, 4294967295, 0, 0⟩
def HEALTH.DAYS_COUNT : Field := ⟨0xA, 1, 0x16C, 0, 32, .ro, 0, false, 0, 4294967295, 0, 0⟩
/-- Every field of the HEALTH page, in the order of its table. -/
def HEALTH.fields : List Field :=
  [HEALTH.SPARE_PCT, HEALTH.SPARE_INIT, HEALTH.SPARE_CFG_WARN, HEALTH.SPARE_CFG_EOL, HEALTH.SPARE_CFG2_FLOOR, HEALTH.GOOD_BLOCKS_COUNT, HEALTH.RETIRED_COUNT, HEALTH.RETIRED_PROG_COUNT, HEALTH.RETIRED_ERASE_COUNT, HEALTH.WEAR_MEAN_PPM, HEALTH.WEAR_MAX_PPM, HEALTH.WEAR_BUDGET_DAY_PPM, HEALTH.WEAR_BUDGET2_YEAR_PPM, HEALTH.WEAR_USED_DAY_PPM, HEALTH.WEAR_USED2_YEAR_PPM, HEALTH.BUDGET_REFUSED_COUNT] ++
  [HEALTH.HCFG_ITER_MEAN, HEALTH.HCFG_MIN_CW, HEALTH.HCFG2_SOFT_PPM, HEALTH.HCFG2_RETRY_PPM, HEALTH.BLOCKS_WATCH_COUNT, HEALTH.BLOCKS_WEAK_COUNT, HEALTH.CRIT_BITS, HEALTH.RATE_REFUSED_COUNT, HEALTH.TEMP_SEL_BIN, HEALTH.TEMP_BIN_SECONDS, HEALTH.TEMP_EXT_MAX, HEALTH.TEMP_EXT_MIN, HEALTH.TEMP_AVG_HUNDREDTHS, HEALTH.TEMP_ABOVE_HOST_SECONDS, HEALTH.TEMP_ABOVE_WARN_SECONDS, HEALTH.TEMP_ABOVE_CRIT_SECONDS] ++
  [HEALTH.DAYS_COUNT]

/-! The BELL page (R397). -/
def BELL.HU_CFG_OK : Field := ⟨0xB, 1, 0x100, 0, 7, .ro, 0, false, 0, 127, 0, 0⟩
def BELL.HU_CFG_FAIL : Field := ⟨0xB, 1, 0x100, 16, 7, .ro, 0, false, 0, 127, 0, 0⟩
def BELL.HU_STAT_OK : Field := ⟨0xB, 1, 0x104, 0, 1, .ro, 0, false, 0, 1, 0, 0⟩
def BELL.HU_STAT_FAIL : Field := ⟨0xB, 1, 0x104, 1, 1, .ro, 0, false, 0, 1, 0, 0⟩
def BELL.HU_STAT_WRITES_HELD : Field := ⟨0xB, 1, 0x104, 2, 1, .ro, 0, false, 0, 1, 0, 0⟩
def BELL.HU_LOW_US : Field := ⟨0xB, 1, 0x108, 0, 32, .rc, 0, true, 0, 4294967295, 0, 0⟩
def BELL.BELL_CAP_MIB : Field := ⟨0xB, 1, 0x10C, 0, 16, .ro, 0, false, 0, 65535, 0, 0⟩
def BELL.BELL_LAST_IMAGE : Field := ⟨0xB, 1, 0x110, 0, 1, .ro, 0, false, 0, 1, 0, 0⟩
def BELL.BELL_LAST_COMPLETE : Field := ⟨0xB, 1, 0x110, 1, 1, .ro, 0, false, 0, 1, 0, 0⟩
def BELL.BELL_LAST_REPLAY : Field := ⟨0xB, 1, 0x110, 2, 1, .ro, 0, false, 0, 1, 0, 0⟩
def BELL.BELL_LAST_UNITS : Field := ⟨0xB, 1, 0x110, 16, 12, .ro, 0, false, 0, 4095, 0, 0⟩
def BELL.BELL_TIME_US : Field := ⟨0xB, 1, 0x114, 0, 13, .ro, 0, false, 0, 8191, 0, 0⟩
def BELL.BELL_ROWS_COUNT : Field := ⟨0xB, 1, 0x118, 0, 13, .ro, 0, false, 0, 8191, 0, 0⟩
def BELL.BELL_FAIL_PROG : Field := ⟨0xB, 1, 0x11C, 0, 8, .ro, 0, false, 0, 255, 0, 0⟩
def BELL.BELL_CNT_COUNT : Field := ⟨0xB, 1, 0x120, 0, 32, .ro, 0, false, 0, 4294967295, 0, 0⟩
def BELL.BELL_SHORT_COUNT : Field := ⟨0xB, 1, 0x124, 0, 16, .ro, 0, false, 0, 65535, 0, 0⟩
def BELL.RB_STAT_PHASE : Field := ⟨0xB, 1, 0x128, 0, 3, .ro, 0, false, 0, 7, 0, 0⟩
def BELL.RB_SEL_PHASE : Field := ⟨0xB, 1, 0x12C, 0, 3, .rw, 1, false, 1, 6, 1, 0⟩
def BELL.RB_TIME_MS : Field := ⟨0xB, 1, 0x130, 0, 16, .ro, 0, false, 0, 65535, 0, 0⟩
def BELL.RB_DELTA_COPIES : Field := ⟨0xB, 1, 0x134, 0, 32, .ro, 0, false, 0, 4294967295, 0, 0⟩
def BELL.RB_VOID_COUNT : Field := ⟨0xB, 1, 0x138, 0, 32, .ro, 0, false, 0, 4294967295, 0, 0⟩
def BELL.RB_UNC_COUNT : Field := ⟨0xB, 1, 0x13C, 0, 32, .ro, 0, false, 0, 4294967295, 0, 0⟩
def BELL.RB_REPLAY_ROWS : Field := ⟨0xB, 1, 0x140, 0, 13, .ro, 0, false, 0, 8191, 0, 0⟩
def BELL.RB_MISMATCH_BLOCKS : Field := ⟨0xB, 1, 0x140, 16, 16, .ro, 0, false, 0, 65535, 0, 0⟩
def BELL.VALID_WALK_ACTIVE : Field := ⟨0xB, 1, 0x144, 0, 1, .ro, 0, false, 0, 1, 0, 4⟩
/-- Every field of the BELL page, in the order of its table. -/
def BELL.fields : List Field :=
  [BELL.HU_CFG_OK, BELL.HU_CFG_FAIL, BELL.HU_STAT_OK, BELL.HU_STAT_FAIL, BELL.HU_STAT_WRITES_HELD, BELL.HU_LOW_US, BELL.BELL_CAP_MIB, BELL.BELL_LAST_IMAGE, BELL.BELL_LAST_COMPLETE, BELL.BELL_LAST_REPLAY, BELL.BELL_LAST_UNITS, BELL.BELL_TIME_US, BELL.BELL_ROWS_COUNT, BELL.BELL_FAIL_PROG, BELL.BELL_CNT_COUNT, BELL.BELL_SHORT_COUNT] ++
  [BELL.RB_STAT_PHASE, BELL.RB_SEL_PHASE, BELL.RB_TIME_MS, BELL.RB_DELTA_COPIES, BELL.RB_VOID_COUNT, BELL.RB_UNC_COUNT, BELL.RB_REPLAY_ROWS, BELL.RB_MISMATCH_BLOCKS, BELL.VALID_WALK_ACTIVE]

/-! The CKPT page (R398). -/
def CKPT.CKPT_LAP_NUM : Field := ⟨0x17, 1, 0x100, 0, 32, .ro, 0, false, 0, 4294967295, 0, 0⟩
def CKPT.CKPT_H_LO_VALUE : Field := ⟨0x17, 1, 0x104, 0, 32, .ro, 0, false, 0, 4294967295, 0, 0⟩
def CKPT.CKPT_H_HI_VALUE : Field := ⟨0x17, 1, 0x108, 0, 32, .ro, 0, false, 0, 4294967295, 0, 0⟩
def CKPT.LAP_LAST_US : Field := ⟨0x17, 1, 0x10C, 0, 20, .ro, 0, false, 0, 1048575, 0, 0⟩
def CKPT.LATE_COUNT : Field := ⟨0x17, 1, 0x110, 0, 16, .rc, 0, true, 0, 65535, 0, 0⟩
def CKPT.LATE_HOLD_US : Field := ⟨0x17, 1, 0x114, 0, 32, .rc, 0, true, 0, 4294967295, 0, 0⟩
def CKPT.LOG_USE_PERMILLE : Field := ⟨0x17, 1, 0x118, 0, 10, .ro, 0, false, 0, 1023, 0, 0⟩
def CKPT.CIRCUIT_PERMILLE : Field := ⟨0x17, 1, 0x11C, 0, 10, .ro, 0, false, 0, 1023, 0, 0⟩
def CKPT.LOG_RATE_MBPS : Field := ⟨0x17, 1, 0x120, 0, 32, .ro, 0, false, 0, 4294967295, 0, 0⟩
def CKPT.CKPT_CFG_CIRCUIT_S : Field := ⟨0x17, 1, 0x124, 0, 14, .rwl, 0xE10, false, 600, 14400, 1, 0⟩
def CKPT.JOURNAL_USE_RECORDS : Field := ⟨0x17, 1, 0x128, 0, 17, .ro, 0, false, 0, 131071, 0, 0⟩
/-- Every field of the CKPT page, in the order of its table. -/
def CKPT.fields : List Field :=
  [CKPT.CKPT_LAP_NUM, CKPT.CKPT_H_LO_VALUE, CKPT.CKPT_H_HI_VALUE, CKPT.LAP_LAST_US, CKPT.LATE_COUNT, CKPT.LATE_HOLD_US, CKPT.LOG_USE_PERMILLE, CKPT.CIRCUIT_PERMILLE, CKPT.LOG_RATE_MBPS, CKPT.CKPT_CFG_CIRCUIT_S, CKPT.JOURNAL_USE_RECORDS]

/-! The CIPHER page (R417). -/
def CIPHER.WRAP_STAT_READY : Field := ⟨0x1B, 1, 0x100, 0, 1, .ro, 0, false, 0, 1, 0, 0⟩
def CIPHER.KEY_SEL_SLOT : Field := ⟨0x1B, 1, 0x104, 0, 8, .rw, 0, false, 0, 255, 1, 0⟩
def CIPHER.KEY_CMD_OP : Field := ⟨0x1B, 1, 0x108, 0, 3, .wo, 0, false, 0, 7, 1, 0⟩
def CIPHER.KEY_CMD_BUSY : Field := ⟨0x1B, 1, 0x108, 31, 1, .ro, 0, false, 0, 1, 0, 4⟩
def CIPHER.KEY_RES_CODE : Field := ⟨0x1B, 1, 0x10C, 0, 3, .ro, 0, false, 0, 7, 0, 3⟩
def CIPHER.KEY_RES_DROPPED : Field := ⟨0x1B, 1, 0x10C, 16, 16, .ro, 0, true, 0, 65535, 0, 1⟩
def CIPHER.SLOT_INFO_LOADED : Field := ⟨0x1B, 1, 0x110, 0, 1, .ro, 0, false, 0, 1, 0, 0⟩
def CIPHER.SLOT_INFO_BAD : Field := ⟨0x1B, 1, 0x110, 1, 1, .ro, 0, false, 0, 1, 0, 0⟩
def CIPHER.SLOT_USE_COUNT : Field := ⟨0x1B, 1, 0x114, 0, 17, .ro, 0, false, 0, 131071, 0, 0⟩
def CIPHER.SLOT_SEQ_SEQ : Field := ⟨0x1B, 1, 0x118, 0, 32, .ro, 0, false, 0, 4294967295, 0, 0⟩
def CIPHER.USER_OWNER_MAP : Field := ⟨0x1B, 1, 0x11C, 0, 32, .rwl, 0, false, 0, 4294967295, 0, 0⟩
def CIPHER.ENC_UNITS_COUNT : Field := ⟨0x1B, 1, 0x120, 0, 32, .ro, 0, false, 0, 4294967295, 0, 0⟩
def CIPHER.DEC_UNITS_COUNT : Field := ⟨0x1B, 1, 0x124, 0, 32, .ro, 0, false, 0, 4294967295, 0, 0⟩
def CIPHER.USER_KIB_COUNT : Field := ⟨0x1B, 1, 0x128, 0, 32, .ro, 0, false, 0, 4294967295, 0, 0⟩
def CIPHER.URG_WAIT_MAX_NS : Field := ⟨0x1B, 1, 0x12C, 0, 16, .rc, 0, false, 0, 65535, 0, 0⟩
def CIPHER.PIPE_USE_ENC : Field := ⟨0x1B, 1, 0x130, 0, 6, .ro, 0, false, 0, 63, 0, 0⟩
def CIPHER.PIPE_USE_DEC : Field := ⟨0x1B, 1, 0x130, 8, 6, .ro, 0, false, 0, 63, 0, 0⟩
def CIPHER.USR_CFG_PIPES : Field := ⟨0x1B, 1, 0x134, 0, 5, .rwl, 4, false, 1, 16, 1, 0⟩
def CIPHER.ERR_REDO : Field := ⟨0x1B, 1, 0x138, 0, 16, .rc, 0, true, 0, 65535, 0, 0⟩
def CIPHER.ERR_SLOT_RELOAD : Field := ⟨0x1B, 1, 0x138, 16, 16, .rc, 0, true, 0, 65535, 0, 0⟩
def CIPHER.ISO_REFUSED_COUNT : Field := ⟨0x1B, 1, 0x13C, 0, 16, .rc, 0, true, 0, 65535, 0, 1⟩
def CIPHER.WRAP_CTR_LO_VALUE : Field := ⟨0x1B, 1, 0x140, 0, 32, .ro, 0, false, 0, 4294967295, 0, 0⟩
def CIPHER.WRAP_CTR_HI_VALUE : Field := ⟨0x1B, 1, 0x144, 0, 32, .ro, 0, false, 0, 4294967295, 0, 0⟩
/-- Every field of the CIPHER page, in the order of its table. -/
def CIPHER.fields : List Field :=
  [CIPHER.WRAP_STAT_READY, CIPHER.KEY_SEL_SLOT, CIPHER.KEY_CMD_OP, CIPHER.KEY_CMD_BUSY, CIPHER.KEY_RES_CODE, CIPHER.KEY_RES_DROPPED, CIPHER.SLOT_INFO_LOADED, CIPHER.SLOT_INFO_BAD, CIPHER.SLOT_USE_COUNT, CIPHER.SLOT_SEQ_SEQ, CIPHER.USER_OWNER_MAP, CIPHER.ENC_UNITS_COUNT, CIPHER.DEC_UNITS_COUNT, CIPHER.USER_KIB_COUNT, CIPHER.URG_WAIT_MAX_NS, CIPHER.PIPE_USE_ENC] ++
  [CIPHER.PIPE_USE_DEC, CIPHER.USR_CFG_PIPES, CIPHER.ERR_REDO, CIPHER.ERR_SLOT_RELOAD, CIPHER.ISO_REFUSED_COUNT, CIPHER.WRAP_CTR_LO_VALUE, CIPHER.WRAP_CTR_HI_VALUE]

/-! The CUSER page (R418). -/
def CUSER.JOB_MODE_MODE : Field := ⟨0x20, 16, 0x100, 0, 3, .rw, 0, false, 0, 5, 3, 0⟩
def CUSER.JOB_MODE_DU : Field := ⟨0x20, 16, 0x100, 8, 2, .rw, 3, false, 0, 3, 3, 0⟩
def CUSER.JOB_MODE_TAG_LEN : Field := ⟨0x20, 16, 0x100, 16, 5, .rw, 0x10, false, 12, 16, 3, 0⟩
def CUSER.JOB_KEY_SLOT : Field := ⟨0x20, 16, 0x104, 0, 9, .rw, 0x100, false, 256, 511, 3, 0⟩
def CUSER.JOB_IV_VALUE (n : Nat) : Field := ⟨0x20, 16, 0x108 + 4 * n, 0, 32, .rw, 0, false, 0, 4294967295, 3, 0⟩
def CUSER.JOB_LEN_BYTES : Field := ⟨0x20, 16, 0x118, 0, 32, .rw, 0, false, 0, 4294967280, 3, 0⟩
def CUSER.JOB_AAD_BYTES : Field := ⟨0x20, 16, 0x11C, 0, 16, .rw, 0, false, 0, 65535, 3, 0⟩
def CUSER.JOB_SRC_KIND : Field := ⟨0x20, 16, 0x120, 0, 2, .rw, 0, false, 0, 2, 3, 0⟩
def CUSER.JOB_SRC_LO_VALUE : Field := ⟨0x20, 16, 0x124, 0, 32, .rw, 0, false, 0, 4294967295, 3, 0⟩
def CUSER.JOB_SRC_HI_VALUE : Field := ⟨0x20, 16, 0x128, 0, 8, .rw, 0, false, 0, 255, 3, 0⟩
def CUSER.JOB_DST_KIND : Field := ⟨0x20, 16, 0x12C, 0, 2, .rw, 0, false, 0, 2, 3, 0⟩
def CUSER.JOB_DST_LO_VALUE : Field := ⟨0x20, 16, 0x130, 0, 32, .rw, 0, false, 0, 4294967295, 3, 0⟩
def CUSER.JOB_DST_HI_VALUE : Field := ⟨0x20, 16, 0x134, 0, 8, .rw, 0, false, 0, 255, 3, 0⟩
def CUSER.JOB_CMD_GO : Field := ⟨0x20, 16, 0x138, 0, 1, .wo, 0, false, 0, 1, 3, 0⟩
def CUSER.JOB_CMD_FIRST : Field := ⟨0x20, 16, 0x138, 1, 1, .wo, 0, false, 0, 1, 3, 0⟩
def CUSER.JOB_CMD_LAST : Field := ⟨0x20, 16, 0x138, 2, 1, .wo, 0, false, 0, 1, 3, 0⟩
def CUSER.JOB_CMD_ABORT : Field := ⟨0x20, 16, 0x138, 4, 1, .wo, 0, false, 0, 1, 3, 0⟩
def CUSER.JOB_CMD_SAVE : Field := ⟨0x20, 16, 0x138, 8, 1, .wo, 0, false, 0, 1, 3, 0⟩
def CUSER.JOB_CMD_RESTORE : Field := ⟨0x20, 16, 0x138, 9, 1, .wo, 0, false, 0, 1, 3, 0⟩
def CUSER.JOB_STAT_BUSY : Field := ⟨0x20, 16, 0x13C, 0, 1, .ro, 0, false, 0, 1, 0, 4⟩
def CUSER.JOB_STAT_CODE : Field := ⟨0x20, 16, 0x13C, 4, 4, .ro, 0, false, 0, 15, 0, 3⟩
def CUSER.JOB_STAT_TAG_OK : Field := ⟨0x20, 16, 0x13C, 8, 1, .ro, 0, false, 0, 1, 0, 0⟩
def CUSER.JOB_STAT_CHAINED : Field := ⟨0x20, 16, 0x13C, 9, 1, .ro, 0, false, 0, 1, 0, 0⟩
def CUSER.JOB_STAT_DROPPED : Field := ⟨0x20, 16, 0x13C, 16, 16, .ro, 0, true, 0, 65535, 0, 1⟩
def CUSER.JOB_TAG_VALUE (n : Nat) : Field := ⟨0x20, 16, 0x140 + 4 * n, 0, 32, .ro, 0, false, 0, 4294967295, 0, 0⟩
def CUSER.TAG_EXP_VALUE (n : Nat) : Field := ⟨0x20, 16, 0x150 + 4 * n, 0, 32, .wo, 0, false, 0, 4294967295, 3, 0⟩
def CUSER.KEY_W_VALUE (n : Nat) : Field := ⟨0x20, 16, 0x160 + 4 * n, 0, 32, .wo, 0, false, 0, 4294967295, 3, 0⟩
def CUSER.KEY_CMD_OP : Field := ⟨0x20, 16, 0x1A0, 0, 3, .wo, 0, false, 0, 7, 3, 0⟩
def CUSER.KEY_CMD_SLOT : Field := ⟨0x20, 16, 0x1A0, 8, 9, .wo, 0x100, false, 0, 511, 3, 0⟩
def CUSER.KEY_RES_CODE : Field := ⟨0x20, 16, 0x1A4, 0, 3, .ro, 0, false, 0, 7, 0, 3⟩
def CUSER.JOB_DONE_BYTES : Field := ⟨0x20, 16, 0x1A8, 0, 32, .ro, 0, false, 0, 4294967295, 0, 0⟩
/-- Every field of the CUSER page, in the order of its table. -/
def CUSER.fields : List Field :=
  [CUSER.JOB_MODE_MODE, CUSER.JOB_MODE_DU, CUSER.JOB_MODE_TAG_LEN, CUSER.JOB_KEY_SLOT, CUSER.JOB_IV_VALUE 0, CUSER.JOB_IV_VALUE 1, CUSER.JOB_IV_VALUE 2, CUSER.JOB_IV_VALUE 3, CUSER.JOB_LEN_BYTES, CUSER.JOB_AAD_BYTES, CUSER.JOB_SRC_KIND, CUSER.JOB_SRC_LO_VALUE, CUSER.JOB_SRC_HI_VALUE, CUSER.JOB_DST_KIND, CUSER.JOB_DST_LO_VALUE, CUSER.JOB_DST_HI_VALUE] ++
  [CUSER.JOB_CMD_GO, CUSER.JOB_CMD_FIRST, CUSER.JOB_CMD_LAST, CUSER.JOB_CMD_ABORT, CUSER.JOB_CMD_SAVE, CUSER.JOB_CMD_RESTORE, CUSER.JOB_STAT_BUSY, CUSER.JOB_STAT_CODE, CUSER.JOB_STAT_TAG_OK, CUSER.JOB_STAT_CHAINED, CUSER.JOB_STAT_DROPPED, CUSER.JOB_TAG_VALUE 0, CUSER.JOB_TAG_VALUE 1, CUSER.JOB_TAG_VALUE 2, CUSER.JOB_TAG_VALUE 3, CUSER.TAG_EXP_VALUE 0] ++
  [CUSER.TAG_EXP_VALUE 1, CUSER.TAG_EXP_VALUE 2, CUSER.TAG_EXP_VALUE 3, CUSER.KEY_W_VALUE 0, CUSER.KEY_W_VALUE 1, CUSER.KEY_W_VALUE 2, CUSER.KEY_W_VALUE 3, CUSER.KEY_W_VALUE 4, CUSER.KEY_W_VALUE 5, CUSER.KEY_W_VALUE 6, CUSER.KEY_W_VALUE 7, CUSER.KEY_W_VALUE 8, CUSER.KEY_W_VALUE 9, CUSER.KEY_W_VALUE 10, CUSER.KEY_W_VALUE 11, CUSER.KEY_W_VALUE 12] ++
  [CUSER.KEY_W_VALUE 13, CUSER.KEY_W_VALUE 14, CUSER.KEY_W_VALUE 15, CUSER.KEY_CMD_OP, CUSER.KEY_CMD_SLOT, CUSER.KEY_RES_CODE, CUSER.JOB_DONE_BYTES]

/-! The PORTER page (R438). -/
def PORTER.FW_CFG_RATE : Field := ⟨0x1C, 1, 0x100, 0, 7, .rwl, 8, false, 1, 64, 1, 0⟩
def PORTER.ACT_USE_CHANNELS : Field := ⟨0x1C, 1, 0x104, 0, 7, .ro, 0, false, 0, 127, 0, 0⟩
def PORTER.ACT_USE_VOTE : Field := ⟨0x1C, 1, 0x104, 8, 1, .ro, 0, false, 0, 1, 0, 0⟩
def PORTER.LATE_ERR_COUNT : Field := ⟨0x1C, 1, 0x108, 0, 16, .rc, 0, true, 0, 65535, 0, 0⟩
def PORTER.TOKEN_LOST_COUNT : Field := ⟨0x1C, 1, 0x108, 16, 16, .rc, 0, true, 0, 65535, 0, 0⟩
def PORTER.ISO_REFUSED_COUNT : Field := ⟨0x1C, 1, 0x10C, 0, 16, .rc, 0, true, 0, 65535, 0, 1⟩
def PORTER.DESC_BAD_COUNT : Field := ⟨0x1C, 1, 0x10C, 16, 16, .rc, 0, true, 0, 65535, 0, 0⟩
def PORTER.AGED_COUNT : Field := ⟨0x1C, 1, 0x110, 0, 16, .rc, 0, true, 0, 65535, 0, 0⟩
def PORTER.EGRESS_BURSTS_COUNT : Field := ⟨0x1C, 1, 0x114, 0, 32, .ro, 0, false, 0, 4294967295, 0, 0⟩
def PORTER.URG_WAIT_MAX_NS : Field := ⟨0x1C, 1, 0x118, 0, 16, .rc, 0, false, 0, 65535, 0, 0⟩
def PORTER.FILL_KIB_COUNT : Field := ⟨0x1C, 1, 0x11C, 0, 32, .ro, 0, false, 0, 4294967295, 0, 0⟩
def PORTER.TMR_PERIOD_TICKS (n : Nat) : Field := ⟨0x1C, 1, 0x200 + 16 * n, 0, 32, .rw, 0, false, 10, 4294967295, 3, 0⟩
def PORTER.TMR_CTRL_ENABLE (n : Nat) : Field := ⟨0x1C, 1, 0x204 + 16 * n, 0, 1, .rw, 0, false, 0, 1, 3, 0⟩
def PORTER.TMR_CTRL_ONE_SHOT (n : Nat) : Field := ⟨0x1C, 1, 0x204 + 16 * n, 1, 1, .rw, 0, false, 0, 1, 3, 0⟩
def PORTER.TMR_OWNER_OWNER (n : Nat) : Field := ⟨0x1C, 1, 0x208 + 16 * n, 0, 2, .ro, 0, false, 0, 3, 0, 0⟩
def PORTER.TMR_STAT_EXPIRIES (n : Nat) : Field := ⟨0x1C, 1, 0x20C + 16 * n, 0, 16, .rc, 0, true, 0, 65535, 0, 0⟩
/-- Every field of the PORTER page, in the order of its table. -/
def PORTER.fields : List Field :=
  [PORTER.FW_CFG_RATE, PORTER.ACT_USE_CHANNELS, PORTER.ACT_USE_VOTE, PORTER.LATE_ERR_COUNT, PORTER.TOKEN_LOST_COUNT, PORTER.ISO_REFUSED_COUNT, PORTER.DESC_BAD_COUNT, PORTER.AGED_COUNT, PORTER.EGRESS_BURSTS_COUNT, PORTER.URG_WAIT_MAX_NS, PORTER.FILL_KIB_COUNT, PORTER.TMR_PERIOD_TICKS 0, PORTER.TMR_PERIOD_TICKS 1, PORTER.TMR_PERIOD_TICKS 2, PORTER.TMR_PERIOD_TICKS 3, PORTER.TMR_PERIOD_TICKS 4] ++
  [PORTER.TMR_PERIOD_TICKS 5, PORTER.TMR_PERIOD_TICKS 6, PORTER.TMR_PERIOD_TICKS 7, PORTER.TMR_PERIOD_TICKS 8, PORTER.TMR_PERIOD_TICKS 9, PORTER.TMR_PERIOD_TICKS 10, PORTER.TMR_PERIOD_TICKS 11, PORTER.TMR_PERIOD_TICKS 12, PORTER.TMR_PERIOD_TICKS 13, PORTER.TMR_PERIOD_TICKS 14, PORTER.TMR_PERIOD_TICKS 15, PORTER.TMR_CTRL_ENABLE 0, PORTER.TMR_CTRL_ENABLE 1, PORTER.TMR_CTRL_ENABLE 2, PORTER.TMR_CTRL_ENABLE 3, PORTER.TMR_CTRL_ENABLE 4] ++
  [PORTER.TMR_CTRL_ENABLE 5, PORTER.TMR_CTRL_ENABLE 6, PORTER.TMR_CTRL_ENABLE 7, PORTER.TMR_CTRL_ENABLE 8, PORTER.TMR_CTRL_ENABLE 9, PORTER.TMR_CTRL_ENABLE 10, PORTER.TMR_CTRL_ENABLE 11, PORTER.TMR_CTRL_ENABLE 12, PORTER.TMR_CTRL_ENABLE 13, PORTER.TMR_CTRL_ENABLE 14, PORTER.TMR_CTRL_ENABLE 15, PORTER.TMR_CTRL_ONE_SHOT 0, PORTER.TMR_CTRL_ONE_SHOT 1, PORTER.TMR_CTRL_ONE_SHOT 2, PORTER.TMR_CTRL_ONE_SHOT 3, PORTER.TMR_CTRL_ONE_SHOT 4] ++
  [PORTER.TMR_CTRL_ONE_SHOT 5, PORTER.TMR_CTRL_ONE_SHOT 6, PORTER.TMR_CTRL_ONE_SHOT 7, PORTER.TMR_CTRL_ONE_SHOT 8, PORTER.TMR_CTRL_ONE_SHOT 9, PORTER.TMR_CTRL_ONE_SHOT 10, PORTER.TMR_CTRL_ONE_SHOT 11, PORTER.TMR_CTRL_ONE_SHOT 12, PORTER.TMR_CTRL_ONE_SHOT 13, PORTER.TMR_CTRL_ONE_SHOT 14, PORTER.TMR_CTRL_ONE_SHOT 15, PORTER.TMR_OWNER_OWNER 0, PORTER.TMR_OWNER_OWNER 1, PORTER.TMR_OWNER_OWNER 2, PORTER.TMR_OWNER_OWNER 3, PORTER.TMR_OWNER_OWNER 4] ++
  [PORTER.TMR_OWNER_OWNER 5, PORTER.TMR_OWNER_OWNER 6, PORTER.TMR_OWNER_OWNER 7, PORTER.TMR_OWNER_OWNER 8, PORTER.TMR_OWNER_OWNER 9, PORTER.TMR_OWNER_OWNER 10, PORTER.TMR_OWNER_OWNER 11, PORTER.TMR_OWNER_OWNER 12, PORTER.TMR_OWNER_OWNER 13, PORTER.TMR_OWNER_OWNER 14, PORTER.TMR_OWNER_OWNER 15, PORTER.TMR_STAT_EXPIRIES 0, PORTER.TMR_STAT_EXPIRIES 1, PORTER.TMR_STAT_EXPIRIES 2, PORTER.TMR_STAT_EXPIRIES 3, PORTER.TMR_STAT_EXPIRIES 4] ++
  [PORTER.TMR_STAT_EXPIRIES 5, PORTER.TMR_STAT_EXPIRIES 6, PORTER.TMR_STAT_EXPIRIES 7, PORTER.TMR_STAT_EXPIRIES 8, PORTER.TMR_STAT_EXPIRIES 9, PORTER.TMR_STAT_EXPIRIES 10, PORTER.TMR_STAT_EXPIRIES 11, PORTER.TMR_STAT_EXPIRIES 12, PORTER.TMR_STAT_EXPIRIES 13, PORTER.TMR_STAT_EXPIRIES 14, PORTER.TMR_STAT_EXPIRIES 15]

/-! The PCHAN page (R439). -/
def PCHAN.CH_OWNER_OWNER : Field := ⟨0x30, 64, 0x100, 0, 2, .ro, 0, false, 0, 3, 0, 0⟩
def PCHAN.CH_CTRL_ENABLE : Field := ⟨0x30, 64, 0x104, 0, 1, .rw, 0, false, 0, 1, 3, 0⟩
def PCHAN.CH_CTRL_GO : Field := ⟨0x30, 64, 0x104, 1, 1, .wo, 0, false, 0, 1, 3, 0⟩
def PCHAN.CH_CTRL_STOP : Field := ⟨0x30, 64, 0x104, 2, 1, .wo, 0, false, 0, 1, 3, 0⟩
def PCHAN.CH_CFG_PRIO : Field := ⟨0x30, 64, 0x108, 0, 2, .rw, 0, false, 0, 3, 3, 0⟩
def PCHAN.CH_CFG_START_KIND : Field := ⟨0x30, 64, 0x108, 8, 2, .rw, 0, false, 0, 2, 3, 0⟩
def PCHAN.CH_CFG_START_IDX : Field := ⟨0x30, 64, 0x108, 16, 6, .rw, 0, false, 0, 63, 3, 0⟩
def PCHAN.CH_CFG_CUSER_EN : Field := ⟨0x30, 64, 0x108, 24, 1, .rw, 0, false, 0, 1, 3, 0⟩
def PCHAN.CH_CFG_CUSER : Field := ⟨0x30, 64, 0x108, 28, 4, .rw, 0, false, 0, 15, 3, 0⟩
def PCHAN.RING_BASE_LO_VALUE : Field := ⟨0x30, 64, 0x10C, 0, 32, .rw, 0, false, 0, 4294967295, 3, 0⟩
def PCHAN.RING_BASE_HI_VALUE : Field := ⟨0x30, 64, 0x110, 0, 8, .rw, 0, false, 0, 255, 3, 0⟩
def PCHAN.RING_SIZE_LOG2 : Field := ⟨0x30, 64, 0x114, 0, 4, .rw, 4, false, 4, 12, 3, 0⟩
def PCHAN.RING_TAIL_INDEX : Field := ⟨0x30, 64, 0x118, 0, 12, .rw, 0, false, 0, 4095, 3, 0⟩
def PCHAN.RING_HEAD_INDEX : Field := ⟨0x30, 64, 0x118, 16, 12, .ro, 0, false, 0, 4095, 0, 0⟩
def PCHAN.CH_STAT_TOKENS : Field := ⟨0x30, 64, 0x11C, 0, 4, .ro, 0, false, 0, 15, 0, 0⟩
def PCHAN.CH_STAT_STATE : Field := ⟨0x30, 64, 0x11C, 4, 4, .ro, 0, false, 0, 15, 0, 5⟩
def PCHAN.CH_STAT_CPL_USE : Field := ⟨0x30, 64, 0x11C, 8, 5, .ro, 0, false, 0, 31, 0, 0⟩
def PCHAN.CPL_TAG : Field := ⟨0x30, 64, 0x120, 0, 16, .ro, 0, false, 0, 65535, 0, 0⟩
def PCHAN.CPL_CODE : Field := ⟨0x30, 64, 0x120, 16, 4, .ro, 0, false, 0, 15, 0, 0⟩
def PCHAN.CPL_LATE : Field := ⟨0x30, 64, 0x120, 20, 1, .ro, 0, false, 0, 1, 0, 0⟩
def PCHAN.CPL_INJ : Field := ⟨0x30, 64, 0x120, 21, 1, .ro, 0, false, 0, 1, 0, 0⟩
def PCHAN.CPL_VALID : Field := ⟨0x30, 64, 0x120, 31, 1, .ro, 0, false, 0, 1, 0, 0⟩
def PCHAN.CPL_BYTES_BYTES : Field := ⟨0x30, 64, 0x124, 0, 25, .ro, 0, false, 0, 33554431, 0, 0⟩
def PCHAN.CPL_POP_POP : Field := ⟨0x30, 64, 0x128, 0, 1, .wo, 0, false, 0, 1, 3, 0⟩
def PCHAN.CH_CNT_DESCS : Field := ⟨0x30, 64, 0x12C, 0, 32, .ro, 0, false, 0, 4294967295, 0, 0⟩
def PCHAN.CH_ERR_COUNT : Field := ⟨0x30, 64, 0x130, 0, 16, .rc, 0, true, 0, 65535, 0, 0⟩
/-- Every field of the PCHAN page, in the order of its table. -/
def PCHAN.fields : List Field :=
  [PCHAN.CH_OWNER_OWNER, PCHAN.CH_CTRL_ENABLE, PCHAN.CH_CTRL_GO, PCHAN.CH_CTRL_STOP, PCHAN.CH_CFG_PRIO, PCHAN.CH_CFG_START_KIND, PCHAN.CH_CFG_START_IDX, PCHAN.CH_CFG_CUSER_EN, PCHAN.CH_CFG_CUSER, PCHAN.RING_BASE_LO_VALUE, PCHAN.RING_BASE_HI_VALUE, PCHAN.RING_SIZE_LOG2, PCHAN.RING_TAIL_INDEX, PCHAN.RING_HEAD_INDEX, PCHAN.CH_STAT_TOKENS, PCHAN.CH_STAT_STATE] ++
  [PCHAN.CH_STAT_CPL_USE, PCHAN.CPL_TAG, PCHAN.CPL_CODE, PCHAN.CPL_LATE, PCHAN.CPL_INJ, PCHAN.CPL_VALID, PCHAN.CPL_BYTES_BYTES, PCHAN.CPL_POP_POP, PCHAN.CH_CNT_DESCS, PCHAN.CH_ERR_COUNT]

/-! The XCLK page (R463). -/
def XCLK.CLK_SEL_ISLAND : Field := ⟨0x5, 1, 0x100, 0, 7, .rw, 0, false, 0, 116, 1, 0⟩
def XCLK.CLK_INFO_MHZ : Field := ⟨0x5, 1, 0x104, 0, 12, .ro, 0, false, 0, 4095, 0, 0⟩
def XCLK.CLK_INFO_GATED : Field := ⟨0x5, 1, 0x104, 16, 1, .ro, 0, false, 0, 1, 0, 0⟩
def XCLK.CLK_INFO_POWERED : Field := ⟨0x5, 1, 0x104, 17, 1, .ro, 0, false, 0, 1, 0, 0⟩
def XCLK.GATE_CFG_IDLE : Field := ⟨0x5, 1, 0x108, 0, 16, .rwl, 0x100, false, 64, 65535, 1, 0⟩
def XCLK.GATE_CFG_ENABLE : Field := ⟨0x5, 1, 0x108, 16, 1, .rwl, 1, false, 0, 1, 1, 0⟩
def XCLK.XMODE_MODE : Field := ⟨0x5, 1, 0x10C, 0, 2, .ro, 1, false, 0, 3, 0, 0⟩
def XCLK.WAKE_CNT_COUNT : Field := ⟨0x5, 1, 0x110, 0, 32, .ro, 0, false, 0, 4294967295, 0, 0⟩
def XCLK.WAKE_MAX_NS : Field := ⟨0x5, 1, 0x114, 0, 8, .rc, 0, false, 0, 255, 0, 0⟩
def XCLK.XWD_FIRE_COUNT : Field := ⟨0x5, 1, 0x118, 0, 16, .rc, 0, true, 0, 65535, 0, 2⟩
def XCLK.XWD_LAST_SRC : Field := ⟨0x5, 1, 0x11C, 0, 7, .ro, 0, false, 0, 127, 0, 0⟩
def XCLK.XWD_LAST_DST : Field := ⟨0x5, 1, 0x11C, 8, 7, .ro, 0, false, 0, 127, 0, 0⟩
def XCLK.XWD_LAST_WAKE : Field := ⟨0x5, 1, 0x11C, 16, 1, .ro, 0, false, 0, 1, 0, 0⟩
def XCLK.DSAMP_DISAGREE : Field := ⟨0x5, 1, 0x120, 0, 32, .rc, 0, true, 0, 4294967295, 0, 0⟩
def XCLK.OFF_ACCESS_COUNT : Field := ⟨0x5, 1, 0x124, 0, 16, .rc, 0, true, 0, 65535, 0, 0⟩
def XCLK.RESET_DROP_COUNT : Field := ⟨0x5, 1, 0x124, 16, 16, .rc, 0, true, 0, 65535, 0, 1⟩
/-- Every field of the XCLK page, in the order of its table. -/
def XCLK.fields : List Field :=
  [XCLK.CLK_SEL_ISLAND, XCLK.CLK_INFO_MHZ, XCLK.CLK_INFO_GATED, XCLK.CLK_INFO_POWERED, XCLK.GATE_CFG_IDLE, XCLK.GATE_CFG_ENABLE, XCLK.XMODE_MODE, XCLK.WAKE_CNT_COUNT, XCLK.WAKE_MAX_NS, XCLK.XWD_FIRE_COUNT, XCLK.XWD_LAST_SRC, XCLK.XWD_LAST_DST, XCLK.XWD_LAST_WAKE, XCLK.DSAMP_DISAGREE, XCLK.OFF_ACCESS_COUNT, XCLK.RESET_DROP_COUNT]

/-! The POWER page (R486). -/
def POWER.PS_CUR_SELECTED : Field := ⟨0x4, 1, 0x100, 0, 3, .ro, 0, false, 0, 7, 0, 0⟩
def POWER.PS_CUR_EFFECTIVE : Field := ⟨0x4, 1, 0x100, 4, 3, .ro, 0, false, 0, 7, 0, 0⟩
def POWER.PS_CUR_TRANSITION : Field := ⟨0x4, 1, 0x100, 8, 1, .ro, 0, false, 0, 1, 0, 0⟩
def POWER.PS_CUR_AUTO : Field := ⟨0x4, 1, 0x100, 9, 1, .ro, 0, false, 0, 1, 0, 0⟩
def POWER.DOM_STAT_ON : Field := ⟨0x4, 1, 0x104, 0, 17, .ro, 1, false, 0, 131071, 0, 0⟩
def POWER.VOTE_SEL_CLIENT : Field := ⟨0x4, 1, 0x108, 0, 11, .rw, 0, false, 0, 2047, 1, 0⟩
def POWER.VOTE_MAP_DOMAINS : Field := ⟨0x4, 1, 0x10C, 0, 17, .ro, 0, false, 0, 131071, 0, 0⟩
def POWER.POL_VOTE_DOMAINS : Field := ⟨0x4, 1, 0x110, 0, 17, .rw, 0, false, 0, 131071, 1, 0⟩
def POWER.MGT_VOTE_DOMAINS : Field := ⟨0x4, 1, 0x114, 0, 17, .rw, 0, false, 0, 131071, 6, 0⟩
def POWER.DVFS_REQ_CORE_CLK : Field := ⟨0x4, 1, 0x118, 0, 5, .rw, 0x18, false, 4, 24, 1, 0⟩
def POWER.DVFS_REQ_VDD : Field := ⟨0x4, 1, 0x118, 8, 5, .rw, 0, false, 0, 20, 1, 0⟩
def POWER.DVFS_STAT_CORE_CLK : Field := ⟨0x4, 1, 0x11C, 0, 5, .ro, 0, false, 0, 31, 0, 0⟩
def POWER.DVFS_STAT_VDD : Field := ⟨0x4, 1, 0x11C, 8, 5, .ro, 0, false, 0, 31, 0, 0⟩
def POWER.DVFS_STAT_HELD : Field := ⟨0x4, 1, 0x11C, 16, 1, .ro, 0, false, 0, 1, 0, 0⟩
def POWER.DVFS_HOLD_COUNT : Field := ⟨0x4, 1, 0x120, 0, 16, .rc, 0, true, 0, 65535, 0, 0⟩
def POWER.VR_CFG_SETTLE_US : Field := ⟨0x4, 1, 0x124, 0, 10, .rwl, 0x64, false, 20, 1000, 1, 0⟩
def POWER.CEIL_WAIT_COUNT : Field := ⟨0x4, 1, 0x128, 0, 16, .rc, 0, true, 0, 65535, 0, 0⟩
def POWER.NONOP_WAIT_COUNT : Field := ⟨0x4, 1, 0x128, 16, 16, .rc, 0, true, 0, 65535, 0, 0⟩
def POWER.APST_BLOCKED_COUNT : Field := ⟨0x4, 1, 0x12C, 0, 16, .rc, 0, true, 0, 65535, 0, 0⟩
def POWER.INT_EXIT_COUNT : Field := ⟨0x4, 1, 0x12C, 16, 16, .rc, 0, true, 0, 65535, 0, 0⟩
def POWER.POWER_WAIT_MAX_US : Field := ⟨0x4, 1, 0x130, 0, 16, .rc, 0, false, 0, 65535, 0, 0⟩
def POWER.PS_TIME_SEL_STATE : Field := ⟨0x4, 1, 0x134, 0, 3, .rw, 0, false, 0, 4, 1, 0⟩
def POWER.PS_TIME_SECONDS : Field := ⟨0x4, 1, 0x138, 0, 32, .ro, 0, true, 0, 4294967295, 0, 0⟩
def POWER.VOTE_REFUSED_COUNT : Field := ⟨0x4, 1, 0x13C, 0, 16, .rc, 0, true, 0, 65535, 0, 0⟩
def POWER.THERM_CFG_WCTEMP : Field := ⟨0x4, 1, 0x140, 0, 8, .ro, 0, false, 0, 255, 0, 0⟩
def POWER.THERM_CFG_CCTEMP : Field := ⟨0x4, 1, 0x140, 8, 8, .ro, 0, false, 0, 255, 0, 0⟩
def POWER.THERM_CFG_OVERRIDE : Field := ⟨0x4, 1, 0x140, 16, 8, .ro, 0, false, 0, 255, 0, 0⟩
def POWER.THERM_CFG_SHUTDOWN : Field := ⟨0x4, 1, 0x140, 24, 8, .ro, 0, false, 0, 255, 0, 0⟩
def POWER.THERM_CFG2_RESTART : Field := ⟨0x4, 1, 0x144, 0, 8, .ro, 0, false, 0, 255, 0, 0⟩
def POWER.TEMP_SEL_SENSOR : Field := ⟨0x4, 1, 0x148, 0, 5, .rw, 0, false, 0, 19, 1, 0⟩
def POWER.TEMP_VAL_C : Field := ⟨0x4, 1, 0x14C, 0, 8, .ro, 0, false, 0, 255, 0, 0⟩
def POWER.TEMP_VAL_COMPOSITE : Field := ⟨0x4, 1, 0x14C, 8, 8, .ro, 0, false, 0, 255, 0, 0⟩
def POWER.THERM_STAT_ALERT : Field := ⟨0x4, 1, 0x150, 0, 1, .ro, 0, false, 0, 1, 0, 0⟩
def POWER.THERM_STAT_OVERRIDE : Field := ⟨0x4, 1, 0x150, 1, 1, .ro, 0, false, 0, 1, 0, 0⟩
def POWER.THERM_STAT_OVERRIDES : Field := ⟨0x4, 1, 0x150, 16, 16, .ro, 0, true, 0, 65535, 0, 0⟩
/-- Every field of the POWER page, in the order of its table. -/
def POWER.fields : List Field :=
  [POWER.PS_CUR_SELECTED, POWER.PS_CUR_EFFECTIVE, POWER.PS_CUR_TRANSITION, POWER.PS_CUR_AUTO, POWER.DOM_STAT_ON, POWER.VOTE_SEL_CLIENT, POWER.VOTE_MAP_DOMAINS, POWER.POL_VOTE_DOMAINS, POWER.MGT_VOTE_DOMAINS, POWER.DVFS_REQ_CORE_CLK, POWER.DVFS_REQ_VDD, POWER.DVFS_STAT_CORE_CLK, POWER.DVFS_STAT_VDD, POWER.DVFS_STAT_HELD, POWER.DVFS_HOLD_COUNT, POWER.VR_CFG_SETTLE_US] ++
  [POWER.CEIL_WAIT_COUNT, POWER.NONOP_WAIT_COUNT, POWER.APST_BLOCKED_COUNT, POWER.INT_EXIT_COUNT, POWER.POWER_WAIT_MAX_US, POWER.PS_TIME_SEL_STATE, POWER.PS_TIME_SECONDS, POWER.VOTE_REFUSED_COUNT, POWER.THERM_CFG_WCTEMP, POWER.THERM_CFG_CCTEMP, POWER.THERM_CFG_OVERRIDE, POWER.THERM_CFG_SHUTDOWN, POWER.THERM_CFG2_RESTART, POWER.TEMP_SEL_SENSOR, POWER.TEMP_VAL_C, POWER.TEMP_VAL_COMPOSITE] ++
  [POWER.THERM_STAT_ALERT, POWER.THERM_STAT_OVERRIDE, POWER.THERM_STAT_OVERRIDES]

/-! The CORESYS page (R506). -/
def CORESYS.CORE_RST_GO : Field := ⟨0x6, 1, 0x100, 0, 1, .wo, 0, false, 0, 1, 3, 0⟩
def CORESYS.CORE_LAST_CAUSE : Field := ⟨0x6, 1, 0x104, 0, 4, .ro, 0, false, 0, 15, 0, 0⟩
def CORESYS.CORE_LAST_HART : Field := ⟨0x6, 1, 0x104, 8, 3, .ro, 0, false, 0, 7, 0, 0⟩
def CORESYS.CORE_LAST_T_LO_VALUE : Field := ⟨0x6, 1, 0x108, 0, 32, .ro, 0, false, 0, 4294967295, 0, 0⟩
def CORESYS.CORE_LAST_T_HI_VALUE : Field := ⟨0x6, 1, 0x10C, 0, 32, .ro, 0, false, 0, 4294967295, 0, 0⟩
def CORESYS.CORE_RST_CNT_COUNT : Field := ⟨0x6, 1, 0x110, 0, 16, .ro, 0, true, 0, 65535, 0, 0⟩
def CORESYS.WDOG_SEL_HART : Field := ⟨0x6, 1, 0x114, 0, 3, .rw, 0, false, 0, 7, 3, 0⟩
def CORESYS.WDOG_CFG_PERIOD_MS : Field := ⟨0x6, 1, 0x118, 0, 14, .rwl, 0x3E8, false, 1, 10000, 1, 0⟩
def CORESYS.WDOG_KICK_KEY : Field := ⟨0x6, 1, 0x11C, 0, 16, .wo, 0, false, 0, 65535, 1, 0⟩
def CORESYS.WDOG_STAT_LEFT_MS : Field := ⟨0x6, 1, 0x120, 0, 14, .ro, 0, false, 0, 16383, 0, 0⟩
def CORESYS.WDOG_STAT_WARN : Field := ⟨0x6, 1, 0x120, 16, 1, .ro, 0, false, 0, 1, 0, 0⟩
def CORESYS.WDOG_STAT_BAD_KICK : Field := ⟨0x6, 1, 0x120, 24, 8, .rc, 0, true, 0, 255, 0, 1⟩
def CORESYS.MWDOG_CFG_PERIOD_MS : Field := ⟨0x6, 1, 0x124, 0, 14, .rwl, 0x7D0, false, 10, 10000, 1, 0⟩
def CORESYS.MWDOG_KICK_KEY : Field := ⟨0x6, 1, 0x128, 0, 16, .wo, 0, false, 0, 65535, 2, 0⟩
def CORESYS.MGT_RESTART_COUNT : Field := ⟨0x6, 1, 0x12C, 0, 8, .ro, 0, true, 0, 255, 0, 0⟩
def CORESYS.MGT_DRAM_BASE : Field := ⟨0x6, 1, 0x130, 0, 2, .rw, 0, false, 0, 3, 2, 0⟩
def CORESYS.IRQ_SEL_SOURCE : Field := ⟨0x6, 1, 0x134, 0, 9, .rw, 0, false, 0, 511, 3, 0⟩
def CORESYS.IRQ_ROUTE_DEST : Field := ⟨0x6, 1, 0x138, 0, 2, .rwl, 0, false, 0, 3, 0, 0⟩
def CORESYS.MTIMECMP_LO_VALUE (n : Nat) : Field := ⟨0x6, 1, 0x140 + 8 * n, 0, 32, .rw, 4294967295, false, 0, 4294967295, 3, 0⟩
def CORESYS.MTIMECMP_HI_VALUE (n : Nat) : Field := ⟨0x6, 1, 0x144 + 8 * n, 0, 32, .rw, 4294967295, false, 0, 4294967295, 3, 0⟩
def CORESYS.MTIME_LO_VALUE : Field := ⟨0x6, 1, 0x190, 0, 32, .ro, 0, false, 0, 4294967295, 0, 0⟩
def CORESYS.MTIME_HI_VALUE : Field := ⟨0x6, 1, 0x194, 0, 32, .ro, 0, false, 0, 4294967295, 0, 0⟩
/-- Every field of the CORESYS page, in the order of its table. -/
def CORESYS.fields : List Field :=
  [CORESYS.CORE_RST_GO, CORESYS.CORE_LAST_CAUSE, CORESYS.CORE_LAST_HART, CORESYS.CORE_LAST_T_LO_VALUE, CORESYS.CORE_LAST_T_HI_VALUE, CORESYS.CORE_RST_CNT_COUNT, CORESYS.WDOG_SEL_HART, CORESYS.WDOG_CFG_PERIOD_MS, CORESYS.WDOG_KICK_KEY, CORESYS.WDOG_STAT_LEFT_MS, CORESYS.WDOG_STAT_WARN, CORESYS.WDOG_STAT_BAD_KICK, CORESYS.MWDOG_CFG_PERIOD_MS, CORESYS.MWDOG_KICK_KEY, CORESYS.MGT_RESTART_COUNT, CORESYS.MGT_DRAM_BASE] ++
  [CORESYS.IRQ_SEL_SOURCE, CORESYS.IRQ_ROUTE_DEST, CORESYS.MTIMECMP_LO_VALUE 0, CORESYS.MTIMECMP_LO_VALUE 1, CORESYS.MTIMECMP_LO_VALUE 2, CORESYS.MTIMECMP_LO_VALUE 3, CORESYS.MTIMECMP_LO_VALUE 4, CORESYS.MTIMECMP_LO_VALUE 5, CORESYS.MTIMECMP_LO_VALUE 6, CORESYS.MTIMECMP_LO_VALUE 7, CORESYS.MTIMECMP_LO_VALUE 8, CORESYS.MTIMECMP_LO_VALUE 9, CORESYS.MTIMECMP_HI_VALUE 0, CORESYS.MTIMECMP_HI_VALUE 1, CORESYS.MTIMECMP_HI_VALUE 2, CORESYS.MTIMECMP_HI_VALUE 3] ++
  [CORESYS.MTIMECMP_HI_VALUE 4, CORESYS.MTIMECMP_HI_VALUE 5, CORESYS.MTIMECMP_HI_VALUE 6, CORESYS.MTIMECMP_HI_VALUE 7, CORESYS.MTIMECMP_HI_VALUE 8, CORESYS.MTIMECMP_HI_VALUE 9, CORESYS.MTIME_LO_VALUE, CORESYS.MTIME_HI_VALUE]

/-! The INSPECT page (R507). -/
def INSPECT.LIM_SEL_LIMIT : Field := ⟨0x7, 1, 0x100, 0, 5, .rw, 0, false, 0, 16, 3, 0⟩
def INSPECT.LIM_REFUSED_COUNT : Field := ⟨0x7, 1, 0x104, 0, 32, .ro, 0, true, 0, 4294967295, 0, 1⟩
def INSPECT.LIM_LAST_INIT : Field := ⟨0x7, 1, 0x108, 0, 4, .ro, 0, false, 0, 15, 0, 0⟩
def INSPECT.LIM_LAST_ID : Field := ⟨0x7, 1, 0x108, 4, 8, .ro, 0, false, 0, 255, 0, 0⟩
def INSPECT.LIM_LAST_A_LO_VALUE : Field := ⟨0x7, 1, 0x10C, 0, 32, .ro, 0, false, 0, 4294967295, 0, 0⟩
def INSPECT.LIM_LAST_A_HI_VALUE : Field := ⟨0x7, 1, 0x110, 0, 32, .ro, 0, false, 0, 4294967295, 0, 0⟩
def INSPECT.HWIN_SEL_WIN : Field := ⟨0x7, 1, 0x114, 0, 3, .rw, 0, false, 0, 7, 4, 0⟩
def INSPECT.HWIN_BASE_LO_VALUE : Field := ⟨0x7, 1, 0x118, 0, 32, .rw, 0, false, 0, 4294967295, 4, 0⟩
def INSPECT.HWIN_BASE_HI_VALUE : Field := ⟨0x7, 1, 0x11C, 0, 32, .rw, 0, false, 0, 4294967295, 4, 0⟩
def INSPECT.HWIN_CFG_PAGES : Field := ⟨0x7, 1, 0x120, 0, 20, .rw, 0, false, 1, 1048575, 4, 0⟩
def INSPECT.HWIN_CFG_PORT : Field := ⟨0x7, 1, 0x120, 28, 1, .rw, 0, false, 0, 1, 4, 0⟩
def INSPECT.HWIN_CFG_ALLOW_RD : Field := ⟨0x7, 1, 0x120, 29, 1, .rw, 0, false, 0, 1, 4, 0⟩
def INSPECT.HWIN_CFG_ALLOW_WR : Field := ⟨0x7, 1, 0x120, 30, 1, .rw, 0, false, 0, 1, 4, 0⟩
def INSPECT.HWIN_CFG_VALID : Field := ⟨0x7, 1, 0x120, 31, 1, .rw, 0, false, 0, 1, 4, 0⟩
def INSPECT.TRIM_FUSE_LO : Field := ⟨0x7, 1, 0x124, 0, 8, .ro, 0, false, 0, 255, 0, 0⟩
def INSPECT.TRIM_FUSE_HI : Field := ⟨0x7, 1, 0x124, 8, 8, .ro, 0, false, 0, 255, 0, 0⟩
/-- Every field of the INSPECT page, in the order of its table. -/
def INSPECT.fields : List Field :=
  [INSPECT.LIM_SEL_LIMIT, INSPECT.LIM_REFUSED_COUNT, INSPECT.LIM_LAST_INIT, INSPECT.LIM_LAST_ID, INSPECT.LIM_LAST_A_LO_VALUE, INSPECT.LIM_LAST_A_HI_VALUE, INSPECT.HWIN_SEL_WIN, INSPECT.HWIN_BASE_LO_VALUE, INSPECT.HWIN_BASE_HI_VALUE, INSPECT.HWIN_CFG_PAGES, INSPECT.HWIN_CFG_PORT, INSPECT.HWIN_CFG_ALLOW_RD, INSPECT.HWIN_CFG_ALLOW_WR, INSPECT.HWIN_CFG_VALID, INSPECT.TRIM_FUSE_LO, INSPECT.TRIM_FUSE_HI]

/-! The ADMQ page (R508). -/
def ADMQ.ADM_HAND_SLOT : Field := ⟨0x12, 1, 0x100, 0, 6, .ro, 0, false, 0, 63, 0, 0⟩
def ADMQ.ADM_HAND_OPCODE : Field := ⟨0x12, 1, 0x100, 8, 8, .ro, 0, false, 0, 255, 0, 0⟩
def ADMQ.ADM_HAND_REPLAY : Field := ⟨0x12, 1, 0x100, 16, 1, .ro, 0, false, 0, 1, 0, 0⟩
def ADMQ.ADM_HAND_PORT : Field := ⟨0x12, 1, 0x100, 17, 1, .ro, 0, false, 0, 1, 0, 0⟩
def ADMQ.ADM_HAND_VALID : Field := ⟨0x12, 1, 0x100, 31, 1, .ro, 0, false, 0, 1, 0, 0⟩
def ADMQ.ADM_TAKE_TAKE : Field := ⟨0x12, 1, 0x104, 0, 1, .wo, 0, false, 0, 1, 1, 0⟩
def ADMQ.ADM_SEL_SLOT : Field := ⟨0x12, 1, 0x108, 0, 6, .rw, 0, false, 0, 63, 1, 0⟩
def ADMQ.ADM_SQE_VALUE (n : Nat) : Field := ⟨0x12, 1, 0x110 + 4 * n, 0, 32, .ro, 0, false, 0, 4294967295, 0, 0⟩
def ADMQ.ADM_CPL_DW0_VALUE : Field := ⟨0x12, 1, 0x150, 0, 32, .rw, 0, false, 0, 4294967295, 1, 0⟩
def ADMQ.ADM_CPL_DW1_VALUE : Field := ⟨0x12, 1, 0x154, 0, 32, .rw, 0, false, 0, 4294967295, 1, 0⟩
def ADMQ.ADM_CPL_SLOT : Field := ⟨0x12, 1, 0x158, 0, 6, .wo, 0, false, 0, 63, 1, 0⟩
def ADMQ.ADM_CPL_SCT : Field := ⟨0x12, 1, 0x158, 8, 3, .wo, 0, false, 0, 7, 1, 0⟩
def ADMQ.ADM_CPL_SC : Field := ⟨0x12, 1, 0x158, 16, 8, .wo, 0, false, 0, 255, 1, 0⟩
def ADMQ.ADM_CPL_DNR : Field := ⟨0x12, 1, 0x158, 24, 1, .wo, 0, false, 0, 1, 1, 0⟩
def ADMQ.ADM_CPL_MORE : Field := ⟨0x12, 1, 0x158, 25, 1, .wo, 0, false, 0, 1, 1, 0⟩
def ADMQ.ADM_CPL_GO : Field := ⟨0x12, 1, 0x158, 31, 1, .wo, 0, false, 0, 1, 1, 0⟩
def ADMQ.ADM_CPL_RES_CODE : Field := ⟨0x12, 1, 0x15C, 0, 2, .ro, 0, false, 0, 3, 0, 3⟩
def ADMQ.ADM_USE_HELD : Field := ⟨0x12, 1, 0x160, 0, 7, .ro, 0, false, 0, 127, 0, 0⟩
/-- Every field of the ADMQ page, in the order of its table. -/
def ADMQ.fields : List Field :=
  [ADMQ.ADM_HAND_SLOT, ADMQ.ADM_HAND_OPCODE, ADMQ.ADM_HAND_REPLAY, ADMQ.ADM_HAND_PORT, ADMQ.ADM_HAND_VALID, ADMQ.ADM_TAKE_TAKE, ADMQ.ADM_SEL_SLOT, ADMQ.ADM_SQE_VALUE 0, ADMQ.ADM_SQE_VALUE 1, ADMQ.ADM_SQE_VALUE 2, ADMQ.ADM_SQE_VALUE 3, ADMQ.ADM_SQE_VALUE 4, ADMQ.ADM_SQE_VALUE 5, ADMQ.ADM_SQE_VALUE 6, ADMQ.ADM_SQE_VALUE 7, ADMQ.ADM_SQE_VALUE 8] ++
  [ADMQ.ADM_SQE_VALUE 9, ADMQ.ADM_SQE_VALUE 10, ADMQ.ADM_SQE_VALUE 11, ADMQ.ADM_SQE_VALUE 12, ADMQ.ADM_SQE_VALUE 13, ADMQ.ADM_SQE_VALUE 14, ADMQ.ADM_SQE_VALUE 15, ADMQ.ADM_CPL_DW0_VALUE, ADMQ.ADM_CPL_DW1_VALUE, ADMQ.ADM_CPL_SLOT, ADMQ.ADM_CPL_SCT, ADMQ.ADM_CPL_SC, ADMQ.ADM_CPL_DNR, ADMQ.ADM_CPL_MORE, ADMQ.ADM_CPL_GO, ADMQ.ADM_CPL_RES_CODE] ++
  [ADMQ.ADM_USE_HELD]

/-! The CFLASH page (R538). -/
def CFLASH.FL_CMD_OP : Field := ⟨0xC, 1, 0x100, 0, 2, .wo, 0, false, 0, 3, 3, 0⟩
def CFLASH.FL_ADDR_ADDR : Field := ⟨0xC, 1, 0x104, 3, 22, .rw, 0, false, 0, 4194303, 3, 0⟩
def CFLASH.FL_WDATA_LO_VALUE : Field := ⟨0xC, 1, 0x108, 0, 32, .rw, 0, false, 0, 4294967295, 3, 0⟩
def CFLASH.FL_WDATA_HI_VALUE : Field := ⟨0xC, 1, 0x10C, 0, 32, .rw, 0, false, 0, 4294967295, 3, 0⟩
def CFLASH.FL_STAT_BUSY : Field := ⟨0xC, 1, 0x110, 0, 1, .ro, 0, false, 0, 1, 0, 4⟩
def CFLASH.FL_STAT_CODE : Field := ⟨0xC, 1, 0x110, 4, 4, .ro, 0, false, 0, 15, 0, 3⟩
def CFLASH.FL_STAT_DROPPED : Field := ⟨0xC, 1, 0x110, 16, 16, .ro, 0, true, 0, 65535, 0, 1⟩
def CFLASH.BANK_STAT_BUSY : Field := ⟨0xC, 1, 0x114, 0, 2, .ro, 0, false, 0, 3, 0, 4⟩
def CFLASH.BANK_STAT_SUSP : Field := ⟨0xC, 1, 0x114, 2, 2, .ro, 0, false, 0, 3, 0, 0⟩
def CFLASH.ECC_CE : Field := ⟨0xC, 1, 0x118, 0, 16, .rc, 0, true, 0, 65535, 0, 0⟩
def CFLASH.ECC_UE : Field := ⟨0xC, 1, 0x118, 16, 16, .rc, 0, true, 0, 65535, 0, 2⟩
def CFLASH.ECC_LAST_ADDR : Field := ⟨0xC, 1, 0x11C, 3, 22, .ro, 0, false, 0, 4194303, 0, 0⟩
def CFLASH.XO_READ_COUNT : Field := ⟨0xC, 1, 0x120, 0, 16, .rc, 0, true, 0, 65535, 0, 0⟩
def CFLASH.DEVREC_READ_COUNT : Field := ⟨0xC, 1, 0x120, 16, 16, .rc, 0, true, 0, 65535, 0, 0⟩
def CFLASH.XWIN_SEL_WIN : Field := ⟨0xC, 1, 0x124, 0, 3, .rw, 0, false, 0, 7, 3, 0⟩
def CFLASH.XWIN_BASE : Field := ⟨0xC, 1, 0x128, 0, 13, .rwl, 0, false, 0, 8191, 0, 0⟩
def CFLASH.XWIN_SECTORS : Field := ⟨0xC, 1, 0x128, 16, 12, .rwl, 0, false, 1, 3072, 0, 0⟩
def CFLASH.XWIN_VALID : Field := ⟨0xC, 1, 0x128, 31, 1, .rwl, 0, false, 0, 1, 0, 0⟩
def CFLASH.SECT_SEL_SECTOR : Field := ⟨0xC, 1, 0x12C, 0, 13, .rw, 0, false, 0, 8191, 3, 0⟩
def CFLASH.SECT_INFO_ERASES : Field := ⟨0xC, 1, 0x130, 0, 17, .ro, 0, false, 0, 131071, 0, 0⟩
def CFLASH.SECT_INFO_DAY_LEFT : Field := ⟨0xC, 1, 0x130, 17, 3, .ro, 0, false, 0, 7, 0, 0⟩
def CFLASH.REFUSED_SELF_BANK : Field := ⟨0xC, 1, 0x134, 0, 16, .rc, 0, true, 0, 65535, 0, 1⟩
def CFLASH.REFUSED_OTHER : Field := ⟨0xC, 1, 0x134, 16, 16, .rc, 0, true, 0, 65535, 0, 1⟩
/-- Every field of the CFLASH page, in the order of its table. -/
def CFLASH.fields : List Field :=
  [CFLASH.FL_CMD_OP, CFLASH.FL_ADDR_ADDR, CFLASH.FL_WDATA_LO_VALUE, CFLASH.FL_WDATA_HI_VALUE, CFLASH.FL_STAT_BUSY, CFLASH.FL_STAT_CODE, CFLASH.FL_STAT_DROPPED, CFLASH.BANK_STAT_BUSY, CFLASH.BANK_STAT_SUSP, CFLASH.ECC_CE, CFLASH.ECC_UE, CFLASH.ECC_LAST_ADDR, CFLASH.XO_READ_COUNT, CFLASH.DEVREC_READ_COUNT, CFLASH.XWIN_SEL_WIN, CFLASH.XWIN_BASE] ++
  [CFLASH.XWIN_SECTORS, CFLASH.XWIN_VALID, CFLASH.SECT_SEL_SECTOR, CFLASH.SECT_INFO_ERASES, CFLASH.SECT_INFO_DAY_LEFT, CFLASH.REFUSED_SELF_BANK, CFLASH.REFUSED_OTHER]

/-! The GATE page (R539). -/
def GATE.LOCK_HELD : Field := ⟨0xD, 1, 0x100, 0, 1, .ro, 0, false, 0, 1, 0, 0⟩
def GATE.LOCK_SRC : Field := ⟨0xD, 1, 0x100, 1, 1, .ro, 0, false, 0, 1, 0, 0⟩
def GATE.LOCK_AGE_S : Field := ⟨0xD, 1, 0x100, 16, 12, .ro, 0, false, 0, 4095, 0, 0⟩
def GATE.PIECE_SRC : Field := ⟨0xD, 1, 0x104, 0, 1, .rw, 0, false, 0, 1, 3, 0⟩
def GATE.PIECE_OFF_DWORDS : Field := ⟨0xD, 1, 0x108, 0, 22, .rw, 0, false, 0, 4194303, 3, 0⟩
def GATE.PIECE_LEN_DWORDS : Field := ⟨0xD, 1, 0x10C, 0, 22, .rw, 0, false, 1, 3145728, 3, 0⟩
def GATE.PIECE_CMD_GO : Field := ⟨0xD, 1, 0x110, 0, 1, .wo, 0, false, 0, 1, 3, 0⟩
def GATE.PIECE_RES_CODE : Field := ⟨0xD, 1, 0x114, 0, 4, .ro, 0, false, 0, 15, 0, 3⟩
def GATE.PIECE_RES_REASON : Field := ⟨0xD, 1, 0x114, 4, 2, .ro, 0, false, 0, 3, 0, 0⟩
def GATE.PIECE_RES_COMPLETE : Field := ⟨0xD, 1, 0x114, 8, 1, .ro, 0, false, 0, 1, 0, 0⟩
def GATE.STG_LEN_DWORDS : Field := ⟨0xD, 1, 0x118, 0, 22, .rw, 0, false, 0, 4194303, 3, 0⟩
def GATE.STG_HAVE_DWORDS : Field := ⟨0xD, 1, 0x11C, 0, 22, .ro, 0, false, 0, 4194303, 0, 0⟩
def GATE.COMMIT_SLOT : Field := ⟨0xD, 1, 0x120, 0, 2, .rw, 0, false, 0, 2, 3, 0⟩
def GATE.COMMIT_ACTION : Field := ⟨0xD, 1, 0x120, 4, 3, .rw, 0, false, 0, 7, 3, 0⟩
def GATE.COMMIT_SRC : Field := ⟨0xD, 1, 0x120, 8, 1, .rw, 0, false, 0, 1, 3, 0⟩
def GATE.COMMIT_GO : Field := ⟨0xD, 1, 0x120, 31, 1, .wo, 0, false, 0, 1, 3, 0⟩
def GATE.COMMIT_RES_BUSY : Field := ⟨0xD, 1, 0x124, 0, 1, .ro, 0, false, 0, 1, 0, 4⟩
def GATE.COMMIT_RES_CODE : Field := ⟨0xD, 1, 0x124, 4, 4, .ro, 0, false, 0, 15, 0, 3⟩
def GATE.COMMIT_RES_REASON : Field := ⟨0xD, 1, 0x124, 8, 2, .ro, 0, false, 0, 3, 0, 0⟩
def GATE.PUMP_LO_VALUE : Field := ⟨0xD, 1, 0x128, 0, 32, .wo, 0, false, 0, 4294967295, 3, 0⟩
def GATE.PUMP_HI_VALUE : Field := ⟨0xD, 1, 0x12C, 0, 32, .wo, 0, false, 0, 4294967295, 3, 0⟩
def GATE.PUMP_STAT_SPACE : Field := ⟨0xD, 1, 0x130, 0, 7, .ro, 0x40, false, 0, 127, 0, 0⟩
def GATE.PUMP_STAT_WORDS : Field := ⟨0xD, 1, 0x130, 8, 21, .ro, 0, false, 0, 2097151, 0, 0⟩
def GATE.ACT_READY_READY : Field := ⟨0xD, 1, 0x134, 0, 1, .wo, 0, false, 0, 1, 1, 0⟩
def GATE.BOOT_INFO_CURRENT : Field := ⟨0xD, 1, 0x138, 0, 2, .ro, 0, false, 0, 3, 0, 0⟩
def GATE.BOOT_INFO_TRIAL : Field := ⟨0xD, 1, 0x138, 2, 2, .ro, 0, false, 0, 3, 0, 0⟩
def GATE.BOOT_INFO_NEXT : Field := ⟨0xD, 1, 0x138, 4, 2, .ro, 0, false, 0, 3, 0, 0⟩
def GATE.BOOT_INFO_RUN_POLICY : Field := ⟨0xD, 1, 0x138, 6, 2, .ro, 0, false, 0, 3, 0, 0⟩
def GATE.BOOT_INFO_RUN_MGMT : Field := ⟨0xD, 1, 0x138, 8, 2, .ro, 0, false, 0, 3, 0, 0⟩
def GATE.BOOT_INFO_TRIAL_BOOTS : Field := ⟨0xD, 1, 0x138, 12, 3, .ro, 0, false, 0, 7, 0, 0⟩
def GATE.BOOT_INFO_FALLBACK : Field := ⟨0xD, 1, 0x138, 16, 4, .ro, 0, false, 0, 15, 0, 0⟩
def GATE.BOOT_SEQ_SEQ : Field := ⟨0xD, 1, 0x13C, 0, 32, .ro, 0, false, 0, 4294967295, 0, 0⟩
def GATE.SLOT_SEL_SLOT : Field := ⟨0xD, 1, 0x140, 0, 2, .rw, 1, false, 1, 2, 3, 0⟩
def GATE.SLOT_INFO_VALID : Field := ⟨0xD, 1, 0x144, 0, 1, .ro, 0, false, 0, 1, 0, 0⟩
def GATE.SLOT_INFO_TESTED : Field := ⟨0xD, 1, 0x144, 1, 1, .ro, 0, false, 0, 1, 0, 0⟩
def GATE.SLOT_FWREV_LO_VALUE : Field := ⟨0xD, 1, 0x148, 0, 32, .ro, 0, false, 0, 4294967295, 0, 0⟩
def GATE.SLOT_FWREV_HI_VALUE : Field := ⟨0xD, 1, 0x14C, 0, 32, .ro, 0, false, 0, 4294967295, 0, 0⟩
def GATE.SLOT_CFG_FORMAT : Field := ⟨0xD, 1, 0x150, 0, 16, .ro, 0, false, 0, 65535, 0, 0⟩
def GATE.SLOT_VER_POL_VERSION : Field := ⟨0xD, 1, 0x154, 0, 32, .ro, 0, false, 0, 4294967295, 0, 0⟩
def GATE.SLOT_VER_MGT_VERSION : Field := ⟨0xD, 1, 0x158, 0, 32, .ro, 0, false, 0, 4294967295, 0, 0⟩
def GATE.SLOT_VER_UC_VERSION : Field := ⟨0xD, 1, 0x15C, 0, 32, .ro, 0, false, 0, 4294967295, 0, 0⟩
def GATE.OWNER_LOCK : Field := ⟨0xD, 1, 0x160, 0, 1, .rw, 0, false, 0, 1, 4, 0⟩
def GATE.GATE_CFG_TRIAL_MAX : Field := ⟨0xD, 1, 0x164, 0, 3, .rwl, 3, false, 1, 7, 0, 0⟩
def GATE.GATE_CFG_LOCK_HOLD : Field := ⟨0xD, 1, 0x164, 16, 12, .rwl, 0x258, false, 60, 3600, 0, 0⟩
def GATE.REC_TYPE_TYPE : Field := ⟨0xD, 1, 0x168, 0, 16, .rw, 0, false, 0, 65535, 3, 0⟩
def GATE.REC_TYPE_FORMAT : Field := ⟨0xD, 1, 0x168, 16, 16, .rw, 0, false, 0, 65535, 3, 0⟩
def GATE.REC_LEN_BYTES : Field := ⟨0xD, 1, 0x16C, 0, 12, .rw, 0, false, 0, 4056, 3, 0⟩
def GATE.REC_CMD_OP : Field := ⟨0xD, 1, 0x170, 0, 2, .wo, 0, false, 0, 3, 3, 0⟩
def GATE.REC_RES_CODE : Field := ⟨0xD, 1, 0x174, 0, 3, .ro, 0, false, 0, 7, 0, 3⟩
def GATE.REC_RES_BUSY : Field := ⟨0xD, 1, 0x174, 31, 1, .ro, 0, false, 0, 1, 0, 4⟩
def GATE.FALLBACKS_COUNT : Field := ⟨0xD, 1, 0x178, 0, 16, .ro, 0, false, 0, 65535, 0, 0⟩
def GATE.GATE_REFUSED_COUNT : Field := ⟨0xD, 1, 0x178, 16, 16, .rc, 0, true, 0, 65535, 0, 1⟩
/-- Every field of the GATE page, in the order of its table. -/
def GATE.fields : List Field :=
  [GATE.LOCK_HELD, GATE.LOCK_SRC, GATE.LOCK_AGE_S, GATE.PIECE_SRC, GATE.PIECE_OFF_DWORDS, GATE.PIECE_LEN_DWORDS, GATE.PIECE_CMD_GO, GATE.PIECE_RES_CODE, GATE.PIECE_RES_REASON, GATE.PIECE_RES_COMPLETE, GATE.STG_LEN_DWORDS, GATE.STG_HAVE_DWORDS, GATE.COMMIT_SLOT, GATE.COMMIT_ACTION, GATE.COMMIT_SRC, GATE.COMMIT_GO] ++
  [GATE.COMMIT_RES_BUSY, GATE.COMMIT_RES_CODE, GATE.COMMIT_RES_REASON, GATE.PUMP_LO_VALUE, GATE.PUMP_HI_VALUE, GATE.PUMP_STAT_SPACE, GATE.PUMP_STAT_WORDS, GATE.ACT_READY_READY, GATE.BOOT_INFO_CURRENT, GATE.BOOT_INFO_TRIAL, GATE.BOOT_INFO_NEXT, GATE.BOOT_INFO_RUN_POLICY, GATE.BOOT_INFO_RUN_MGMT, GATE.BOOT_INFO_TRIAL_BOOTS, GATE.BOOT_INFO_FALLBACK, GATE.BOOT_SEQ_SEQ] ++
  [GATE.SLOT_SEL_SLOT, GATE.SLOT_INFO_VALID, GATE.SLOT_INFO_TESTED, GATE.SLOT_FWREV_LO_VALUE, GATE.SLOT_FWREV_HI_VALUE, GATE.SLOT_CFG_FORMAT, GATE.SLOT_VER_POL_VERSION, GATE.SLOT_VER_MGT_VERSION, GATE.SLOT_VER_UC_VERSION, GATE.OWNER_LOCK, GATE.GATE_CFG_TRIAL_MAX, GATE.GATE_CFG_LOCK_HOLD, GATE.REC_TYPE_TYPE, GATE.REC_TYPE_FORMAT, GATE.REC_LEN_BYTES, GATE.REC_CMD_OP] ++
  [GATE.REC_RES_CODE, GATE.REC_RES_BUSY, GATE.FALLBACKS_COUNT, GATE.GATE_REFUSED_COUNT]

/-! The TIME page (R563). -/
def TIME.MONO_LO_VALUE : Field := ⟨0x2, 1, 0x100, 0, 32, .ro, 0, false, 0, 4294967295, 0, 0⟩
def TIME.MONO_HI_VALUE : Field := ⟨0x2, 1, 0x104, 0, 32, .ro, 0, false, 0, 4294967295, 0, 0⟩
def TIME.EPOCH_VALUE : Field := ⟨0x2, 1, 0x108, 0, 32, .ro, 0, false, 0, 4294967295, 0, 0⟩
def TIME.WALL_LO_MS : Field := ⟨0x2, 1, 0x10C, 0, 32, .ro, 0, false, 0, 4294967295, 0, 0⟩
def TIME.WALL_HI_MS : Field := ⟨0x2, 1, 0x110, 0, 16, .ro, 0, false, 0, 65535, 0, 0⟩
def TIME.WALL_HI_VALID : Field := ⟨0x2, 1, 0x110, 16, 1, .ro, 0, false, 0, 1, 0, 0⟩
def TIME.WALL_SET_LO_MS : Field := ⟨0x2, 1, 0x114, 0, 32, .wo, 0, false, 0, 4294967295, 3, 0⟩
def TIME.WALL_SET_HI_MS : Field := ⟨0x2, 1, 0x118, 0, 16, .wo, 0, false, 0, 65535, 3, 0⟩
def TIME.TIME_SETS_COUNT : Field := ⟨0x2, 1, 0x11C, 0, 16, .ro, 0, true, 0, 65535, 0, 0⟩
/-- Every field of the TIME page, in the order of its table. -/
def TIME.fields : List Field :=
  [TIME.MONO_LO_VALUE, TIME.MONO_HI_VALUE, TIME.EPOCH_VALUE, TIME.WALL_LO_MS, TIME.WALL_HI_MS, TIME.WALL_HI_VALID, TIME.WALL_SET_LO_MS, TIME.WALL_SET_HI_MS, TIME.TIME_SETS_COUNT]

/-! The LOG page (R564). -/
def LOG.LOG_CTRL_FREEZE : Field := ⟨0x3, 1, 0x100, 0, 1, .rw, 0, false, 0, 1, 7, 0⟩
def LOG.LOG_CTRL_FAULT_RELEASE : Field := ⟨0x3, 1, 0x100, 8, 1, .wo, 0, false, 0, 1, 6, 0⟩
def LOG.LOG_STAT_FROZEN : Field := ⟨0x3, 1, 0x104, 0, 1, .ro, 0, false, 0, 1, 0, 0⟩
def LOG.LOG_STAT_FREEZE_BY : Field := ⟨0x3, 1, 0x104, 1, 3, .ro, 0, false, 0, 7, 0, 0⟩
def LOG.LOG_STAT_FAULT_FROZEN : Field := ⟨0x3, 1, 0x104, 4, 1, .ro, 0, false, 0, 1, 0, 0⟩
def LOG.LOG_STAT_SAVING : Field := ⟨0x3, 1, 0x104, 5, 1, .ro, 0, false, 0, 1, 0, 0⟩
def LOG.FREEZE_CFG_MAX_MS : Field := ⟨0x3, 1, 0x108, 0, 10, .rwl, 0x64, false, 1, 1000, 1, 0⟩
def LOG.FROZEN_EVENTS_COUNT : Field := ⟨0x3, 1, 0x10C, 0, 32, .rc, 0, true, 0, 4294967295, 0, 0⟩
def LOG.HEAD_SEQ_LO_VALUE : Field := ⟨0x3, 1, 0x110, 0, 32, .ro, 0, false, 0, 4294967295, 0, 0⟩
def LOG.HEAD_SEQ_HI_VALUE : Field := ⟨0x3, 1, 0x114, 0, 32, .ro, 0, false, 0, 4294967295, 0, 0⟩
def LOG.RING_USE_RECORDS : Field := ⟨0x3, 1, 0x118, 0, 17, .ro, 0, false, 0, 131071, 0, 0⟩
def LOG.PERM_USE_SLOTS : Field := ⟨0x3, 1, 0x11C, 0, 13, .ro, 0, false, 0, 8191, 0, 0⟩
def LOG.CUR_AREA_AREA : Field := ⟨0x3, 1, 0x120, 0, 1, .rw, 0, false, 0, 1, 7, 0⟩
def LOG.CUR_EPOCH_VALUE : Field := ⟨0x3, 1, 0x124, 0, 32, .rw, 0, false, 0, 4294967295, 7, 0⟩
def LOG.CUR_SEQ_LO_VALUE : Field := ⟨0x3, 1, 0x128, 0, 32, .rw, 0, false, 0, 4294967295, 7, 0⟩
def LOG.CUR_SEQ_HI_VALUE : Field := ⟨0x3, 1, 0x12C, 0, 32, .rw, 0, false, 0, 4294967295, 7, 0⟩
def LOG.CUR_INDEX_INDEX : Field := ⟨0x3, 1, 0x130, 0, 12, .rw, 0, false, 0, 4095, 7, 0⟩
def LOG.CUR_CMD_OLDEST : Field := ⟨0x3, 1, 0x134, 0, 1, .wo, 0, false, 0, 1, 7, 0⟩
def LOG.CUR_CMD_NEWEST : Field := ⟨0x3, 1, 0x134, 1, 1, .wo, 0, false, 0, 1, 7, 0⟩
def LOG.CUR_STAT_VALID : Field := ⟨0x3, 1, 0x138, 0, 1, .ro, 0, false, 0, 1, 0, 0⟩
def LOG.CUR_STAT_STALE : Field := ⟨0x3, 1, 0x138, 1, 1, .rc, 0, false, 0, 1, 0, 0⟩
def LOG.WIN_VALUE (n : Nat) : Field := ⟨0x3, 1, 0x140 + 4 * n, 0, 32, .ro, 0, false, 0, 4294967295, 0, 0⟩
def LOG.RATE_SEL_CODE : Field := ⟨0x3, 1, 0x180, 0, 10, .rw, 0, false, 0, 1023, 3, 0⟩
def LOG.RATE_CFG_RATE : Field := ⟨0x3, 1, 0x184, 0, 8, .ro, 0, false, 0, 255, 0, 0⟩
def LOG.RATE_CFG_BURST : Field := ⟨0x3, 1, 0x184, 8, 8, .ro, 0, false, 0, 255, 0, 0⟩
def LOG.RATE_CFG_UNLIMITED : Field := ⟨0x3, 1, 0x184, 16, 1, .ro, 0, false, 0, 1, 0, 0⟩
def LOG.RATE_CFG_SNAP_FIXED : Field := ⟨0x3, 1, 0x184, 17, 1, .ro, 0, false, 0, 1, 0, 0⟩
def LOG.SUPPRESSED_COUNT : Field := ⟨0x3, 1, 0x188, 0, 32, .ro, 0, false, 0, 4294967295, 0, 0⟩
def LOG.DROP_PORT : Field := ⟨0x3, 1, 0x18C, 0, 16, .rc, 0, true, 0, 65535, 0, 1⟩
def LOG.DROP_LOST : Field := ⟨0x3, 1, 0x18C, 16, 16, .rc, 0, true, 0, 65535, 0, 0⟩
def LOG.DROP2_PERM_SKIP : Field := ⟨0x3, 1, 0x190, 0, 16, .rc, 0, true, 0, 65535, 0, 0⟩
def LOG.DROP2_CLOSING : Field := ⟨0x3, 1, 0x190, 16, 16, .ro, 0, true, 0, 65535, 0, 0⟩
def LOG.SAVED_SEQ_VALUE : Field := ⟨0x3, 1, 0x194, 0, 32, .ro, 0, false, 0, 4294967295, 0, 0⟩
def LOG.FW_CODE_CODE : Field := ⟨0x3, 1, 0x198, 0, 10, .wo, 0, false, 0, 1023, 3, 0⟩
def LOG.FW_SNAP_VALUE (n : Nat) : Field := ⟨0x3, 1, 0x19C + 4 * n, 0, 32, .wo, 0, false, 0, 4294967295, 3, 0⟩
def LOG.FW_POST_GO : Field := ⟨0x3, 1, 0x1AC, 0, 1, .wo, 0, false, 0, 1, 3, 0⟩
def LOG.FW_RES_CODE : Field := ⟨0x3, 1, 0x1B0, 0, 3, .ro, 0, false, 0, 7, 0, 3⟩
def LOG.FW_RES_IGNORED : Field := ⟨0x3, 1, 0x1B0, 16, 16, .rc, 0, true, 0, 65535, 0, 1⟩
/-- Every field of the LOG page, in the order of its table. -/
def LOG.fields : List Field :=
  [LOG.LOG_CTRL_FREEZE, LOG.LOG_CTRL_FAULT_RELEASE, LOG.LOG_STAT_FROZEN, LOG.LOG_STAT_FREEZE_BY, LOG.LOG_STAT_FAULT_FROZEN, LOG.LOG_STAT_SAVING, LOG.FREEZE_CFG_MAX_MS, LOG.FROZEN_EVENTS_COUNT, LOG.HEAD_SEQ_LO_VALUE, LOG.HEAD_SEQ_HI_VALUE, LOG.RING_USE_RECORDS, LOG.PERM_USE_SLOTS, LOG.CUR_AREA_AREA, LOG.CUR_EPOCH_VALUE, LOG.CUR_SEQ_LO_VALUE, LOG.CUR_SEQ_HI_VALUE] ++
  [LOG.CUR_INDEX_INDEX, LOG.CUR_CMD_OLDEST, LOG.CUR_CMD_NEWEST, LOG.CUR_STAT_VALID, LOG.CUR_STAT_STALE, LOG.WIN_VALUE 0, LOG.WIN_VALUE 1, LOG.WIN_VALUE 2, LOG.WIN_VALUE 3, LOG.WIN_VALUE 4, LOG.WIN_VALUE 5, LOG.WIN_VALUE 6, LOG.WIN_VALUE 7, LOG.WIN_VALUE 8, LOG.WIN_VALUE 9, LOG.WIN_VALUE 10] ++
  [LOG.WIN_VALUE 11, LOG.WIN_VALUE 12, LOG.WIN_VALUE 13, LOG.WIN_VALUE 14, LOG.WIN_VALUE 15, LOG.RATE_SEL_CODE, LOG.RATE_CFG_RATE, LOG.RATE_CFG_BURST, LOG.RATE_CFG_UNLIMITED, LOG.RATE_CFG_SNAP_FIXED, LOG.SUPPRESSED_COUNT, LOG.DROP_PORT, LOG.DROP_LOST, LOG.DROP2_PERM_SKIP, LOG.DROP2_CLOSING, LOG.SAVED_SEQ_VALUE] ++
  [LOG.FW_CODE_CODE, LOG.FW_SNAP_VALUE 0, LOG.FW_SNAP_VALUE 1, LOG.FW_SNAP_VALUE 2, LOG.FW_SNAP_VALUE 3, LOG.FW_POST_GO, LOG.FW_RES_CODE, LOG.FW_RES_IGNORED]

/-! The COMMON page (R566, R597). -/
def COMMON.INJ_SEL_POINT : Field := ⟨0x0, 256, 0x20, 0, 8, .rw, 0, false, 0, 255, 6, 0⟩
def COMMON.INJ_SEL_SUB : Field := ⟨0x0, 256, 0x20, 8, 8, .rw, 0, false, 0, 255, 6, 0⟩
def COMMON.INJ_SEL_PARAM : Field := ⟨0x0, 256, 0x20, 16, 16, .rw, 0, false, 0, 65535, 6, 0⟩
def COMMON.INJ_CTRL_ARM : Field := ⟨0x0, 256, 0x24, 0, 1, .rw, 0, false, 0, 1, 6, 0⟩
def COMMON.INJ_CTRL_MODE : Field := ⟨0x0, 256, 0x24, 1, 2, .rw, 0, false, 0, 2, 6, 0⟩
def COMMON.INJ_CTRL_COUNT : Field := ⟨0x0, 256, 0x24, 8, 8, .rw, 1, false, 1, 255, 6, 0⟩
def COMMON.INJ_CTRL_RESULT : Field := ⟨0x0, 256, 0x24, 16, 4, .ro, 0, false, 0, 15, 0, 3⟩
def COMMON.INJ_CTRL_LEFT : Field := ⟨0x0, 256, 0x24, 24, 8, .ro, 0, false, 0, 255, 0, 0⟩
def COMMON.INJ_COUNT_FIRED : Field := ⟨0x0, 256, 0x28, 0, 16, .rc, 0, true, 0, 65535, 0, 0⟩
def COMMON.INJ_COUNT_REFUSED : Field := ⟨0x0, 256, 0x28, 16, 16, .rc, 0, true, 0, 65535, 0, 1⟩
def COMMON.PAGE_ID_TYPE : Field := ⟨0x0, 256, 0x0, 0, 8, .ro, 0, false, 0, 255, 0, 0⟩
def COMMON.PAGE_ID_INSTANCE : Field := ⟨0x0, 256, 0x0, 8, 8, .ro, 0, false, 0, 255, 0, 0⟩
def COMMON.PAGE_ID_ISLAND : Field := ⟨0x0, 256, 0x0, 16, 7, .ro, 0, false, 0, 127, 0, 0⟩
def COMMON.PAGE_ID_INDEX : Field := ⟨0x0, 256, 0x0, 24, 8, .ro, 0, false, 0, 255, 0, 0⟩
def COMMON.PAGE_REV_STEP : Field := ⟨0x0, 256, 0x4, 0, 8, .ro, 0xA0, false, 0, 255, 0, 0⟩
def COMMON.PAGE_REV_LAYOUT : Field := ⟨0x0, 256, 0x4, 8, 8, .ro, 1, false, 0, 255, 0, 0⟩
def COMMON.PAGE_REV_BLOCK : Field := ⟨0x0, 256, 0x4, 16, 16, .ro, 1, false, 0, 65535, 0, 0⟩
def COMMON.PAGE_CTRL_ENABLE : Field := ⟨0x0, 256, 0x8, 0, 1, .rw, 0, false, 0, 1, 3, 0⟩
def COMMON.PAGE_CTRL_SOFT_CLEAR : Field := ⟨0x0, 256, 0x8, 1, 1, .wo, 0, false, 0, 1, 3, 0⟩
def COMMON.PAGE_CTRL_VOTE : Field := ⟨0x0, 256, 0x8, 8, 1, .rw, 0, false, 0, 1, 3, 0⟩
def COMMON.PAGE_STAT_BUSY : Field := ⟨0x0, 256, 0xC, 0, 1, .ro, 0, false, 0, 1, 0, 0⟩
def COMMON.PAGE_STAT_AWAKE : Field := ⟨0x0, 256, 0xC, 1, 1, .ro, 1, false, 0, 1, 0, 0⟩
def COMMON.PAGE_STAT_ERR : Field := ⟨0x0, 256, 0xC, 2, 1, .ro, 0, false, 0, 1, 0, 0⟩
def COMMON.PAGE_STAT_LOCKED : Field := ⟨0x0, 256, 0xC, 3, 1, .ro, 0, false, 0, 1, 0, 0⟩
def COMMON.EVT_RAW_EVENTS : Field := ⟨0x0, 256, 0x10, 0, 8, .ro, 0, false, 0, 255, 0, 0⟩
def COMMON.EVT_MASK_MASK : Field := ⟨0x0, 256, 0x14, 0, 8, .rw, 0xFF, false, 0, 255, 3, 0⟩
def COMMON.EVT_PEND_PEND : Field := ⟨0x0, 256, 0x18, 0, 8, .w1c, 0, false, 0, 255, 3, 0⟩
def COMMON.EVT_FORCE_FORCE : Field := ⟨0x0, 256, 0x1C, 0, 8, .wo, 0, false, 0, 255, 3, 0⟩
def COMMON.PAGE_LOCK_LOCK : Field := ⟨0x0, 256, 0x2C, 0, 1, .rwl, 0, false, 0, 1, 3, 0⟩
def COMMON.PAGE_LOCK_BY : Field := ⟨0x0, 256, 0x2C, 1, 3, .ro, 0, false, 0, 7, 0, 0⟩
def COMMON.PAGE_LOCK_IGNORED : Field := ⟨0x0, 256, 0x2C, 16, 16, .rc, 0, true, 0, 65535, 0, 1⟩
def COMMON.TMO_CFG_XWD : Field := ⟨0x0, 256, 0x30, 0, 8, .rwl, 0x14, false, 15, 255, 3, 0⟩
def COMMON.CNT_SEL_EVENT : Field := ⟨0x0, 256, 0x40, 0, 3, .rw, 0, false, 0, 7, 3, 0⟩
def COMMON.CNT_VAL_COUNT : Field := ⟨0x0, 256, 0x44, 0, 32, .rc, 0, true, 0, 4294967295, 0, 0⟩
/-- Every field of the COMMON page, in the order of its table. -/
def COMMON.fields : List Field :=
  [COMMON.INJ_SEL_POINT, COMMON.INJ_SEL_SUB, COMMON.INJ_SEL_PARAM, COMMON.INJ_CTRL_ARM, COMMON.INJ_CTRL_MODE, COMMON.INJ_CTRL_COUNT, COMMON.INJ_CTRL_RESULT, COMMON.INJ_CTRL_LEFT, COMMON.INJ_COUNT_FIRED, COMMON.INJ_COUNT_REFUSED, COMMON.PAGE_ID_TYPE, COMMON.PAGE_ID_INSTANCE, COMMON.PAGE_ID_ISLAND, COMMON.PAGE_ID_INDEX, COMMON.PAGE_REV_STEP, COMMON.PAGE_REV_LAYOUT] ++
  [COMMON.PAGE_REV_BLOCK, COMMON.PAGE_CTRL_ENABLE, COMMON.PAGE_CTRL_SOFT_CLEAR, COMMON.PAGE_CTRL_VOTE, COMMON.PAGE_STAT_BUSY, COMMON.PAGE_STAT_AWAKE, COMMON.PAGE_STAT_ERR, COMMON.PAGE_STAT_LOCKED, COMMON.EVT_RAW_EVENTS, COMMON.EVT_MASK_MASK, COMMON.EVT_PEND_PEND, COMMON.EVT_FORCE_FORCE, COMMON.PAGE_LOCK_LOCK, COMMON.PAGE_LOCK_BY, COMMON.PAGE_LOCK_IGNORED, COMMON.TMO_CFG_XWD] ++
  [COMMON.CNT_SEL_EVENT, COMMON.CNT_VAL_COUNT]

/-! The INJFAB page (R575). -/
def INJFAB.ARMED_COUNT : Field := ⟨0xE, 1, 0x100, 0, 5, .ro, 0, false, 0, 31, 0, 0⟩
def INJFAB.DISARM_ALL : Field := ⟨0xE, 1, 0x104, 0, 1, .wo, 0, false, 0, 1, 6, 0⟩
def INJFAB.ARM_SEL_ENTRY : Field := ⟨0xE, 1, 0x108, 0, 4, .rw, 0, false, 0, 15, 6, 0⟩
def INJFAB.ARM_LIST_PAGE : Field := ⟨0xE, 1, 0x10C, 0, 8, .ro, 0, false, 0, 255, 0, 0⟩
def INJFAB.ARM_LIST_POINT : Field := ⟨0xE, 1, 0x10C, 8, 8, .ro, 0, false, 0, 255, 0, 0⟩
def INJFAB.ARM_LIST_VALID : Field := ⟨0xE, 1, 0x10C, 31, 1, .ro, 0, false, 0, 1, 0, 0⟩
def INJFAB.FIRED_COUNT : Field := ⟨0xE, 1, 0x110, 0, 32, .rc, 0, true, 0, 4294967295, 0, 0⟩
def INJFAB.REFUSED_COUNT : Field := ⟨0xE, 1, 0x114, 0, 32, .rc, 0, true, 0, 4294967295, 0, 1⟩
def INJFAB.ST_RESULT_PHASE_FAIL : Field := ⟨0xE, 1, 0x120, 0, 5, .ro, 0, false, 0, 31, 0, 0⟩
def INJFAB.ST_RESULT_PASS : Field := ⟨0xE, 1, 0x120, 8, 1, .ro, 0, false, 0, 1, 0, 0⟩
def INJFAB.ST_RESULT_HALTED : Field := ⟨0xE, 1, 0x120, 9, 1, .ro, 0, false, 0, 1, 0, 0⟩
def INJFAB.ST_SG_FAILED : Field := ⟨0xE, 1, 0x124, 0, 12, .ro, 0, false, 0, 4095, 0, 0⟩
def INJFAB.ST_TRANSIENT_COUNT : Field := ⟨0xE, 1, 0x128, 0, 16, .ro, 0, false, 0, 65535, 0, 0⟩
def INJFAB.ST_FIRED_COUNT : Field := ⟨0xE, 1, 0x12C, 0, 32, .ro, 0, false, 0, 4294967295, 0, 0⟩
def INJFAB.ST_FIRST_TEST : Field := ⟨0xE, 1, 0x130, 0, 8, .ro, 0, false, 0, 255, 0, 0⟩
def INJFAB.ST_FIRST_ISLAND : Field := ⟨0xE, 1, 0x130, 8, 7, .ro, 0, false, 0, 127, 0, 0⟩
/-- Every field of the INJFAB page, in the order of its table. -/
def INJFAB.fields : List Field :=
  [INJFAB.ARMED_COUNT, INJFAB.DISARM_ALL, INJFAB.ARM_SEL_ENTRY, INJFAB.ARM_LIST_PAGE, INJFAB.ARM_LIST_POINT, INJFAB.ARM_LIST_VALID, INJFAB.FIRED_COUNT, INJFAB.REFUSED_COUNT, INJFAB.ST_RESULT_PHASE_FAIL, INJFAB.ST_RESULT_PASS, INJFAB.ST_RESULT_HALTED, INJFAB.ST_SG_FAILED, INJFAB.ST_TRANSIENT_COUNT, INJFAB.ST_FIRED_COUNT, INJFAB.ST_FIRST_TEST, INJFAB.ST_FIRST_ISLAND]

/-! The BOOT page (R592). -/
def BOOT.STRAP_LEGACY : Field := ⟨0x1, 1, 0x100, 0, 1, .ro, 0, false, 0, 1, 0, 0⟩
def BOOT.STRAP_SPLIT : Field := ⟨0x1, 1, 0x100, 1, 1, .ro, 0, false, 0, 1, 0, 0⟩
def BOOT.STRAP_RATE : Field := ⟨0x1, 1, 0x100, 2, 2, .ro, 0, false, 0, 3, 0, 0⟩
def BOOT.STRAP_MGTBUS : Field := ⟨0x1, 1, 0x100, 4, 1, .ro, 0, false, 0, 1, 0, 0⟩
def BOOT.STRAP_MIADDR : Field := ⟨0x1, 1, 0x100, 5, 3, .ro, 0, false, 0, 7, 0, 0⟩
def BOOT.STRAP_UNSTABLE : Field := ⟨0x1, 1, 0x100, 8, 8, .ro, 0, false, 0, 255, 0, 0⟩
def BOOT.RAIL_STAT_VALID : Field := ⟨0x1, 1, 0x104, 0, 17, .ro, 0, false, 0, 131071, 0, 0⟩
def BOOT.RAIL_FAIL_RAILS : Field := ⟨0x1, 1, 0x108, 0, 17, .ro, 0, false, 0, 131071, 0, 0⟩
def BOOT.RAIL_EARLY_RAILS : Field := ⟨0x1, 1, 0x10C, 0, 17, .ro, 0, false, 0, 131071, 0, 0⟩
def BOOT.WAKE_STEP_STEP : Field := ⟨0x1, 1, 0x110, 0, 4, .ro, 0, false, 0, 15, 0, 0⟩
def BOOT.WAKE_LAST_MS : Field := ⟨0x1, 1, 0x114, 0, 8, .ro, 0, false, 0, 255, 0, 0⟩
def BOOT.WAKE_LAST_RAIL_MS : Field := ⟨0x1, 1, 0x114, 8, 8, .ro, 0, false, 0, 255, 0, 0⟩
def BOOT.WAKE_LAST_DDR_MS : Field := ⟨0x1, 1, 0x114, 16, 8, .ro, 0, false, 0, 255, 0, 0⟩
def BOOT.MAIN_LAST_CAUSE : Field := ⟨0x1, 1, 0x118, 0, 2, .ro, 0, false, 0, 3, 0, 0⟩
def BOOT.MAIN_CNT_COUNT : Field := ⟨0x1, 1, 0x118, 16, 16, .ro, 0, true, 0, 65535, 0, 0⟩
def BOOT.PERST_CNT_PORT0 : Field := ⟨0x1, 1, 0x11C, 0, 16, .ro, 0, true, 0, 65535, 0, 0⟩
def BOOT.PERST_CNT_PORT1 : Field := ⟨0x1, 1, 0x11C, 16, 16, .ro, 0, true, 0, 65535, 0, 0⟩
def BOOT.PORT_RST_HOT : Field := ⟨0x1, 1, 0x120, 0, 16, .ro, 0, true, 0, 65535, 0, 0⟩
def BOOT.PORT_RST_FLR : Field := ⟨0x1, 1, 0x120, 16, 16, .ro, 0, true, 0, 65535, 0, 0⟩
def BOOT.CTRL_RST_COUNT : Field := ⟨0x1, 1, 0x124, 0, 16, .ro, 0, true, 0, 65535, 0, 0⟩
/-- Every field of the BOOT page, in the order of its table. -/
def BOOT.fields : List Field :=
  [BOOT.STRAP_LEGACY, BOOT.STRAP_SPLIT, BOOT.STRAP_RATE, BOOT.STRAP_MGTBUS, BOOT.STRAP_MIADDR, BOOT.STRAP_UNSTABLE, BOOT.RAIL_STAT_VALID, BOOT.RAIL_FAIL_RAILS, BOOT.RAIL_EARLY_RAILS, BOOT.WAKE_STEP_STEP, BOOT.WAKE_LAST_MS, BOOT.WAKE_LAST_RAIL_MS, BOOT.WAKE_LAST_DDR_MS, BOOT.MAIN_LAST_CAUSE, BOOT.MAIN_CNT_COUNT, BOOT.PERST_CNT_PORT0] ++
  [BOOT.PERST_CNT_PORT1, BOOT.PORT_RST_HOT, BOOT.PORT_RST_FLR, BOOT.CTRL_RST_COUNT]

/-- Every block-specific field of every page type (R609). -/
def blockFields : List Field :=
  INTAKE.fields ++
  TALLY.fields ++
  DEVSTATE.fields ++
  LEDGER.fields ++
  LCACHE.fields ++
  WPATH.fields ++
  CRATEYD.fields ++
  STALL.fields ++
  DECODE.fields ++
  SCRUB.fields ++
  MEMCHK.fields ++
  SWEEP.fields ++
  HEALTH.fields ++
  BELL.fields ++
  CKPT.fields ++
  CIPHER.fields ++
  CUSER.fields ++
  PORTER.fields ++
  PCHAN.fields ++
  XCLK.fields ++
  POWER.fields ++
  CORESYS.fields ++
  INSPECT.fields ++
  ADMQ.fields ++
  CFLASH.fields ++
  GATE.fields ++
  TIME.fields ++
  LOG.fields ++
  INJFAB.fields ++
  BOOT.fields

end Sys2Proof.R
end

