-- ==== Sys2Proof/Machine/Tbl.lean ====
section
/-! DEFINITION. Sparse tables: lists of a key and a value with the keys strictly rising, in which a
key that is not listed reads a default. One form serves the register store, the crate store's bytes,
code flash, and every other table of the hardware that is large and mostly at rest. -/

namespace Sys2Proof

/-- A sparse table. -/
abbrev Tbl (α : Type) := List (Nat × α)

/-- The value at key `k`, or `d` where `k` is not listed. -/
def Tbl.get {α : Type} (d : α) : Tbl α → Nat → α
  | [], _ => d
  | (j, v) :: t, k => if j = k then v else Tbl.get d t k

/-- The table without key `k`. -/
def Tbl.erase {α : Type} : Tbl α → Nat → Tbl α
  | [], _ => []
  | (j, v) :: t, k => if j = k then t else (j, v) :: Tbl.erase t k

/-- The table with `v` listed at key `k`, in order. -/
def Tbl.insert {α : Type} : Tbl α → Nat → α → Tbl α
  | [], k, v => [(k, v)]
  | (j, w) :: t, k, v =>
    if k < j then (k, v) :: (j, w) :: t
    else if j = k then (k, v) :: t
    else (j, w) :: Tbl.insert t k v

/-- The table in which key `k` reads `v`, where an unlisted key reads `d`: writing the default
removes the entry, so equal tables are equal data. -/
def Tbl.set {α : Type} [DecidableEq α] (d : α) (t : Tbl α) (k : Nat) (v : α) : Tbl α :=
  if v = d then Tbl.erase t k else Tbl.insert t k v

/-- The keys rise strictly. -/
def Tbl.sorted {α : Type} : Tbl α → Bool
  | [] => true
  | (j, _) :: t => (t.all fun e => decide (j < e.1)) && Tbl.sorted t

/-- The canonical form of a table whose unlisted keys read `d`: rising keys, no entry equal to `d`. -/
def Tbl.wf {α : Type} [DecidableEq α] (d : α) (t : Tbl α) : Bool :=
  Tbl.sorted t && t.all fun e => decide (e.2 ≠ d)

end Sys2Proof
end

