-- ==== Sys2Proof/Machine/State.lean ====
section
/-! DEFINITION. The state of the block: every register, queue, buffer, table, counter, mode and pin the
spec gives it, as plain data; what each command may answer besides a next state; and the state after
reset. -/

namespace Sys2Proof.Machine

open Sys2Proof

/-- Why the machine would stop with a fault. Every command of this block either takes effect or is
turned away with a code, a status or a count that the spec names, so no meaning raises one. -/
inductive Fault where
  /-- Raised by nobody: the spec names no condition in which the block stops without a state. Safe. -/
  | stopped
  deriving DecidableEq, Repr

/-- Why a command has no meaning. -/
inductive Refusal where
  /-- Raised by a dispatch arm whose command has no meaning yet. Safe: nothing can be proved of it. -/
  | notModelled (mnemonic : String)
  deriving DecidableEq, Repr

/-- Who asked for a mode change or a state transition; `code` of R649. -/
inductive Requester where
  | hardware | policy | mgmt | mi | host
  deriving DecidableEq, Repr

/-- A mode request or a hardware mode change on its way to its mode instant (R128, R129): who made
it, the hardware cause of R649 (0 for a request), the bits it still sets and clears, and the code
and bits already refused at its arrival; the host's command that waits for the answer (0 for none). -/
structure ModeReq where
  who : Requester
  cause : Nat
  set : Nat
  clear : Nat
  refCode : Nat
  refBits : Nat
  uid : Nat := 0
  deriving DecidableEq, Repr

/-- What the device-state machinery holds beside its registers (R119 to R130, R368, R576, R581):
requests held for SERVICE and requests before their instant, in arrival order; the monotonic times
of automatic restarts; IN_SERVICE as last seen and whether the FAIL comparator is armed; the rail stage that is
ramping and the enables; the self-test phase; the instant of the last state entry; the cause that
took the device into CLOSING; board test mode; whether the
policy and management images run; whether the straps have been sampled in this WAKE, when the rails began to ramp, and the rate in MT/s the DDR5 channels were trained at; the wrap counter of R409; since when HOLDUP_SENSE has been at or below OK in SERVICE
or QUIESCE (R397). -/
structure DevSt where
  heldReqs : List ModeReq := []
  undecided : List ModeReq := []
  restarts : List Nat := []
  inService : Bool := false
  failArmed : Bool := false
  railStage : Nat := 0
  enables : Nat := 0
  stPhase : Nat := 0
  stateEntry : Nat := 0
  closeCause : Nat := 0
  boardTest : Bool := false
  policyUp : Bool := false
  mgmtUp : Bool := false
  strapped : Bool := false
  railFrom : Nat := 0
  ddrMts : Nat := 0
  wrap : Nat := 0
  huFrom : Option Nat := none
  deriving DecidableEq, Repr

/-- A record on its way to WATCH (R545, R549): code, INJECTED, source, the monotonic count of its
event, its snapshot words, and whether it is a firmware record (FLAGS bit 5). -/
structure LogReq where
  code : Nat
  inj : Bool
  source : Nat
  at_ : Nat
  snaps : List Nat
  fw : Bool
  deriving DecidableEq, Repr

/-- A stored record (R545). FLAGS holds INJECTED 0, WALL_VALID 1, PERM 2, PORT_DROP 3, LOST 4,
FIRMWARE 5. The RCRC is computed from the rest. -/
structure LogRec where
  code : Nat
  flags : Nat
  source : Nat
  epoch : Nat
  mono : Nat
  wall : Nat
  seq : Nat
  snaps : List Nat
  suppressed : Nat
  deriving DecidableEq, Repr

/-- What the Logbook and the time base hold beside their registers (R541 to R562): the record ports
by island with their PORT_DROP marks and the round-robin place; the circulating ring, oldest first;
the slots a fault freeze holds; the records waiting for the permanent area; how many newest ring
records are unsaved; the token buckets, as tokens missing from a full bucket; the offset of WALL;
and the running and the last freeze stretch. -/
structure LogSt where
  ports : Tbl (List LogReq) := []
  portDrop : Tbl Bool := []
  lastPort : Nat := 0
  ring : List LogRec := []
  heldRing : List LogRec := []
  permQueue : List LogRec := []
  unsaved : Nat := 0
  oldestUnsaved : Nat := 0
  spent : Tbl Nat := []
  wallOff : Int := 0
  stretchFrom : Nat := 0
  stretchBanks : Nat := 0
  stretchEvents : Nat := 0
  stretchEnd : Option Nat := none
  closed : Bool := false
  deriving DecidableEq, Repr

/-- The second half of a conserved move, on its way to the island that makes it (R99, R104). -/
structure HalfMove where
  term : Nat
  delta : Int
  deriving DecidableEq, Repr

/-- A violation as the Tally reports it (R105, R108): invariant, sub-index, left side, right side,
and whether it is marked injected. -/
structure Violation where
  inv : Nat
  sub : Nat
  exp : Int
  obs : Int
  inj : Bool
  deriving DecidableEq, Repr

/-- The conserved terms and the Tally (R98 to R114): the terms by number, the messages carrying
second halves, the final values of domains that are off, the terms latched in the previous round,
the two frozen rounds, with the TRANSIT terms of each, the round parity, the pitch of the rotation of invariant 5, violations
reported at their event, the last stamp issued, whether BASELINE may end at the next round, and
whether a real violation has been found since the fault began. -/
structure TallySt where
  terms : Tbl Int := []
  moving : List HalfMove := []
  shadow : Tbl Int := []
  prev : Tbl Int := []
  snapFault : Tbl Int := []
  snapPrev : Tbl Int := []
  snapTransit : Tbl Int := []
  prevTransit : Tbl Int := []
  snapPrevTransit : Tbl Int := []
  parity : Bool := false
  rotation : Nat := 0
  events : List Violation := []
  lastStamp : Nat := 0
  mayEnd : Bool := false
  realSeen : Bool := false
  deriving DecidableEq, Repr

/-- The counters of one pitch in page C1h (R97). -/
structure PitchLog where
  accepted : Nat := 0
  outOfContract : Nat := 0
  returned : Nat := 0
  demoted : Nat := 0
  broken : Nat := 0
  brokenDataFirst : Nat := 0
  brokenFault : Nat := 0
  deadlineErrors : Nat := 0
  maxPreWait : Nat := 0
  maxLatency : Nat := 0
  lockWaits : Nat := 0
  slotWaits : Nat := 0
  actPowerWaits : Nat := 0
  hostDelay : Nat := 0
  deriving DecidableEq, Repr

/-- A contract (R60), in the units of INTAKE.PITCH_C0 to PITCH_C7 (R95). -/
structure Contract where
  cls : Nat := 0
  dir : Nat := 0
  recovery : Nat := 0
  powerFloor : Nat := 0
  actPause : Nat := 0
  byteRate : Nat := 0
  opRate : Nat := 0
  maxSize : Nat := 0
  burstOps : Nat := 0
  burstUnits : Nat := 0
  boundUs : Nat := 0
  amp : Nat := 0
  deriving DecidableEq, Repr

/-- One entry of the pitch table (R60, R61, R68, R69): its state and owner, the controller it was
rented through, its contract, its three balances in units of 2^-16, its measured amplification in
hundredths, the bytes its epoch has counted, and its log. -/
structure Pitch where
  state : Nat := 0
  owner : Nat := 0
  port : Nat := 0
  c : Contract := {}
  ops : Nat := 0
  units : Nat := 0
  tax : Nat := 0
  meas : Nat := 0
  hostBytes : Nat := 0
  sweepBytes : Nat := 0
  log : PitchLog := {}
  deriving DecidableEq, Repr

/-- One cost in a capacity meter's 10 µs window (R651): the instant of acceptance, the meter as
CAP_SEL numbers it, the port it is metered on, the cost. -/
structure MeterCost where
  at_ : Nat
  res : Nat
  port : Nat
  cost : Nat
  deriving DecidableEq, Repr

/-- The pitch service of INTAKE (R60 to R75, R97, R651). -/
structure PitchSt where
  table : Tbl Pitch := []
  meters : List MeterCost := []
  openBroken : Nat := 0
  generation : Nat := 0
  updatedAt : Nat := 0
  stopped : Bool := false
  deriving DecidableEq, Repr

/-- One I/O or admin submission queue (R137, R145, R147): its controller and identifier, its size,
its completion queue, QPRIO, the host's tail, the next entry to fetch, the head reported to the
host, and the identifiers of its staged commands in submission order. -/
structure Sq where
  port : Nat
  id : Nat
  size : Nat
  cq : Nat
  prio : Nat
  tail : Nat := 0
  fetch : Nat := 0
  head : Nat := 0
  ring : List Nat := []
  deriving DecidableEq, Repr

/-- A completion-queue entry as the host sees it (R144, R149): the queue and command it answers,
the SQ head it reports, status code type and code, DNR, dword 0, the data the device moved to the host
for it, one number per 4 KiB unit or per requested part, dword 1 and More. -/
structure Cqe where
  sqid : Nat
  cid : Nat
  sqhd : Nat
  sct : Nat
  sc : Nat
  dnr : Bool
  dw0 : Nat
  data : List Nat
  dw1 : Nat := 0
  more : Bool := false
  deriving DecidableEq, Repr

/-- One completion queue: entries posted and not yet freed by the host, oldest first, and
completions held because it is full (R53), each with its instant and pitch; the host's head. -/
structure Cq where
  port : Nat
  id : Nat
  size : Nat
  vector : Nat
  posted : List Cqe := []
  held : List Cqe := []
  heldFrom : List (Nat × Nat) := []
  head : Nat := 0
  deriving DecidableEq, Repr

/-- What a command is (R138, R139). -/
inductive Kind where
  | flush | write | read | writeUnc | compare | writeZeroes | dsm | verify | badIo | admin
  deriving DecidableEq, Repr

/-- Where a command stands: staged and not yet evaluated, waiting (CONTRACT 1, LOCK 2, SLOT 3,
ACTIVATION 4, POWER 5, R51), or accepted. -/
inductive Stage where
  | staged | waiting (why : Nat) | accepted
  deriving DecidableEq, Repr

/-- What an accepted command still needs for one IU of its range: the unit mask it covers, the
media address a read takes (none: no media), the units read so far, and whether the IU ended without data. -/
structure IuWork where
  iu : Nat
  mask : Nat
  media : Option Nat
  data : List (Nat × Nat)
  failed : Bool
  deriving DecidableEq, Repr

/-- A command that holds a context (R145): its queue and identifier, what it is, the fields of its
SQE, where it stands, its arrival, its row in request order, how it was admitted (pitch or none,
class, deadline), its write progress (sectors accepted, sectors resident and which they are, when its fetch began, crates by index), its
sectors withdrawn mark, its per-IU work, for a Flush what it covers (namespace, IU, sectors; 0 and a command's
number for a command not yet inserted) and the namespace of which a part was deferred, whether its
lock requests are kept ones (R152), and whether an injected event has delayed it (R92). -/
structure Cmd where
  uid : Nat
  port : Nat
  sqid : Nat
  cid : Nat
  kind : Kind
  opcode : Nat
  nsid : Nat
  slba : Nat
  nlb : Nat
  flags : Nat
  dw : List Nat
  ranges : List (Nat × Nat)
  payload : List Nat
  stage : Stage := .staged
  arrival : Nat := 0
  waitFrom : Nat := 0
  waits : List Nat := []
  order : Nat := 0
  pitch : Option Nat := none
  cls : Nat := 3
  acceptedAt : Nat := 0
  deadline : Option Nat := none
  hostDelay : Nat := 0
  reserve : Bool := false
  sectors : Nat := 0
  resident : Nat := 0
  arrived : List Nat := []
  fetchAt : Nat := 0
  crates : List Nat := []
  merge : List Nat := []
  work : List IuWork := []
  covers : List (Nat × Nat × Nat) := []
  coverDefer : Option Nat := none
  keptReq : Bool := false
  dataFirst : Bool := false
  started : Bool := false
  stopped : Bool := false
  injected : Bool := false
  deriving DecidableEq, Repr

/-- A row of the range-lock table (R150 to R153, R197): its place in the table, the command's number
(its context), the namespace, the IU range, exclusive or shared, held or waiting. A request without a row has place 4,096 once it
is counted as waiting for one (R153). -/
structure RltRow where
  row : Nat
  uid : Nat
  nsid : Nat
  first : Nat
  last : Nat
  excl : Bool
  held : Bool
  deriving DecidableEq, Repr

/-- An entry of page C2h (R167). -/
structure DeferRec where
  seq : Nat
  nsid : Nat
  slba : Nat
  nlb : Nat
  stamp : Nat
  mono : Nat
  epoch : Nat
  cause : Nat
  flags : Nat
  cntlid : Nat
  sqid : Nat
  cid : Nat
  deriving DecidableEq, Repr

/-- An Error Information entry (R141, R165). -/
structure ErrInfo where
  nsid : Nat
  lba : Nat
  sqid : Nat
  cid : Nat
  sct : Nat
  sc : Nat
  deriving DecidableEq, Repr

/-- One port and its NVMe controller (R119, R137, R156, R158, R585 to R590): PERST level, the link
with its width and rate, Max_Payload_Size, CC.EN, CC.AMS, CC.SHN, CSTS.RDY, CSTS.SHST, whether a
controller reset is running with its counts, outstanding host reads, and the features the host has
set, by identifier; outstanding Asynchronous Event Requests, and events sent and not re-armed. -/
structure Port where
  perst : Bool := true
  linkUp : Bool := false
  width : Nat := 0
  rate : Nat := 0
  mps : Nat := 128
  en : Bool := false
  ams : Nat := 0
  shn : Nat := 0
  rdy : Bool := false
  shst : Nat := 0
  resetting : Bool := false
  rstDiscarded : Nat := 0
  rstDropped : Nat := 0
  rstKept : Nat := 0
  rstWithdrawn : Nat := 0
  hostReads : List Nat := []
  features : Tbl Nat := []
  aers : List Nat := []
  masked : List Nat := []
  deriving DecidableEq, Repr

/-- The command front (R137 to R171): ports, queues, commands with contexts, range-lock rows, requests without a row, the block shift under way
(free place below, place above, row to write), the
deferred-error page with what each namespace still has to report, Error Information, asynchronous
events owed, and the arbitration's places. -/
structure HostSt where
  p0 : Port := { perst := false }
  p1 : Port := {}
  sqs : List Sq := []
  cqs : List Cq := []
  cmds : List Cmd := []
  nextUid : Nat := 1
  nextOrder : Nat := 0
  rlt : List RltRow := []
  rltWait : List RltRow := []
  shifting : Option (Nat × Nat × RltRow) := none
  deferLog : List DeferRec := []
  deferGen : Nat := 0
  deferKept : Tbl (Nat × Nat) := []
  errors : List ErrInfo := []
  events : List Nat := []
  rr : Tbl Nat := []
  sinceL2 : Nat := 0
  sinceAdmin : Nat := 0
  deriving DecidableEq, Repr

/-- A row of the crate index (R186). `crate` is the crate's number over all pools; `pitch`
is the pitch of the command that supplied it, 1,024 for none (R338). -/
structure CixRow where
  row : Nat
  nsid : Nat
  iu : Nat
  pool : Nat
  crate : Nat
  stamp : Nat
  units : Nat
  acc : Nat
  prior : Nat
  priorUnc : Bool
  st : Nat
  pitch : Nat := 1024
  deriving DecidableEq, Repr

/-- A namespace (R137, R142, R172, R175, R182): state (0 none, 1 initialising, 2 active,
3 releasing), IU code, block size, size in blocks, IU count, granules held, the controllers it is
attached to (bit per port), whether a format runs and with which LBA format, and its media key slot. -/
structure Ns where
  st : Nat := 0
  iu : Nat := 0
  block : Nat := 4096
  nsze : Nat := 0
  ius : Nat := 0
  grans : List Nat := []
  attached : Nat := 0
  formatting : Bool := false
  newBlock : Nat := 4096
  ses : Nat := 0
  deleting : Bool := false
  deriving DecidableEq, Repr

/-- The ledger engine (R172 to R198): namespaces; the ledger entries (an unlisted IU reads
DEALLOCATED) and UNC bits by namespace and IU; LINE_SEQ by line; lines whose DRAM copy fails
LINE_CRC; crate-index rows whose fields do not correct (R327); the crate index; the take queue of each write group; the running NS_CMD with its
namespace. -/
structure LedgerSt where
  ns : Tbl Ns := []
  map : Tbl Nat := []
  unc : Tbl Bool := []
  lineSeq : Tbl Nat := []
  badLine : Tbl Bool := []
  badRow : List Nat := []
  cix : List CixRow := []
  takeq : Tbl (List Nat) := []
  nsCmd : Option (Nat × Nat) := none
  deriving DecidableEq, Repr

/-- A line of the ledger cache (R199): its line address, DIRTY and REF. -/
structure CLine where
  n : Nat
  dirty : Bool
  ref : Bool
  deriving DecidableEq, Repr

/-- A lock region (R206): namespace, first and last IU. -/
structure LockRgn where
  nsid : Nat
  first : Nat
  last : Nat
  deriving DecidableEq, Repr

/-- What the range engine is doing (R206, R210, R213, R215): the activity as STAT.OP codes it, the
lines still to visit, FORCE, the ways being drained, and whether a disable waits behind it. -/
structure RangeOp where
  op : Nat
  lines : List Nat
  force : Bool
  all : Bool
  ways : Nat
  deriving DecidableEq, Repr

/-- The ledger cache and tray (R199 to R221): lines by set × 16 + way; the tray, oldest first;
prefetches in flight; demand misses in flight; the lines of the last 16 misses, newest first, as the
stream trackers see them; applied lock regions; the range engine and what waits for it. -/
structure CacheSt where
  ways : Tbl (Option CLine) := []
  tray : List Nat := []
  prefetching : List Nat := []
  wanted : List Nat := []
  trackers : List Nat := []
  regions : List (Option LockRgn) := []
  op : Option RangeOp := none
  disableNext : Bool := false
  drainNext : Nat := 0
  stopped : Bool := false
  deriving DecidableEq, Repr

/-- A crate's descriptor (R259): STATE 0 FREE, 1 HELD, 2 LENT, 3 RECLAIMING; KIND 0 HOST, 1 SWEEP,
2 PARITY, 3 LENT; OWNER as R266. -/
structure Crate where
  state : Nat := 0
  kind : Nat := 0
  owner : Nat := 0
  otag : Nat := 0
  rel : Bool := false
  refs : Nat := 0
  poison : Bool := false
  gen : Nat := 0
  deriving DecidableEq, Repr

/-- Who asks the yard for crates and what for (R262): the class 1 to 6, the number of crates, the
pool whose crates are the smallest that fit, KIND, OWNER, OTAG, and the requester's own number: a
command, a stripe serial, a copy slot. -/
structure CrateReq where
  cls : Nat
  count : Nat
  pool : Nat
  kind : Nat
  owner : Nat
  otag : Nat
  who : Nat
  deriving DecidableEq, Repr

/-- The crate yard and the crate store (R223, R257 to R275). Crates are numbered over all pools:
4,096 of pool 0, then 1,024, 256 and 64. `links` are the free lists, the head first; `badLink` marks
a crate whose link word an error has changed; `grants` are the crates handed to each requester and
not yet collected; `mem` is the store's bytes, an unlisted byte reading 0. -/
structure CrateSt where
  desc : Tbl Crate := []
  links : Tbl (List Nat) := []
  badLink : Tbl Bool := []
  waitq : List CrateReq := []
  grants : List (Nat × Nat × List Nat) := []
  mem : List Host.Cell := []
  eccBad : Tbl Bool := []
  closing : Bool := false
  deriving DecidableEq, Repr

/-- One open or closed-but-unfinished stripe (R235 to R240): serial, kind (0 host, 1 fold,
2 relocation, 3 bell), write group, stripe set (channel set × 16 + die address), members as channels in
order, the parity member's place, the unit numbers filled by member place, the places released, the
program units outstanding, PARITY crates, whether the parity unit is issued, and how
often it has failed. -/
structure Stripe where
  serial : Nat
  kind : Nat
  group : Nat
  set : Nat
  members : List Nat
  parityAt : Nat
  filled : List Nat
  released : List Nat
  busy : Nat
  crates : List Nat
  parity : List Nat
  parityIssued : Bool
  parityFails : Nat
  deriving DecidableEq, Repr

/-- An IU inside a program unit: its namespace and index, stamp, its crate-index row's crate
(0 where it is a copy), the source address of a copy, the units' data, its unit flags, the first
codeword position it takes, the dies on which its program has
failed, its sectors, the key each unit is enciphered under, whether CIPHER has passed it, the units
supplied by fills, its copy slot (0 for host data), and the pitch it is attributed to (R338). -/
structure UnitIu where
  nsid : Nat
  iu : Nat
  stamp : Nat
  crate : Nat
  source : Nat
  data : List Nat
  uncMask : Nat
  pos : Nat
  failedOn : List Nat
  sectors : Nat
  keys : List Nat
  enc : Bool
  fillMask : Nat := 0
  copy : Nat := 0
  pitch : Nat := 1024
  deriving DecidableEq, Repr

/-- A program unit on its way to a die (R231 to R236, R241): number, kind as its stripe's (4 a
parity unit, 5 a summary), stripe serial and place in it, channel, die address, block, first codeword
position and number of positions, mode, its IUs, the members a parity unit names, and when its first
row was taken. -/
structure ProgUnit where
  id : Nat
  kind : Nat
  serial : Nat
  place : Nat
  ch : Nat
  die : Nat
  block : Nat
  start : Nat
  cws : Nat
  mode : Nat
  ius : List UnitIu
  members : Nat
  deriving DecidableEq, Repr

/-- The write path (R227 to R256): the populated channels in rank order as the last rebuild formed the
channel sets; open stripes, program units, the next serial and unit number; by kind × 4 + write group,
the IUs not yet placed, when the first was taken, and the IU begun in one unit and not yet finished
with its block; fills awaited (crate, stamp, unit); whether the write floor and its half hold writes, and since when the half does. -/
structure WriteSt where
  rank : List Nat := []
  stripes : List Stripe := []
  units : List ProgUnit := []
  nextSerial : Nat := 0
  nextUnit : Nat := 1
  building : Tbl (List UnitIu) := []
  buildFrom : Tbl Nat := []
  carry : Tbl (Option (Nat × UnitIu)) := []
  fills : List (Nat × Nat × Nat) := []
  floorHeld : Bool := false
  halfHeld : Bool := false
  stallFrom : Nat := 0
  deriving DecidableEq, Repr

/-- Whom a media read serves (R76, R190, R229, R238, R319, R343): a command, the merge of a partial
write, a fill (the row's crate and stamp), a copy slot, a scrub walker, or the rebuild of another read. -/
inductive ReadFor where
  | cmd (uid : Nat)
  | merge (uid : Nat)
  | fill (crate stamp : Nat)
  | sweep (slot : Nat)
  | scrub (walker : Nat)
  | rebuild (read : Nat)
  deriving DecidableEq, Repr

/-- A codeword as media hold it (R305 to R307): stamp, namespace, IU, unit, FLAGS, stripe serial,
position, width, and its 4 KiB of data: for user data the plaintext number with the key it was
enciphered under (R403), which with the namespace, IU and unit stand for the ciphertext. -/
structure Cw where
  stamp : Nat
  nsid : Nat
  iu : Nat
  unit : Nat
  flags : Nat
  serial : Nat
  pos : Nat
  width : Nat
  data : Nat
  key : Nat
  deriving DecidableEq, Repr

/-- The read of one codeword (R76 to R78, R299, R312 to R318): number, whom it serves, class
(0 URGENT to 3 IDLE), namespace, IU and unit asked for, media address of the codeword, where it stands
(0 waiting for a slot, 1 waiting for a sense, 2 being sensed, 3 waiting for the channel, 4 in hard decode,
5 in the soft queue or in a decoder, 6 rebuilding from parity, 7 decoded and before CIPHER, 8 before the
Porter), what has passed it, its ladder step, its read timeouts, whether the failure it climbs for was
injected, the codeword once decoded, the PARITY crates a rebuild refers to, its arrival, and
the ladder step below which an injection fails its decodes (R571). -/
structure MRead where
  id : Nat
  src : ReadFor
  cls : Nat
  nsid : Nat
  iu : Nat
  unit : Nat
  addr : Nat
  st : Nat := 0
  passed : Nat := 0
  step : Nat := 0
  timeouts : Nat := 0
  injected : Bool := false
  got : Option Cw := none
  refs : List Nat := []
  arrived : Nat := 0
  failTo : Nat := 0
  deriving DecidableEq, Repr

/-- A die (R285 to R300): DIE_INFO.STATE of R293, descriptor, suspends used,
the cause it was lost for, the running operation (0 none, 1 program, 2 erase) with its unit or
block, codewords of its load sent, the pending erase with its instant, the start of the current run, senses
in this suspension, the state a sense returns to, closed to new slots, the marks of R78, never to be
suspended again, codewords that passed its waiting load (R298), and the consecutive counts of R291 and
R300. -/
structure Die where
  state : Nat := 0
  desc : Nat := 0
  susp : Nat := 0
  lost : Nat := 0
  runKind : Nat := 0
  running : Nat := 0
  loaded : Nat := 0
  erase : Option (Nat × Nat) := none
  runFrom : Nat := 0
  senses : Nat := 0
  back : Nat := 1
  closed : Bool := false
  lastUrgent : Bool := false
  lastAged : Bool := false
  noSusp : Bool := false
  loadPassed : Nat := 0
  opTimeouts : Nat := 0
  oddStatus : Nat := 0
  featBad : Nat := 0
  idBad : Nat := 0
  deriving DecidableEq, Repr

/-- The stalls (R277 to R304): the geometry of the configuration record (R287: planes, blocks per
plane, pages per block in the dense mode), dies by channel × 16 + die address, media reads, the next
read number, the dies of each channel's consecutive data outs without DQS, whether each channel's last
burst was an aged one, and ZQ failures and the temperature at the last calibration by target. -/
structure StallSt where
  planes : Nat := 4
  blocks : Nat := 5086
  pages : Nat := 1536
  dies : Tbl Die := []
  reads : List MRead := []
  nextRead : Nat := 1
  noDqs : Tbl (List Nat) := []
  lastAged : Tbl Bool := []
  zqFails : Tbl Nat := []
  zqTemp : Tbl (Option Int) := []
  deriving DecidableEq, Repr

/-- An entry of a memory group's table (R325). -/
structure MemEntry where
  addr : Nat
  syndrome : Nat
  count : Nat
  first : Nat
  last : Nat
  deriving DecidableEq, Repr

/-- An entry of the soft queue (R313): the read, the codeword's address, its rank there
(0 URGENT, 1 other host, 2 Sweep, fold or scrub), its deadline, and whether it is running or was
preempted. -/
structure SoftJob where
  read : Nat
  rank : Nat
  deadline : Nat
  running : Bool
  preempted : Bool
  full : Bool
  deriving DecidableEq, Repr

/-- Decoding, patrol scrub and memory protection (R311 to R330): soft queues by cluster; the scrub
cycle's time as counted up to an instant, each walker's blocks still to visit and the media address it goes on
from, the codewords read, walkers at the MAINTAIN rate after a late cycle; the scrub candidates, head first (block key, rank 0 LOST or head,
1 RETRY, 2 WARN); and the memory groups' tables. -/
structure IntegSt where
  soft : Tbl (List SoftJob) := []
  scrubFrom : Nat := 0
  scrubCounted : Nat := 0
  walkers : Tbl (List Nat) := []
  walkPos : Tbl Nat := []
  scrubDone : Nat := 0
  catchUp : Bool := false
  cands : List (Nat × Nat) := []
  mem : Tbl (List (Option MemEntry)) := []
  deriving DecidableEq, Repr

/-- A block's record in the SWEEP region (R336), with the erase instant R356 needs and the IUs the
block's summary names (R384): namespace, IU, stamp, address. A block is keyed by
(channel × 16 + die address) × 8192 + block. -/
structure Block where
  band : Nat := 0
  state : Nat := 0
  pool : Nat := 0
  mode : Nat := 0
  valid : Nat := 0
  pitch : Nat := 1024
  written : Nat := 0
  wear : Nat := 0
  hstate : Nat := 0
  sticky : Nat := 0
  cwRead : Nat := 0
  iterSum : Nat := 0
  softPass : Nat := 0
  retryFirst : Nat := 0
  retryDeep : Nat := 0
  parityRb : Nat := 0
  unrec : Nat := 0
  lastErase : Option Nat := none
  next : Nat := 0
  summary : List (Nat × Nat × Nat × Nat) := []
  good : Bool := true
  deriving DecidableEq, Repr

/-- A band (R335): number, kind (0 host, 1 fold, 2 relocation), cell mode, write group, stripe set (channel set × 16
+ die address), member blocks by key in stripe-position order, state (1 OPEN, 2 CLOSED, 3 VICTIM), and the order in
which it closed. -/
structure Band where
  num : Nat
  kind : Nat
  mode : Nat
  group : Nat
  set : Nat
  members : List Nat
  st : Nat
  closedAt : Nat
  deriving DecidableEq, Repr

/-- A victim (R339 to R350): band, kind as CAND_SEL, named by hardware, a data-safety victim,
the copies still to start (namespace, IU, stamp, source address), copies outstanding,
whether its walk is over, and the standing of its best scrub entry when named (3 for none). -/
structure Victim where
  band : Nat
  kind : Nat
  hard : Bool
  safety : Bool
  todo : List (Nat × Nat × Nat × Nat)
  out : Nat
  walked : Bool
  standing : Nat := 3
  deriving DecidableEq, Repr

/-- A copy under way (R343 to R347): slot, band, namespace, IU, stamp, source, units still to be read, what
has been read of them (data, keys) and their UNC and FILL flags. -/
structure Copy where
  slot : Nat
  band : Nat
  nsid : Nat
  iu : Nat
  stamp : Nat
  source : Nat
  left : Nat
  data : Tbl Nat
  keys : Tbl Nat
  uncMask : Nat
  fillMask : Nat
  deriving DecidableEq, Repr

/-- The Sweep (R335 to R361) and the accumulators of the health page (R354 to R363): block records,
the erase-count table, bands, the band counter, victims in naming order, copies, the next copy slot,
the credit in units of 2^-16 ns, forfeited credit below 1 µs, the channel time (instant, channel, ns) that
data-safety copies have taken in the last 1 ms, the
elapsed part of the wear day and year, WEAR_MEAN at their starts, the temperature statistics, and
when the last RELOC or forced victim was in progress; the blocks a Block Erase has still to ask for (R141). -/
structure SweepSt where
  blocks : Tbl Block := []
  erases : Tbl Nat := []
  bands : List Band := []
  nextBand : Nat := 0
  victims : List Victim := []
  copies : List Copy := []
  nextSlot : Nat := 1
  credit : Nat := 0
  forfeitRest : Nat := 0
  copied : List (Nat × Nat × Nat) := []
  closedSeq : Nat := 0
  dayTicks : Nat := 0
  yearDays : Nat := 0
  lastWearTick : Nat := 0
  dayMean : Nat := 0
  yearMean : Nat := 0
  tempSum : Int := 0
  tempCount : Nat := 0
  tempMaxAt : Nat := 0
  relocSeen : Nat := 0
  planeErases : List (Nat × Nat) := []
  noParity : List Nat := []
  thermalHalts : Nat := 0
  sanTodo : List Nat := []
  deriving DecidableEq, Repr

/-- A record of the record journal (R376). `no` is its place among all records made, which
orders records across power-on epochs (the model's own). `kind`: 1 TRIM, 2 UNC, 3 NS, 4 BAND_OPEN, 5 BAND_CLOSE,
6 ERASE, 7 RETIRE, 8 LAP; `f` are the fields of the kind in the order R376 lists them. -/
structure JRec where
  no : Nat
  kind : Nat
  mono : Nat
  f : List Nat
  deriving DecidableEq, Repr

/-- A line record of the CHECKPOINT log (R385): namespace, line index, S_c, the 48 entries that are
not DEALLOCATED by place, the UNC bits, and the number of journal records made before the line was taken. -/
structure LineRec where
  nsid : Nat
  line : Nat
  sc : Nat
  entries : Tbl Nat
  unc : Nat
  at_ : Nat
  deriving DecidableEq, Repr

/-- A bell directory entry with the data of its row (R375), the key the data are enciphered under, and whether the
row's units can be read back. -/
structure BellRow where
  nsid : Nat
  iu : Nat
  units : Nat
  stamp : Nat
  prior : Nat
  priorUnc : Bool
  data : List Nat
  key : Nat
  durable : Bool
  deriving DecidableEq, Repr

/-- A bell image (R374, R375): sequence number, epoch and monotonic count at CLOSING entry, cause,
rows, units written, the closing bell's time in µs and its failed programs, journal, Logbook, whether it completed,
whether it awaits replay, and whether a rebuild has counted it as cut short. -/
structure BellImage where
  seq : Nat := 0
  epoch : Nat := 0
  mono : Nat := 0
  cause : Nat := 0
  rows : List BellRow := []
  units : Nat := 0
  us : Nat := 0
  fails : Nat := 0
  carried : Nat := 0
  journal : List JRec := []
  ring : List LogRec := []
  complete : Bool := false
  replay : Bool := false
  counted : Bool := false
  deriving DecidableEq, Repr

/-- What a codeword of a bell image holds (R373): the image's header, a unit of a host row by the row's place,
part of a PARITY crate, of a directory copy, of the journal, of the Logbook, or of the saved state. -/
inductive BellPart where
  | header
  | row (n : Nat)
  | parity
  | dir (copy n : Nat)
  | journal (n : Nat)
  | log (n : Nat)
  | saved
  deriving DecidableEq, Repr

/-- A bell unit on its way (R377, R378): number, what its codewords hold (a parity unit: nothing), its sectors, its
stripe, channel × 16 + die, failures, whether good, missing. -/
structure BellUnit where
  id : Nat
  parts : List BellPart
  sectors : Nat
  stripe : Nat
  die : Nat
  fails : Nat := 0
  good : Bool := false
  missing : Bool := false
  deriving DecidableEq, Repr

/-- The closing bell, the journal, laps and rebuild (R368 to R396): the image being written and its
units; the record journal, with how many of its oldest records the lap flushes and how many records have been made; the
lap under way (number, start, NEXT at its start, records made by then), whether it is late, whether one is held in PS3 (R481), the line records not
yet durable, the lines logged since the last epoch, and the line walk's place; whether the valid walk runs. -/
structure BellSt where
  which : Nat := 0
  units : List BellUnit := []
  closingAt : Nat := 0
  journal : List JRec := []
  flushing : Nat := 0
  lap : Option (Nat × Nat × Nat × Nat) := none
  lapLate : Bool := false
  lapHeld : Bool := false
  walkAt : Nat := 0
  walked : Nat := 0
  made : Nat := 0
  lines : List LineRec := []
  logged : Nat := 0
  validWalk : Bool := false
  deriving DecidableEq, Repr

/-- A media key slot (R405, R406, R408, R410): whether it holds a key, whether its record was bad,
the SEQ of its key record, K1 and K2. -/
structure MSlot where
  loaded : Bool := false
  bad : Bool := false
  seq : Nat := 0
  k1 : Nat := 0
  k2 : Nat := 0
  deriving DecidableEq, Repr

/-- A loaded general key slot with the CUSER page that owns it (R411). -/
structure GSlot where
  owner : Nat
  k1 : Nat
  k2 : Nat
  deriving DecidableEq, Repr

/-- The chaining state of a CUSER page (R413, R414). -/
structure Chain where
  mode : Nat
  slot : Nat
  ctr : Nat
  j0 : Nat
  acc : Nat
  held : List Nat
  aad : Nat
  len : Nat
  tagLen : Nat
  deriving DecidableEq, Repr

/-- The job a CUSER page runs: its FIRST and LAST, and the chunk's mode and slot. -/
structure Job where
  first : Bool
  last : Bool
  mode : Nat
  slot : Nat
  deriving DecidableEq, Repr

/-- The cipher engine (R400 to R419): media slots, general slots, chaining states and jobs by page,
the GENERATE whose key record is being written (slot, K1, K2), and what WATCH retention holds while
DATA is off. -/
structure CiphSt where
  media : Tbl MSlot := []
  gen : Tbl (Option GSlot) := []
  chains : Tbl (Option Chain) := []
  jobs : Tbl (Option Job) := []
  generating : Option (Nat × Nat × Nat) := none
  keptGen : Tbl (Option GSlot) := []
  keptChains : Tbl (Option Chain) := []
  deriving DecidableEq, Repr

/-- A firmware descriptor (R428) with the port of a host address (R501) and the bytes moved so far. -/
structure PDesc where
  src : Nat
  dst : Nat
  len : Nat
  tag : Nat
  sk : Nat
  dk : Nat
  burst : Nat
  resp : Bool
  irq : Bool
  port : Nat
  moved : Nat := 0
  deriving DecidableEq, Repr

/-- A completion record (R435). -/
structure PCpl where
  tag : Nat
  code : Nat
  late : Bool
  inj : Bool
  bytes : Nat
  deriving DecidableEq, Repr

/-- A Porter channel beside its registers (R424, R428 to R436): the running descriptor with its responses
outstanding, the descriptor completed last with responses outstanding and whether it has failed already, the
code a record waits to be made with and whether it was injected, whether a poisoned source was read, the
completion FIFO, and how many bursts of higher priority have passed its ready burst. -/
structure PChan where
  desc : Option PDesc := none
  out : Nat := 0
  prev : Option PDesc := none
  prevOut : Nat := 0
  prevDone : Bool := false
  owed : Option (Nat × Bool) := none
  poisoned : Bool := false
  cpl : List PCpl := []
  passed : Nat := 0
  deriving DecidableEq, Repr

/-- An egress unit in the Porter (R425): the media read it is, its command, its channel 0 to 3, where its
data begin in the command's data, the bytes gone and still to go, and its arrival. -/
structure Egress where
  read : Nat
  uid : Nat
  ch : Nat
  start : Nat
  gone : Nat
  left : Nat
  arrived : Nat
  deriving DecidableEq, Repr

/-- The Porter (R420 to R440): channels, the instant each timer was enabled with its expiries so
far, egress units, zero fills owed (crate, unit), the last channel served at each port and
priority, and whether the last burst of each port was an aged one. -/
structure PorterSt where
  ch : Tbl PChan := []
  timers : Tbl (Nat × Nat) := []
  egress : List Egress := []
  fills : List (Nat × Nat) := []
  last : Tbl Nat := []
  lastAged : Tbl Bool := []
  stopped : Bool := false
  deriving DecidableEq, Repr

/-- Islands (R450): those whose clock is stopped. -/
structure IslSt where
  gated : List Nat := []
  deriving DecidableEq, Repr

/-- Power (R465 to R487): the clock of the MAIN islands of R475 in 100 MHz steps; whether the voltage
commanded last has settled; the CORE clock and voltage of the request in force, and of one that is held
(R473); the state selected per port, whether by APST, each port's APST table of 32 entries; the state being
entered, whether its wait has been counted; whether an exit runs, since when; the operational state to return
to; sensor readings in °C (none while the domain is off), thresholds in force (bits 0 WCTEMP, 1 CCTEMP,
2 OVERRIDE, 3 SHUTDOWN, 4 RESTART, and 8 to 12 those an injected reading last stood above); the instant since
which the effective state has run and the ticks spent in each; the host's temperature thresholds in kelvin
(TMPSEL × 2 + THSEL). -/
structure PwrSt where
  mainClk : Nat := 16
  settled : Bool := true
  reqClk : Nat := 24
  reqVdd : Nat := 0
  heldClk : Option Nat := none
  heldVdd : Option Nat := none
  sel : Tbl Nat := []
  apstSel : Bool := false
  apst : Tbl (List Nat) := []
  entering : Option Nat := none
  waitCounted : Bool := false
  exiting : Bool := false
  exitFrom : Nat := 0
  backTo : Nat := 0
  temps : Tbl (Option Int) := []
  above : Nat := 0
  psFrom : Nat := 0
  psTicks : Tbl Nat := []
  hostThr : Tbl Nat := []
  deriving DecidableEq, Repr

/-- An ADMQ slot (R498, R501, R502): the command's place in hand-over order, its controller, identifier
and context, opcode, SQE dwords, 1 awaiting firmware or 2 held, REPLAY, the byte ranges of its data in host
memory, and whether they go device to host. -/
structure AdmSlot where
  order : Nat
  port : Nat
  cid : Nat
  uid : Nat
  opcode : Nat
  sqe : List Nat
  st : Nat
  replay : Bool
  ranges : List (Nat × Nat)
  toHost : Bool
  deriving DecidableEq, Repr

/-- Cores, watchdogs and the admin queue (R488 to R509): whether CORE is held in reset, and since when;
the reload instants of the policy harts' watchdogs and of the management watchdog; the instants of the
last management restarts and watchdog CORE resets; harts whose machine timer interrupt is pending; admin
slots; commands waiting for a slot; the next hand-over number. -/
structure CoreSt where
  inReset : Bool := true
  resetAt : Nat := 0
  kicked : Tbl Nat := []
  mKicked : Nat := 0
  mRestarts : List Nat := []
  wdResets : List Nat := []
  timers : List Nat := []
  adm : Tbl (Option AdmSlot) := []
  admWait : List AdmSlot := []
  admNext : Nat := 0
  deriving DecidableEq, Repr

/-- An operation on a code-flash bank (R515): its rank (1 DEVREC, 2 LOGPERM, 3 Gate, 4 firmware),
1 erase or 2 program, the sector, the word address and the words programmed, and when it started or
last resumed. -/
structure FlOp where
  rank : Nat
  op : Nat
  sector : Nat
  addr : Nat
  words : List Nat
  from_ : Nat
  deriving DecidableEq, Repr

/-- The slot descriptor (R522). -/
structure SlotDesc where
  seq : Nat := 0
  current : Nat := 1
  trial : Nat := 0
  next : Nat := 0
  boots : Nat := 0
  fallback : Nat := 0
  deriving DecidableEq, Repr

/-- A configuration record (R534): its payload as 64-bit words, of which `len` bytes count. -/
structure CfgRec where
  type : Nat
  format : Nat
  seq : Nat
  len : Nat
  payload : List Nat
  deriving DecidableEq, Repr

/-- A commit under way (R528 to R531): action, slot, source, the image's words in all, the header the Gate keeps in its
buffer, the words taken so far, the words in the pump's queue, the sectors erased, whether the header is programmed,
and for an activation whether it runs, since when, and its allowance in µs. -/
structure Commit where
  action : Nat
  slot : Nat
  src : Nat
  total : Nat
  head : List Nat := []
  taken : Nat := 0
  queue : List Nat := []
  erased : Nat := 0
  written : Bool := false
  activating : Bool := false
  started : Nat := 0
  allow : Nat := 0
  deriving DecidableEq, Repr

/-- The code-flash controller and the Gate (R510 to R540): each bank's running operation, the instant a suspension
began, what waits for it; each source's coverage; the slot lock's instant; the commit; whether a record is open and
the words pumped for it; firmware erases of the wear day by sector; the slots run before an activation; the slot whose
stall microcode runs, and ran before; the slot chosen at this WAKE (R523). -/
structure CfSt where
  run : Tbl (Option FlOp) := []
  susp : Tbl (Option Nat) := []
  wait : Tbl (List FlOp) := []
  cover : Tbl (List (Nat × Nat)) := []
  lockAt : Nat := 0
  commit : Option Commit := none
  recOpen : Bool := false
  recWords : List Nat := []
  dayErases : Tbl Nat := []
  prevPolicy : Nat := 0
  prevMgmt : Nat := 0
  microcode : Nat := 0
  prevMicro : Nat := 0
  chosen : Nat := 0
  deriving DecidableEq, Repr

/-- An armed injection point (R566 to R571): page INDEX, point, SUB, PARAM, mode, firings left. -/
structure Armed where
  page : Nat
  point : Nat
  sub : Nat
  param : Nat
  mode : Nat
  left : Nat
  deriving DecidableEq, Repr

/-- The test access port and the Korern trace port (R629 to R634): instruction register, boundary
cells captured and preloaded, the trace configuration in force, KTR_STAT's bits, packets waiting as
lists of 16-bit words, SYNC packets sent, packets dropped since the
last DROP, and pulses of KTR_TRIG_OUT. -/
structure JtagSt where
  ir : Nat := 0x02
  shift : Nat := 0xA9624A7B
  captured : List Nat := []
  preload : List Nat := []
  driven : List Nat := []
  ktrCfg : Nat := 0
  ktrStat : Nat := 0
  fifo : List (List Nat) := []
  syncs : Nat := 0
  dropped : Nat := 0
  trigOut : Nat := 0
  deriving DecidableEq, Repr

/-- What outlives VDD_WATCH (R107, R126, R373 to R388, R511, R543, R553, R561): media codewords by
media address, the erase counts in the summary headers of blocks (R383), retired blocks with their cause, the RECORDS area's journal, saved block records and
erase counts, the CHECKPOINT log, the two bell images, the saved Logbook ring, the permanent area
and which of its slots a cut-short program left undefined,
and what code flash holds: RO_CAUSE, epoch, SPARE.INIT, owner lock, slot descriptor, fall-backs,
configuration records of both areas, key records (SEQ, K1, K2, readable), wrap counter, words of the
slots and FWDATA, sector erase counts, words left undefined by
an operation cut short, the count records in the active half of the count region, which half of it and of the CONFIG areas
is active; the saved page C2h, scrub, wear and temperature state; the sanitize that has not ended (0 none, 1 Block Erase, 2 Crypto
Erase). -/
structure Nv where
  media : Tbl (Option Cw) := []
  headers : Tbl Nat := []
  retired : List (Nat × Nat) := []
  records : List JRec := []
  blocks : Tbl Block := []
  saveNo : Nat := 0
  erases : Tbl Nat := []
  ckpt : List LineRec := []
  imgA : BellImage := {}
  imgB : BellImage := {}
  lastImage : Nat := 0
  ring : List LogRec := []
  perm : List LogRec := []
  permBad : List Nat := []
  roCause : Nat := 0
  epoch : Nat := 0
  spareInit : Nat := 0
  owner : Bool := false
  desc : SlotDesc := {}
  fallbacks : Nat := 0
  cfgA : List CfgRec := []
  cfgB : List CfgRec := []
  cfgSeq : Nat := 0
  keyRecs : Tbl (Option (Nat × Nat × Nat × Bool)) := []
  wrapCtr : Nat := 0
  words : Tbl Nat := []
  sectErases : Tbl Nat := []
  undef : List Nat := []
  cntRecs : Nat := 0
  cntHalf : Nat := 0
  cfgHalf : Nat := 0
  deferLog : List DeferRec := []
  deferTotal : Nat := 0
  saved : Tbl Nat := []
  walkers : Tbl (List Nat) := []
  bellSeq : Nat := 0
  bellShort : Nat := 0
  sanitize : Nat := 0
  deriving DecidableEq, Repr

/-- What the last register or code-flash read answered (the model's own, log entry 43): the words,
whether the bus answered with an error, and per reading requester the upper half latched by its last
read of a lower half (R604); and the response status of the last NVMe-MI command and how many of its dwords were
refused (R606), and the opcodes of the NVMe-MI commands passed to management firmware, oldest first. -/
structure BusSt where
  data : List Nat := []
  error : Bool := false
  latch : Tbl Nat := []
  miStatus : Nat := 0
  miRefused : Nat := 0
  miPassed : List Nat := []
  deriving DecidableEq, Repr

/-- The machine. `regs` holds every register field that is not computed from the rest, `mono` the
monotonic count of 10 ns ticks, `free` the counter the free values of Config are applied to (the
model's own, log entry 3), `pending` the commands that are waiting, `nv` what outlives power, `dram`
the FIRMWARE region of DRAM, `armed` the armed injection points; the other fields are the blocks. -/
structure State where
  regs : Tbl Nat := []
  mono : Nat := 0
  free : Nat := 0
  pending : List Instr := []
  nv : Nv := {}
  dev : DevSt := {}
  log : LogSt := {}
  tal : TallySt := {}
  pit : PitchSt := {}
  host : HostSt := {}
  led : LedgerSt := {}
  lc : CacheSt := {}
  cr : CrateSt := {}
  wp : WriteSt := {}
  st : StallSt := {}
  integ : IntegSt := {}
  sw : SweepSt := {}
  bell : BellSt := {}
  ciph : CiphSt := {}
  por : PorterSt := {}
  isl : IslSt := {}
  pwr : PwrSt := {}
  core : CoreSt := {}
  cf : CfSt := {}
  armed : List Armed := []
  jtag : JtagSt := {}
  bus : BusSt := {}
  dram : List Host.Cell := []
  deriving DecidableEq, Repr

/-- The crates of pools 0 to 3 (R257). -/
def poolCrates : Nat → Nat
  | 0 => 4096
  | 1 => 1024
  | 2 => 256
  | 3 => 64
  | _ => 0

/-- The first crate number of a pool. -/
def poolFirst : Nat → Nat
  | 0 => 0
  | 1 => 4096
  | 2 => 5120
  | _ => 5376

/-- The terms of R98 as a MAIN reset leaves them: every crate is FREE, all else is 0 (R107, R257). -/
def resetTerms : Tbl Int := [(0, 4096), (1, 1024), (2, 256), (3, 64)]

/-- The register values after a MAIN reset that differ between the entries of one bank (R275). -/
def resetBanks : Tbl Nat :=
  [(R.CRATEYD.POOL_CNT2_LOW.key 0 0, 4096), (R.CRATEYD.POOL_CNT2_LOW.key 0 1, 1024),
   (R.CRATEYD.POOL_CNT2_LOW.key 0 2, 256), (R.CRATEYD.POOL_CNT2_LOW.key 0 3, 64),
   (R.CRATEYD.POOL_RSV_BELL.key 0 3, 2),
   (R.CRATEYD.LEND_MAX_CRATES.key 0 0, 64), (R.CRATEYD.LEND_MAX_CRATES.key 0 1, 16),
   (R.CRATEYD.LEND_MAX_CRATES.key 0 2, 8), (R.CRATEYD.LEND_MAX_CRATES.key 0 3, 4)]

/-- The tally's part of the state after a MAIN reset (R107). -/
def resetTally : TallySt := { terms := resetTerms }

/-- The machine right after the WATCH power-on reset is released with TEST_EN low (R119, R579): the
device is in WAKE, MONOTONIC is 0, every register holds its reset value, no domain but WATCH is
powered, code flash and media are as manufacture leaves them (log entries 1 and 2). -/
def State.reset : State := { regs := resetBanks, tal := resetTally }

/-- The memories of the block that are held as bytes, the crate store and the FIRMWARE region of
DRAM, are in canonical form: addresses rise, and no entry holds the 0 an unlisted byte reads as. -/
def Memory.wf (m : List Host.Cell) : Bool := Tbl.wf (0 : BitVec 8) m

end Sys2Proof.Machine
end

