-- ==== Sys2Proof/Machine/Regs.lean ====
section
/-! DEFINITION. Reading and writing the register store, and one update of each part of the state. -/

namespace Sys2Proof.Machine

open Sys2Proof

/-- The value of register field `f`, of instance `i` of its page and entry `b` of its bank (R11). -/
def State.rd (s : State) (f : Field) (i b : Nat := 0) : Nat := s.regs.get f.reset (f.key i b)

/-- The state with register field `f` holding `v`, truncated to the field's width. -/
def State.wr (s : State) (f : Field) (v : Nat) (i b : Nat := 0) : State :=
  { s with regs := s.regs.set f.reset (f.key i b) (v % 2 ^ f.width) }

/-- Raises a field to `v` where it reads less: the "longest" and "highest" fields. -/
def State.peak (s : State) (f : Field) (v : Nat) (i b : Nat := 0) : State :=
  if s.rd f i b < v then s.wr f (min v (2 ^ f.width - 1)) i b else s

/-- The page INDEX a field of instance `i` stands in. -/
def pageOf (f : Field) (i : Nat) : Nat := f.page + i

/-- A common event of page `p` (R598): its bit of EVT_RAW is set, and where the page's counter is
enabled and counts this event, CNT_VAL counts it (R597). -/
def State.raise (s : State) (p e : Nat) : State :=
  let s := s.wr R.COMMON.EVT_RAW_EVENTS (setBit (s.rd R.COMMON.EVT_RAW_EVENTS p) e) p
  if s.rd R.COMMON.PAGE_CTRL_ENABLE p = 1 ∧ s.rd R.COMMON.CNT_SEL_EVENT p = e then
    s.wr R.COMMON.CNT_VAL_COUNT (min (s.rd R.COMMON.CNT_VAL_COUNT p + 1) 0xFFFFFFFF) p
  else s

/-- The common event a hardware change of a field of class `cls` from `old` to `new` raises: DONE for
a BUSY field that falls, ERROR for a non-zero result code, STATE for a named state that changes. -/
def eventOf (cls old new : Nat) : Option Nat :=
  if cls = 3 ∧ new ≠ 0 then some 2
  else if cls = 4 ∧ old ≠ 0 ∧ new = 0 then some 0
  else if cls = 5 ∧ old ≠ new then some 3
  else none

/-- Hardware loads `v` into a field, with the common event that raises (R598). -/
def State.set (s : State) (f : Field) (v : Nat) (i b : Nat := 0) : State :=
  let t := s.wr f v i b
  match eventOf f.cls (s.rd f i b) v with
  | some e => t.raise (pageOf f i) e
  | none => t

/-- Hardware adds `n` to a counter field, which saturates or wraps as its table says (log entry 6),
with the common events REFUSED, ERROR and SAT (R598). -/
def State.count (s : State) (f : Field) (i b : Nat := 0) (n : Nat := 1) : State :=
  if n = 0 then s else
  let top := 2 ^ f.width - 1
  let v := s.rd f i b + n
  let s := if f.sat then s.wr f (min v top) i b else s.wr f v i b
  let s := if f.cls = 1 then s.raise (pageOf f i) 1 else if f.cls = 2 then s.raise (pageOf f i) 2 else s
  if f.sat ∧ top ≤ v then s.raise (pageOf f i) 6 else s

/-- A 64-bit value in a pair of 32-bit fields. -/
def State.wr64 (s : State) (lo hi : Field) (v : Nat) (i b : Nat := 0) : State :=
  (s.wr lo v i b).wr hi (v / 2 ^ 32) i b

/-- The value of a pair of fields. -/
def State.rd64 (s : State) (lo hi : Field) (i b : Nat := 0) : Nat := s.rd lo i b + s.rd hi i b * 2 ^ 32

/-- A fresh number for the free values of Config. -/
def State.fresh (s : State) : Nat × State := (s.free, { s with free := s.free + 1 })

/-- The state with its `nv` part changed. -/
def State.mNv (s : State) (g : Nv → Nv) : State := { s with nv := g s.nv }

/-- The state with its `dev` part changed. -/
def State.mDev (s : State) (g : DevSt → DevSt) : State := { s with dev := g s.dev }

/-- The state with its `log` part changed. -/
def State.mLog (s : State) (g : LogSt → LogSt) : State := { s with log := g s.log }

/-- The state with its `tal` part changed. -/
def State.mTal (s : State) (g : TallySt → TallySt) : State := { s with tal := g s.tal }

/-- The state with its `pit` part changed. -/
def State.mPit (s : State) (g : PitchSt → PitchSt) : State := { s with pit := g s.pit }

/-- The state with its `host` part changed. -/
def State.mHost (s : State) (g : HostSt → HostSt) : State := { s with host := g s.host }

/-- The state with its `led` part changed. -/
def State.mLed (s : State) (g : LedgerSt → LedgerSt) : State := { s with led := g s.led }

/-- The state with its `lc` part changed. -/
def State.mLc (s : State) (g : CacheSt → CacheSt) : State := { s with lc := g s.lc }

/-- The state with its `cr` part changed. -/
def State.mCr (s : State) (g : CrateSt → CrateSt) : State := { s with cr := g s.cr }

/-- The state with its `wp` part changed. -/
def State.mWp (s : State) (g : WriteSt → WriteSt) : State := { s with wp := g s.wp }

/-- The state with its `st` part changed. -/
def State.mSt (s : State) (g : StallSt → StallSt) : State := { s with st := g s.st }

/-- The state with its `integ` part changed. -/
def State.mInteg (s : State) (g : IntegSt → IntegSt) : State := { s with integ := g s.integ }

/-- The state with its `sw` part changed. -/
def State.mSw (s : State) (g : SweepSt → SweepSt) : State := { s with sw := g s.sw }

/-- The state with its `bell` part changed. -/
def State.mBell (s : State) (g : BellSt → BellSt) : State := { s with bell := g s.bell }

/-- The state with its `ciph` part changed. -/
def State.mCiph (s : State) (g : CiphSt → CiphSt) : State := { s with ciph := g s.ciph }

/-- The state with its `por` part changed. -/
def State.mPor (s : State) (g : PorterSt → PorterSt) : State := { s with por := g s.por }

/-- The state with its `isl` part changed. -/
def State.mIsl (s : State) (g : IslSt → IslSt) : State := { s with isl := g s.isl }

/-- The state with its `pwr` part changed. -/
def State.mPwr (s : State) (g : PwrSt → PwrSt) : State := { s with pwr := g s.pwr }

/-- The state with its `core` part changed. -/
def State.mCore (s : State) (g : CoreSt → CoreSt) : State := { s with core := g s.core }

/-- The state with its `cf` part changed. -/
def State.mCf (s : State) (g : CfSt → CfSt) : State := { s with cf := g s.cf }

/-- The state with its `armed` part changed. -/
def State.mArmed (s : State) (g : List Armed → List Armed) : State := { s with armed := g s.armed }

/-- The state with its `jtag` part changed. -/
def State.mJtag (s : State) (g : JtagSt → JtagSt) : State := { s with jtag := g s.jtag }

/-- The state with its `bus` part changed. -/
def State.mBus (s : State) (g : BusSt → BusSt) : State := { s with bus := g s.bus }

end Sys2Proof.Machine
end

