-- ==== Sys2Proof/Machine/Ops.lean ====
section
/-! DEFINITION. The operations several families share: trace packets, Logbook records, refusals of the
Inspector, conserved moves, mode changes and state transitions. -/

namespace Sys2Proof.Machine

open Sys2Proof

/-! ### Initiators and pages -/

/-- The initiator as LIM_LAST.INIT codes it (R507); the boot ROM has no code. -/
def initCode : Initiator → Nat
  | .policy _ _ _ => 1
  | .mgmt _ _ => 2
  | .mi => 3
  | .bootRom => 0

/-- The hart of an initiator. -/
def initHart : Initiator → Nat
  | .policy h _ _ => h
  | .mgmt h _ => h
  | .mi => 0
  | .bootRom => 0

/-- The initiator's bit in `Field.who`. -/
def initMask : Initiator → Nat
  | .policy _ _ _ => 1
  | .mgmt _ _ => 2
  | .mi => 4
  | .bootRom => 8

/-- Whether an initiator may write a field (R12, R500 limit 15); the boot ROM may write every field. -/
def mayWrite (f : Field) (who : Initiator) : Bool :=
  decide (who = .bootRom) || decide (f.who / initMask who % 2 = 1)

/-- The island of page INDEX `p`, numbered as R463 (R596). -/
def pageIsland (p : Nat) : Nat :=
  if p < 0x10 then 8 else if p = 0x10 then 0 else if p ≤ 0x12 then 1 else if p ≤ 0x17 then 2
  else if p ≤ 0x19 then 3 else if p = 0x1A then 6 else if p = 0x1B then 4 else if p = 0x1C then 5
  else if p < 0x30 then 4 else if p < 0x70 then 5 else if p < 0x80 then 9 + (p - 0x70) else 21 + (p - 0x80)

/-- The power domain of an island (R465). -/
def islandDomain (n : Nat) : Nat :=
  if n ≤ 1 then 1 else if n ≤ 5 then 2 else if n = 6 then 3 else if n = 7 then 4 else if n = 8 then 0
  else if n ≤ 20 then 5 + (n - 9) else 5 + (n - 21) / 8

/-- The device state (R119): 0 OFF, 1 WAKE, 2 SELF_TEST, 3 REBUILD, 4 SERVICE, 5 QUIESCE, 6 CLOSING,
7 HALT. -/
def State.dst (s : State) : Nat := s.rd R.DEVSTATE.DEV_STATE_STATE

/-- Whether mode bit `m` of MODE_CUR is set (R127): 0 RECORD, 1 ARCHIVE, 2 READ_ONLY,
3 SANITIZE, 4 MAINTAIN, 5 DIAGNOSE, 6 DEGRADED, 7 LEGACY. -/
def State.mode (s : State) (m : Nat) : Bool := bit (s.rd R.DEVSTATE.MODE_CUR_MODES) m

/-! ### The trace port (R632, R634) -/

/-- The 16-bit words of a number, low word first. -/
def words16 (n : Nat) : Nat → List Nat
  | 0 => []
  | k + 1 => n % 0x10000 :: words16 (n / 0x10000) k

/-- The words waiting in the trace FIFO. -/
def fifoWords (q : List (List Nat)) : Nat := (q.map List.length).sum

/-- Queues a trace packet; one that does not fit wholly in the 8 KiB FIFO is dropped whole and
counted, and a DROP packet stands for the dropped ones once room returns. -/
def pushPacket (j : JtagSt) (p : List Nat) : JtagSt :=
  if bit j.ktrCfg 0 = false then j
  else if fifoWords j.fifo + p.length + (if j.dropped = 0 then 0 else 1) ≤ 4096 then
    if j.dropped = 0 then { j with fifo := j.fifo ++ [p] }
    else { j with fifo := j.fifo ++ [[0xE000 + min j.dropped 0xFFF], p], dropped := 0 }
  else
    { j with dropped := j.dropped + 1
             ktrStat := setBit (j.ktrStat - j.ktrStat % 0x10000 + min (j.ktrStat % 0x10000 + 1) 0xFFFF) 16 }

/-- While the development override fuse is intact, the clearing of DIAGNOSE disables the trace port (R633). -/
def State.traceOff (s : State) : State :=
  s.mJtag fun j => if Config.devFuse then j else { j with ktrCfg := clrBit j.ktrCfg 0 }

/-! ### Logbook records (R545 to R558) -/

/-- Little-endian bytes of a number. -/
def bytesOf (n : Nat) : Nat → List Nat
  | 0 => []
  | k + 1 => n % 256 :: bytesOf (n / 256) k

/-- The number of a list of little-endian bytes. -/
def ofBytes : List Nat → Nat
  | [] => 0
  | b :: t => b % 256 + 256 * ofBytes t

/-- Eight shifts of the reflected CRC-32C polynomial. -/
def crcFold (c : Nat) : Nat → Nat
  | 0 => c
  | k + 1 => crcFold (if c % 2 = 1 then (c / 2).xor 0x82F63B78 else c / 2) k

/-- The running CRC-32C over bytes. -/
def crcBytes : List Nat → Nat → Nat
  | [], c => c
  | b :: t, c => crcBytes t (crcFold (c.xor (b % 256)) 8)

/-- CRC-32C of a byte string. -/
def crc32c (bs : List Nat) : Nat := (crcBytes bs 0xFFFFFFFF).xor 0xFFFFFFFF

/-- Bytes 0 to 59 of a stored record (R545). -/
def LogRec.body (r : LogRec) : List Nat :=
  bytesOf r.code 2 ++ [r.flags, r.source] ++ bytesOf r.epoch 4 ++ bytesOf r.mono 8 ++ bytesOf r.wall 6
    ++ [0, 0] ++ bytesOf r.seq 8 ++ bytesOf (r.snaps.getD 0 0) 4 ++ bytesOf (r.snaps.getD 1 0) 4
    ++ bytesOf (r.snaps.getD 2 0) 4 ++ bytesOf (r.snaps.getD 3 0) 4 ++ bytesOf r.suppressed 4
    ++ bytesOf 0 8

/-- The 64 bytes of a stored record. -/
def LogRec.bytes (r : LogRec) : List Nat := r.body ++ bytesOf (crc32c r.body) 4

/-- 32-bit words of little-endian bytes. -/
def words32 : List Nat → List Nat
  | a :: b :: c :: d :: t => ofBytes [a, b, c, d] :: words32 t
  | _ => []

/-- 16-bit words of little-endian bytes. -/
def halves : List Nat → List Nat
  | a :: b :: t => ofBytes [a, b] :: halves t
  | _ => []

/-- Whether no rate limit applies to a code and a read freeze does not stop it (R547). -/
def unlimited (code : Nat) : Bool := decide (code < 0x20) || decide (code = 0x40)

/-- The burst of a code: as the boot ROM loads it, by default 64 tokens (R550). -/
def State.burst (s : State) (code : Nat) : Nat :=
  let v := s.rd R.LOG.RATE_CFG_BURST 0 code
  if v = 0 then 64 else v

/-- WALL in ms at monotonic count `t`, 48 bits (R544). -/
def State.wallAt (s : State) (t : Nat) : Nat :=
  ((s.log.wallOff + (t / 100000 : Nat)) % (2 ^ 48 : Nat)).toNat

/-- The next SEQ (R545). -/
def State.headSeq (s : State) : Nat := s.rd64 R.LOG.HEAD_SEQ_LO_VALUE R.LOG.HEAD_SEQ_HI_VALUE

/-- The ring's records in storage order: while fault-frozen, the circulating records older than the
held ones come first (R552). -/
def State.stored (s : State) : List LogRec :=
  match s.log.heldRing with
  | [] => s.log.ring
  | h :: t =>
    (s.log.ring.takeWhile fun r => decide (r.epoch < h.epoch ∨ (r.epoch = h.epoch ∧ r.seq < h.seq)))
      ++ (h :: t)
      ++ (s.log.ring.dropWhile fun r => decide (r.epoch < h.epoch ∨ (r.epoch = h.epoch ∧ r.seq < h.seq)))

/-- The bank of a firmware record's poster, by its hart group. -/
def fwBank (source : Nat) : Nat := if source < 0x88 then 1 else 2

/-! ### The banks of the code-flash array (R514 to R518) -/

/-- The bank of a sector. -/
def sectorBank (sector : Nat) : Nat := sector / 4096 % 2

/-- The first sector of a half of the count region (log entry 44). -/
def countHalf (half : Nat) : Nat := 7428 + 16 * half

/-- A count record is appended for an erase that begins. The record space once full, the region is compacted: the
counts move to the other half, and the old half is erased, which appends no record (R518). -/
def State.countErase (s : State) (sector : Nat) : State :=
  s.mNv fun v =>
    let up := fun (t : Tbl Nat) k => t.set 0 k (t.get 0 k + 1)
    let n := v.cntRecs + 1
    if n < 5120 then { v with sectErases := up v.sectErases sector, cntRecs := n }
    else { v with sectErases := (List.range 16).foldl (fun t k => up t (countHalf v.cntHalf + k)) (up v.sectErases sector)
                  cntRecs := 0, cntHalf := 1 - v.cntHalf }

/-- The first of the operations of lowest rank (R515). -/
def flFirst : List FlOp → Option FlOp
  | [] => none
  | o :: t => match flFirst t with
    | none => some o
    | some p => if p.rank < o.rank then some p else some o

/-- The operation a bank would run next: what waits for it, and on bank 0 the oldest record for the permanent area.
From CLOSING to HALT only such records are programmed (R514). -/
def State.flPick (s : State) (bank : Nat) : Option FlOp :=
  let perm := match s.log.permQueue with
    | r :: _ =>
      if bank = 0 then
        [{ rank := 2, op := 2, sector := 3332 + s.nv.perm.length / 64, addr := 3332 * 512 + 8 * s.nv.perm.length
           words := (List.range 8).map fun k => ofBytes ((r.bytes.drop (8 * k)).take 8), from_ := 0 : FlOp }]
      else []
    | [] => []
  flFirst (if s.dst = 6 then perm else perm ++ s.cf.wait.get [] bank)

/-- A bank that runs nothing takes its next operation; an erase is counted before it begins, one of firmware in the
wear day as well (R515, R517, R518). -/
def State.flNext (s : State) (bank : Nat) : State :=
  match s.cf.run.get none bank, s.flPick bank with
  | none, some o =>
    let s := s.mCf fun c => { c with
      run := c.run.set none bank (some { o with from_ := s.mono }), susp := c.susp.set none bank none
      wait := c.wait.set [] bank ((c.wait.get [] bank).erase o)
      dayErases := if o.op = 1 ∧ o.rank = 4 then c.dayErases.set 0 o.sector (c.dayErases.get 0 o.sector + 1)
        else c.dayErases }
    let s := if o.op = 1 then s.countErase o.sector else s
    s.wr R.CFLASH.BANK_STAT_BUSY (setBit (s.rd R.CFLASH.BANK_STAT_BUSY) bank)
  | _, _ => s

/-- The permanent area's next record goes to the code-flash controller's queue (R553). -/
def wantsPerm (s : State) (q : LogReq) : Bool :=
  !q.fw && decide (s.rd R.LOG.PERM_USE_SLOTS + s.log.permQueue.length < 4096)

/-- Places a record in the ring: the oldest is overwritten when it is full; while fault-frozen only
8,192 slots circulate (R551, R552). -/
def ringPush (l : LogSt) (frozen : Bool) (r : LogRec) : List LogRec :=
  let cap := if frozen then 8192 else 65536
  let q := l.ring ++ [r]
  if cap < q.length then q.drop (q.length - cap) else q

/-- Stores a record that has passed its limits (R549): flags, SEQ, WALL, the permanent area's queue,
the ring, the fault freeze, the trace port and KTR_TRIG_OUT. -/
def State.keep (s : State) (q : LogReq) (dropped : Bool) : State :=
  let sup := s.rd R.LOG.SUPPRESSED_COUNT 0 q.code
  let perm := wantsPerm s q && decide (s.log.permQueue.length < 64)
  let skip := wantsPerm s q && !perm
  let valid := decide (s.rd R.TIME.WALL_HI_VALID = 1)
  let r : LogRec :=
    { code := q.code
      flags := b2n q.inj + 2 * b2n valid + 4 * b2n perm + 8 * b2n dropped + 32 * b2n q.fw
      source := q.source, epoch := s.rd R.TIME.EPOCH_VALUE, mono := q.at_
      wall := if valid then s.wallAt q.at_ else q.at_ / 100000 % 2 ^ 48
      seq := s.headSeq, snaps := q.snaps, suppressed := sup }
  let frozen := decide (s.rd R.LOG.LOG_STAT_FAULT_FROZEN = 1)
  let freezes := decide (q.code = 0x040) && !frozen
  let ring := ringPush s.log frozen r
  let s := s.mLog fun l =>
    { l with ring := if freezes then ring.take (ring.length - 57344) else ring
             heldRing := if freezes then ring.drop (ring.length - 57344) else l.heldRing
             permQueue := if perm then l.permQueue ++ [r] else l.permQueue
             oldestUnsaved := if l.unsaved = 0 then s.mono else l.oldestUnsaved
             unsaved := l.unsaved + 1 }
  let s := (s.wr64 R.LOG.HEAD_SEQ_LO_VALUE R.LOG.HEAD_SEQ_HI_VALUE (r.seq + 1)).wr
    R.LOG.SUPPRESSED_COUNT 0 0 q.code
  let s := s.wr R.LOG.RING_USE_RECORDS (s.log.ring.length + s.log.heldRing.length)
  let s := if skip then s.count R.LOG.DROP2_PERM_SKIP else s
  let s := if freezes then (s.wr R.LOG.LOG_STAT_FAULT_FROZEN 1).wr R.LOG.LOG_STAT_SAVING 1 else s
  let s := if q.fw then s.set R.LOG.FW_RES_CODE 0 0 (fwBank q.source) else s
  let s := if perm then s.flNext 0 else s
  s.mJtag fun j =>
    let j := if bit j.ktrCfg 1 then pushPacket j ((0x2000 + q.code) :: halves r.bytes) else j
    if q.code = 0x040 ∨ q.code = 0x082 ∨ q.code = 0x010 then { j with trigOut := j.trigOut + 1 } else j

/-- WATCH handles a record that has left its port (R549 to R559): after CLOSING nothing is stored but
WATCH's own events in HALT; a freeze stretch and an empty token bucket hold back limited codes. -/
def State.store (s : State) (q : LogReq) (dropped : Bool) : State :=
  if s.log.closed ∧ ¬ (s.dst = 7 ∧ q.source = 8) then s.count R.LOG.DROP2_CLOSING
  else if unlimited q.code then s.keep q dropped
  else if s.rd R.LOG.LOG_STAT_FROZEN = 1 then
    let s := (s.count R.LOG.FROZEN_EVENTS_COUNT).wr R.LOG.SUPPRESSED_COUNT
      (min (s.rd R.LOG.SUPPRESSED_COUNT 0 q.code + 1) 0xFFFFFFFF) 0 q.code
    let s := s.mLog fun l => { l with stretchEvents := l.stretchEvents + 1 }
    if q.fw then s.set R.LOG.FW_RES_CODE 3 0 (fwBank q.source) else s
  else if s.burst q.code ≤ s.log.spent.get 0 q.code then
    let s := s.wr R.LOG.SUPPRESSED_COUNT (min (s.rd R.LOG.SUPPRESSED_COUNT 0 q.code + 1) 0xFFFFFFFF) 0 q.code
    if q.fw then s.set R.LOG.FW_RES_CODE 2 0 (fwBank q.source) else s
  else (s.mLog fun l => { l with spent := l.spent.set 0 q.code (l.spent.get 0 q.code + 1) }).keep q dropped

/-- A record enters the port of its island (R549); it is dropped when the port's 8 entries are full. -/
def State.post (s : State) (island : Nat) (q : LogReq) : State :=
  if 8 ≤ (s.log.ports.get [] island).length then
    (s.count R.LOG.DROP_PORT).mLog fun l => { l with portDrop := l.portDrop.set false island true }
  else s.mLog fun l => { l with ports := l.ports.set [] island (l.ports.get [] island ++ [q]) }

/-- A hardware record of `code` made by `island` (R545 to R549, R648). -/
def State.record (s : State) (island code : Nat) (snaps : List Nat) (inj : Bool := false) : State :=
  s.post island { code := code, inj := inj, source := island, at_ := s.mono,
                  snaps := snaps.map fun n => n % 2 ^ 32, fw := false }

/-- A record WATCH stores in the cycle of its event, ahead of the ports (R377, R562). -/
def State.recordNow (s : State) (code : Nat) (snaps : List Nat) : State :=
  s.store { code := code, inj := false, source := 8, at_ := s.mono, snaps := snaps.map fun n => n % 2 ^ 32,
            fw := false } false

/-! ### Refusals -/

/-- The Inspector refuses an access under `limit` (R499): it is counted, the last one's initiator and
address are kept, and a record is made. -/
def State.refuse (s : State) (limit init id addr : Nat) (inj : Bool := false) : State :=
  ((((s.count R.INSPECT.LIM_REFUSED_COUNT 0 limit).wr R.INSPECT.LIM_LAST_INIT init 0 limit).wr
    R.INSPECT.LIM_LAST_ID id 0 limit).wr64 R.INSPECT.LIM_LAST_A_LO_VALUE R.INSPECT.LIM_LAST_A_HI_VALUE
      addr 0 limit).record 8 0x042 [limit, init + 16 * id, addr % 2 ^ 32, addr / 2 ^ 32] inj

/-- The address by which a page's register is named to an initiator (R594). -/
def regAddr (who : Initiator) (page off : Nat) : Nat :=
  match who with
  | .policy _ _ _ => 0x400000000000 + page * 0x1000 + off
  | _ => 0x40000000 + page * 0x1000 + off

/-- A write its initiator may not make is ignored and counted under limit 15 (R500, R607). -/
def State.denyWrite (s : State) (who : Initiator) (f : Field) (i : Nat := 0) : State :=
  s.refuse 15 (initCode who) (initHart who) (regAddr who (pageOf f i) f.off)

/-- A write by an initiator that has no path to a register's state is ignored; of firmware it is counted under `limit`
(R500), of the NVMe-MI window under limit 15 (R607). -/
def State.denyUnder (s : State) (limit : Nat) (who : Initiator) (page off : Nat) : State :=
  s.refuse (if initCode who = 1 ∨ initCode who = 2 then limit else 15) (initCode who) (initHart who) (regAddr who page off)

/-- A value outside its field's range is ignored and recorded (R648). -/
def State.rangeRecord (s : State) (who : Initiator) (page off value : Nat) : State :=
  s.record (pageIsland page) 0x020 [page, off, value, initCode who]

/-- A read answers with words. -/
def State.answer (s : State) (data : List Nat) : State := s.mBus fun b => { b with data := data, error := false }

/-- A read answers with a bus error. -/
def State.busError (s : State) : State := s.mBus fun b => { b with data := [], error := true }

/-! ### Conserved terms (R98, R99) -/

/-- The value a term is counted from: CAP and PEND of a credit counter from its CAP, NEXT from 1 (R107). -/
def termBase (t : Nat) : Int :=
  if 32 ≤ t ∧ t < 64 then (Config.creditCap (t - 32) : Nat)
  else if 128 ≤ t ∧ t < 160 then (Config.creditCap (t - 128) : Nat)
  else if t = 190 then 1
  else 0

/-- The value of a term: what it is counted from, what its island has counted since, and the shadow of a domain that has
been off (R107, R113). -/
def State.term (s : State) (t : Nat) : Int := termBase t + s.tal.terms.get 0 t + s.tal.shadow.get 0 t

/-- A term moves at once, inside the island that owns it. -/
def State.move (s : State) (t : Nat) (d : Int) : State :=
  s.mTal fun x => { x with terms := x.terms.set 0 t (x.terms.get 0 t + d) }

/-- The second half of a two-island move leaves as a message (R99). -/
def State.send (s : State) (t : Nat) (d : Int) : State :=
  s.mTal fun x => { x with moving := x.moving ++ [{ term := t, delta := d }] }

end Sys2Proof.Machine
end

