-- ==== Sys2Proof/Machine/Aes.lean ====
section
/-! DEFINITION. The AES-256 block function of FIPS 197 and its inverse, which the modes of the cipher engine run on
(R400, R403, R412). A key is the number of its 32 bytes and a block the number of its 16 bytes, the first byte most
significant. -/

namespace Sys2Proof.Machine

open Sys2Proof

/-! ### Bytes of the field -/

/-- The substitution table: the byte for `b` stands at bits 8b + 7 to 8b. -/
def aesTable : Nat :=
  0x16BB54B00F2D99416842E6BF0D89A18CDF2855CEE9871E9B948ED9691198F8E19E1DC186B95735610EF6034866B53E708A8BBD4B1F74DDE8C6B4A61C2E2578BA08AE7A65EAF4566CA94ED58D6D37C8E779E4959162ACD3C25C2406490A3A32E0DB0B5EDE14B8EE4688902A22DC4F816073195D643D7EA7C41744975FEC130CCDD2F3FF1021DAB6BCF5389D928F40A351A89F3C507F02F94585334D43FBAAEFD0CF584C4A39BECB6A5BB1FC20ED00D153842FE329B3D63B52A05A6E1B1A2C830975B227EBE28012079A059618C323C7041531D871F1E5A534CCF73F362693FDB7C072A49CAFA2D4ADF04759FA7DC982CA76ABD7FE2B670130C56F6BF27B777C63

/-- The inverse substitution table. -/
def aesTableInv : Nat :=
  0x7D0C2155631469E126D677BA7E042B17619953833CBBEBC8B0F52AAE4D3BE0A0EF9CC9939F7AE52D0D4AB519A97F51605FEC8027591012B131C7078833A8DD1FF45ACD78FEC0DB9A2079D2C64B3E56FC1BBE18AA0E62B76F89C5291D711AF1476EDF751CE837F9E28535ADE72274AC9673E6B4F0CECFF297EADC674F4111913A6B8A130103BDAFC1020F3FCA8F1E2CD00645B3B80558E4F70AD3BC8C00ABD890849D8DA75746155EDAB9EDFD5048706C92B6655DCC5CA4D41698688664F6F87225D18B6D49A25B76B224D92866A12E084EC3FA420B954CEE3D23C2A632947B54CBE9DEC444438E3487FF2F9B8239E37CFBD7F3819EA340BF38A53630D56A0952

/-- A byte substituted. -/
def subByte (inv : Bool) (b : Nat) : Nat := bits (if inv then aesTableInv else aesTable) (8 * b) 8

/-- A byte times x. -/
def xtime (b : Nat) : Nat := if 128 ≤ b then (2 * b).xor 0x11B else 2 * b

/-- A byte times a 4-bit number. -/
def fieldMul (m b : Nat) : Nat :=
  let d := xtime b
  let q := xtime d
  let o := xtime q
  (((if bit m 0 then b else 0).xor (if bit m 1 then d else 0)).xor (if bit m 2 then q else 0)).xor (if bit m 3 then o else 0)

/-! ### The key schedule -/

/-- The four bytes of a word substituted. -/
def subWord (w : Nat) : Nat :=
  subByte false (bits w 24 8) * 2 ^ 24 + subByte false (bits w 16 8) * 2 ^ 16 + subByte false (bits w 8 8) * 2 ^ 8
    + subByte false (bits w 0 8)

/-- A word rotated by one byte. -/
def rotWord (w : Nat) : Nat := w % 2 ^ 24 * 256 + w / 2 ^ 24

/-- Each number combined with all before it, from a start. -/
def xorScan : Nat → List Nat → List Nat
  | _, [] => []
  | a, w :: t => a.xor w :: xorScan (a.xor w) t

/-- The eight words of the schedule after eight. -/
def nextWords (rcon : Nat) (w : List Nat) : List Nat :=
  let a := xorScan ((subWord (rotWord (w.getD 7 0))).xor (rcon * 2 ^ 24)) (w.take 4)
  a ++ xorScan (subWord (a.getD 3 0)) (w.drop 4)

/-- The words of `n` steps of the schedule. -/
def keyWords : Nat → Nat → List Nat → List Nat
  | 0, _, w => w
  | n + 1, rcon, w => w ++ keyWords n (2 * rcon) (nextWords rcon w)

/-- The 15 round keys, 16 bytes each. -/
def roundKeys (k : Nat) : List (List Nat) :=
  let ws := keyWords 7 1 ((List.range 8).map fun i => bits k (32 * (7 - i)) 32)
  (List.range 15).map fun r => ((ws.drop (4 * r)).take 4).flatMap fun w => (bytesOf w 4).reverse

/-! ### The rounds -/

/-- Two blocks combined byte by byte. -/
def addKey (a b : List Nat) : List Nat := (a.zip b).map fun e => e.1.xor e.2

/-- The rows of a block shifted, and its bytes substituted. -/
def shiftSub (inv : Bool) (b : List Nat) : List Nat :=
  (List.range 16).map fun i => subByte inv (b.getD (4 * ((i / 4 + (if inv then 4 - i % 4 else i % 4)) % 4) + i % 4) 0)

/-- The columns of a block mixed. -/
def mixColumns (inv : Bool) (b : List Nat) : List Nat :=
  let m := fun (n c r : Nat) => fieldMul n (b.getD (4 * c + r % 4) 0)
  (List.range 16).map fun i =>
    let c := i / 4
    let r := i % 4
    if inv then (((m 14 c r).xor (m 11 c (r + 1))).xor (m 13 c (r + 2))).xor (m 9 c (r + 3))
    else (((m 2 c r).xor (m 3 c (r + 1))).xor (m 1 c (r + 2))).xor (m 1 c (r + 3))

/-- Rounds of the cipher, the last without the mixing of columns. -/
def aesRounds (b : List Nat) : List (List Nat) → List Nat
  | [] => b
  | [k] => addKey (shiftSub false b) k
  | k :: j :: t => aesRounds (addKey (mixColumns false (shiftSub false b)) k) (j :: t)

/-- Rounds of the inverse cipher. -/
def aesRoundsInv (b : List Nat) : List (List Nat) → List Nat
  | [] => b
  | [k] => addKey (shiftSub true b) k
  | k :: j :: t => aesRoundsInv (mixColumns true (addKey (shiftSub true b) k)) (j :: t)

/-- The bytes of a block. -/
def blockBytes (x : Nat) : List Nat := (bytesOf x 16).reverse

/-- The AES-256 block function. -/
@[irreducible] def aes (k x : Nat) : Nat :=
  match roundKeys k with
  | [] => x
  | r :: t => ofBytes (aesRounds (addKey (blockBytes x) r) t).reverse

/-- Its inverse. -/
@[irreducible] def aesInv (k x : Nat) : Nat :=
  match (roundKeys k).reverse with
  | [] => x
  | r :: t => ofBytes (aesRoundsInv (addKey (blockBytes x) r) t).reverse

end Sys2Proof.Machine
end

