-- ==== Sys2Proof/Machine/Crypto.lean ====
section
/-! DEFINITION. The modes of the cipher engine over byte strings (R403, R409, R412, R413): GCM of NIST
SP 800-38D, CTR of SP 800-38A and XTS of IEEE 1619, over the AES-256 block function. A block stands
as the number whose most significant byte is its first byte. -/

namespace Sys2Proof.Machine

open Sys2Proof

/-! ### Blocks -/

/-- The number of a byte string, the first byte most significant. -/
def beNum (bs : List Nat) : Nat := ofBytes bs.reverse

/-- `n` bytes of a number, the most significant first. -/
def beBytes (v n : Nat) : List Nat := (bytesOf v n).reverse

/-- A byte string cut into pieces of `n` bytes; the last may be shorter. -/
def pieces (n : Nat) : Nat → List Nat → List (List Nat)
  | 0, _ => []
  | k + 1, bs => if bs = [] then [] else bs.take n :: pieces n k (bs.drop n)

/-- A byte string cut into 16 B blocks. -/
def blocks16 (bs : List Nat) : List (List Nat) := pieces 16 (bs.length / 16 + 1) bs

/-- A byte string padded with zeros to a 16 B boundary. -/
def pad16 (bs : List Nat) : List Nat := bs ++ List.replicate ((16 - bs.length % 16) % 16) 0

/-- Byte strings combined byte by byte. -/
def xorBytes (a b : List Nat) : List Nat := (a.zip b).map fun e => e.1.xor e.2

/-! ### GHASH (SP 800-38D) -/

/-- The product of two blocks in the field of GHASH, by bits of the first from its most significant one. -/
def ghashMul (x : Nat) : Nat → Nat → Nat → Nat
  | 0, _, z => z
  | k + 1, v, z =>
    ghashMul x k (if v % 2 = 1 then (v / 2).xor (0xE1 * 2 ^ 120) else v / 2) (if bit x k then z.xor v else z)

/-- GHASH goes on over blocks from an accumulator. -/
def ghash (h : Nat) (acc : Nat) (bs : List Nat) : Nat :=
  (blocks16 (pad16 bs)).foldl (fun a b => ghashMul (a.xor (beNum b)) 128 h 0) acc

/-- The length block: both lengths in bits. -/
def lengthBlock (aad len : Nat) : List Nat := beBytes (aad * 8) 8 ++ beBytes (len * 8) 8

/-! ### Counter mode -/

/-- The next counter block: GCM counts in the low 32 bits, CTR in all 128. -/
def nextCtr (gcm : Bool) (c : Nat) : Nat :=
  if gcm then c / 2 ^ 32 * 2 ^ 32 + (c + 1) % 2 ^ 32 else (c + 1) % 2 ^ 128

/-- Blocks enciphered or deciphered from a counter, and the counter after them. -/
def ctrBlocks (k : Nat) (gcm : Bool) : List (List Nat) → Nat → List Nat × Nat
  | [], c => ([], c)
  | b :: t, c =>
    let r := ctrBlocks k gcm t (nextCtr gcm c)
    (xorBytes b (beBytes (aes k c) 16) ++ r.1, r.2)

/-- A byte string enciphered or deciphered in counter mode. -/
def ctrBytes (k : Nat) (gcm : Bool) (bs : List Nat) (c : Nat) : List Nat × Nat := ctrBlocks k gcm (blocks16 bs) c

/-! ### GCM -/

/-- J0 of a 96-bit IV. -/
def gcmJ0 (iv : Nat) : Nat := iv % 2 ^ 96 * 2 ^ 32 + 1

/-- The hash key. -/
def gcmH (k : Nat) : Nat := aes k 0

/-- The 16 B tag of an accumulator that has taken the length block. -/
def gcmTag (k j0 acc : Nat) : List Nat := xorBytes (beBytes acc 16) (beBytes (aes k j0) 16)

/-- Authenticated encryption of a whole message: ciphertext and tag. -/
def gcmSeal (k iv : Nat) (aad plain : List Nat) : List Nat × List Nat :=
  let c := (ctrBytes k true plain (nextCtr true (gcmJ0 iv))).1
  let acc := ghash (gcmH k) (ghash (gcmH k) (ghash (gcmH k) 0 aad) c) (lengthBlock aad.length plain.length)
  (c, gcmTag k (gcmJ0 iv) acc)

/-- Authenticated decryption of a whole message: the plaintext where the tag fits. -/
def gcmOpen (k iv : Nat) (aad cipher tag : List Nat) : Option (List Nat) :=
  let acc := ghash (gcmH k) (ghash (gcmH k) (ghash (gcmH k) 0 aad) cipher) (lengthBlock aad.length cipher.length)
  if gcmTag k (gcmJ0 iv) acc = tag then some (ctrBytes k true cipher (nextCtr true (gcmJ0 iv))).1 else none

/-! ### XTS (IEEE 1619) -/

/-- The tweak of the next block: doubled in the field of XTS, on the little-endian number. -/
def xtsDouble (t : Nat) : Nat :=
  let d := t * 2 % 2 ^ 128
  if 2 ^ 127 ≤ t then d.xor 0x87 else d

/-- One block under its tweak. -/
def xtsBlock (k : Nat) (dec : Bool) (t : Nat) (b : List Nat) : List Nat :=
  let tw := bytesOf t 16
  let x := beNum (xorBytes b tw)
  xorBytes (beBytes (if dec then aesInv k x else aes k x) 16) tw

/-- The blocks of one data unit from a tweak up; a last partial block steals from the one before it. -/
def xtsBlocks (k : Nat) (dec : Bool) : List (List Nat) → Nat → List Nat
  | [], _ => []
  | [b], t => xtsBlock k dec t b
  | [b, c], t =>
    if c.length = 16 then xtsBlock k dec t b ++ xtsBlock k dec (xtsDouble t) c
    else if dec then
      let pp := xtsBlock k true (xtsDouble t) b
      xtsBlock k true t (c ++ pp.drop c.length) ++ pp.take c.length
    else
      let cc := xtsBlock k false t b
      xtsBlock k false (xtsDouble t) (c ++ cc.drop c.length) ++ cc.take c.length
  | b :: c :: d :: r, t => xtsBlock k dec t b ++ xtsBlocks k dec (c :: d :: r) (xtsDouble t)

/-- One data unit under its sequence number, whose little-endian bytes are the tweak's plaintext. -/
def xtsUnit (k1 k2 : Nat) (dec : Bool) (seq : Nat) (bs : List Nat) : List Nat :=
  let t := ofBytes (beBytes (aes k2 (beNum (bytesOf seq 16))) 16)
  xtsBlocks k1 dec (blocks16 bs) t

/-- Data units of `size` bytes with rising sequence numbers. -/
def xtsBytes (k1 k2 : Nat) (dec : Bool) (size seq : Nat) (bs : List Nat) : List Nat :=
  ((pieces size (bs.length / size + 1) bs).zipIdx.map fun e =>
    xtsUnit k1 k2 dec ((seq + e.2) % 2 ^ 128) e.1).flatten

end Sys2Proof.Machine
end

