-- ==== Sys2Proof/Machine/Capacity.lean ====
section
/-! DEFINITION. Pitches, their tokens and the capacity test (R60 to R75, R476, R477, R628, R651). CHANNEL
is counted exactly, in units of 1e-11 channel-seconds per second; links in MB/s. -/

namespace Sys2Proof.Machine

open Sys2Proof

/-! ### Contracts (R55, R60) -/

/-- The bound of a class in µs (R55). -/
def classBound (cls : Nat) (wr : Bool) : Nat :=
  match cls with
  | 0 => if wr then 8 else 180
  | 1 => if wr then 60 else 600
  | 2 => 4000
  | _ => 2000000

/-- The largest data length of a class, in 512 B (R55). -/
def classMax (cls : Nat) (wr : Bool) : Nat :=
  match cls with
  | 0 => 8
  | 1 => if wr then 2048 else 256
  | 2 => 2048
  | _ => 4096

/-- Whether every field of a contract lies in its range and BYTE_RATE fits OP_RATE × MAX_SIZE (R60).
BOUND_US 0 means the class bound (R95); a read pitch's AMP is ignored. -/
def Contract.valid (c : Contract) : Bool :=
  let wr := decide (c.dir = 1)
  decide (c.cls ≤ 3) && decide (c.dir ≤ 1) && decide (c.recovery ≤ 1) && decide (c.powerFloor ≤ 4)
    && decide (c.actPause ≤ 20) && decide (1 ≤ c.byteRate ∧ c.byteRate ≤ 242000)
    && decide (1 ≤ c.opRate ∧ c.opRate ≤ 100000000)
    && decide (1 ≤ c.maxSize ∧ c.maxSize ≤ classMax c.cls wr)
    && decide (1 ≤ c.burstOps ∧ c.burstOps ≤ 65535)
    && decide (1 ≤ c.burstUnits ∧ c.burstUnits ≤ 12288 ∧ c.maxSize ≤ 8 * c.burstUnits)
    && decide (c.boundUs = 0 ∨ (classBound c.cls wr ≤ c.boundUs ∧ c.boundUs ≤ 4194303))
    && (!wr || decide (110 ≤ c.amp ∧ c.amp ≤ 800))
    && decide (c.byteRate * 1000000 ≤ c.opRate * (c.maxSize * 512))

/-- A pitch of the table (R60). -/
def State.pitch (s : State) (n : Nat) : Pitch := s.pit.table.get {} n

/-- The table with pitch `n` changed; a change of the table is an update of page C1h (R97). -/
def State.setPitch (s : State) (n : Nat) (p : Pitch) : State :=
  s.mPit fun x => { x with table := x.table.set {} n p, generation := x.generation + 1, updatedAt := s.mono }

/-- The log of pitch `n` with a count changed. -/
def State.pitchLog (s : State) (n : Nat) (g : PitchLog → PitchLog) : State :=
  let p := s.pitch n
  s.setPitch n { p with log := g p.log }

/-! ### The tables of R71 -/

/-- 3,600 times N: the sum of the grades of the channels in service (R71, R280). -/
def State.mts (s : State) : Nat :=
  ((List.range 96).map fun c => if s.rd R.STALL.CH_STATE_STATE c = 2 then s.rd R.STALL.CH_RATE_MTS c else 0).sum

/-- Split x8 mode, as the strap gave it (R580). -/
def State.split (s : State) : Bool := decide (s.rd R.BOOT.STRAP_SPLIT = 1)

/-- The port with number `p`. -/
def State.port (s : State) (p : Nat) : Port := if p = 0 then s.host.p0 else s.host.p1

/-- The state with port `p` changed. -/
def State.mPort (s : State) (p : Nat) (g : Port → Port) : State :=
  s.mHost fun h => if p = 0 then { h with p0 := g h.p0 } else { h with p1 := g h.p1 }

/-- The sense count P of R71 for a length in 512 B. -/
def sensesOf (sectors : Nat) : Nat := if sectors ≤ 8 then 1 else ceilDiv sectors 32 + 1

/-- The CHANNEL cost of a pitch (R71). -/
def Contract.channel (c : Contract) : Nat :=
  if c.dir = 0 then c.opRate * sensesOf c.maxSize * 72000 + c.byteRate * 31250000
  else c.byteRate * (96774200 + (c.amp - 100) * 645161)

/-- The cost of a pitch on resource `r`, as CAP_SEL numbers them: CHANNEL in 1e-11, links in MB/s,
bursts in 4 KiB. -/
def Contract.cost (c : Contract) (r : Nat) : Nat :=
  match r with
  | 0 => c.channel
  | 1 => if c.dir = 0 then c.byteRate else 0
  | 2 => if c.dir = 1 then c.byteRate else 0
  | 3 => if c.dir = 0 ∧ c.cls = 0 then c.opRate else 0
  | 4 => if c.dir = 1 ∧ c.cls = 0 then c.burstUnits else 0
  | 5 => if c.dir = 1 ∧ c.cls ≤ 1 then c.burstUnits else 0
  | 6 => if c.dir = 1 then c.burstUnits else 0
  | _ => 1

/-- The LINK_UP factor of a payload size, in thousandths (R423). -/
def mpsFactor (mps : Nat) : Nat :=
  if 4096 ≤ mps then 1000 else if 2048 ≤ mps then 994 else if 1024 ≤ mps then 983
  else if 512 ≤ mps then 961 else if 256 ≤ mps then 920 else 847

/-- Trained width × rate of a port, the rate in tenths of GT/s (R628); a port not yet trained counts as
trained at its full width and rate. -/
def State.linkScale (s : State) (p : Nat) : Nat :=
  let q := s.port p
  if q.width = 0 then (if s.split then 10240 else 20480) else q.width * q.rate

/-- The capacity of resource `r` in test state `t` for port `p`, times the divisor `capDiv r`
(R71, R72, R423, R628). -/
def State.capTimes (s : State) (r t p : Nat) : Nat :=
  match r with
  | 0 => s.mts * (if t = 0 then 93750000000 else if t = 1 then 56250000000 else 25000000000)
  | 1 => (if t = 0 then 230000 else if t = 1 then 150000 else 70000) * s.linkScale p * mpsFactor (s.port p).mps
  | 2 => (if t = 0 then 230000 else if t = 1 then 150000 else 70000) * s.linkScale p * 1000
  | 3 => s.mts * (if t = 0 then 4000 else if t = 1 then 2400 else 1000)
  | 4 => 64
  | 5 => 2048
  | 6 => 12288
  | _ => 1024

/-- What `capTimes` is multiplied by. -/
def capDiv (r : Nat) : Nat :=
  match r with
  | 0 => 3600
  | 1 => 20480000
  | 2 => 20480000
  | 3 => 3600
  | _ => 1

/-- Whether a pitch counts in the sums (R71): RENTED or RETURNING. -/
def Pitch.counts (p : Pitch) : Bool := decide (p.state = 1 ∨ p.state = 3)

/-- The ports a pitch's link use is charged to: those its queues are bound on, both if none (R72). -/
def State.pitchPorts (s : State) (n : Nat) : List Nat :=
  let on := s.host.sqs.filter fun q => decide (0 < q.id)
    && decide (s.rd R.INTAKE.QB_CFG_BOUND 0 (q.port * 4096 + q.id) = 1)
    && decide (s.rd R.INTAKE.QB_CFG_PITCH 0 (q.port * 4096 + q.id) = n)
  if on.isEmpty then [0, 1] else on.map fun q => q.port

/-- Whether pitch `n` is charged on resource `r` of port `p`. -/
def State.charged (s : State) (n r p : Nat) : Bool :=
  if (r = 1 ∨ r = 2) ∧ s.split then (s.pitchPorts n).contains p else true

/-- The sum of the pitches in the table on resource `r` of port `p` (R71). -/
def State.capSum (s : State) (r p : Nat) : Nat :=
  (s.pit.table.map fun e =>
    if r = 7 then (if e.2.state = 0 then 0 else 1)
    else if e.2.counts && s.charged e.1 r p then e.2.c.cost r else 0).sum

/-- The smallest of a list, or a default. -/
def minOr (d : Nat) : List Nat → Nat
  | [] => d
  | a :: t => t.foldl min a

/-- The effective power state (R476). -/
def State.eff (s : State) : Nat := s.rd R.POWER.PS_CUR_EFFECTIVE

/-- The test state (R72): min(m, 2), m the smallest POWER_FLOOR of the pitches that count and the
candidate, the effective state where there are none; ARCHIVE tests at PS2 (R131). -/
def State.testState (s : State) (cand : Option Contract) : Nat :=
  let fl := (s.pit.table.filter fun e => e.2.counts).map fun e => e.2.c.powerFloor
  let fl := match cand with
    | some c => c.powerFloor :: fl
    | none => fl
  if s.mode 1 then 2 else min (minOr s.eff fl) 2

/-- The ports tested: one outside split x8 mode. -/
def State.testPorts (s : State) : List Nat := if s.split then [0, 1] else [0]

/-- Whether resource `r` holds the pitches that count and the candidate, which is charged to every
port since no queue is bound to it yet (R71, R72). -/
def State.capFits (s : State) (cand : Option Contract) (r : Nat) : Bool :=
  let t := s.testState cand
  let extra := match cand with
    | some c => c.cost r
    | none => 0
  (s.testPorts).all fun p => decide ((s.capSum r p + extra) * capDiv r ≤ s.capTimes r t p)

/-- The failing resource with the lowest CAP_SEL index (R94). -/
def State.capFail (s : State) (cand : Option Contract) : Option Nat :=
  (List.range 8).find? fun r => !s.capFits cand r

/-! ### The fast reserve (R72) -/

/-- The pool of a write pitch's share and its crates (R72). -/
def Contract.share (c : Contract) : Nat × Nat :=
  if c.dir = 1 ∧ c.cls ≤ 1 then
    if c.maxSize < 32 then (0, c.burstUnits)
    else if c.maxSize < 64 then (1, ceilDiv c.burstUnits 4)
    else (2, ceilDiv c.burstUnits 8)
  else (0, 0)

/-- The fast reserve a pool owes to the RENTED pitches. -/
def State.fastOf (s : State) (pool : Nat) : Nat :=
  (s.pit.table.map fun e => if e.2.state = 1 ∧ e.2.c.share.1 = pool then e.2.c.share.2 else 0).sum

/-- Every pool's fast reserve is set to the sum of its shares. -/
def State.setReserve (s : State) : State :=
  [0, 1, 2].foldl (fun t p => t.wr R.CRATEYD.POOL_RSV_FAST (s.fastOf p) 0 p) s

/-- Whether a rental would raise a pool's fast reserve above half of its crates. -/
def State.reserveFits (s : State) (c : Contract) : Bool :=
  decide (c.share.2 = 0) || decide ((s.fastOf c.share.1 + c.share.2) * 2 ≤ poolCrates c.share.1)

/-! ### Tokens (R68, R99) -/

/-- The byte-token cap and refill of a pitch are BURST_BYTES and BYTE_RATE; the tax cap in 2^-16 ns,
which read pitches do not hold. -/
def Contract.taxCap (c : Contract) : Nat :=
  if c.dir = 1 then c.burstUnits * 4096 * (c.amp - 100) * 645161 * 65536 / 100000000 else 0

/-- The refill of 1 µs of each token type, truncated to 2^-16 (R68). -/
def Contract.refill (c : Contract) (t : Nat) : Nat :=
  match t with
  | 0 => c.opRate * 65536 / 1000000
  | 1 => c.byteRate * 65536 / 4096
  | _ => if c.dir = 1 then c.byteRate * (c.amp - 100) * 645161 * 65536 / 100000000 else 0

/-- The cap of each token type in 2^-16. -/
def Contract.cap (c : Contract) (t : Nat) : Nat :=
  match t with
  | 0 => c.burstOps * 65536
  | 1 => c.burstUnits * 65536
  | _ => c.taxCap

/-- The balance of each token type. -/
def Pitch.balance (p : Pitch) (t : Nat) : Nat :=
  match t with
  | 0 => p.ops
  | 1 => p.units
  | _ => p.tax

/-- The pitch with a balance changed. -/
def Pitch.setBalance (p : Pitch) (t v : Nat) : Pitch :=
  match t with
  | 0 => { p with ops := v }
  | 1 => { p with units := v }
  | _ => { p with tax := v }

/-- The Refill move of `r` tokens of type `t` of pitch `n`, with what passes the cap forfeited (R99). -/
def State.refillOne (s : State) (n t r : Nat) : State :=
  let p := s.pitch n
  let v := min (p.balance t + r) (max (p.c.cap t) (p.balance t))
  let f := p.balance t + r - v
  let s := (((s.move (160 + t) r).move (176 + t) ((r : Int) - f)).move (168 + t) f)
  s.mPit fun x => { x with table := x.table.set {} n (p.setBalance t v) }

/-- The Retire move of a pitch that becomes FREE (R99). -/
def State.retire (s : State) (n : Nat) : State :=
  let p := s.pitch n
  let s := [0, 1, 2].foldl (fun s t => ((s.move (172 + t) (p.balance t)).move (176 + t) (-(p.balance t : Int)))) s
  s.setPitch n { log := p.log }

/-- The Spend move of a command accepted under pitch `n` (R99): operations, units, tax in 2^-16. -/
def State.spend (s : State) (n ops units tax : Nat) : State :=
  let p := s.pitch n
  let one := fun (s : State) (t v : Nat) => (s.move (164 + t) v).move (176 + t) (-(v : Int))
  let s := ((one (one (one s 0 ops) 1 units) 2 tax).move 180 1)
  s.setPitch n { p with ops := p.ops - ops, units := p.units - units, tax := p.tax - tax
                        log := { p.log with accepted := p.log.accepted + 1 } }

/-! ### The effective power state (R476 to R478) -/

/-- The state the host or APST has selected: in split x8 mode the shallower of the two (R474). -/
def State.selected (s : State) : Nat :=
  if s.split then min (s.pwr.sel.get 0 0) (s.pwr.sel.get 0 1) else s.pwr.sel.get 0 0

/-- The selected state made shallower by RENTED pitches, host-owned ones for a selection of the host and all
for one of APST (R476, R477), by SANITIZE and by ARCHIVE (R131). -/
def State.wantPs (s : State) : Nat :=
  let fl := (s.pit.table.filter fun e => decide (e.2.state = 1) && (decide (e.2.owner = 0) || s.pwr.apstSel)).map
    fun e => e.2.c.powerFloor
  let w := (4 :: fl).foldl min s.selected
  let w := if s.mode 3 then min w 2 else w
  if s.mode 1 ∧ w < 3 then 2 else w

/-- The clock of the MAIN islands of a power state, in 100 MHz (R475). -/
def planClk (ps : Nat) : Nat := if ps = 0 then 16 else if ps = 1 then 12 else if ps = 2 then 8 else 4

/-- The most CORE may run at in a power state, in 100 MHz (R475). -/
def planCore (ps : Nat) : Nat := if ps = 0 then 24 else if ps = 1 then 16 else if ps = 2 then 10 else 4

/-- The cost the meters hold on resource `r` of port `p` over the last 10 µs (R651). -/
def State.meter (s : State) (r p : Nat) : Nat :=
  (s.pit.meters.map fun m =>
    if s.mono < m.at_ + 1000 ∧ m.res = r ∧ (r = 0 ∨ s.split = false ∨ m.port = p) then m.cost else 0).sum

/-- Whether a meter stands below its room beyond the rented pitches (R66, R71, R651). CHANNEL costs are
kept in 1e-11 channel-seconds, link costs in bytes, so a window of 10 µs multiplies by 1e5. -/
def State.roomIn (s : State) (t r p : Nat) : Bool :=
  let used := s.capSum r p * capDiv r
  let cap := s.capTimes r t p
  if r = 0 then decide (used < cap) && decide (s.meter r p * 100000 * capDiv r < cap - used)
  else decide (used < cap) && decide (s.meter r p * capDiv r < (cap - used) * 10)

/-- Whether unpitched use stands within a lower state's capacities (R478). -/
def State.metersFit (s : State) (t : Nat) : Bool :=
  [0, 1, 2].all fun r => (s.testPorts).all fun p => decide (s.meter r p = 0) || s.roomIn t r p

/-- Whether a power domain is on (R465). -/
def State.domOn (s : State) (d : Nat) : Bool := bit (s.rd R.POWER.DOM_STAT_ON) d

/-- The least VDD_CORE of the MAIN islands of R475 at a clock, in 10 mV above 0.65 V (R471). -/
def mainNeed (clk : Nat) : Nat := if 12 < clk then 20 else if 8 < clk then 10 else if 4 < clk then 5 else 0

/-- The least VDD_CORE of CORE at a clock. -/
def coreNeed (clk : Nat) : Nat := if 16 < clk then 20 else if 10 < clk then 10 else if 4 < clk then 5 else 0

/-- The highest requirement among the powered islands, for given clocks (R471). MEMORY runs at 1.1 GHz in the
operational states and at 0.6 GHz below them. -/
def State.vddNeed (s : State) (main core : Nat) : Nat :=
  [if s.domOn 1 || s.domOn 2 then mainNeed main else 0, if s.domOn 4 then coreNeed core else 0,
   if s.domOn 1 || decide (32 ≤ s.rd R.POWER.DOM_STAT_ON) then 10 else 0,
   if s.domOn 3 then (if 3 ≤ s.eff then 5 else 10) else 0].foldl max 0

/-- The power state whose clock plan runs: the override runs that of PS2 (R485). -/
def State.plan (s : State) : Nat := if s.rd R.POWER.THERM_STAT_OVERRIDE = 1 then max s.eff 2 else s.eff

/-- Clocks and voltage follow the plan and the request in the order of R472: clocks fall at once and the
voltage after them; the voltage rises at once and the clocks once it has settled. A held request acts when its
wait is over (R473). -/
def State.driveClocks (s : State) : State :=
  let p := s.plan
  let x := s.pwr
  let main := min x.mainClk (planClk p)
  let core := min (s.rd R.POWER.DVFS_STAT_CORE_CLK) (min x.reqClk (planCore p))
  let vOver := match x.heldVdd with
    | some v => decide (s.vddNeed main core ≤ v)
    | none => false
  let reqVdd := if vOver then x.heldVdd.getD 0 else x.reqVdd
  let next := min (x.heldClk.getD x.reqClk) (planCore p)
  let vdd := max (s.vddNeed (planClk p) (max next (min x.reqClk (planCore p)))) reqVdd
  let settled := x.settled && decide (vdd ≤ s.rd R.POWER.DVFS_STAT_VDD)
  let reqClk := if settled then x.heldClk.getD x.reqClk else x.reqClk
  let heldClk := if settled then none else x.heldClk
  let heldVdd := if vOver then none else x.heldVdd
  let s := s.mPwr fun x => { x with
    mainClk := if settled then planClk p else main
    settled := settled, reqClk := reqClk, reqVdd := reqVdd, heldClk := heldClk, heldVdd := heldVdd }
  ((s.wr R.POWER.DVFS_STAT_CORE_CLK (if settled then min reqClk (planCore p) else core)).wr
    R.POWER.DVFS_STAT_VDD vdd).wr R.POWER.DVFS_STAT_HELD (b2n (heldClk.isSome || heldVdd.isSome))

/-- The effective state becomes `w`: its clocks, and the time in the former state (R475, R486). -/
def State.enterPs (s : State) (w : Nat) : State :=
  let old := s.eff
  let s := (s.set R.POWER.PS_CUR_EFFECTIVE w).wr R.POWER.PS_CUR_TRANSITION 0
  let s := s.mPwr fun x =>
    { x with psTicks := x.psTicks.set 0 old (x.psTicks.get 0 old + (s.mono - x.psFrom))
             psFrom := s.mono, backTo := if w ≤ 2 then w else x.backTo }
  s.driveClocks

/-- The effective state follows the selection (R476, R478, R479, R481): an operational change is made
at once, but a lower state waits until the meters fit it; a non-operational state waits for its entry
conditions, and leaving one waits for the exit to complete. -/
def State.followPower (s : State) : State :=
  let w := s.wantPs
  let e := s.eff
  if w = e then
    let s := s.mPwr fun x => { x with entering := none }
    if s.pwr.exiting then s else s.wr R.POWER.PS_CUR_TRANSITION 0
  else if e ≤ 2 then
    if w ≤ 2 then
      let s := s.mPwr fun x => { x with entering := none }
      if w < e ∨ s.metersFit w then s.enterPs w
      else if s.rd R.POWER.PS_CUR_TRANSITION = 1 then s
      else (s.wr R.POWER.PS_CUR_TRANSITION 1).count R.POWER.CEIL_WAIT_COUNT
    else if s.pwr.entering = some w then s
    else (s.mPwr fun x => { x with entering := some w, waitCounted := false }).wr R.POWER.PS_CUR_TRANSITION 1
  else if e < w then
    (s.mPwr fun x => { x with entering := some w, waitCounted := false }).wr R.POWER.PS_CUR_TRANSITION 1
  else if s.pwr.exiting then s
  else (s.mPwr fun x => { x with exiting := true, exitFrom := s.mono, entering := none
                                 backTo := if w ≤ 2 then w else x.backTo }).wr R.POWER.PS_CUR_TRANSITION 1

/-! ### Suspension and restoration (R75) -/

/-- Whether a firmware-owned pitch forbids the effective state (R476, R477). -/
def State.forbids (s : State) (p : Pitch) : Bool := decide (p.owner = 1 ∧ p.c.powerFloor < s.eff)

/-- A pitch is moved to SUSPENDED with its record (R75, R648). -/
def State.suspend (s : State) (n res : Nat) : State :=
  (s.setPitch n { s.pitch n with state := 2 }).record 1 0x080 [n, res, s.mts * 10 / 36, s.testState none]

/-- The pitches of a class in state `st`, highest number first. -/
def State.ofClass (s : State) (st cls : Nat) : List Nat :=
  ((s.pit.table.filter fun e => decide (e.2.state = st ∧ e.2.c.cls = cls)).map Prod.fst).reverse

/-- The pitches in state `st` in the order of R75: IDLE, BULK, STREAM, URGENT, highest number first. -/
def State.inOrder (s : State) (st : Nat) : List Nat :=
  s.ofClass st 3 ++ s.ofClass st 2 ++ s.ofClass st 1 ++ s.ofClass st 0

/-- RENTED pitches are suspended one at a time until the rest pass; one that forbids the effective
state as a firmware-owned pitch fails by itself. -/
def suspendUntil (s : State) : List Nat → State
  | [] => s
  | n :: t =>
    if s.forbids (s.pitch n) then suspendUntil (s.suspend n 0) t
    else match s.capFail none with
      | some r => suspendUntil (s.suspend n r) t
      | none => suspendUntil s t

/-- Suspended pitches that then pass are restored in the reverse order (R75). -/
def restoreThose (s : State) : List Nat → State
  | [] => s
  | n :: t =>
    let p := s.pitch n
    let up := s.setPitch n { p with state := 1 }
    if s.forbids p = false ∧ up.capFail none = none then
      restoreThose (up.record 1 0x081 [n, 0, 0, 0]) t
    else restoreThose s t

/-- The capacity test is run again (R75), with the suspensions and restorations it makes, and the
effective state and the fast reserve follow. -/
def State.retest (s : State) : State :=
  let once := fun (s : State) =>
    let s := suspendUntil s (s.inOrder 1)
    restoreThose s (s.inOrder 2).reverse
  let s := (once s).followPower
  (once s).setReserve

/-! ### Rental and return (R62, R63, R94) -/

/-- The lowest FREE pitch. -/
def State.freePitch (s : State) : Option Nat :=
  firstFrom (fun n => decide ((s.pitch n).state = 0)) 1024 0

/-- The outcome of the checks of a rental, in the order of R94 with the window's codes: 0 it passes,
5 service off, 2 contract invalid, 1 the table, 3 capacity with the failing resource. -/
def State.rentCheck (s : State) (c : Contract) (want : Option Nat) (table : Bool) : Nat × Nat :=
  if s.mode 0 = false then (5, 0)
  else if c.valid = false then (2, 0)
  else if table && (match want with
      | some n => decide ((s.pitch n).state ≠ 0)
      | none => decide (s.freePitch = none)) then (1, 0)
  else match s.capFail (some c) with
    | some r => (3, r)
    | none => if s.reserveFits c then (0, 0) else (3, 5)

/-- The table insertion of a rental (R62, R68, R97): every bucket is credited in full as a Refill move,
and the pitch's log is zeroed. -/
def State.rentAt (s : State) (n owner port : Nat) (c : Contract) : State :=
  let s := s.setPitch n { state := 1, owner := owner, port := port, c := c, meas := c.amp }
  let s := [0, 1, 2].foldl (fun s t => s.refillOne n t (c.cap t)) s
  s.followPower.retest

/-- Whether a command accepted under pitch `n` is outstanding (R61). -/
def State.pitchBusy (s : State) (n : Nat) : Bool :=
  s.host.cmds.any fun c => decide (c.pitch = some n) && decide (c.stage = .accepted)

/-- Every queue bound to the pitch is unbound (R63). -/
def State.unbindPitch (s : State) (n : Nat) : State :=
  s.host.sqs.foldl (fun t q =>
    let b := q.port * 4096 + q.id
    if t.rd R.INTAKE.QB_CFG_BOUND 0 b = 1 ∧ t.rd R.INTAKE.QB_CFG_PITCH 0 b = n then
      t.wr R.INTAKE.QB_CFG_BOUND 0 0 b else t) s

/-- A pitch is returned by its owner (R63): FREE when no accepted command is outstanding, else
RETURNING; then the test is run again. -/
def State.returnPitch (s : State) (n : Nat) : State :=
  let p := s.pitch n
  if p.state = 3 then s
  else
    let s := s.unbindPitch n
    let s := if s.pitchBusy n then s.setPitch n { p with state := 3 } else s.retire n
    s.followPower.retest

/-- The last command of a RETURNING pitch has completed (R61). -/
def State.pitchFree (s : State) (n : Nat) : State :=
  if (s.pitch n).state = 3 ∧ s.pitchBusy n = false then (s.retire n).followPower.retest else s

end Sys2Proof.Machine
end

