-- ==== Sys2Proof/Machine/Inject.lean ====
section
/-! DEFINITION. Injection points as their detectors see them (R566 to R573): the firing and the
disarming of an armed point. -/

namespace Sys2Proof.Machine

open Sys2Proof

/-- INJ_SEL of a page as a word. -/
def State.injSel (s : State) (p : Nat) : Nat :=
  s.rd R.COMMON.INJ_SEL_POINT p + s.rd R.COMMON.INJ_SEL_SUB p * 0x100 + s.rd R.COMMON.INJ_SEL_PARAM p * 0x10000

/-- INJ_CTRL of a page as a word. -/
def State.injCtrl (s : State) (p : Nat) : Nat :=
  s.rd R.COMMON.INJ_CTRL_ARM p + s.rd R.COMMON.INJ_CTRL_MODE p * 2 + s.rd R.COMMON.INJ_CTRL_COUNT p * 0x100
    + s.rd R.COMMON.INJ_CTRL_RESULT p * 0x10000 + s.rd R.COMMON.INJ_CTRL_LEFT p * 0x1000000

/-- The point of page `p` is disarmed for a cause of R572, with its INJ_DISARM record (R575). -/
def State.disarm (s : State) (p cause : Nat) : State :=
  if s.armed.any fun a => decide (a.page = p) then
    let s := s.mArmed fun l => l.filter fun a => decide (a.page ≠ p)
    let s := (((s.wr R.COMMON.INJ_CTRL_ARM 0 p).wr R.COMMON.INJ_CTRL_LEFT 0 p)).wr R.INJFAB.ARMED_COUNT s.armed.length
    s.record 8 0x019 [p, s.injSel p, cause, s.rd R.COMMON.INJ_COUNT_FIRED p]
  else s

/-- Every armed point of the pages that `which` names is disarmed. -/
def State.disarmThose (s : State) (which : Nat → Bool) (cause : Nat) : State :=
  (s.armed.filter fun a => which a.page).foldl (fun t a => t.disarm a.page cause) s

/-- Whether the armed point `point` of page `p`, its SUB and PARAM selecting the evaluation, fires, and
the state with the firing counted and the point disarmed once its firings are spent (R568). -/
def State.fire (s : State) (p point : Nat) (sel : Nat → Nat → Bool) : Bool × State :=
  match s.armed.find? fun a => decide (a.page = p) && decide (a.point = point) && sel a.sub a.param with
  | none => (false, s)
  | some a =>
    let s := ((s.count R.COMMON.INJ_COUNT_FIRED p).count R.INJFAB.FIRED_COUNT).raise p 5
    if a.mode = 2 then (true, s)
    else if a.left ≤ 1 then (true, s.disarm p 2)
    else
      let s := s.mArmed fun l => l.map fun b => if b.page = p then { b with left := b.left - 1 } else b
      (true, s.wr R.COMMON.INJ_CTRL_LEFT (a.left - 1) p)

/-- The page INDEX of the Inspector. -/
def inspectPage : Nat := pageOf R.INSPECT.LIM_SEL_LIMIT 0

/-- An access or request is checked under a limit of R500: whether the armed point of that limit refuses it
(R571), beside what the check itself says. -/
def State.limFire (s : State) (limit : Nat) : Bool × State := s.fire inspectPage limit fun _ _ => true

/-- The PARAM of the armed point of a page, where one is armed. -/
def State.armedParam (s : State) (p point : Nat) : Option Nat :=
  (s.armed.find? fun a => decide (a.page = p ∧ a.point = point)).map fun a => a.param

end Sys2Proof.Machine
end

