-- ==== Sys2Proof/Machine/Access.lean ====
section
/-! DEFINITION. How an access reaches the island of its page: crossings, gated islands, and domains that are off
(R451, R454, R460). -/

namespace Sys2Proof.Machine

open Sys2Proof

/-- The island an initiator's accesses come from. -/
def initIsland : Initiator → Nat
  | .policy _ _ _ => 7
  | _ => 8

/-- A watchdog expiry or a wake failure is counted, latched and recorded (R452, R454). -/
def State.xwdReport (s : State) (src dst : Nat) (wake inj : Bool) : State :=
  ((((s.count R.XCLK.XWD_FIRE_COUNT).wr R.XCLK.XWD_LAST_SRC src).wr R.XCLK.XWD_LAST_DST dst).wr
    R.XCLK.XWD_LAST_WAKE (b2n wake)).record 8 0x1C1 [src, dst, b2n wake, 0] inj

/-- A gated island's clock runs again, `ns` after the request; an armed WAKE_FAIL point of the island is reported
only (R451, R571). -/
def State.wakeIsland (s : State) (src island ns : Nat) : State :=
  if s.isl.gated.contains island = false then s
  else
    let s := s.mIsl fun x => { x with gated := x.gated.filter fun n => decide (n ≠ island) }
    let s := (s.count R.XCLK.WAKE_CNT_COUNT).peak R.XCLK.WAKE_MAX_NS ns
    let i := s.fire (pageOf R.XCLK.XMODE_MODE 0) 1 fun sub _ => decide (sub = island)
    if i.1 then i.2.xwdReport src island true true else i.2

/-- A register access from an island crosses into the island of page `p`: a gated island wakes, within 40 ns, in a
time that the access does not say (a free value), and an armed XWD point of the crossing is reported only (R451,
R460, R571). -/
def State.crossTo (s : State) (src p : Nat) : State :=
  let dst := pageIsland p
  let s := if s.isl.gated.contains dst then
      let v := s.fresh
      v.2.wakeIsland src dst (Config.freeValue v.1 % 41)
    else s
  let i := s.fire (pageOf R.XCLK.XMODE_MODE 0) 0 fun a b => decide (a = src) && decide (b = dst)
  if i.1 then i.2.xwdReport src dst false true else i.2

/-- Whether the domain of page `p` answers register accesses (R460). -/
def State.answers (s : State) (p : Nat) : Bool := s.domOn (islandDomain (pageIsland p))

/-- An access answered by the source side of the crossing (R460). -/
def State.offAccess (s : State) (who : Initiator) (p off : Nat) (write : Bool) : State :=
  (s.count R.XCLK.OFF_ACCESS_COUNT).record (initIsland who) 0x1C2 [p, off, b2n write, initCode who]

/-- An access to a register of page `p` takes its effect `f` in the page's island, or is dropped. -/
def State.access (s : State) (who : Initiator) (p off : Nat) (write : Bool)
    (f : State → State) : State :=
  if s.answers p then f (s.crossTo (initIsland who) p) else s.offAccess who p off write

end Sys2Proof.Machine
end

