-- ==== Sys2Proof/Machine/Host.lean ====
section
/-! DEFINITION. The command front's shared operations: queues and staged commands, completion entries,
asynchronous events, deadlines, namespaces as commands see them, and the range-lock table (R137 to R171,
R192 to R197). -/

namespace Sys2Proof.Machine

open Sys2Proof

/-! ### Commands and queues -/

/-- The command with an identifier on a queue, staged or accepted. -/
def State.cmdOn (s : State) (port sqid cid : Nat) : Option Cmd :=
  s.host.cmds.find? fun c => decide (c.port = port) && decide (c.sqid = sqid) && decide (c.cid = cid)

/-- The command that holds a context. -/
def State.cmdOf (s : State) (uid : Nat) : Option Cmd := s.host.cmds.find? fun c => decide (c.uid = uid)

/-- The state with one command changed. -/
def State.mCmd (s : State) (uid : Nat) (g : Cmd → Cmd) : State :=
  s.mHost fun h => { h with cmds := h.cmds.map fun c => if c.uid = uid then g c else c }

/-- A command dword, CDW10 first. -/
def Cmd.cdw (c : Cmd) (n : Nat) : Nat := c.dw.getD (n - 10) 0

/-- A submission queue. -/
def State.sqOf (s : State) (port id : Nat) : Option Sq :=
  s.host.sqs.find? fun q => decide (q.port = port) && decide (q.id = id)

/-- The state with one submission queue changed. -/
def State.mSq (s : State) (port id : Nat) (g : Sq → Sq) : State :=
  s.mHost fun h => { h with sqs := h.sqs.map fun q => if q.port = port ∧ q.id = id then g q else q }

/-- A completion queue. -/
def State.cqOf (s : State) (port id : Nat) : Option Cq :=
  s.host.cqs.find? fun q => decide (q.port = port) && decide (q.id = id)

/-- The entry of QB_CFG for a queue. -/
def qb (port sqid : Nat) : Nat := port * 4096 + sqid

/-- The RENTED pitch a queue is bound to (R64). -/
def State.boundPitch (s : State) (port sqid : Nat) : Option Nat :=
  if s.rd R.INTAKE.QB_CFG_BOUND 0 (qb port sqid) = 1
      ∧ (s.pitch (s.rd R.INTAKE.QB_CFG_PITCH 0 (qb port sqid))).state = 1 then
    some (s.rd R.INTAKE.QB_CFG_PITCH 0 (qb port sqid))
  else none

/-- The leading places of a staging ring whose commands no longer hold them back. -/
def dropPassed : List Nat → List Nat
  | 0 :: t => dropPassed t
  | l => l

/-- A command leaves its staging ring: the reported SQ head follows (R149). -/
def State.unstage (s : State) (c : Cmd) : State :=
  s.mSq c.port c.sqid fun q =>
    let r := dropPassed (q.ring.map fun u => if u = c.uid then 0 else u)
    { q with ring := r, head := if q.size = 0 then 0 else (q.fetch + q.size - r.length) % q.size }

/-- CTX_USE (R146, R171): contexts held, and those held from the reserve. -/
def State.ctxUse (s : State) : State :=
  (s.wr R.INTAKE.CTX_USE_ALL (s.host.cmds.length + (s.host.cqs.map fun q => q.held.length).sum)).wr
    R.INTAKE.CTX_USE_RSV (s.host.cmds.filter fun c => c.reserve).length

/-! ### Trace of commands (R632 to R634) -/

/-- A CMD packet: event 0 accepted, 1 completion handed to FRONT, 2 broken promise. -/
def State.traceCmd (s : State) (ev : Nat) (c : Cmd) : State :=
  let cfg := s.jtag.ktrCfg
  let p := c.pitch.getD 1024
  let island := if ev = 1 then 0 else 1
  if bit cfg 2 && (!bit cfg 3 || decide (ev = 2)) && (bit cfg 15 || decide (bits cfg 4 11 = p))
      && decide (c.uid % 2 ^ bits cfg 16 4 = 0) then
    s.mJtag fun j =>
      if 6 < (s.log.ports.get [] island).length then
        if bit cfg 0 then
          { j with dropped := j.dropped + 1
                   ktrStat := j.ktrStat - j.ktrStat % 0x10000 + min (j.ktrStat % 0x10000 + 1) 0xFFFF }
        else j
      else pushPacket j [0x3000 + ev * 0x400 + c.cls * 0x100, c.uid % 0x10000, p, s.mono % 0x10000,
                         s.mono / 0x10000 % 0x10000]
  else s

/-! ### Namespaces as commands see them (R137, R142, R172) -/

/-- Namespace `n`. -/
def State.ns (s : State) (n : Nat) : Ns := s.led.ns.get {} n

/-- The state with a namespace changed. -/
def State.mNs (s : State) (n : Nat) (g : Ns → Ns) : State :=
  s.mLed fun l => { l with ns := l.ns.set {} n (g (l.ns.get {} n)) }

/-- The units of an IU by its code (R172). -/
def iuUnits : Nat → Nat
  | 0 => 1
  | 1 => 4
  | 2 => 8
  | _ => 16

/-- The bytes of an IU of a namespace. -/
def Ns.iuBytes (n : Ns) : Nat := iuUnits n.iu * 4096

/-- The IUs, first and last, that a block range touches (R151). -/
def Ns.iuRange (n : Ns) (slba nlb : Nat) : Nat × Nat :=
  (slba * n.block / n.iuBytes, ((slba + nlb) * n.block - 1) / n.iuBytes)

/-- The 4 KiB units, first and last of the namespace, that a block range touches. -/
def Ns.unitRange (n : Ns) (slba nlb : Nat) : Nat × Nat :=
  (slba * n.block / 4096, ((slba + nlb) * n.block - 1) / 4096)

/-- The bytes of a command's data. -/
def Cmd.bytes (c : Cmd) (n : Ns) : Nat := c.nlb * n.block

/-- Whether an opcode is a write for READ_ONLY and for pitches (R131). -/
def Kind.writes : Kind → Bool
  | .write => true
  | .writeUnc => true
  | .writeZeroes => true
  | .dsm => true
  | _ => false

/-! ### Asynchronous events (R140, R166) -/

/-- The value of an NVMe feature on a port (R140). -/
def State.feature (s : State) (p fid : Nat) : Nat := (s.port p).features.get 0 fid

/-- A completion entry is placed on its queue: posted, or held while the queue is full, with the instant and the pitch
whose host delay that is (R53). -/
def State.postCqe (s : State) (port cq : Nat) (e : Cqe) (pitch : Nat := 1024) : State :=
  s.mHost fun h => { h with cqs := h.cqs.map fun q =>
    if q.port = port ∧ q.id = cq then
      if q.posted.length + 1 < q.size ∧ q.held.isEmpty then { q with posted := q.posted ++ [e] }
      else { q with held := q.held ++ [e], heldFrom := q.heldFrom ++ [(s.mono, pitch)] }
    else q }

/-- The completion queue of a submission queue. -/
def State.cqFor (s : State) (port sqid : Nat) : Nat :=
  match s.sqOf port sqid with
  | some q => q.cq
  | none => 0

/-- The SQ head a completion reports. -/
def State.headOf (s : State) (port sqid : Nat) : Nat :=
  match s.sqOf port sqid with
  | some q => q.head
  | none => 0

/-- Ends the oldest outstanding Asynchronous Event Request of a port with an event (R137, R166). -/
def State.sendEvent (s : State) (port dw0 : Nat) : State :=
  let q := s.port port
  if q.en = false ∨ q.masked.contains dw0 then s
  else match q.aers with
    | [] => s.mHost fun h => { h with events := if h.events.contains (dw0 + port * 2 ^ 32) then h.events
                                                else h.events ++ [dw0 + port * 2 ^ 32] }
    | cid :: rest =>
      let s := s.mPort port fun q => { q with aers := rest, masked := q.masked ++ [dw0] }
      let s := s.mHost fun h => { h with cmds := h.cmds.filter fun c =>
        !(decide (c.port = port) && decide (c.sqid = 0) && decide (c.cid = cid)) }
      (s.postCqe port (s.cqFor port 0)
        { sqid := 0, cid := cid, sqhd := s.headOf port 0, sct := 0, sc := 0, dnr := false, dw0 := dw0, data := [] }).ctxUse

/-- Sends an event on every port whose Asynchronous Event Configuration enables it (R140). -/
def State.asyncEvent (s : State) (enableBit typ info page : Nat) : State :=
  [0, 1].foldl (fun t p =>
    if bit (t.feature p 0x0B) enableBit then t.sendEvent p (typ + info * 0x100 + page * 0x10000) else t) s

/-- A bit of the SMART Critical Warning is set, with its asynchronous event (R108, R140, R364). -/
def State.critical (s : State) (b : Nat) : State :=
  if bit (s.rd R.HEALTH.CRIT_BITS) b then s
  else (s.wr R.HEALTH.CRIT_BITS (setBit (s.rd R.HEALTH.CRIT_BITS) b)).asyncEvent b 1
    (if b = 0 then 2 else if b = 1 then 1 else 0) 2

/-- A Get Log Page with RAE clear re-arms the events of its page (R166). -/
def State.rearm (s : State) (port page : Nat) : State :=
  s.mPort port fun q => { q with masked := q.masked.filter fun e => decide (e / 0x10000 % 0x100 ≠ page) }

/-! ### The range-lock table (R150 to R153, R192 to R197) -/

/-- Two rows overlap: they name one namespace and share an IU (R197). -/
def RltRow.meets (a b : RltRow) : Bool :=
  decide (a.nsid = b.nsid) && decide (a.first ≤ b.last) && decide (b.first ≤ a.last)

/-- Two rows conflict: they overlap and are not both shared (R151). -/
def RltRow.conflicts (a b : RltRow) : Bool := a.meets b && (a.excl || b.excl)

/-- The row in a place. -/
def State.rowAt (s : State) (n : Nat) : Option RltRow := s.host.rlt.find? fun r => decide (r.row = n)

/-- LAST of a search: the highest matching row (R192). -/
def State.lastMatch (s : State) (k : RltRow) : Option Nat :=
  (s.host.rlt.filter fun r => r.meets k).foldl (fun m r => match m with
    | none => some r.row
    | some n => some (max n r.row)) none

/-- The lowest free place from `n` up. -/
def State.freeRow (s : State) (n : Nat) : Option Nat :=
  firstFrom (fun i => (s.rowAt i).isNone) (4096 - n) n

/-- The highest free place below `h`. -/
def State.freeBelow (s : State) (h : Nat) : Option Nat :=
  (firstFrom (fun i => (s.rowAt (h - 1 - i)).isNone) h 0).map fun i => h - 1 - i

/-- Whether no earlier row, held or waiting, conflicts with a row in its place (R151, R197). -/
def State.passes (s : State) (r : RltRow) : Bool :=
  !s.host.rlt.any fun e => decide (e.row < r.row) && decide (e.uid ≠ r.uid) && e.conflicts r

/-- RLT_USE (R171). -/
def State.rltUse (s : State) : State :=
  (s.wr R.INTAKE.RLT_USE_ROWS s.host.rlt.length).peak R.INTAKE.RLT_USE_PEAK s.host.rlt.length

/-- A row is written in its place, granted if it passes. -/
def State.putRow (s : State) (r : RltRow) : State :=
  (s.mHost fun h => { h with rlt := { r with held := s.passes r } :: h.rlt }).rltUse

/-- Whether a request may take a row (R152): a kept request any free row, others only while more than
RLT_RSV.ROWS are free. -/
def State.rowFree (s : State) (kept : Bool) : Bool :=
  let free := 4096 - s.host.rlt.length
  if kept then decide (0 < free) else decide (s.rd R.INTAKE.RLT_RSV_ROWS < free)

/-- Whether a command's requests are kept ones, as noted when it makes them (R152). -/
def State.keptReq (s : State) (uid : Nat) : Bool :=
  match s.cmdOf uid with
  | some c => c.keptReq
  | none => false

/-- Inserts a row (R196): in the lowest free place above the highest row it matches, or after a block
shift. -/
def State.insertRow (s : State) (r : RltRow) : State :=
  let above := match s.lastMatch r with
    | none => 0
    | some h => h + 1
  match s.freeRow above with
  | some i => s.putRow { r with row := i }
  | none =>
    match s.freeBelow (above - 1) with
    | some f =>
      ((s.mHost fun h => { h with shifting := some (f, above - 1, r) }).wr R.LEDGER.RLT_SHIFT_ACTIVE 1).count
        R.LEDGER.RLT_SHIFT_COUNT |>.peak R.LEDGER.RLT_SHIFT_MAX_ROWS (above - 1 - f)
    | none => s.mHost fun h => { h with rltWait := h.rltWait ++ [r] }

/-- A request reaches the table (R150, R153): it waits without a row where none may be taken, where a
shift runs, or behind an earlier rowless request it conflicts with. -/
def State.requestRow (s : State) (r : RltRow) : State :=
  if s.rowFree (s.keptReq r.uid) = false then
    let s := s.mHost fun h => { h with rltWait := h.rltWait ++ [{ r with row := 4096 }] }
    if r.row = 4096 then s else s.count R.INTAKE.RLT_FULL_COUNT
  else if s.host.shifting.isSome ∨ s.host.rltWait.any (fun w => w.conflicts r) then
    s.mHost fun h => { h with rltWait := h.rltWait ++ [r] }
  else s.insertRow r

/-- The waiting rows that now pass are granted, in row order (R197). -/
def State.grantRows (s : State) : State :=
  s.mHost fun h => { h with rlt := h.rlt.map fun r => if r.held then r else { r with held := s.passes r } }

/-- Requests without a row take one where they now may, in request order (R153). -/
def seatWaiting (s : State) : List RltRow → State
  | [] => s
  | r :: t => seatWaiting (s.requestRow r) t

/-- The rows and requests of a command are released (R152), and the waiting ones that now pass are
granted. -/
def State.releaseRows (s : State) (uid : Nat) : State :=
  let s := s.mHost fun h => { h with
    rlt := h.rlt.filter fun r => decide (r.uid ≠ uid)
    rltWait := h.rltWait.filter fun r => decide (r.uid ≠ uid)
    shifting := match h.shifting with
      | some (f, t, r) => if r.uid = uid then none else some (f, t, r)
      | none => none }
  let s := if s.host.shifting.isNone then s.wr R.LEDGER.RLT_SHIFT_ACTIVE 0 else s
  let w := s.host.rltWait
  (seatWaiting (s.mHost fun h => { h with rltWait := [] }).grantRows w).rltUse

/-- Whether every request of a command is granted. -/
def State.lockHeld (s : State) (uid : Nat) : Bool :=
  (s.host.rlt.all fun r => decide (r.uid ≠ uid) || r.held)
    && (s.host.rltWait.all fun r => decide (r.uid ≠ uid))
    && (match s.host.shifting with
      | some (_, _, r) => decide (r.uid ≠ uid)
      | none => true)

/-- Whether a command has made its requests. -/
def State.lockAsked (s : State) (uid : Nat) : Bool :=
  (s.host.rlt.any fun r => decide (r.uid = uid)) || (s.host.rltWait.any fun r => decide (r.uid = uid))
    || (match s.host.shifting with
      | some (_, _, r) => decide (r.uid = uid)
      | none => false)

/-! ### Completion (R50, R53, R92, R149, R152) -/

/-- A completion after the deadline is a broken promise, with its cause (R92, R573). -/
def State.promise (s : State) (c : Cmd) : State :=
  let due := c.deadline.getD 0
  let late := c.deadline.isSome && decide (due < s.mono)
  let inj := s.fire (pageOf R.INTAKE.PITCH_SEL_PITCH 0) 0 fun _ p => decide (p % 2048 = c.pitch.getD 1024)
  let s := inj.2
  let injected := inj.1 && !late || late && c.injected
  if late || inj.1 then
    let cause := if injected then 0 else if c.dataFirst then 1 else 2
    let s := match c.pitch with
      | some p => s.pitchLog p fun l =>
          { l with broken := l.broken + 1
                   brokenDataFirst := l.brokenDataFirst + (if cause = 1 then 1 else 0)
                   brokenFault := l.brokenFault + (if cause = 2 then 1 else 0) }
      | none => s.mPit fun x => { x with openBroken := x.openBroken + 1 }
    let s := s.traceCmd 2 c
    let iu := ((s.ns c.nsid).iuRange c.slba c.nlb).1
    if cause = 1 then s.record 1 0x083 [c.pitch.getD 1024, c.nsid, iu, iu / 2 ^ 32]
    else if cause = 2 then
      s.record 1 0x082 [c.uid % 0x10000, c.pitch.getD 1024 + c.cls * 0x1000, (s.mono - due) / 100, 0]
    else s
  else s

/-- The pitch log's longest latency, less host delay, and the host delay in ms (R97). -/
def State.latency (s : State) (c : Cmd) : State :=
  match c.pitch with
  | some p =>
    let us := (s.mono - c.acceptedAt - c.hostDelay) / 100
    s.pitchLog p fun l => { l with maxLatency := max l.maxLatency us
                                   hostDelay := l.hostDelay + c.hostDelay / 100000 }
  | none => s

/-- A command ends with a status: its rows are released, its context freed, its completion posted, its
promise judged, and its pitch freed if it was the last of a RETURNING one. -/
def State.complete (s : State) (c : Cmd) (sct sc : Nat) (dnr : Bool := false) (dw0 : Nat := 0)
    (data : List Nat := []) (dw1 : Nat := 0) (more : Bool := false) : State :=
  let s := (s.unstage c).releaseRows c.uid
  let accepted := decide (c.stage = .accepted)
  let s := s.mHost fun h => { h with cmds := h.cmds.filter fun d => decide (d.uid ≠ c.uid) }
  let aborted := decide (sct = 0 ∧ (sc = 0x07 ∨ sc = 0x08))
  let s := if accepted then (s.latency c).traceCmd 1 c else s
  let s := if accepted && !aborted then s.promise c else s
  let s := if c.stopped then s else
    s.postCqe c.port (s.cqFor c.port c.sqid)
      { sqid := c.sqid, cid := c.cid, sqhd := s.headOf c.port c.sqid, sct := sct, sc := sc, dnr := dnr
        dw0 := dw0 % 2 ^ 32, data := data, dw1 := dw1 % 2 ^ 32, more := more } (c.pitch.getD 1024)
  let s := match c.pitch with
    | some p => s.pitchFree p
    | none => s
  s.ctxUse

/-- A command is discarded without a completion (R156). -/
def State.discard (s : State) (c : Cmd) : State :=
  let s := (s.unstage c).releaseRows c.uid
  let s := s.mHost fun h => { h with cmds := h.cmds.filter fun d => decide (d.uid ≠ c.uid) }
  let s := match c.pitch with
    | some p => s.pitchFree p
    | none => s
  s.ctxUse

/-- An Error Information entry, of the newest 256 (R137, R165). -/
def State.errorInfo (s : State) (e : ErrInfo) : State :=
  s.mHost fun h => { h with errors := (h.errors ++ [e]).drop (h.errors.length + 1 - 256) }

end Sys2Proof.Machine
end

