-- ==== Sys2Proof/Machine/Tally.lean ====
section
/-! DEFINITION. The Tally: rounds, invariants and faults (R98 to R118), and the moves that stand alone:
credits, stamps, second halves. -/

namespace Sys2Proof.Machine

open Sys2Proof

/-- The TRANSIT term of a term: what messages still carry to it (R104). -/
def State.transit (s : State) (t : Nat) : Int :=
  (s.tal.moving.map fun m => if m.term = t then m.delta else 0).sum

/-- A term as the Tally sums it, its TRANSIT included (R105). -/
def State.seen (s : State) (t : Nat) : Int := s.term t + s.transit t

/-- All terms latched at a round, TRANSIT included. -/
def State.latched (s : State) : Tbl Int :=
  let t := s.tal.shadow.foldl (fun t e => t.set 0 e.1 (t.get 0 e.1 + e.2)) s.tal.terms
  s.tal.moving.foldl (fun t m => t.set 0 m.term (t.get 0 m.term + m.delta)) t

/-- The TRANSIT terms at a round. -/
def State.inTransit (s : State) : Tbl Int :=
  s.tal.moving.foldl (fun (t : Tbl Int) m => t.set 0 m.term (t.get 0 m.term + m.delta)) []

/-- The crates of a pool its state bitmap marks as not free (R103). -/
def State.notFree (s : State) (pool : Nat) : Int :=
  ((s.cr.desc.filter fun e => decide (e.2.state ≠ 0) && decide (poolFirst pool ≤ e.1)
      && decide (e.1 < poolFirst pool + poolCrates pool)).length : Nat)

/-- The sum of ERASES_DONE over the 96 stalls, of a latched table. -/
def doneSum (t : Tbl Int) : Int := ((List.range 96).map fun n => t.get 0 (192 + n)).sum

/-- Left and right side of an invariant that is checked every round, at a sub-index (R105). -/
def State.sides (s : State) (now : Tbl Int) (inv sub : Nat) : Int × Int :=
  match inv with
  | 0 => (now.get 0 sub + now.get 0 (8 + sub) + now.get 0 (16 + sub), (poolCrates sub : Nat))
  | 1 => (now.get 0 (8 + sub) + now.get 0 (16 + sub), s.notFree sub)
  | 2 => (termBase (32 + sub) + now.get 0 (32 + sub),
      now.get 0 (64 + sub) + now.get 0 (96 + sub) + termBase (128 + sub) + now.get 0 (128 + sub))
  | 3 => (now.get 0 (176 + sub),
      now.get 0 (160 + sub) - now.get 0 (164 + sub) - now.get 0 (168 + sub) - now.get 0 (172 + sub))
  | 4 => (now.get 0 164, 65536 * now.get 0 180)
  | 6 => (now.get 0 181 - now.get 0 182,
      now.get 0 183 + now.get 0 184 + now.get 0 185 + now.get 0 187 + now.get 0 186 + now.get 0 188 + now.get 0 189)
  | 7 => (now.get 0 190 - s.tal.prev.get 0 190, now.get 0 191 - s.tal.prev.get 0 191)
  | 8 => (now.get 0 288 - s.tal.prev.get 0 288, doneSum now - doneSum s.tal.prev)
  | _ => (0, 0)

/-- The page INDEX of the Tally. -/
def tallyPage : Nat := pageOf R.TALLY.TALLY_STATE_STATE 0

/-- One invariant at one sub-index: the injected unit is added to the observed side when the armed point
fires, and the violation, if any, joins the list (R105, R114). -/
def checkOne (now : Tbl Int) (a : State × List Violation) (is_ : Nat × Nat) : State × List Violation :=
  let f := a.1.fire tallyPage is_.1 fun sub _ => decide (sub = is_.2)
  let lr := f.2.sides now is_.1 is_.2
  let obs := lr.2 + (if f.1 then 1 else 0)
  if lr.1 = obs then (f.2, a.2)
  else (f.2, a.2 ++ [{ inv := is_.1, sub := is_.2, exp := lr.1, obs := obs, inj := f.1 && decide (lr.1 = lr.2) }])

/-- Invariant 5 for the pitch of this round's rotation: every balance lies within its cap (R105). The
unit an armed point adds falls on the operation tokens. -/
def checkRange (a : State × List Violation) : State × List Violation :=
  let n := a.1.tal.rotation
  let f := a.1.fire tallyPage 5 fun _ p => decide (p % 1024 = n)
  let p := f.2.pitch n
  let u := if f.1 then 1 else 0
  let bad := [0, 1, 2].find? fun t => decide (p.c.cap t < p.balance t + (if t = 0 then u else 0))
  match bad with
  | some t =>
    let obs := p.balance t + (if t = 0 then u else 0)
    (f.2, a.2 ++ [{ inv := 5, sub := n, exp := (p.c.cap t : Nat), obs := (obs : Nat)
                    inj := f.1 && decide (t = 0) && decide (p.balance t ≤ p.c.cap t) }])
  | none => (f.2, a.2)

/-- The credit counters that exist: those of port 1 only in split x8 mode, and of the types that are
not infinite, which have a CAP (R98). -/
def State.counters (s : State) : List Nat :=
  (List.range 32).filter fun c => decide (c < 16 ∨ s.split) && decide (s.term (32 + c) ≠ 0)

/-- The invariants of a round with their sub-indices, invariant 5 apart, in order (R105, R107). -/
def State.checks (s : State) (all : Bool) : List (Nat × Nat) × List (Nat × Nat) :=
  ((List.range 4).map (fun p => (0, p)) ++ (List.range 4).map (fun p => (1, p))
      ++ s.counters.map (fun c => (2, c)) ++ [(3, 0), (3, 1), (3, 2), (4, 0)],
   [(6, 0)] ++ (if all then [(7, 0), (8, 0)] else []))

/-- TALLY_FAULT as a word. -/
def State.faultWord (s : State) : Nat :=
  s.rd R.TALLY.TALLY_FAULT_INV + s.rd R.TALLY.TALLY_FAULT_SUB * 0x100 + s.rd R.TALLY.TALLY_FAULT_MORE * 0x1000000
    + s.rd R.TALLY.TALLY_FAULT_INJ * 0x80000000

/-- TALLY_STATE as a word. -/
def State.tallyWord (s : State) : Nat :=
  s.rd R.TALLY.TALLY_STATE_STATE + s.rd R.TALLY.TALLY_STATE_INJECTED_ONLY * 16 + s.rd R.TALLY.TALLY_STATE_STALE * 32

/-- A 64-bit two's complement image of a side. -/
def int64 (v : Int) : Nat := (v % (2 ^ 64 : Nat)).toNat

/-- Admission stops for a real violation, and the Sweep and scrub with it (R108, R109). -/
def State.realFault (s : State) : State :=
  if s.tal.realSeen then s
  else (s.mTal fun x => { x with realSeen := true }).wr R.SWEEP.SWEEP_STAT_TALLY_STOP 1

/-- Steps 1 to 4 of R108 for the violations of a round that is not in FAULT. -/
def State.tallyFault (s : State) (now : Tbl Int) (vs : List Violation) : State :=
  match (vs.filter fun v => !v.inj) ++ vs with
  | [] => s
  | v :: _ =>
    let real := vs.any fun w => !w.inj
    let s := (((s.wr R.TALLY.TALLY_FAULT_INV v.inv).wr R.TALLY.TALLY_FAULT_SUB v.sub).wr R.TALLY.TALLY_FAULT_MORE
      (min (vs.length - 1) 127)).wr R.TALLY.TALLY_FAULT_INJ (b2n v.inj)
    let s := ((s.wr64 R.TALLY.TALLY_FTIME_LO_VALUE R.TALLY.TALLY_FTIME_HI_VALUE s.mono).wr64
      R.TALLY.TALLY_EXP_LO_VALUE R.TALLY.TALLY_EXP_HI_VALUE (int64 v.exp)).wr64
      R.TALLY.TALLY_OBS_LO_VALUE R.TALLY.TALLY_OBS_HI_VALUE (int64 v.obs)
    let s := (s.wr R.TALLY.TALLY_STATE_INJECTED_ONLY (b2n (!real))).wr R.TALLY.TALLY_STATE_STALE 0
    let s := s.set R.TALLY.TALLY_STATE_STATE 3
    let s := s.mTal fun x => { x with
      snapFault := now, snapPrev := x.prev, snapTransit := s.inTransit, snapPrevTransit := x.prevTransit }
    let s := if real then s.realFault else s
    let s := s.record 8 0x040 [s.faultWord, int64 v.exp, int64 v.obs, s.mono] v.inj
    s.critical 2

/-- Further violations while the Tally is in FAULT (R107, R108). -/
def State.tallyMore (s : State) (vs : List Violation) : State :=
  let s := s.wr R.TALLY.TALLY_FAULT_MORE (min (s.rd R.TALLY.TALLY_FAULT_MORE + vs.length) 127)
  if vs.any fun v => !v.inj then (s.wr R.TALLY.TALLY_STATE_INJECTED_ONLY 0).realFault else s

/-- A round (R103, R105, R107): the parity toggles, every island latches, the invariants are checked,
and the Tally's state moves. -/
def execTallyRound (s : State) : Host.Outcome State Fault Refusal :=
  .next <|
    let st := s.rd R.TALLY.TALLY_STATE_STATE
    let s := s.mTal fun x => { x with parity := !x.parity }
    if st = 0 then s
    else
      let now := s.latched
      let ck := s.checks (decide (2 ≤ st))
      let a := ck.1.foldl (checkOne now) (s, [])
      let a := ck.2.foldl (checkOne now) (checkRange a)
      let vs := a.1.tal.events ++ a.2
      let s := a.1.count R.TALLY.TALLY_ROUNDS_COUNT
      let s := if vs.isEmpty then (if st = 1 ∧ s.tal.mayEnd then s.set R.TALLY.TALLY_STATE_STATE 2 else s)
        else if st = 3 then s.tallyMore vs else s.tallyFault now vs
      s.mTal fun x => { x with prev := now, prevTransit := s.inTransit, rotation := (x.rotation + 1) % 1024, events := [] }

/-- TALLY_CLR (R107, R114, R118): management firmware may write it, while DIAGNOSE is set. A fault whose
violations are all marked injected returns to BASELINE; otherwise the write is ignored and recorded. -/
def execTallyClr (who : Initiator) (s : State) : Host.Outcome State Fault Refusal :=
  .next <|
    if mayWrite R.TALLY.TALLY_CLR_CLEAR who = false ∨ s.mode 5 = false then
      s.denyUnder 11 who 8 0x120
    else if s.rd R.TALLY.TALLY_STATE_STATE ≠ 3 then s
    else if s.tal.realSeen then s.record 8 0x041 [s.faultWord, s.tallyWord, initCode who, 0]
    else (s.set R.TALLY.TALLY_STATE_STATE 1).mTal fun x => { x with mayEnd := true }

/-- The receiving island makes its half of a move (R99, R104). A message that is not there moves
nothing. -/
def execHalfMoveReceipt (index : Nat) (s : State) : Host.Outcome State Fault Refusal :=
  .next <|
    match s.tal.moving[index]? with
    | none => s
    | some m => (s.mTal fun x => { x with moving := x.moving.take index ++ x.moving.drop (index + 1) }).move m.term m.delta

/-- Credits move between two terms of a counter, where the first holds them (R99). -/
def creditMove (src dst counter n : Nat) (s : State) : State :=
  if counter < 32 ∧ (n : Int) ≤ s.term (src + counter) then
    (s.move (src + counter) (-(n : Int))).move (dst + counter) n
  else s

/-- Credit receive: ADV − n, OCC + n (R99). -/
def execCreditReceive (counter n : Nat) (s : State) : Host.Outcome State Fault Refusal :=
  .next (creditMove 96 64 counter n s)

/-- Credit release: OCC − n, PEND + n (R99). -/
def execCreditRelease (counter n : Nat) (s : State) : Host.Outcome State Fault Refusal :=
  .next (creditMove 64 128 counter n s)

/-- Credit advertise: PEND − n, ADV + n (R99). -/
def execCreditAdvertise (counter n : Nat) (s : State) : Host.Outcome State Fault Refusal :=
  .next (creditMove 128 96 counter n s)

/-- Stamp issue (R99, R106): the stamp, and the state in which NEXT and ISSUED have advanced and
invariant 9 has been checked. -/
def State.issueStamp (s : State) : Nat × State :=
  let n := (s.term 190).toNat
  let s := (s.move 190 1).move 191 1
  let f := s.fire tallyPage 9 fun _ _ => true
  let s := f.2
  let seen := s.tal.lastStamp + (if f.1 then 1 else 0)
  let s := if seen < n then s else s.mTal fun x => { x with
    events := x.events ++ [{ inv := 9, sub := 0, exp := (n : Nat), obs := (seen : Nat)
                             inj := f.1 && decide (x.lastStamp < n) }] }
  (n, s.mTal fun x => { x with lastStamp := n })

/-- A write through the erase-count increment port for block `key` of stall `ch` (R100, R106): the old
value plus 1, with invariant 10 checked. -/
def State.eraseCount (s : State) (ch key : Nat) : State :=
  let old := s.sw.erases.get 0 key
  let s := s.mSw fun x => { x with erases := x.erases.set 0 key (old + 1) }
  let f := s.fire tallyPage 10 fun sub _ => decide (sub = ch)
  let s := f.2
  if f.1 then s.mTal fun x => { x with
    events := x.events ++ [{ inv := 10, sub := ch, exp := (old + 1 : Nat), obs := (old + 2 : Nat), inj := true }] }
  else s

end Sys2Proof.Machine
end

