-- ==== Sys2Proof/Machine/Yard.lean ====
section
/-! DEFINITION. The crate yard and the crate store (R257 to R276): grants, frees, references, refusals,
lending and the window. Crates are numbered over all pools. -/

namespace Sys2Proof.Machine

open Sys2Proof

/-! ### Addresses and handles (R257, R258) -/

/-- The pool of a crate. -/
def cratePool (n : Nat) : Nat := if n < 4096 then 0 else if n < 5120 then 1 else if n < 5376 then 2 else 3

/-- The bytes of a crate of a pool. -/
def poolSize : Nat → Nat
  | 0 => 0x1000
  | 1 => 0x4000
  | 2 => 0x10000
  | _ => 0x40000

/-- Where a crate begins in the crate store. -/
def crateBase (n : Nat) : Nat :=
  let p := cratePool n
  p * 0x1000000 + (n - poolFirst p) * poolSize p

/-- The crate that begins at an address, if one does. -/
def crateAt (a : Nat) : Option Nat :=
  let p := a / 0x1000000
  if a < 0x4000000 ∧ a % poolSize p = 0 then some (poolFirst p + a % 0x1000000 / poolSize p) else none

/-- A crate's descriptor. -/
def State.crate (s : State) (n : Nat) : Crate := s.cr.desc.get {} n

/-- The state with a descriptor changed. -/
def State.mCrate (s : State) (n : Nat) (g : Crate → Crate) : State :=
  s.mCr fun c => { c with desc := c.desc.set {} n (g (c.desc.get {} n)) }

/-- The handle that names a crate now. -/
def State.handle (s : State) (n : Nat) : Nat := crateBase n + (s.crate n).gen * 16

/-! ### The store's bytes (R22, R223) -/

/-- A byte of a memory held as cells. -/
def byteAt (m : List Host.Cell) (a : Nat) : Nat := (Tbl.get (0 : BitVec 8) m a).toNat

/-- Bytes of a memory from an address up. -/
def bytesAt (m : List Host.Cell) (a : Nat) : Nat → List Nat
  | 0 => []
  | n + 1 => byteAt m a :: bytesAt m (a + 1) n

/-- Bytes placed in a memory from an address up. -/
def putBytes (m : List Host.Cell) (a : Nat) : List Nat → List Host.Cell
  | [] => m
  | b :: t => putBytes (Tbl.set (0 : BitVec 8) m a (BitVec.ofNat 8 b)) (a + 1) t

/-- A range of a memory set to zero. -/
def zeroBytes (m : List Host.Cell) (a n : Nat) : List Host.Cell :=
  m.filter fun e => !(decide (a ≤ e.1) && decide (e.1 < a + n))

/-- The crate store with bytes placed. -/
def State.crateWrite (s : State) (a : Nat) (bs : List Nat) : State :=
  s.mCr fun c => { c with mem := putBytes c.mem a bs }

/-- A 4 KiB unit of a crate as one number. -/
def State.crateUnit (s : State) (n u : Nat) : Nat := ofBytes (bytesAt s.cr.mem (crateBase n + u * 4096) 4096)

/-- A 4 KiB unit of a crate takes a value. -/
def State.putUnit (s : State) (n u v : Nat) : State :=
  if v = 0 then s.mCr fun c => { c with mem := zeroBytes c.mem (crateBase n + u * 4096) 4096 }
  else s.crateWrite (crateBase n + u * 4096) (bytesOf v 4096)

/-! ### Free lists (R259 to R261) -/

/-- The crates of a pool that are FREE, by the state bitmap. -/
def State.freeCount (s : State) (pool : Nat) : Nat := poolCrates pool - (s.notFree pool).toNat

/-- The head of a pool's free list: crates freed since its list was last built stand first, the latest
freed at the head; behind them the others in ascending order (log entry 9). -/
def State.freeHead (s : State) (pool : Nat) : Option Nat :=
  match s.cr.links.get [] pool with
  | n :: _ => some n
  | [] => firstFrom (fun n => decide ((s.crate n).state = 0)) (poolCrates pool) (poolFirst pool)

/-- The link word of a freed crate (R260). -/
def linkWord (n : Nat) (next : Option Nat) : Nat :=
  let p := cratePool n
  (match next with
    | some m => m - poolFirst p
    | none => 0x1000) + (n - poolFirst p) * 0x4000 + p * 0x4000000

/-- A freed crate is linked at the head of its pool's list. -/
def State.link (s : State) (n : Nat) : State :=
  let p := cratePool n
  let s := s.crateWrite (crateBase n) (bytesOf (linkWord n (s.freeHead p)) 8)
  s.mCr fun c => { c with links := c.links.set [] p (n :: (c.links.get [] p).filter fun m => decide (m ≠ n)) }

/-- A pop checks the link word of the head; a bad one has the list rebuilt from the bitmap, with a
count and a record (R261). -/
def State.checkLink (s : State) (pool n : Nat) : State :=
  let f := s.fire (pageOf R.CRATEYD.POOL_SEL_POOL 0) 0 fun sub _ => decide (sub = pool)
  let s := f.2
  if f.1 || s.cr.badLink.get false n then
    let s := (s.count R.CRATEYD.LINK_BAD_COUNT 0 pool).record 3 0x140 [pool, n - poolFirst pool, 0, 0]
      (f.1 && !s.cr.badLink.get false n)
    s.mCr fun c => { c with links := c.links.set [] pool [], badLink := c.badLink.set false n false }
  else s

/-- Pops a crate and grants it: the Grant or the Lend move (R99, R264, R272). -/
def State.popCrate (s : State) (pool : Nat) (r : CrateReq) : Option Nat × State :=
  match s.freeHead pool with
  | none => (none, s)
  | some h =>
    let s := s.checkLink pool h
    match s.freeHead pool with
    | none => (none, s)
    | some n =>
      let s := s.mCr fun c => { c with links := c.links.set [] pool ((c.links.get [] pool).filter fun m => decide (m ≠ n))
                                       eccBad := c.eccBad.set false n false }
      let lend := decide (r.cls = 6)
      let s := s.mCrate n fun d => { state := if lend then 2 else 1, kind := r.kind, owner := r.owner
                                     otag := r.otag % 0x10000, gen := (d.gen + 1) % 256 }
      let s := (s.move pool (-1)).move ((if lend then 16 else 8) + pool) 1
      let free := s.freeCount pool
      let s := if free < s.rd R.CRATEYD.POOL_CNT2_LOW 0 pool then s.wr R.CRATEYD.POOL_CNT2_LOW free 0 pool else s
      (some n, if lend then s else s.count R.CRATEYD.GRANTS_COUNT)

/-! ### Grants (R262 to R265) -/

/-- The reserves of a pool that a class may not take. -/
def State.reserveFor (s : State) (cls pool : Nat) : Nat :=
  (if cls = 1 then 0 else s.rd R.CRATEYD.POOL_RSV_BELL 0 pool)
    + (if cls = 1 ∨ cls = 3 then 0 else s.rd R.CRATEYD.POOL_RSV_FAST 0 pool)

/-- The crates of a pool available to a class. -/
def State.avail (s : State) (cls pool : Nat) : Nat := s.freeCount pool - s.reserveFor cls pool

/-- How many crates a request takes from each pool, its own first, then each larger one unless it is a
lend; none where there are too few. -/
def State.earmark (s : State) (r : CrateReq) : Option (List (Nat × Nat)) :=
  let pools := if r.cls = 6 then [r.pool] else (List.range 4).filter fun p => decide (r.pool ≤ p)
  let a := pools.foldl (fun (a : Nat × List (Nat × Nat)) p =>
    let k := min a.1 (s.avail r.cls p)
    (a.1 - k, a.2 ++ [(p, k)])) (r.count, [])
  if a.1 = 0 then some a.2 else none

/-- Pops `k` crates of a pool. -/
def popMany (r : CrateReq) (pool : Nat) : Nat → List Nat × State → List Nat × State
  | 0, a => a
  | k + 1, a =>
    let x := a.2.popCrate pool r
    popMany r pool k (match x.1 with
      | some n => (a.1 ++ [n], if pool = r.pool then x.2 else x.2.count R.CRATEYD.FALLBACK_COUNT)
      | none => (a.1, x.2))

/-- The crates of a decided request (R264). -/
def State.popAll (s : State) (r : CrateReq) (e : List (Nat × Nat)) : List Nat × State :=
  e.foldl (fun a pk => popMany r pk.1 pk.2 a) ([], s)

/-- Crates reach their requester: a command's HOST crates at once, others where the requester collects
them. -/
def State.deliver (s : State) (r : CrateReq) (l : List Nat) : State :=
  if r.cls = 3 ∨ r.cls = 4 then s.mCmd r.who fun c => { c with crates := c.crates ++ l }
  else s.mCr fun c => { c with grants := c.grants ++ [(r.cls, r.who, l)] }

/-- The first waiting request of a class. -/
def State.firstWait (s : State) (cls : Nat) : Option CrateReq := s.cr.waitq.find? fun r => decide (r.cls = cls)

/-- Decides the waiting requests of a class in arrival order until one fails. -/
def decideClass (cls : Nat) : Nat → State → State
  | 0, s => s
  | k + 1, s =>
    match s.firstWait cls with
    | none => s
    | some r =>
      match s.earmark r with
      | none => s
      | some e =>
        let s := s.mCr fun c => { c with waitq := c.waitq.erase r }
        let a := s.popAll r e
        decideClass cls k (a.2.deliver r a.1)

/-- Waiting requests are decided again at each free (R263), in class order; during the bell only class
BELL (R274). -/
def State.decideWaiting (s : State) : State :=
  let cls := if s.cr.closing then [1] else [1, 2, 3, 4, 5]
  cls.foldl (fun t c => decideClass c t.cr.waitq.length t) s

/-- A request reaches the yard (R262 to R265): granted, or EMPTY, and then a hardware requester waits.
It never passes a waiting request of its own class. -/
def State.askCrates (s : State) (r : CrateReq) : Option (List Nat) × State :=
  let held := (s.firstWait r.cls).isSome || (s.cr.closing && decide (r.cls ≠ 1))
  match (if held then none else s.earmark r) with
  | some e =>
    let a := s.popAll r e
    (some a.1, a.2)
  | none =>
    let s := if held then s else s.count R.CRATEYD.EMPTY_COUNT
    (none, if r.cls = 6 then s else s.mCr fun c => { c with waitq := c.waitq ++ [r] })

/-- A request for crates of a class (R262), as the requester's own client number and tag name it. -/
def execCrateGrantRequest (cls count pool kind owner otag who : Nat) (s : State) :
    Host.Outcome State Fault Refusal :=
  .next <|
    if cls = 0 ∨ 5 < cls ∨ 3 < pool ∨ count = 0 then s
    else
      let r : CrateReq := { cls := cls, count := count, pool := pool, kind := kind % 4, owner := owner % 8
                            otag := otag, who := who }
      let a := s.askCrates r
      match a.1 with
      | some l => a.2.deliver r l
      | none => a.2

/-! ### Frees and references (R266 to R271) -/

/-- POISONED (R275). -/
def State.poisoned (s : State) : State :=
  s.wr R.CRATEYD.POISONED_CRATES (s.cr.desc.filter fun e => e.2.poison).length

/-- A crate becomes FREE: the Free or the Return move, its link, and the waiting requests (R99, R260,
R263). -/
def State.freeCrate (s : State) (n : Nat) : State :=
  let d := s.crate n
  let p := cratePool n
  if d.state = 0 then s
  else
    let s := (s.mCrate n fun d => { gen := d.gen }).mPor fun q => { q with fills := q.fills.filter fun f => decide (f.1 ≠ n) }
    let s := (s.move ((if d.state = 1 then 8 else 16) + p) (-1)).move p 1
    (s.link n).poisoned.decideWaiting

/-- The owner releases its hold (R268). -/
def State.ownerFree (s : State) (n : Nat) : State :=
  if (s.crate n).refs = 0 then s.freeCrate n else s.mCrate n fun d => { d with rel := true }

/-- A reference is taken (R267). -/
def State.takeRef (s : State) (n : Nat) : State := s.mCrate n fun d => { d with refs := d.refs + 1 }

/-- A reference is released; the last one frees a crate its owner has released (R268). -/
def State.dropRef (s : State) (n : Nat) : State :=
  let s := s.mCrate n fun d => { d with refs := d.refs - 1 }
  if (s.crate n).refs = 0 ∧ (s.crate n).rel then s.freeCrate n else s

/-- The check a request fails (R269), numbered as the record of R270 numbers causes, or the crate it
names: `op` 0 free, 1 reference release, 2 return, 3 poison; `client` is OWNER, `tag` is OTAG. -/
def State.crateCheck (s : State) (h op client tag : Nat) : Nat ⊕ Nat :=
  match (if h % 16 = 0 then crateAt (h - h % 0x1000) else none) with
  | none => .inl 1
  | some n =>
    let d := s.crate n
    if d.gen ≠ bits h 4 8 then .inl 2
    else if d.state = 0 ∨ (op = 2 ∧ d.state < 2) then .inl 3
    else if (op = 0 ∨ op = 2) ∧ (d.owner ≠ client ∨ d.otag ≠ tag ∨ d.rel) then .inl 4
    else if op = 1 ∧ d.refs = 0 then .inl 5
    else .inr n

/-- A refusal is counted under its cause and recorded; it changes nothing else (R270). -/
def State.crateRefuse (s : State) (h client cause : Nat) : State :=
  (match cause with
    | 1 => s.count R.CRATEYD.REFUSE_BAD_PTR
    | 2 => s.count R.CRATEYD.REFUSE_STALE
    | 3 => s.count R.CRATEYD.REFUSE2_DOUBLE_FREE
    | 4 => s.count R.CRATEYD.REFUSE2_NON_OWNER
    | _ => s.count R.CRATEYD.REFUSE3_UNDERFLOW).record 3 0x150 [h, client, cause, 0]

/-- A free request (R268, R269); `owner` is the client with its tag above bit 3. -/
def execCrateFree (handle owner : Nat) (s : State) : Host.Outcome State Fault Refusal :=
  .next <|
    match s.crateCheck handle 0 (owner % 8) (owner / 8) with
    | .inl c => s.crateRefuse handle (owner % 8) c
    | .inr n => s.ownerFree n

/-- A reference release (R268, R269). -/
def execCrateReferenceRelease (handle owner : Nat) (s : State) : Host.Outcome State Fault Refusal :=
  .next <|
    match s.crateCheck handle 1 (owner % 8) (owner / 8) with
    | .inl c => s.crateRefuse handle (owner % 8) c
    | .inr n => s.dropRef n

/-- A late error poisons the crate its handle names, or is dropped as stale (R271). -/
def State.poisonCrate (s : State) (h : Nat) : State :=
  match s.crateCheck h 3 0 0 with
  | .inl _ => s.count R.CRATEYD.REFUSE3_POISON_STALE
  | .inr n => (s.mCrate n fun d => { d with poison := true }).poisoned

/-! ### Lending (R272, R273) -/

/-- The crates of a pool lent or reclaiming. -/
def State.lentCount (s : State) (pool : Nat) : Nat :=
  (s.cr.desc.filter fun e => decide (2 ≤ e.2.state) && decide (cratePool e.1 = pool)).length

/-- Whether a crate is RECLAIMING. -/
def State.reclaiming (s : State) : Bool := s.cr.desc.any fun e => decide (e.2.state = 3)

/-- LEND.GO (R272). -/
def execLendGo (who : Initiator) (pool : Nat) (s : State) : Host.Outcome State Fault Refusal :=
  .next <| s.access who (pageOf R.CRATEYD.LEND_GO 0) R.CRATEYD.LEND_GO.off true fun s =>
    if mayWrite R.CRATEYD.LEND_GO who = false then s.denyWrite who R.CRATEYD.LEND_GO
    else if s.rd R.CRATEYD.LEND_BUSY = 1 then s.count R.CRATEYD.LEND_RES2_DROPPED
    else
      let p := pool % 4
      if s.reclaiming then s.set R.CRATEYD.LEND_RES2_CODE 3
      else if s.rd R.CRATEYD.LEND_MAX_CRATES 0 p ≤ s.lentCount p then s.set R.CRATEYD.LEND_RES2_CODE 2
      else
        let a := s.askCrates { cls := 6, count := 1, pool := p, kind := 3, owner := 5, otag := 0, who := 0 }
        match a.1 with
        | some (n :: _) =>
          let s := a.2.mCr fun c => { c with mem := zeroBytes c.mem (crateBase n) (poolSize p) }
          (s.wr R.CRATEYD.LEND_RES_HANDLE (s.handle n)).set R.CRATEYD.LEND_RES2_CODE 0
        | _ => a.2.set R.CRATEYD.LEND_RES2_CODE 1

/-- RETURN.HANDLE (R272). -/
def execReturnHandle (who : Initiator) (handle : Nat) (s : State) : Host.Outcome State Fault Refusal :=
  .next <| s.access who (pageOf R.CRATEYD.RETURN_HANDLE 0) R.CRATEYD.RETURN_HANDLE.off true fun s =>
    if mayWrite R.CRATEYD.RETURN_HANDLE who = false then s.denyWrite who R.CRATEYD.RETURN_HANDLE
    else
      let i := s.limFire 14
      match s.crateCheck handle 2 5 0 with
      | .inl c => ((i.2.crateRefuse handle 5 c).set R.CRATEYD.RETURN_RES_CODE c).refuse 14 (initCode who) (initHart who) handle
      | .inr n =>
        if i.1 then (i.2.set R.CRATEYD.RETURN_RES_CODE 4).refuse 14 (initCode who) (initHart who) handle true
        else (i.2.ownerFree n).set R.CRATEYD.RETURN_RES_CODE 0

/-- The lent crate the window names, where the access passes its checks (R273). -/
def State.winCrate (s : State) : Option Nat :=
  let h := s.rd R.CRATEYD.WIN_HANDLE_HANDLE
  match (if h % 16 = 0 then crateAt (h - h % 0x1000) else none) with
  | none => none
  | some n =>
    let d := s.crate n
    if d.state = 2 ∧ d.owner = 5 ∧ d.gen = bits h 4 8
        ∧ s.rd R.CRATEYD.WIN_OFF_OFFSET + 4 ≤ poolSize (cratePool n) then some n else none

/-- An access to WIN_DATA (R273) in the crate yard: a handle that names no crate lent to firmware is refused. -/
def State.winAccess (s : State) (who : Initiator) (write : Bool) (value : Nat) : State :=
  if write ∧ mayWrite R.CRATEYD.WIN_DATA_DATA who = false then s.denyWrite who R.CRATEYD.WIN_DATA_DATA
  else
    let off := s.rd R.CRATEYD.WIN_OFF_OFFSET
    let i := s.limFire 14
    let s := i.2
    match (if i.1 then none else s.winCrate) with
    | none =>
      let s := (s.count R.CRATEYD.WIN_RES_REFUSED).refuse 14 (initCode who) (initHart who)
        (s.rd R.CRATEYD.WIN_HANDLE_HANDLE) s.winCrate.isSome
      if write then s else (s.wr R.CRATEYD.WIN_DATA_DATA 0).answer [0]
    | some n =>
      let a := crateBase n + off
      let s := if write then s.crateWrite a (bytesOf (value % 2 ^ 32) 4)
        else
          let v := ofBytes (bytesAt s.cr.mem a 4)
          ((s.wr R.CRATEYD.WIN_DATA_DATA v).wr R.CRATEYD.WIN_RES_POISON
            (b2n ((s.crate n).poison || s.cr.eccBad.get false n))).answer [v]
      s.wr R.CRATEYD.WIN_OFF_OFFSET (off + 4)

/-- An access to WIN_DATA (R273): 4 B move at WIN_OFF, which then advances by 4. A failed read returns
0 and a failed write is dropped; either is counted. -/
def execWinDataAccess (who : Initiator) (write : Bool) (value : Nat) (s : State) :
    Host.Outcome State Fault Refusal :=
  .next <| s.access who (pageOf R.CRATEYD.WIN_DATA_DATA 0) R.CRATEYD.WIN_DATA_DATA.off write fun s => s.winAccess who write value

/-- A CORE reset marks every LENT crate as reclaiming and returns those no Porter channel targets; the
others follow when their channel lets them go (R111). -/
def State.reclaimLent (s : State) : State :=
  let l := (s.cr.desc.filter fun e => decide (e.2.state = 2)).map Prod.fst
  l.foldl (fun t n => (t.mCrate n fun d => { d with state := 3 }).ownerFree n) s

end Sys2Proof.Machine
end

