-- ==== Sys2Proof/Machine/LCache.lean ====
section
/-! DEFINITION. The ledger cache and the tray (R199 to R222): lookups, fills, locks, range operations,
disabling and the power of ways. The cache holds which lines are present and DIRTY; their contents are the
ledger's. A write-back is accepted in the step that makes it. -/

namespace Sys2Proof.Machine

open Sys2Proof

/-! ### Lines and ways (R175, R178, R199) -/

/-- The DRAM line of line `k` of a namespace, through the granule table. -/
def Ns.lineAddr (n : Ns) (k : Nat) : Option Nat := (n.grans[k / 4096]?).map fun g => g * 4096 + k % 4096

/-- The line of an IU. -/
def Ns.lineOf (n : Ns) (iu : Nat) : Option Nat := n.lineAddr (iu / 48)

/-- The namespace and line index a DRAM line belongs to. -/
def State.lineOwner (s : State) (line : Nat) : Option (Nat × Nat) :=
  (s.led.ns.find? fun e => e.2.grans.contains (line / 4096)).map fun e =>
    (e.1, e.2.grans.idxOf (line / 4096) * 4096 + line % 4096)

/-- The set of a line (R199). -/
def setOf (line : Nat) : Nat := line % 12288

/-- The way a line is held in. -/
def State.wayOf (s : State) (line : Nat) : Option Nat :=
  (List.range 16).find? fun w => match s.lc.ways.get none (setOf line * 16 + w) with
    | some c => decide (c.n = line)
    | none => false

/-- What a way of a line's set holds. -/
def State.held (s : State) (set w : Nat) : Option CLine := s.lc.ways.get none (set * 16 + w)

/-- The state with a way's line changed. -/
def State.setWay (s : State) (set w : Nat) (c : Option CLine) : State :=
  s.mLc fun l => { l with ways := l.ways.set none (set * 16 + w) c }

/-- The lines now DIRTY. -/
def State.dirtyLines (s : State) : Nat :=
  (s.lc.ways.filter fun e => match e.2 with
    | some c => c.dirty
    | none => false).length

/-- The first valid applied region a line belongs to (R206). -/
def State.regionOf (s : State) (line : Nat) : Bool :=
  s.lc.regions.any fun r => match r with
    | none => false
    | some r =>
      match s.lineOwner line with
      | some (n, k) => decide (n = r.nsid) && decide (r.first / 48 ≤ k) && decide (k ≤ r.last / 48)
      | none => false

/-- The ways that are powered. -/
def State.wayOn (s : State) (w : Nat) : Bool := bit (s.rd R.LCACHE.WAY_PWR_STAT_ON) w

/-- The ways in effect as locked. -/
def State.wayLocked (s : State) (w : Nat) : Bool := bit (s.rd R.LCACHE.LOCK_APPLIED_WAYS) w

/-- The ways that drain. -/
def State.wayDrains (s : State) (w : Nat) : Bool := bit (s.rd R.LCACHE.WAY_PWR_STAT_DRAINING) w

/-- The ways a line may be allocated in (R203, R207): a region line takes a locked way that holds no
region line; without one it is an ordinary line. -/
def State.eligible (s : State) (line : Nat) : List Nat :=
  let locked := (List.range 16).filter fun w => s.wayLocked w && s.wayOn w && !s.wayDrains w
    && match s.held (setOf line) w with
      | some c => !s.regionOf c.n
      | none => true
  if s.regionOf line ∧ locked ≠ [] then locked
  else (List.range 16).filter fun w => s.wayOn w && !s.wayLocked w && !s.wayDrains w

/-- The entry of an IU that holds no data. -/
def deallocated : Nat := 0xFFFFFFFFFF

/-- The key of an IU's entry. -/
def iuKey (nsid iu : Nat) : Nat := nsid * 2 ^ 38 + iu

/-- A line is taken for the CHECKPOINT log as it stands (R385, R386); a newer record of the line takes the place of
one not yet durable. -/
def State.logLine (s : State) (line : Nat) : State :=
  match s.lineOwner line with
  | none => s
  | some (n, k) =>
    let places := (List.range 48).map fun i => (i, iuKey n (k * 48 + i))
    let r : LineRec :=
      { nsid := n, line := k, sc := (s.term 190).toNat, at_ := s.bell.made
        entries := places.foldl (fun t e => t.set deallocated e.1 (s.led.map.get deallocated e.2)) []
        unc := (places.map fun e => if s.led.unc.get false e.2 then 2 ^ e.1 else 0).sum }
    s.mBell fun b => { b with
      lines := (b.lines.filter fun x => !(decide (x.nsid = n) && decide (x.line = k))) ++ [r], logged := b.logged + 1 }

/-- A line is written back where it is DIRTY. -/
def State.writeBack (s : State) (c : CLine) : State :=
  if c.dirty then (s.count R.LCACHE.WB_COUNT).logLine c.n else s

/-- A way is emptied, its line written back first where DIRTY. -/
def State.evict (s : State) (set w : Nat) : State :=
  match s.held set w with
  | some c => (s.writeBack c).setWay set w none
  | none => s

/-- The REF bits of the eligible ways of a set are cleared. -/
def State.clearRefs (s : State) (set : Nat) (ws : List Nat) : State :=
  ws.foldl (fun t w => match t.held set w with
    | some c => t.setWay set w (some { c with ref := false })
    | none => t) s

/-- Allocates a way for a line (R203) and puts the line there. -/
def State.allocate (s : State) (line : Nat) (dirty : Bool) : State :=
  let set := setOf line
  let ws := s.eligible line
  match ws.find? fun w => (s.held set w).isNone with
  | some w => s.setWay set w (some { n := line, dirty := dirty, ref := true })
  | none =>
    let clear := fun (t : State) => ws.find? fun w => match t.held set w with
      | some c => !c.ref
      | none => true
    let s := if (clear s).isNone then s.clearRefs set ws else s
    match clear s with
    | some w => (s.evict set w).setWay set w (some { n := line, dirty := dirty, ref := true })
    | none => s

/-! ### Prefetch (R217 to R219) -/

/-- Whether the cache serves lookups. -/
def State.cacheOn (s : State) : Bool := decide (s.rd R.LCACHE.STAT_ENABLED = 1)

/-- Whether updates are written through (R213). -/
def State.writeThrough (s : State) : Bool :=
  !s.cacheOn || decide (s.rd R.LCACHE.STAT_DISABLE_PENDING = 1)

/-- Whether a prefetch of a line would be issued. -/
def State.mayPrefetch (s : State) (line : Nat) : Bool :=
  !s.writeThrough && (s.wayOf line).isNone && !s.lc.tray.contains line && !s.lc.prefetching.contains line
    && !s.lc.wanted.contains line

/-- A prefetch is issued. -/
def State.prefetch (s : State) (line : Nat) : State :=
  if s.mayPrefetch line then
    (s.mLc fun l => { l with prefetching := l.prefetching ++ [line] }).count R.LCACHE.PF_ISSUED_COUNT
  else s

/-- The prefetches for the lines that hold the IUs from the first to the last of a list (R217). -/
def State.prefetchSpan (s : State) (nsid : Nat) (ius : List Nat) : State :=
  match ius.head?, ius.getLast? with
  | some a, some b =>
    ((List.range (b / 48 + 1 - a / 48)).filterMap fun i => (s.ns nsid).lineAddr (a / 48 + i)).foldl
      (fun (t : State) l => t.prefetch l) s
  | _, _ => s

/-- The sequential prefetches after misses on lines k and k + 1 within 16 misses of each other. -/
def State.stream (s : State) (line : Nat) : State :=
  match s.lineOwner line with
  | none => s
  | some (n, k) =>
    let depth := s.rd R.LCACHE.PF_CFG_DEPTH
    let prev := if k = 0 then none else (s.ns n).lineAddr (k - 1)
    let hit := match prev with
      | some p => s.lc.trackers.contains p
      | none => false
    let s := s.mLc fun l => { l with trackers := (line :: l.trackers).take 16 }
    if hit then
      (List.range depth).foldl (fun t i => match (t.ns n).lineAddr (k + 1 + i) with
        | some a => t.prefetch a
        | none => t) s
    else s

/-! ### Lookups and updates (R202 to R205) -/

/-- A lookup of a line: a hit, a promotion from the tray (R218), or a miss that asks DRAM for it. -/
def State.lookLine (s : State) (line : Nat) : State :=
  let f := s.fire (pageOf R.LCACHE.CTRL_ENABLE 0) 0 fun _ _ => true
  let s := if f.1 then f.2.record 2 0x104 [setOf line, 0, 0, 0] true else f.2
  if s.cacheOn = false then s.count R.LCACHE.MISS_COUNT
  else match s.wayOf line with
    | some w =>
      match s.held (setOf line) w with
      | some c => (s.setWay (setOf line) w (some { c with ref := true })).count R.LCACHE.HIT_COUNT
      | none => s
    | none =>
      if s.lc.tray.contains line then
        ((s.mLc fun l => { l with tray := l.tray.filter fun t => decide (t ≠ line) }).allocate line false).count
          R.LCACHE.TRAY_HIT_COUNT
      else
        let s := s.count R.LCACHE.MISS_COUNT
        if s.lc.wanted.contains line then s
        else (s.mLc fun l => { l with wanted := l.wanted ++ [line] }).stream line

/-- An update of a line: its LINE_SEQ advances, and the cached line becomes DIRTY unless updates are
written through (R204, R213, R215). -/
def State.touchLine (s : State) (line : Nat) : State :=
  let s := s.lookLine line
  let s := s.mLed fun l => { l with lineSeq := l.lineSeq.set 0 line ((l.lineSeq.get 0 line + 1) % 2 ^ 32) }
  if s.writeThrough then s
  else match s.wayOf line with
    | some w => match s.held (setOf line) w with
      | some c => if s.wayDrains w then s else s.setWay (setOf line) w (some { c with dirty := true })
      | none => s
    | none => s

/-- A line fails LINE_CRC (R179): counted, recorded, and not used from then on. -/
def State.lineBad (s : State) (line : Nat) : State :=
  match s.lineOwner line with
  | none => s
  | some (n, k) =>
    ((s.count R.LEDGER.LINE_CRC_COUNT).record 2 0x101 [n, k, k / 2 ^ 32, 1]).critical 2 |>.mLed fun l =>
      { l with badLine := l.badLine.set false line true }

/-- Miss data arrives from DRAM (R204): its LINE_CRC is checked, and it fills the allocated way. -/
def execLcacheFill (line : Nat) (crcOk : Bool) (s : State) : Host.Outcome State Fault Refusal :=
  .next <|
    if s.lc.wanted.contains line then
      let s := s.mLc fun l => { l with wanted := l.wanted.filter fun t => decide (t ≠ line) }
      let f := s.fire (pageOf R.LEDGER.NS_CMD_OP 0) 2 fun _ _ => true
      let s := f.2
      let s := match f.1, s.lineOwner line with
        | true, some (n, k) => (s.count R.LEDGER.LINE_CRC_COUNT).record 2 0x101 [n, k, k / 2 ^ 32, 1] true
        | _, _ => s
      if crcOk = false then s.lineBad line
      else if s.cacheOn ∧ (s.wayOf line).isNone then s.allocate line false
      else s
    else s

/-- Prefetch data arrives (R203, R204, R218): into the cache where a demand miss waits for it, else into
the tray; discarded where it fails LINE_CRC, is already cached, or the cache is off. -/
def execPrefetchArrival (line : Nat) (crcOk : Bool) (s : State) : Host.Outcome State Fault Refusal :=
  .next <|
    if (s.lc.prefetching.take 16).contains line then
      let s := s.mLc fun l => { l with prefetching := l.prefetching.erase line }
      if crcOk = false ∨ s.writeThrough ∨ (s.wayOf line).isSome then s.count R.LCACHE.PF_WASTED_COUNT
      else if s.lc.wanted.contains line then
        (s.mLc fun l => { l with wanted := l.wanted.filter fun t => decide (t ≠ line) }).allocate line false
      else if 256 ≤ s.lc.tray.length then
        (s.mLc fun l => { l with tray := l.tray.drop 1 ++ [line] }).count R.LCACHE.PF_WASTED_COUNT
      else s.mLc fun l => { l with tray := l.tray ++ [line] }
    else s

/-! ### The range engine (R206, R208, R210 to R216) -/

/-- STAT follows what the range engine runs. -/
def State.rangeStat (s : State) : State :=
  match s.lc.op with
  | some o => (s.set R.LCACHE.STAT_BUSY 1).wr R.LCACHE.STAT_OP o.op
  | none => (s.set R.LCACHE.STAT_BUSY 0).wr R.LCACHE.STAT_OP 0

/-- The engine starts an activity. -/
def State.startOp (s : State) (o : RangeOp) : State := (s.mLc fun l => { l with op := some o }).rangeStat

/-- The ways set in a mask, lowest first. -/
def waysIn (m : Nat) : List Nat := (List.range 16).filter fun w => bit m w

/-- The engine is free: a drain that waits starts, else a disable that waits, else it rests. -/
def State.nextOp (s : State) : State :=
  match waysIn s.lc.drainNext with
  | w :: _ =>
    (s.mLc fun l => { l with drainNext := clrBit l.drainNext w }).startOp
      { op := 6, lines := [], force := false, all := true, ways := 2 ^ w }
  | [] =>
    if s.lc.disableNext then
      (s.mLc fun l => { l with disableNext := false }).startOp { op := 7, lines := [], force := false, all := true, ways := 0 }
    else (s.mLc fun l => { l with op := none }).rangeStat

/-- RANGE_FIRST and RANGE_LAST. -/
def State.rangeIus (s : State) : Nat × Nat :=
  (s.rd64 R.LCACHE.RANGE_FIRST_LO_VALUE R.LCACHE.RANGE_FIRST_HI_VALUE,
   s.rd64 R.LCACHE.RANGE_LAST_LO_VALUE R.LCACHE.RANGE_LAST_HI_VALUE)

/-- Whether the range names no active namespace or is reversed (R222). -/
def State.badRange (s : State) : Bool :=
  decide ((s.ns (s.rd R.LCACHE.RANGE_NS_NSID)).st ≠ 2) || decide (s.rangeIus.2 < s.rangeIus.1)

/-- Whether a line lies in the range of the running operation. -/
def State.inRange (s : State) (all : Bool) (line : Nat) : Bool :=
  all || match s.lineOwner line with
    | some (n, k) => decide (n = s.rd R.LCACHE.RANGE_NS_NSID) && decide (s.rangeIus.1 / 48 ≤ k)
        && decide (k ≤ s.rangeIus.2 / 48)
    | none => false

/-- A RANGE_CMD (R210, R212): dropped while BUSY, refused for a bad range, else started. -/
def rangeCmd (who : Initiator) (op : Nat) (force all : Bool) (s : State) (start : State → State := id) : State :=
  s.access who (pageOf R.LCACHE.RANGE_CMD_OP 0) R.LCACHE.RANGE_CMD_OP.off true fun s =>
  if mayWrite R.LCACHE.RANGE_CMD_OP who = false then s.denyWrite who R.LCACHE.RANGE_CMD_OP
  else if s.rd R.LCACHE.STAT_BUSY = 1 then s.count R.LCACHE.RANGE_DROPPED_COUNT
  else if all = false ∧ s.badRange then s.wr R.LCACHE.RANGE_RES_BAD_RANGE 1
  else
    let s := ((((s.wr R.LCACHE.RANGE_RES_BAD_RANGE 0).wr R.LCACHE.RANGE_RES_LINES 0).wr R.LCACHE.RANGE_SKIP_LOCKED 0).wr
      R.LCACHE.RANGE_SKIP2_DIRTY 0).wr R.LCACHE.RANGE_WB_LINES 0
    start (s.startOp { op := op, lines := [], force := force, all := all, ways := 0 })

/-- CLEAN. -/
def execRangeClean (who : Initiator) (force all : Bool) (s : State) : Host.Outcome State Fault Refusal :=
  .next (rangeCmd who 1 force all s)

/-- INVALIDATE. -/
def execRangeInvalidate (who : Initiator) (force all : Bool) (s : State) : Host.Outcome State Fault Refusal :=
  .next (rangeCmd who 2 force all s)

/-- CLEAN_INVALIDATE. -/
def execRangeCleanInvalidate (who : Initiator) (force all : Bool) (s : State) : Host.Outcome State Fault Refusal :=
  .next (rangeCmd who 3 force all s)

/-- The first 256 lines a PREFETCH names: those of the range, or of every namespace under ALL. -/
def State.prefetchLines (s : State) (all : Bool) : List Nat :=
  if all then
    ((s.led.ns.map fun e => (List.range (min (ceilDiv e.2.ius 48) 256)).filterMap fun k => e.2.lineAddr k).flatten).take 256
  else
    let n := s.ns (s.rd R.LCACHE.RANGE_NS_NSID)
    let r := s.rangeIus
    (List.range (min (r.2 / 48 - r.1 / 48 + 1) 256)).filterMap fun i => n.lineAddr (r.1 / 48 + i)

/-- PREFETCH (R217): its lines are requested, at most 256, and counted. -/
def execRangePrefetch (who : Initiator) (all : Bool) (s : State) : Host.Outcome State Fault Refusal :=
  .next (rangeCmd who 4 false all s fun t =>
    let l := t.prefetchLines all
    (l.foldl (fun (u : State) a => u.prefetch a) t).wr R.LCACHE.RANGE_RES_LINES l.length)

/-- One cached line under a range operation (R210). -/
def walkLine (o : RangeOp) (s : State) (k : Nat) : State :=
  let set := k / 16
  let w := k % 16
  match s.held set w with
  | none => s
  | some c =>
    if s.inRange o.all c.n = false then s
    else
      let lines := fun (t : State) => t.wr R.LCACHE.RANGE_RES_LINES (t.rd R.LCACHE.RANGE_RES_LINES + 1)
      let wb := fun (t : State) =>
        if c.dirty then (t.writeBack c).wr R.LCACHE.RANGE_WB_LINES (t.rd R.LCACHE.RANGE_WB_LINES + 1) else t
      if o.op = 1 then lines (wb (s.setWay set w (some { c with dirty := false })))
      else if s.wayLocked w ∧ o.force = false then
        s.wr R.LCACHE.RANGE_SKIP_LOCKED (s.rd R.LCACHE.RANGE_SKIP_LOCKED + 1)
      else if o.op = 2 ∧ c.dirty ∧ o.force = false then
        s.wr R.LCACHE.RANGE_SKIP2_DIRTY (s.rd R.LCACHE.RANGE_SKIP2_DIRTY + 1)
      else lines (wb (s.setWay set w none))

/-- A range operation ends (R211, R212): its walk is done and its last write-back accepted. -/
def execRangeOpComplete (s : State) : Host.Outcome State Fault Refusal :=
  .next <|
    match s.lc.op with
    | some o =>
      if o.op = 0 ∨ 4 < o.op then s
      else if o.op = 4 then s.nextOp
      else
        let keys := s.lc.ways.map Prod.fst
        let s := keys.foldl (walkLine o) s
        let gone := if o.op = 1 then [] else s.lc.tray.filter fun t => s.inRange o.all t
        let s := s.mLc fun l => { l with tray := l.tray.filter fun t => !gone.contains t }
        (s.wr R.LCACHE.RANGE_RES_LINES (s.rd R.LCACHE.RANGE_RES_LINES + gone.length)).nextOp
    | none => s

/-! ### Locked ways (R206 to R208) -/

/-- The staged region in entry `i`. -/
def State.stagedRegion (s : State) (i : Nat) : Option LockRgn :=
  if s.rd R.LCACHE.LOCK_RGN_NS_VALID 0 i = 1 then
    some { nsid := s.rd R.LCACHE.LOCK_RGN_NS_NSID 0 i
           first := s.rd64 R.LCACHE.LOCK_RGN_FIRST_LO_VALUE R.LCACHE.LOCK_RGN_FIRST_HI_VALUE 0 i
           last := s.rd64 R.LCACHE.LOCK_RGN_LAST_LO_VALUE R.LCACHE.LOCK_RGN_LAST_HI_VALUE 0 i }
  else none

/-- The condition of R206 a staging fails, with its region: 1 way above 7, 2 way not powered, 3 no
unlocked way left, 4 region invalid. -/
def State.lockFail (s : State) : Option (Nat × Nat) :=
  let m := s.rd R.LCACHE.LOCK_CFG_WAYS
  let bad := (List.range 16).find? fun i => match s.stagedRegion i with
    | some r => decide ((s.ns r.nsid).st ≠ 2) || decide (r.last < r.first) || decide ((s.ns r.nsid).ius ≤ r.last)
    | none => false
  if 256 ≤ m then some (1, 0)
  else if (waysIn m).any fun w => !s.wayOn w then some (2, 0)
  else if (List.range 16).all fun w => bit m w || !s.wayOn w then some (3, 0)
  else bad.map fun i => (4, i)

/-- The engine starts a lock sync. -/
def State.startSync (s : State) : State :=
  s.startOp { op := 5, lines := [], force := false, all := true, ways := 0 }

/-- LOCK_CMD.APPLY (R206, R208). -/
def execLockApply (who : Initiator) (s : State) : Host.Outcome State Fault Refusal :=
  .next <| s.access who (pageOf R.LCACHE.LOCK_CMD_APPLY 0) R.LCACHE.LOCK_CMD_APPLY.off true fun s =>
    if mayWrite R.LCACHE.LOCK_CMD_APPLY who = false then s.denyWrite who R.LCACHE.LOCK_CMD_APPLY
    else if s.rd R.LCACHE.STAT_BUSY = 1 then s.count R.LCACHE.RANGE_DROPPED_COUNT
    else match s.lockFail with
      | some (c, r) => (s.set R.LCACHE.LOCK_RESULT_CODE c).wr R.LCACHE.LOCK_RESULT_RGN r
      | none =>
        let s := (s.set R.LCACHE.LOCK_RESULT_CODE 0).wr R.LCACHE.LOCK_APPLIED_WAYS (s.rd R.LCACHE.LOCK_CFG_WAYS)
        (s.mLc fun l => { l with regions := (List.range 16).map fun i => s.stagedRegion i }).startSync

/-- Step 1 of a lock sync: a locked way that holds no region line is cleaned and emptied. -/
def syncOut (s : State) (k : Nat) : State :=
  match s.held (k / 16) (k % 16) with
  | some c => if s.wayLocked (k % 16) ∧ s.regionOf c.n = false then s.evict (k / 16) (k % 16) else s
  | none => s

/-- Step 2 for one region line: it is brought into a locked way of its set, from an unlocked way, the
tray or DRAM; with none free it is an overflow line, left to ordinary allocation (R207). -/
def syncLine (a : State × Nat) (line : Nat) : State × Nat :=
  let s := a.1
  let set := setOf line
  let free := (List.range 16).find? fun w => s.wayLocked w && s.wayOn w && !s.wayDrains w && (s.held set w).isNone
  match s.wayOf line, free with
  | some w, some f =>
    if s.wayLocked w then a
    else match s.held set w with
      | some c => ((s.setWay set w none).setWay set f (some c), a.2)
      | none => a
  | some w, none => if s.wayLocked w then a else (s, a.2 + 1)
  | none, some f =>
    if s.led.badLine.get false line then a
    else ((s.mLc fun l => { l with tray := l.tray.filter fun t => decide (t ≠ line) }).setWay set f
      (some { n := line, dirty := false, ref := true }), a.2)
  | none, none => (s, a.2 + 1)

/-- The lines of a region in ascending order. -/
def State.regionLines (s : State) (r : LockRgn) : List Nat :=
  (List.range (r.last / 48 - r.first / 48 + 1)).filterMap fun i => (s.ns r.nsid).lineAddr (r.first / 48 + i)

/-- A lock sync ends (R206, R207). -/
def execLockSyncComplete (s : State) : Host.Outcome State Fault Refusal :=
  .next <|
    match s.lc.op with
    | some o =>
      if o.op ≠ 5 then s
      else
        let s := (s.lc.ways.map Prod.fst).foldl syncOut s
        let lines := (s.lc.regions.map fun r => match r with
          | some r => s.regionLines r
          | none => []).flatten
        let a := if s.cacheOn then lines.foldl syncLine (s, 0) else (s, 0)
        (a.1.wr R.LCACHE.LOCK_OVERFLOW_LINES a.2).nextOp
    | none => s

/-! ### Disabling and enabling (R213, R214) -/

/-- CTRL.ENABLE written from 1 to 0: clean-then-disable starts, after any activity that runs. -/
def State.cacheDisable (s : State) : State :=
  if s.rd R.LCACHE.CTRL_ENABLE = 0 then s
  else
    let s := (s.wr R.LCACHE.CTRL_ENABLE 0)
    if s.cacheOn = false then s
    else
      let s := (s.wr R.LCACHE.STAT_DISABLE_PENDING 1).mLc fun l => { l with disableNext := true }
      if s.lc.op.isNone then s.nextOp else s

/-- CTRL.ENABLE written 0 by an initiator. -/
def execCacheDisable (who : Initiator) (s : State) : Host.Outcome State Fault Refusal :=
  .next (s.access who (pageOf R.LCACHE.CTRL_ENABLE 0) R.LCACHE.CTRL_ENABLE.off true fun s => if mayWrite R.LCACHE.CTRL_ENABLE who then s.cacheDisable else s.denyWrite who R.LCACHE.CTRL_ENABLE)

/-- Step 4 of R213: every DIRTY line has been written back, every line is removed, the tray is empty. -/
def State.cacheOff (s : State) : State :=
  let s := s.lc.ways.foldl (fun t e => match e.2 with
    | some c => t.writeBack c
    | none => t) s
  let s := s.mLc fun l => { l with ways := [], tray := [], prefetching := [], wanted := [] }
  ((s.wr R.LCACHE.STAT_ENABLED 0).wr R.LCACHE.STAT_DISABLE_PENDING 0).nextOp

/-- The walk of a disable ends. -/
def execCacheDisableComplete (s : State) : Host.Outcome State Fault Refusal :=
  .next <|
    match s.lc.op with
    | some o => if o.op = 7 then s.cacheOff else s
    | none => s

/-- Whether a lock configuration is applied. -/
def State.locksApplied (s : State) : Bool :=
  decide (s.rd R.LCACHE.LOCK_APPLIED_WAYS ≠ 0) || s.lc.regions.any fun r => r.isSome

/-- The cache serves lookups, empty, and a lock sync runs where locks are applied. -/
def State.cacheEnableEmpty (s : State) : State :=
  let s := s.wr R.LCACHE.STAT_ENABLED 1
  if s.locksApplied ∧ s.lc.op.isNone then s.startSync else s

/-- CTRL.ENABLE written 1 (R214): a disable under way is cancelled, a disabled cache is enabled empty. -/
def execCacheEnable (who : Initiator) (s : State) : Host.Outcome State Fault Refusal :=
  .next <| s.access who (pageOf R.LCACHE.CTRL_ENABLE 0) R.LCACHE.CTRL_ENABLE.off true fun s =>
    if mayWrite R.LCACHE.CTRL_ENABLE who = false then s.denyWrite who R.LCACHE.CTRL_ENABLE
    else
      let s := s.wr R.LCACHE.CTRL_ENABLE 1
      if s.rd R.LCACHE.STAT_DISABLE_PENDING = 1 then
        let s := (s.wr R.LCACHE.STAT_DISABLE_PENDING 0).mLc fun l => { l with disableNext := false }
        match s.lc.op with
        | some o => if o.op = 7 then s.nextOp else s
        | none => s
      else if s.cacheOn then s else s.cacheEnableEmpty

/-! ### The power of ways (R215, R216) -/

/-- WAY_PWR.OFF[w] written 1. -/
def execWayPowerOff (who : Initiator) (way : Nat) (s : State) : Host.Outcome State Fault Refusal :=
  .next <| s.access who (pageOf R.LCACHE.WAY_PWR_OFF 0) R.LCACHE.WAY_PWR_OFF.off true fun s =>
    if mayWrite R.LCACHE.WAY_PWR_OFF who = false then s.denyWrite who R.LCACHE.WAY_PWR_OFF
    else if 16 ≤ way ∨ bit (s.rd R.LCACHE.WAY_PWR_OFF) way then s
    else if s.wayLocked way
        ∨ (s.rd R.LCACHE.CTRL_ENABLE = 1
            ∧ (List.range 16).all (fun w => decide (w = way) || s.wayLocked w || !s.wayOn w || s.wayDrains w)) then
      s.count R.LCACHE.WAY_PWR_REFUSED_COUNT
    else
      let s := (s.wr R.LCACHE.WAY_PWR_OFF (setBit (s.rd R.LCACHE.WAY_PWR_OFF) way)).wr R.LCACHE.WAY_PWR_STAT_DRAINING
        (setBit (s.rd R.LCACHE.WAY_PWR_STAT_DRAINING) way)
      let s := s.mLc fun l => { l with drainNext := setBit l.drainNext way }
      if s.lc.op.isNone then s.nextOp else s

/-- A way's drain ends (R215): its lines are written back and removed, and its banks are powered off. -/
def execWayDrainComplete (way : Nat) (s : State) : Host.Outcome State Fault Refusal :=
  .next <|
    match s.lc.op with
    | some o =>
      if o.op = 6 ∧ bit o.ways way then
        let s := (s.lc.ways.map Prod.fst).foldl (fun t k => if k % 16 = way then t.evict (k / 16) way else t) s
        ((s.wr R.LCACHE.WAY_PWR_STAT_ON (clrBit (s.rd R.LCACHE.WAY_PWR_STAT_ON) way)).wr
          R.LCACHE.WAY_PWR_STAT_DRAINING (clrBit (s.rd R.LCACHE.WAY_PWR_STAT_DRAINING) way)).nextOp
      else s
    | none => s

/-- WAY_PWR.OFF[w] written 0 (R216): the way is powered and joins allocation; a drain not yet over ends
without powering it off (log entry 8). -/
def execWayPowerOn (who : Initiator) (way : Nat) (s : State) : Host.Outcome State Fault Refusal :=
  .next <| s.access who (pageOf R.LCACHE.WAY_PWR_OFF 0) R.LCACHE.WAY_PWR_OFF.off true fun s =>
    if mayWrite R.LCACHE.WAY_PWR_OFF who = false then s.denyWrite who R.LCACHE.WAY_PWR_OFF
    else if 16 ≤ way ∨ bit (s.rd R.LCACHE.WAY_PWR_OFF) way = false then s
    else
      let s := ((s.wr R.LCACHE.WAY_PWR_OFF (clrBit (s.rd R.LCACHE.WAY_PWR_OFF) way)).wr R.LCACHE.WAY_PWR_STAT_ON
        (setBit (s.rd R.LCACHE.WAY_PWR_STAT_ON) way)).wr R.LCACHE.WAY_PWR_STAT_DRAINING
        (clrBit (s.rd R.LCACHE.WAY_PWR_STAT_DRAINING) way)
      let s := s.mLc fun l => { l with drainNext := clrBit l.drainNext way }
      match s.lc.op with
      | some o => if o.op = 6 ∧ bit o.ways way then s.nextOp else s
      | none => s

end Sys2Proof.Machine
end

