-- ==== Sys2Proof/Machine/Ledger.lean ====
section
/-! DEFINITION. The ledger engine (R172 to R198): entries, the crate index, the operations of R181, the
deferred-error log, and the namespace commands. -/

namespace Sys2Proof.Machine

open Sys2Proof

/-! ### Entries and media addresses (R177) -/

/-- The entry of an IU whose newest data is in the crate store. -/
def inCrate : Nat := 0xFFFFFFFFFE

/-- The channel of a media address. -/
def aCh (a : Nat) : Nat := bits a 33 7

/-- The die address of a media address: CE × 4 + LUN. -/
def aDie (a : Nat) : Nat := bits a 29 4

/-- The block of a media address. -/
def aBlock (a : Nat) : Nat := bits a 13 13

/-- The key of a die: channel × 16 + die address. -/
def aDieKey (a : Nat) : Nat := aCh a * 16 + aDie a

/-- The key of a block. -/
def aBlockKey (a : Nat) : Nat := aDieKey a * 8192 + aBlock a

/-- Whether an entry is a media address. -/
def isMedia (e : Nat) : Bool := decide (aCh e < 96)

/-- The entry of an IU. -/
def State.entry (s : State) (nsid iu : Nat) : Nat := s.led.map.get deallocated (iuKey nsid iu)

/-- The UNC bit of an IU. -/
def State.unc (s : State) (nsid iu : Nat) : Bool := s.led.unc.get false (iuKey nsid iu)

/-- An entry and its UNC bit are set, and their line is updated (R204). -/
def State.setEntry (s : State) (nsid iu e : Nat) (u : Bool) : State :=
  let s := s.mLed fun l => { l with map := l.map.set deallocated (iuKey nsid iu) e
                                    unc := l.unc.set false (iuKey nsid iu) u }
  match (s.ns nsid).lineOf iu with
  | some a =>
    let s := s.touchLine a
    if s.writeThrough then s.logLine a else s
  | none => s

/-- Set bits of a mask. -/
def popcount : Nat → Nat → Nat
  | 0, _ => 0
  | k + 1, m => m % 2 + popcount k (m / 2)

/-- The sectors of the units of a mask (R186). -/
def unitSectors (units : Nat) : Nat :=
  ((List.range 16).map fun u => if bit units u then 0xFF * 2 ^ (8 * u) else 0).sum

/-- The mask of all units of an IU. -/
def Ns.allUnits (n : Ns) : Nat := 2 ^ iuUnits n.iu - 1

/-! ### Block records (R337), the journal (R376), the crate index (R186) -/

/-- The blocks of each die's permanent SLC reserve (R251); they are its lowest (log entry 11). -/
def State.rsvBlocks (s : State) : Nat := ceilDiv (25 * s.st.blocks) 10000

/-- The blocks of each die that begin in the SLC buffer: 8.00 % of those outside the reserve (R252). -/
def State.bufBlocks (s : State) : Nat := 800 * (s.st.blocks - s.rsvBlocks) / 10000

/-- The record of block `b` of a die that has not been used: reserve, SLC buffer or dense pool by its
number, and none where the die has no such block. -/
def State.block0 (s : State) (b : Nat) : Block :=
  if s.st.blocks ≤ b then { state := 5, good := false }
  else if b < s.rsvBlocks then { state := 4 }
  else if b < s.rsvBlocks + s.bufBlocks then { pool := 1 }
  else {}

/-- A block's record. -/
def State.block (s : State) (k : Nat) : Block := s.sw.blocks.get (s.block0 (k % 8192)) k

/-- The state with a block's record changed. -/
def State.mBlock (s : State) (k : Nat) (g : Block → Block) : State :=
  s.mSw fun w => { w with blocks := w.blocks.set (s.block0 (k % 8192)) k (g (s.block k)) }

/-- An old media address is invalidated: its block loses the IU's units (R181, R337). -/
def State.invalidate (s : State) (nsid e : Nat) : State :=
  if isMedia e then s.mBlock (aBlockKey e) fun b => { b with valid := b.valid - iuUnits (s.ns nsid).iu } else s

/-- A record is appended to the record journal (R376). From CLOSING on it is closed to all but the ends of the erases
aborted there (R377). -/
def State.journal (s : State) (kind : Nat) (f : List Nat) : State :=
  if 6 ≤ s.dst ∧ (kind ≠ 6 ∨ s.dst ≠ 6) then s else
  let s := s.mBell fun b => { b with
    journal := b.journal ++ [{ no := b.made, kind := kind, mono := s.mono, f := f }], made := b.made + 1 }
  s.wr R.CKPT.JOURNAL_USE_RECORDS s.bell.journal.length

/-- Whether the journal is full, so that no act it records is accepted (R376). -/
def State.journalFull (s : State) : Bool := decide (65536 ≤ s.bell.journal.length)

/-- The row of an IU, if it is in the crate store. -/
def State.cixRow (s : State) (nsid iu : Nat) : Option CixRow :=
  s.led.cix.find? fun r => decide (r.nsid = nsid) && decide (r.iu = iu)

/-- The row in a place of the crate index. -/
def State.cixAt (s : State) (n : Nat) : Option CixRow := s.led.cix.find? fun r => decide (r.row = n)

/-- The free rows of a group of 16 (R195). -/
def State.groupFree (s : State) (g : Nat) : Nat := 16 - (s.led.cix.filter fun r => decide (r.row / 16 = g)).length

/-- The lowest free row that is not the last free row of its group (R195). -/
def State.freeCix (s : State) : Option Nat :=
  firstFrom (fun i => (s.cixAt i).isNone && decide (2 ≤ s.groupFree (i / 16))) 16384 0

/-- CIX_USE (R198). -/
def State.cixUse (s : State) : State :=
  (s.wr R.LEDGER.CIX_USE_ROWS s.led.cix.length).peak R.LEDGER.CIX_USE_PEAK s.led.cix.length

/-- The write group of a namespace (R239). -/
def State.group (s : State) (nsid : Nat) : Nat := s.rd R.WPATH.WGROUP_MAP_GROUP 0 nsid

/-- A row leaves its take queue. -/
def State.untake (s : State) (row : Nat) : State :=
  s.mLed fun l => { l with takeq := l.takeq.map fun e => (e.1, e.2.filter fun r => decide (r ≠ row)) }

/-- A row goes to the tail of its group's take queue (R189). -/
def State.queueRow (s : State) (nsid row : Nat) : State :=
  let s := s.untake row
  let g := s.group nsid
  s.mLed fun l => { l with takeq := l.takeq.set [] g (l.takeq.get [] g ++ [row]) }

/-- Sectors of an IU have moved: a Flush that covers them no longer waits for them (R154). One of them that moved by
Defer gives the Flush its namespace to report (R155). -/
def State.flushMoved (s : State) (nsid iu mask : Nat) (defer : Bool) : State :=
  let mine := fun (e : Nat × Nat × Nat) => decide (e.1 = nsid) && decide (e.2.1 = iu)
  let cut := fun (c : Cmd) =>
    if c.covers.any mine then
      { c with
        covers := (c.covers.map fun e => if mine e then (e.1, e.2.1, e.2.2 - Nat.land e.2.2 mask) else e).filter fun e => decide (0 < e.2.2)
        coverDefer := if defer && c.covers.any (fun e => mine e && decide (Nat.land e.2.2 mask ≠ 0)) then some nsid else c.coverDefer }
    else c
  s.mHost fun h => { h with cmds := h.cmds.map cut }

/-- A row is removed from the crate index. -/
def State.dropRow (s : State) (row : Nat) : State :=
  let s := match s.cixAt row with
    | some r => s.flushMoved r.nsid r.iu (2 ^ 128 - 1) false
    | none => s
  ((s.mLed fun l => { l with
    cix := l.cix.filter fun r => decide (r.row ≠ row)
    badRow := l.badRow.filter fun r => decide (r ≠ row) }).untake row).cixUse

/-- The state with a row changed in place. -/
def State.mRow (s : State) (row : Nat) (g : CixRow → CixRow) : State :=
  s.mLed fun l => { l with cix := l.cix.map fun r => if r.row = row then g r else r }

/-! ### Lookups (R179, R180) -/

/-- Where a unit of an IU is found: a crate, nowhere readable, zeros, or the unit of a media address. -/
inductive UnitSrc where
  | crate (n u : Nat)
  | unc
  | zero
  | media (a u : Nat)
  deriving DecidableEq, Repr

/-- An entry whose value is invalid (R177, R179), or IN_CRATE without a row. -/
def orphanEntry (e : Nat) : Bool := !isMedia e && decide (e ≠ deallocated)

/-- What an entry and a UNC bit say of a unit (R180, cases 2 to 5). -/
def entrySrc (e : Nat) (unc : Bool) (u : Nat) : UnitSrc :=
  if unc then .unc else if e = deallocated then .zero else if isMedia e then .media e u else .unc

/-- Where unit `u` of an IU is found (R180). -/
def State.unitSrc (s : State) (nsid iu u : Nat) : UnitSrc :=
  match s.cixRow nsid iu with
  | some r =>
    if s.led.badRow.contains r.row then .unc
    else if bit r.units u then .crate r.crate u else entrySrc r.prior r.priorUnc u
  | none =>
    let bad := match (s.ns nsid).lineOf iu with
      | some a => s.led.badLine.get false a && (s.wayOf a).isNone
      | none => false
    if bad then .unc else entrySrc (s.entry nsid iu) (s.unc nsid iu) u

/-- The search and the lookup of an IU (R180, R202): its line is looked up; an invalid entry is counted,
recorded, and sets Critical Warning bit 2 (R179). -/
def State.lookIu (s : State) (nsid iu : Nat) : State :=
  if (s.cixRow nsid iu).isSome then s
  else
    let s := match (s.ns nsid).lineOf iu with
      | some a => s.lookLine a
      | none => s
    let e := s.entry nsid iu
    if s.unc nsid iu = false ∧ orphanEntry e then
      ((s.count R.LEDGER.ORPHAN_COUNT).record 2 0x102 [nsid, iu, iu / 2 ^ 32, e / 2 ^ 32]).critical 2
    else s

/-! ### The operations of R181 -/

/-- Sectors of a row move by Supersede (R99): SUPERSEDED at once, RESIDENT by message. -/
def State.supersede (s : State) (n : Nat) : State :=
  if n = 0 then s else (s.move 188 n).send 184 (-(n : Int))

/-- A row's hold on its crate is released (R268). -/
def State.dropHold (s : State) (crate : Nat) : State := s.ownerFree crate

/-- The records of page C2h that name a rewritten IU are marked so (R167). -/
def State.markRewritten (s : State) (nsid iu : Nat) : State :=
  let n := s.ns nsid
  s.mHost fun h => { h with deferLog := h.deferLog.map fun d =>
    if d.nsid = nsid ∧ (n.iuRange d.slba d.nlb).1 ≤ iu ∧ iu ≤ (n.iuRange d.slba d.nlb).2 then
      { d with flags := setBit d.flags 2 } else d }

/-- The units of an old row that the command does not write are copied into its new crate (R187). -/
def copyUnits (from_ dest units : Nat) (s : State) : State :=
  (List.range 16).foldl (fun t u => if bit units u then t.putUnit dest u (t.crateUnit from_ u) else t) s

/-- Porter channel 4 owes a crate zeros in a unit (R187, R427). -/
def State.oweZero (s : State) (crate unit : Nat) : State := s.mPor fun p => { p with fills := p.fills ++ [(crate, unit)] }

/-- INSERT (R181, R187): a row is made or replaced, the entry set to IN_CRATE, the UNC bit cleared, a
stamp issued. `units` are the units written, `cover` the command's sectors, `acc` those it accepted. -/
def State.insertIu (s : State) (nsid iu units cover acc crate pitch : Nat) : State :=
  let n := s.ns nsid
  let st := s.issueStamp
  let s := (st.2.mCrate crate fun d => { d with owner := 1, otag := 0 }).count R.LEDGER.UPD_INSERT_COUNT
  match s.cixRow nsid iu with
  | none =>
    let e := s.entry nsid iu
    let u := s.unc nsid iu
    let s := (List.range (iuUnits n.iu)).foldl (fun t k => if bit units k then t else t.oweZero crate k) s
    let whole := decide (Nat.land units n.allUnits = n.allUnits)
    let s := if whole then s.invalidate nsid e else s
    let row := s.freeCix.getD 0
    let s := s.mLed fun l => { l with cix :=
      { row := row, nsid := nsid, iu := iu, pool := cratePool crate, crate := crate, stamp := st.1
        units := units, acc := acc, prior := if whole then deallocated else e
        priorUnc := if whole then false else u, st := 0, pitch := pitch } :: l.cix }
    ((s.cixUse.queueRow nsid row).setEntry nsid iu inCrate false).markRewritten nsid iu
  | some r =>
    let s := copyUnits r.crate crate (r.units - Nat.land r.units units) s
    let s := (List.range (iuUnits n.iu)).foldl
      (fun t k => if bit units k || bit r.units k then t else t.oweZero crate k) s
    let all := Nat.lor r.units units
    let whole := decide (Nat.land all n.allUnits = n.allUnits)
    let s := if whole then s.invalidate nsid r.prior else s
    let cut := Nat.land r.acc cover
    let s := (s.flushMoved nsid iu cut false).mLed fun l => { l with badRow := l.badRow.filter fun n => decide (n ≠ r.row) }
    let s := s.mRow r.row fun r => { r with
      crate := crate, pool := cratePool crate, stamp := st.1, units := all
      acc := Nat.lor (r.acc - cut) acc, st := 0, pitch := pitch
      prior := if whole then deallocated else r.prior, priorUnc := if whole then false else r.priorUnc }
    let s := (s.supersede (popcount 128 cut)).dropHold r.crate
    ((s.queueRow nsid r.row).setEntry nsid iu inCrate false).markRewritten nsid iu

/-- DEALLOC and MARK_UNC (R181): any row removed, its accepted sectors superseded, the old media address
invalidated, the entry set to DEALLOCATED with the UNC bit as given. -/
def State.clearIu (s : State) (nsid iu : Nat) (unc : Bool) : State :=
  let s := s.count R.LEDGER.UPD_INSERT_COUNT
  match s.cixRow nsid iu with
  | some r =>
    let s := ((s.dropRow r.row).invalidate nsid r.prior).supersede (popcount 128 r.acc)
    (s.setEntry nsid iu deallocated unc).dropHold r.crate
  | none => (s.invalidate nsid (s.entry nsid iu)).setEntry nsid iu deallocated unc

/-- NEXT as the journal stores it with a TRIM or UNC record. -/
def State.nextStamp (s : State) : Nat := (s.term 190).toNat

/-- DEALLOC of an IU with its TRIM record. -/
def State.deallocIu (s : State) (nsid iu : Nat) : State :=
  (s.clearIu nsid iu false).journal 1 [nsid, iu, iu, s.nextStamp]

/-- MARK_UNC of an IU with its UNC record. -/
def State.markUnc (s : State) (nsid iu : Nat) : State :=
  (s.clearIu nsid iu true).journal 2 [nsid, iu, iu, s.nextStamp]

/-- SETTLE (R181, R32, R268): the entry takes the media address, the prior address is invalidated, the row
is removed, and the row's hold and the program's reference are released. -/
def State.settleIu (s : State) (nsid iu crate stamp addr : Nat) : State :=
  match s.cixRow nsid iu with
  | some r =>
    if r.crate = crate ∧ r.stamp = stamp then
      let n := popcount 128 r.acc
      let s := (s.setEntry nsid iu addr false).count R.LEDGER.UPD_SETTLE_COUNT
      let s := if n = 0 then s else (s.move 187 n).send 184 (-(n : Int))
      let s := s.mBlock (aBlockKey addr) fun b => { b with valid := b.valid + iuUnits (s.ns nsid).iu }
      (((s.invalidate nsid r.prior).dropRow r.row).dropHold crate).dropRef crate
    else (s.count R.LEDGER.DISCARD_SETTLE_COUNT).dropRef crate
  | none => (s.count R.LEDGER.DISCARD_SETTLE_COUNT).dropRef crate

/-- SWEEP_COPY (R181, R337): the entry, or the row's PRIOR, that holds the source takes the target; whether
it was applied, and the state. -/
def State.sweepCopy (s : State) (nsid iu src dst : Nat) : Bool × State :=
  let units := iuUnits (s.ns nsid).iu
  let moved := fun (t : State) =>
    ((t.mBlock (aBlockKey src) fun b => { b with valid := b.valid - units }).mBlock (aBlockKey dst)
      fun b => { b with valid := b.valid + units }).count R.LEDGER.UPD_SWEEP_COUNT
  match s.cixRow nsid iu with
  | some r =>
    if r.prior = src then (true, moved (s.mRow r.row fun r => { r with prior := dst }))
    else (false, s.count R.LEDGER.DISCARD_SWEEP_COUNT)
  | none =>
    if s.entry nsid iu = src then (true, moved (s.setEntry nsid iu dst (s.unc nsid iu)))
    else (false, s.count R.LEDGER.DISCARD_SWEEP_COUNT)

/-! ### The deferred-error log (R164 to R167) -/

/-- The bit of the Asynchronous Event Configuration that enables vendor event 00h (log entry 10). -/
def vendorEventBit : Nat := 24

/-- A deferred-error record is made: TOTAL counts it, the oldest of 256 is overwritten, the namespace's
report-pending flag is set, and the event of R166 is sent. -/
def State.deferRecord (s : State) (nsid iu stamp cause : Nat) (inj : Bool) : State :=
  let n := s.ns nsid
  let total := s.rd R.INTAKE.DEFER_TOTAL_COUNT + 1
  let per := n.iuBytes / n.block
  let slba := iu * per
  let d : DeferRec :=
    { seq := total, nsid := nsid, slba := slba, nlb := per, stamp := stamp, mono := s.mono
      epoch := s.rd R.TIME.EPOCH_VALUE, cause := cause, flags := if inj then 2 else 0, cntlid := 0, sqid := 0, cid := 0 }
  let s := (s.wr R.INTAKE.DEFER_TOTAL_COUNT total).mHost fun h => { h with
    deferLog := (h.deferLog ++ [d]).drop (h.deferLog.length + 1 - 256)
    deferGen := h.deferGen + 1
    deferKept := if h.deferKept.get (0, 0) nsid = (0, 0) then h.deferKept.set (0, 0) nsid (total, slba) else h.deferKept }
  (s.wr R.INTAKE.DEFER_FLAG_PENDING 1 0 nsid).asyncEvent vendorEventBit 7 0 0xC2

/-- A namespace's records are reported by a command (R155, R165): all its unreported records are marked,
and the flag is cleared; the SEQ the completion carries, with the state. -/
def State.reportDeferred (s : State) (c : Cmd) (nsid : Nat) : Nat × State :=
  let k := s.host.deferKept.get (0, 0) nsid
  let s := s.mHost fun h => { h with
    deferKept := h.deferKept.set (0, 0) nsid (0, 0)
    deferGen := h.deferGen + 1
    deferLog := h.deferLog.map fun d =>
      if d.nsid = nsid ∧ bit d.flags 0 = false then
        { d with flags := setBit d.flags 0, cntlid := c.port, sqid := c.sqid, cid := c.cid } else d }
  let s := s.wr R.INTAKE.DEFER_FLAG_PENDING 0 0 nsid
  (k.1, s.errorInfo { nsid := nsid, lba := k.2, sqid := c.sqid, cid := c.cid, sct := 2, sc := 0xC0 })

/-- A namespace that is deleted, formatted or sanitized loses its records and its flag (R166). -/
def State.dropDeferred (s : State) (nsid : Nat) : State :=
  (s.mHost fun h => { h with
    deferLog := h.deferLog.filter fun d => decide (d.nsid ≠ nsid)
    deferGen := h.deferGen + 1
    deferKept := h.deferKept.set (0, 0) nsid (0, 0) }).wr R.INTAKE.DEFER_FLAG_PENDING 0 0 nsid

/-- DEFER (R181): the row of the failed program is removed, its accepted sectors move by Defer, the entry
is DEALLOCATED with its UNC bit set, and a record is made. -/
def State.deferIu (s : State) (nsid iu crate stamp cause : Nat) : State :=
  match s.cixRow nsid iu with
  | some r =>
    if r.crate = crate ∧ r.stamp = stamp then
      let n := popcount 128 r.acc
      let next := s.nextStamp
      let s := (s.flushMoved nsid iu r.acc true).dropRow r.row
      let s := if n = 0 then s else (s.move 189 n).send 184 (-(n : Int))
      let s := (s.setEntry nsid iu deallocated true).deferRecord nsid iu stamp cause false
      let s := (s.journal 2 [nsid, iu, iu, next]).count
        (if cause = 1 then R.WPATH.DEFER_CNT_C1 else if cause = 2 then R.WPATH.DEFER_CNT_C2 else R.WPATH.DEFER_CNT2_C3)
      (s.dropHold crate).dropRef crate
    else (s.count R.LEDGER.DISCARD_SETTLE_COUNT).dropRef crate
  | none => (s.count R.LEDGER.DISCARD_SETTLE_COUNT).dropRef crate

/-! ### Rebalance and probe (R195, R198) -/

/-- A row moves to another place of the crate index, and its take queue follows. -/
def State.moveRow (s : State) (a b : Nat) : State :=
  s.mLed fun l => { l with
    cix := l.cix.map fun r => if r.row = a then { r with row := b } else r
    takeq := l.takeq.map fun e => (e.1, e.2.map fun r => if r = a then b else r) }

/-- The lowest free row of a group, and the highest. -/
def State.holeOf (s : State) (g : Nat) (low : Bool) : Option Nat :=
  let l := (List.range 16).filterMap fun i => if (s.cixAt (g * 16 + i)).isNone then some (g * 16 + i) else none
  if low then l.head? else l.getLast?

/-- Moves one edge row of group `g` into the next group's hole, repeating up to the target (R195). -/
def shiftGroups (up : Bool) : Nat → Nat → State → State
  | 0, _, s => s
  | k + 1, g, s =>
    let next := if up then g + 1 else g - 1
    let edge := if up then g * 16 + 15 else g * 16
    match s.holeOf next up with
    | some h => shiftGroups up k next (s.moveRow edge h)
    | none => s

/-- The group with two free rows nearest to `g`, the lower on a tie, and whether it lies above. -/
def State.nearGroup (s : State) (g : Nat) : Option (Nat × Bool) :=
  (firstFrom (fun d => (decide (d ≤ g) && decide (2 ≤ s.groupFree (g - d)))
    || (decide (g + d < 1024) && decide (2 ≤ s.groupFree (g + d)))) 1024 1).map fun d =>
      (d, !(decide (d ≤ g) && decide (2 ≤ s.groupFree (g - d))))

/-- The background rebalance of a group left without a hole (R195). -/
def execCixRebalance (group : Nat) (s : State) : Host.Outcome State Fault Refusal :=
  .next <|
    if 1024 ≤ group ∨ s.groupFree group ≠ 0 then s
    else match s.nearGroup group with
      | some (d, up) => (shiftGroups up d group s).count R.LEDGER.CIX_REBAL_COUNT
      | none => s

/-- CIX_PROBE_CMD.GO (R198): a search of the crate index with the probe key; no row changes. -/
def execCixProbeGo (who : Initiator) (s : State) : Host.Outcome State Fault Refusal :=
  .next <| s.access who (pageOf R.LEDGER.CIX_PROBE_CMD_GO 0) R.LEDGER.CIX_PROBE_CMD_GO.off true fun s =>
    if mayWrite R.LEDGER.CIX_PROBE_CMD_GO who = false then s.denyWrite who R.LEDGER.CIX_PROBE_CMD_GO
    else
      match s.cixRow (s.rd R.LEDGER.CIX_PROBE_NS_NSID)
          (s.rd64 R.LEDGER.CIX_PROBE_IU_LO_VALUE R.LEDGER.CIX_PROBE_IU_HI_VALUE) with
      | some r =>
        (((s.wr R.LEDGER.CIX_PROBE_RES_HIT 1).wr R.LEDGER.CIX_PROBE_RES_ROW r.row).wr
          R.LEDGER.CIX_PROBE_RES_STATE r.st).wr R.LEDGER.CIX_PROBE_RES_UNITS r.units
      | none =>
        (((s.wr R.LEDGER.CIX_PROBE_RES_HIT 0).wr R.LEDGER.CIX_PROBE_RES_ROW 0).wr
          R.LEDGER.CIX_PROBE_RES_STATE 0).wr R.LEDGER.CIX_PROBE_RES_UNITS 0

/-- A write into the SWEEP or LEDGER region that R176 does not admit: no byte changes. A write into the
FIRMWARE region is no such write. -/
def execDramWriteRefused (who : Initiator) (addr : Nat) (s : State) : Host.Outcome State Fault Refusal :=
  .next <|
    if addr < 2 ^ 32 then s
    else ((s.count R.LEDGER.DRAM_REFUSED_COUNT).record 6 0x100 [initIsland who, addr, addr / 2 ^ 32 % 256, 0]).refuse
      10 (initCode who) (initHart who) addr

/-! ### Namespaces (R172, R175, R182) -/

/-- The granules a namespace needs (R175). -/
def Ns.needs (n : Ns) : Nat := ceilDiv (ceilDiv n.ius 48) 4096

/-- The granules held by namespaces. -/
def State.usedGrans (s : State) : List Nat := (s.led.ns.map fun e => e.2.grans).flatten

/-- GRAN_FREE (R198). -/
def State.granFree (s : State) : State :=
  s.wr R.LEDGER.GRAN_FREE_COUNT (s.rd R.LEDGER.LEDGER_REGION_GRANULES - s.usedGrans.length)

/-- The first granule of the LEDGER region (R174). -/
def State.firstGran (s : State) : Nat := 4096 + s.rd R.LEDGER.DRAM_MAP2_SWEEP

/-- Takes the lowest free granules. -/
def State.takeGrans (s : State) (k : Nat) : List Nat :=
  let used := s.usedGrans
  (((List.range (k + used.length)).map fun i => s.firstGran + i).filter fun g => !used.contains g).take k

/-- NS_CMD runs on a namespace. -/
def State.nsStart (s : State) (op nsid : Nat) : State :=
  (s.mLed fun l => { l with nsCmd := some (op, nsid) }).set R.LEDGER.NS_CMD_BUSY 1

/-- NS_CMD ends with a code. -/
def State.nsEnd (s : State) (code : Nat) : State :=
  ((s.mLed fun l => { l with nsCmd := none }).set R.LEDGER.NS_CMD_BUSY 0).set R.LEDGER.NS_CMD_RESULT_CODE code

/-- INIT of a namespace that is initialising: its granules are taken, or there are too few. -/
def State.nsInit (s : State) (nsid : Nat) : State :=
  let n := s.ns nsid
  if n.st ≠ 1 ∨ n.attached ≠ 0 then s.nsEnd 2
  else if s.rd R.LEDGER.GRAN_FREE_COUNT < n.needs then s.nsEnd 1
  else
    let g := s.takeGrans n.needs
    ((s.mNs nsid fun n => { n with grans := g }).granFree).nsStart 1 nsid

/-- RELEASE of a namespace no controller is attached to (R182, R208): its lock regions become invalid and
a lock sync runs. -/
def State.nsRelease (s : State) (nsid : Nat) : State :=
  let n := s.ns nsid
  if n.st ≠ 2 ∨ n.attached ≠ 0 then s.nsEnd 2
  else
    let named := (List.range 16).any fun i => decide (s.rd R.LCACHE.LOCK_RGN_NS_VALID 0 i = 1)
      && decide (s.rd R.LCACHE.LOCK_RGN_NS_NSID 0 i = nsid)
    let s := (List.range 16).foldl (fun t i =>
      if t.rd R.LCACHE.LOCK_RGN_NS_NSID 0 i = nsid then t.wr R.LCACHE.LOCK_RGN_NS_VALID 0 0 i else t) s
    let applied := s.lc.regions.any fun r => match r with
      | some r => decide (r.nsid = nsid)
      | none => false
    let s := s.mLc fun l => { l with regions := l.regions.map fun r => match r with
      | some r => if r.nsid = nsid then none else some r
      | none => none }
    let s := if (named || applied) && s.lc.op.isNone then s.startSync else s
    (s.mNs nsid fun n => { n with st := 3 }).nsStart 2 nsid

/-- The context number the internal Deallocate's lock row carries. -/
def internalUid (nsid : Nat) : Nat := 0x100000000 + nsid

/-- DEALLOC_ALL: the internal Deallocate asks for an exclusive lock over the whole namespace (R182). -/
def State.nsDealloc (s : State) (nsid : Nat) : State :=
  let n := s.ns nsid
  if n.st ≠ 2 then s.nsEnd 2
  else
    (s.requestRow { row := 0, uid := internalUid nsid, nsid := nsid, first := 0, last := n.ius - 1
                    excl := true, held := false }).nsStart 3 nsid

/-- NS_CMD written by firmware: dropped and counted while BUSY. -/
def nsCmd (who : Initiator) (s : State) (f : State → Nat → State) : State :=
  s.access who (pageOf R.LEDGER.NS_CMD_OP 0) R.LEDGER.NS_CMD_OP.off true fun s =>
  if mayWrite R.LEDGER.NS_CMD_OP who = false then s.denyWrite who R.LEDGER.NS_CMD_OP
  else if s.rd R.LEDGER.NS_CMD_BUSY = 1 then s.count R.LEDGER.NS_CMD_RESULT_DROPPED
  else f s (s.rd R.LEDGER.NS_SEL_NSID)

/-- NS_CMD.INIT. -/
def execNsCmdInit (who : Initiator) (s : State) : Host.Outcome State Fault Refusal :=
  .next (nsCmd who s fun s n => s.nsInit n)

/-- NS_CMD.RELEASE. -/
def execNsCmdRelease (who : Initiator) (s : State) : Host.Outcome State Fault Refusal :=
  .next (nsCmd who s fun s n => s.nsRelease n)

/-- NS_CMD.DEALLOC_ALL. -/
def execNsCmdDeallocAll (who : Initiator) (s : State) : Host.Outcome State Fault Refusal :=
  .next (nsCmd who s fun s n => s.nsDealloc n)

/-- The IUs of a namespace that hold anything: mapped, marked uncorrectable, or in the crate store. -/
def State.liveIus (s : State) (nsid : Nat) : List Nat :=
  let a := s.led.map.map Prod.fst
  let b := s.led.unc.map Prod.fst
  (((a ++ b).filter fun k => decide (k / 2 ^ 38 = nsid)).map fun k => k % 2 ^ 38).eraseDups

/-- Every IU of a namespace is deallocated, with one TRIM record of the whole namespace (R182, R376). -/
def State.deallocAll (s : State) (nsid : Nat) : State :=
  let next := s.nextStamp
  let s := (s.liveIus nsid).foldl (fun t iu => t.clearIu nsid iu false) s
  s.journal 1 [nsid, 0, (s.ns nsid).ius - 1, next]

/-- The lines of a namespace leave the cache and the tray with its granules. -/
def State.dropLines (s : State) (nsid : Nat) : State :=
  let g := (s.ns nsid).grans
  s.mLc fun l => { l with
    ways := l.ways.filter fun e => match e.2 with
      | some c => !g.contains (c.n / 4096)
      | none => false
    tray := l.tray.filter fun t => !g.contains (t / 4096)
    prefetching := l.prefetching.filter fun t => !g.contains (t / 4096)
    wanted := l.wanted.filter fun t => !g.contains (t / 4096) }

/-- NS_CMD ends (R182): INIT has filled the namespace's lines, RELEASE frees its granules, DEALLOC_ALL has
run once its lock is granted; a delete then goes on to RELEASE, and to the next namespace being deleted. -/
def execNsCmdComplete (s : State) : Host.Outcome State Fault Refusal :=
  .next <|
    match s.led.nsCmd with
    | none => s
    | some (op, nsid) =>
      if op = 1 then (s.mNs nsid fun n => { n with st := 2 }).nsEnd 0
      else if op = 2 then
        let g := (s.ns nsid).grans
        let s := s.dropLines nsid
        let s := s.mLed fun l => { l with
          ns := l.ns.set {} nsid {}
          lineSeq := l.lineSeq.filter fun e => !g.contains (e.1 / 4096)
          badLine := l.badLine.filter fun e => !g.contains (e.1 / 4096) }
        let s := s.granFree.nsEnd 0
        match s.led.ns.find? fun e => e.2.deleting && decide (e.2.st = 2) with
        | some e => s.nsDealloc e.1
        | none => s
      else if s.lockHeld (internalUid nsid) then
        let s := ((s.deallocAll nsid).releaseRows (internalUid nsid)).nsEnd 0
        if (s.ns nsid).deleting then s.nsRelease nsid else s
      else s

end Sys2Proof.Machine
end

