-- ==== Sys2Proof/Machine/Bands.lean ====
section
/-! DEFINITION. Dies, blocks and bands: geometry, stripe sets, free blocks, wear, retirement and spare
(R235, R247 to R254, R335 to R347, R353 to R360). -/

namespace Sys2Proof.Machine

open Sys2Proof

/-! ### Geometry (R177, R231, R232, R247, R287) -/

/-- The dense mode: 1 TLC, 2 QLC, 3 PLC; QLC where the register has not been loaded (log entry 2). -/
def State.dense (s : State) : Nat := if s.rd R.WPATH.DENSE_CFG_MODE = 0 then 2 else s.rd R.WPATH.DENSE_CFG_MODE

/-- Bits per cell of a cell mode. -/
def modeBits (mode : Nat) : Nat := if mode = 0 then 1 else mode + 2

/-- The codewords of one program unit (R231). -/
def State.unitCws (s : State) (mode : Nat) : Nat := 4 * s.st.planes * modeBits mode

/-- The program units of a block: one per word line in every mode. -/
def State.unitsPerBlock (s : State) : Nat := s.st.pages / modeBits s.dense

/-- The codeword positions of a block before its summary unit (R233). -/
def State.dataEnd (s : State) (mode : Nat) : Nat := (s.unitsPerBlock - 1) * s.unitCws mode

/-- The media address of codeword position `p` of a block (R177, R232). -/
def State.cwAddr (s : State) (blk p : Nat) : Nat :=
  let pl := max s.st.planes 1
  blk / 131072 * 2 ^ 33 + blk / 8192 % 16 * 2 ^ 29 + p / 4 % pl * 2 ^ 26 + blk % 8192 * 2 ^ 13 + p / (4 * pl) * 4 + p % 4

/-- The codeword position of a media address in its block. -/
def State.cwPos (s : State) (a : Nat) : Nat :=
  bits a 2 11 * (4 * max s.st.planes 1) + bits a 26 3 * 4 + bits a 0 2

/-- The media address `n` positions after one. -/
def State.cwPlus (s : State) (a n : Nat) : Nat := s.cwAddr (aBlockKey a) (s.cwPos a + n)

/-- Whether a die is in service. -/
def State.dieOn (s : State) (ch a : Nat) : Bool :=
  decide (s.rd R.STALL.CH_STATE_STATE ch = 2) && bit (s.rd R.STALL.DIE_MAP_IN_SERVICE ch) a

/-- The dies in service, by key. -/
def State.diesOn (s : State) : List Nat :=
  (List.range 1536).filter fun k => s.dieOn (k / 16) (k % 16)

/-- Channel sets k of R235. -/
def State.chanSets (s : State) : Nat := ceilDiv s.wp.rank.length 32

/-- The channel set of a channel's rank. -/
def State.chansOf (s : State) (cs : Nat) : List Nat :=
  (s.wp.rank.zipIdx.filter fun e => decide (e.2 % s.chanSets = cs)).map Prod.fst

/-- The members in service of a stripe set, as channels in order. -/
def State.setMembers (s : State) (set : Nat) : List Nat :=
  (s.chansOf (set / 16)).filter fun c => s.dieOn c (set % 16)

/-- The stripe sets that hold stripes: at least two members (R235). -/
def State.sets (s : State) : List Nat :=
  (List.range (s.chanSets * 16)).filter fun t => decide (2 ≤ (s.setMembers t).length)

/-- The width of the widest stripe set. -/
def State.widest (s : State) : Nat := (s.sets.map fun t => (s.setMembers t).length).foldl max 0

/-- The stripe set of a die. -/
def State.setOfDie (s : State) (ch a : Nat) : Nat := s.wp.rank.idxOf ch % max s.chanSets 1 * 16 + a

/-! ### Counting blocks -/

/-- How many blocks of a die satisfy a test. -/
def State.countOn (s : State) (die : Nat) (q : Block → Bool) : Nat :=
  let rest := s.st.blocks - s.rsvBlocks - s.bufBlocks
  let base := (if q { state := 4 } then s.rsvBlocks else 0) + (if q { pool := 1 } then s.bufBlocks else 0)
    + (if q {} then rest else 0)
  let l := s.sw.blocks.filter fun e => decide (e.1 / 8192 = die)
  base + (l.filter fun e => q e.2).length - (l.filter fun e => q (s.block0 (e.1 % 8192))).length

/-- How many blocks of the dies in service satisfy a test. -/
def State.countAll (s : State) (q : Block → Bool) : Nat := (s.diesOn.map fun d => s.countOn d q).sum

/-- A good block outside the reserve. -/
def Block.inUse (b : Block) : Bool := decide (b.state ≠ 4) && decide (b.state ≠ 5)

/-- Whether a block is FREE and of a pool. -/
def Block.freeIn (b : Block) (pool : Nat) : Bool := decide (b.state = 0) && decide (b.pool = pool)

/-- FREE_MIN.BLOCKS: the least number of free dense blocks on any die in service. -/
def State.freeMin (s : State) : Nat := minOr 0 (s.diesOn.map fun d => s.countOn d fun b => b.freeIn 0)

/-- MiB of SLC data, after parity, in `n` codeword positions. -/
def State.slcMib (s : State) (n : Nat) : Nat :=
  let w := s.widest
  if w < 2 then 0 else n * 4096 * (w - 1) / (w * 1048576)

/-- The codeword positions of an SLC block. -/
def State.slcCws (s : State) : Nat := s.unitsPerBlock * s.unitCws 0

/-- Whether a block belongs to the SLC buffer. -/
def Block.inBuffer (b : Block) : Bool := b.inUse && decide (b.pool = 1)

/-- SLC_ALLOC.MIB. -/
def State.slcAlloc (s : State) : Nat := s.slcMib (s.countAll (fun b => b.inBuffer) * s.slcCws)

/-- SLC_HELD.MIB: what buffer blocks hold until they are erased. -/
def State.slcHeld (s : State) : Nat :=
  s.slcMib ((s.sw.blocks.map fun e =>
    if e.2.inBuffer && s.dieOn (e.1 / 131072) (e.1 / 8192 % 16) then
      (if e.2.state = 0 then 0 else if e.2.state = 1 then e.2.next else s.slcCws) else 0).sum)

/-- SLC_FREE.MIB. -/
def State.slcFree (s : State) : Nat := s.slcAlloc - s.slcHeld

/-- The thresholds of R254 follow SLC_FREE; each fall to one is counted. -/
def State.followFloor (s : State) : State :=
  let f := s.slcFree
  let w := s.rd R.WPATH.WRITE_FLOOR_MIB
  let s := if s.wp.floorHeld then (if 2 * w < f then s.mWp fun x => { x with floorHeld := false } else s)
    else if f ≤ w then (s.mWp fun x => { x with floorHeld := true }).count R.WPATH.FLOOR_HIT_UNBOUND else s
  if s.wp.halfHeld then (if w < 2 * f then
      (s.count R.WPATH.SLC_STALL_US 0 0 ((s.mono - s.wp.stallFrom) / 100)).mWp fun x => { x with halfHeld := false }
    else s)
  else if 2 * f ≤ w then (s.mWp fun x => { x with halfHeld := true, stallFrom := s.mono }).count R.WPATH.FLOOR_HIT_ALL else s

/-! ### Mode changes by hardware (R128, R129) -/

/-- A mode change the hardware makes: it goes ahead of the requests that wait for the mode instant. -/
def State.hwMode (s : State) (set clear cause : Nat) : State :=
  s.mDev fun d => { d with undecided :=
    (d.undecided.filter fun r => decide (r.who = .hardware)) ++
      [{ who := .hardware, cause := cause, set := set, clear := clear, refCode := 0, refBits := 0 }] ++
      (d.undecided.filter fun r => decide (r.who ≠ .hardware)) }

/-! ### Wear and spare (R353 to R360) -/

/-- The wear an erase adds to a block, in ppm (R353). -/
def State.wearStep (s : State) (k : Nat) : Nat :=
  ceilDiv 1000000 (Config.ratedCycles (s.st.dies.get {} (k / 8192)).desc (s.block k).mode)

/-- The good blocks outside the reserve (GOOD_BLOCKS). -/
def State.goodBlocks (s : State) : Nat := s.countAll fun b => b.inUse

/-- WEAR_MEAN (R354). -/
def State.wearMean (s : State) : Nat :=
  let n := s.goodBlocks
  if n = 0 then 0 else (s.sw.blocks.map fun e => if e.2.inUse then e.2.wear else 0).sum / n

/-- WEAR_MAX. -/
def State.wearMax (s : State) : Nat :=
  (s.sw.blocks.map fun e => if e.2.inUse then e.2.wear else 0).foldl max 0

/-- WEAR_MEAN and its rise in the wear day and year are recomputed (R354, R355). -/
def State.reckonWear (s : State) : State :=
  let m := s.wearMean
  ((((s.wr R.HEALTH.WEAR_MEAN_PPM m).wr R.HEALTH.WEAR_MAX_PPM s.wearMax).wr R.HEALTH.GOOD_BLOCKS_COUNT s.goodBlocks).wr
    R.HEALTH.WEAR_USED_DAY_PPM (m - s.sw.dayMean)).wr R.HEALTH.WEAR_USED2_YEAR_PPM (m - s.sw.yearMean)

/-- Bytes of a block in the dense mode. -/
def State.denseBytes (s : State) : Nat := s.st.pages * s.st.planes * 4 * 4096

/-- C of R360. -/
def State.spareC (s : State) : Nat :=
  (s.sets.map fun t =>
    let m := s.setMembers t
    (m.map fun c => s.countOn (c * 16 + t % 16) fun b => b.inUse).sum * s.denseBytes * (m.length - 1) / m.length).sum

/-- U of R360; the most that namespaces may come to is 640 TB in 786.432 TB of raw capacity (R38, log
entry 12). -/
def State.spareU (s : State) : Nat :=
  let dies := ((List.range 96).map fun c => popcount 16 (s.rd R.STALL.DIE_MAP_PRESENT c)).sum
  max ((s.led.ns.map fun e => e.2.nsze * e.2.block).sum) (dies * s.st.blocks * s.denseBytes * 78125 / 96000)

/-- SPARE.PCT and what follows from it (R360), once the blocks are known. A threshold compares with the register's
value. -/
def State.reckonSpare (s : State) : State :=
  if s.dst < 4 then s else
  let u := s.spareU
  let pct := if u = 0 then 0 else (s.spareC - u) * 10000 / u
  let s := s.wr R.HEALTH.SPARE_PCT (min pct 0xFFFF)
  let init := s.rd R.HEALTH.SPARE_INIT
  let s := if 0 < init ∧ 100 * pct / init < 100 * s.rd R.HEALTH.SPARE_CFG_WARN / init then s.critical 0
    else s.wr R.HEALTH.CRIT_BITS (clrBit (s.rd R.HEALTH.CRIT_BITS) 0)
  let s := if pct < s.rd R.HEALTH.SPARE_CFG_EOL ∧ s.rd R.DEVSTATE.RO_CAUSE_END_OF_LIFE = 0 then
      ((s.wr R.DEVSTATE.RO_CAUSE_END_OF_LIFE 1).mNv fun n => { n with roCause := setBit n.roCause 1 }).hwMode 4 0 0x21
    else s
  if pct < s.rd R.HEALTH.SPARE_CFG2_FLOOR then s.critical 2 else s

/-- Whether SPARE.PCT is at or below the floor (R342). -/
def State.belowFloor (s : State) : Bool := decide (s.rd R.HEALTH.SPARE_PCT ≤ s.rd R.HEALTH.SPARE_CFG2_FLOOR)

/-- Whether R342 holds fold bands. -/
def State.foldHeld (s : State) : Bool := decide (s.freeMin ≤ s.rd R.SWEEP.FREE_CFG_CRIT)

/-- The share of R252, in hundredths of a per cent. -/
def State.slcShare (s : State) : Nat :=
  let m := s.rd R.WPATH.SLC_CFG_MAX
  max (s.rd R.WPATH.SLC_CFG_MIN)
    (min m (m * (10000 - s.rd R.INTAKE.FILL_LEVEL_F) / (s.rd R.WPATH.SLC_CFG2_SPAN * 100)))

/-- A block joins the SLC buffer while its die holds fewer buffer blocks than its target (R252). -/
def State.poolFor (s : State) (die : Nat) : Nat :=
  let good := s.countOn die fun b => b.inUse
  if (s.countOn die fun b => b.inBuffer) < s.slcShare * good / 10000 then 1 else 0

/-- A retired block's record, list entry and count (R359); a reserve block is replaced from the die's
spare at once (R251). `cause` is 1 for a program failure and 2 for an erase failure. -/
def State.retireBlock (s : State) (k cause : Nat) : State :=
  let b := s.block k
  if b.state = 5 then s
  else
    let s := (s.mBlock k fun b => { b with state := 5 }).mNv fun n => { n with retired := n.retired ++ [(k, cause)] }
    let s := (s.journal 7 [k / 8192, k % 8192, cause]).count R.HEALTH.RETIRED_COUNT
    let s := if cause = 1 then s.count R.HEALTH.RETIRED_PROG_COUNT else s.count R.HEALTH.RETIRED_ERASE_COUNT
    let s := s.record 2 0x10A [k / 131072, k / 8192 % 16, k % 8192, cause]
    let s := if b.state = 4 then
        match firstFrom (fun i => (s.block (k / 8192 * 8192 + i)).freeIn 0) 8192 0 with
        | some i => s.mBlock (k / 8192 * 8192 + i) fun b => { b with state := 4 }
        | none => s
      else s
    s.reckonWear.reckonSpare

/-! ### Scrub candidates (R322) -/

/-- A block enters the candidate queue: rank 0 LOST, 1 RETRY, 2 WARN; `head` puts it first. One entry per
block, at its higher standing; a full queue loses its oldest WARN entry, or the new one. -/
def State.addCand (s : State) (k rank : Nat) (head : Bool) : State :=
  let old := s.integ.cands.find? fun e => decide (e.1 = k)
  let better := match old with
    | some e => decide (rank < e.2) || head
    | none => true
  if !better then s
  else
    let l := s.integ.cands.filter fun e => decide (e.1 ≠ k)
    let r := match old with
      | some e => min e.2 rank
      | none => rank
    let place := fun (l : List (Nat × Nat)) =>
      if head then (k, r) :: l
      else (l.takeWhile fun e => decide (e.2 ≤ r)) ++ (k, r) :: l.dropWhile fun e => decide (e.2 ≤ r)
    if l.length < 4096 then s.mInteg fun i => { i with cands := place l }
    else
      let s := s.count R.SCRUB.CAND_USE_OVER
      match l.find? fun e => decide (e.2 = 2) with
      | some e => s.mInteg fun i => { i with cands := place (l.erase e) }
      | none => s

/-! ### Bands (R335, R338, R346) -/

/-- The erase count of a block. -/
def State.erases (s : State) (k : Nat) : Nat := s.sw.erases.get 0 k

/-- The place of a block in the choice of R346: WEAK blocks last, then by erase count, lowest first, or
highest first for relocation. -/
def State.blockRank (s : State) (high : Bool) (k : Nat) : Nat :=
  (if (s.block k).hstate = 2 then 2 ^ 40 else 0) + (if high then 2 ^ 39 - s.erases k else s.erases k)

/-- The element of the smallest rank in a list, the first on a tie. -/
def pickMin {α : Type} (f : α → Nat) : List α → Option α
  | [] => none
  | a :: t => match pickMin f t with
    | none => some a
    | some b => if f a ≤ f b then some a else some b

/-- The block a die opens for a band (R346). -/
def State.pickBlock (s : State) (die pool : Nat) (high : Bool) : Option Nat :=
  let used := ((s.sw.blocks.filter fun e => decide (e.1 / 8192 = die) && e.2.freeIn pool).map Prod.fst)
  let fresh := (firstFrom (fun i => (s.block0 i).freeIn pool
    && !(s.sw.blocks.any fun e => decide (e.1 = die * 8192 + i))) 8192 0).map fun i => die * 8192 + i
  pickMin (s.blockRank high) (match fresh with
    | some k => k :: used
    | none => used)

/-- The pool a band's blocks come from: host bands take the SLC buffer. -/
def bandPool (kind : Nat) : Nat := if kind = 0 then 1 else 0

/-- The OPEN band of a kind, write group and stripe set. -/
def State.openBand (s : State) (kind group set : Nat) : Option Band :=
  s.sw.bands.find? fun b => decide (b.st = 1) && decide (b.kind = kind) && decide (b.group = group) && decide (b.set = set)

/-- The state with a band changed. -/
def State.mBand (s : State) (num : Nat) (g : Band → Band) : State :=
  s.mSw fun w => { w with bands := w.bands.map fun b => if b.num = num then g b else b }

/-- A band. -/
def State.bandOf (s : State) (num : Nat) : Option Band := s.sw.bands.find? fun b => decide (b.num = num)

/-- Whether a band of a kind may open (R342, R376): `safety` for the bands of data-safety victims. -/
def State.mayOpen (s : State) (kind : Nat) (safety : Bool) : Bool :=
  !s.journalFull && (decide (kind = 0) || ((decide (kind = 2) || !s.foldHeld) && (!s.belowFloor || safety)))

/-- The blocks a new band of a stripe set would take, where every member die has one. -/
def State.bandBlocks (s : State) (kind set : Nat) : Option (List Nat) :=
  let l := (s.setMembers set).map fun c => s.pickBlock (c * 16 + set % 16) (bandPool kind) (decide (kind = 2))
  if l.all Option.isSome then some (l.filterMap id) else none

/-- Whether an open band serves a stripe set, or one may open there. -/
def State.bandReady (s : State) (kind group set : Nat) (safety : Bool) : Bool :=
  (s.openBand kind group set).isSome || (s.mayOpen kind safety && (s.bandBlocks kind set).isSome)

/-- A band opens with one block on each member die (R335), with its BAND_OPEN record. -/
def State.startBand (s : State) (kind group set : Nat) : State :=
  match s.bandBlocks kind set with
  | none => s
  | some ks =>
    let mode := if kind = 0 then 0 else s.dense
    let n := s.sw.nextBand
    let s := s.mSw fun w => { w with nextBand := (w.nextBand + 1) % 2 ^ 32, bands := w.bands ++
      [{ num := n, kind := kind, mode := mode, group := group, set := set, members := ks, st := 1, closedAt := 0 }] }
    let s := ks.foldl (fun t k => t.mBlock k fun b => { b with band := n, state := 1, mode := mode, next := 0 }) s
    s.journal 4 ([n, kind, mode, group, set] ++ ks)

/-- The block a die has open for a kind and write group of a stripe set. -/
def State.openBlock (s : State) (kind group set ch : Nat) : Option Nat :=
  match s.openBand kind group set with
  | some b => b.members.find? fun k => decide (k / 8192 = ch * 16 + set % 16) && decide ((s.block k).state = 1)
  | none => none

end Sys2Proof.Machine
end

