-- ==== Sys2Proof/Machine/WritePath.lean ====
section
/-! DEFINITION. The write path from a taken row to a program unit, stripes and their parity, and what the
end of a program does (R189, R190, R226 to R250, R335, R343 to R347). A unit's codewords reach media when
its program ends with good status. -/

namespace Sys2Proof.Machine

open Sys2Proof

/-! ### Media reads -/

/-- A codeword on media. -/
def State.cwAt (s : State) (a : Nat) : Option Cw := s.nv.media.get none a

/-- Whether the die of a media address is in service. -/
def State.addrOn (s : State) (a : Nat) : Bool := s.dieOn (aCh a) (aDie a)

/-- The cell mode in FLAGS. -/
def Cw.mode (c : Cw) : Nat := bits c.flags 8 2

/-- The other members' codewords at the position of a codeword of a stripe, with the PARITY crates that
stand for a parity unit not yet programmed (R238); none where the position cannot be rebuilt. -/
def State.rebuildPlan (s : State) (a : Nat) : Option (List Nat × List Nat) :=
  match s.cwAt a with
  | none => none
  | some c =>
    let n := max (s.unitCws c.mode) 1
    let mates := s.nv.media.filter fun e => decide (e.1 ≠ a) && decide (s.cwPos e.1 % n = s.cwPos a % n) && (match e.2 with
      | some d => decide (d.serial = c.serial) && decide (0 < d.width)
      | none => false)
    let open_ := s.wp.stripes.find? fun q => decide (q.serial % 2 ^ 48 = c.serial)
    let parity := open_.isSome || mates.any fun e => match e.2 with
      | some d => bit d.flags 3
      | none => false
    if c.width = 0 ∨ parity = false ∨ mates = [] ∨ mates.any (fun e => !s.addrOn e.1) then none
    else some (mates.map Prod.fst, match open_ with
      | some q => q.crates
      | none => [])

/-- Whether a codeword can be read: from its die, or rebuilt from its stripe (R58). -/
def State.readable (s : State) (a : Nat) : Bool := s.addrOn a || (s.rebuildPlan a).isSome

/-- The reads of the other members of a rebuild (R238, R317); they take BULK slots. -/
def State.startMates (s : State) (id nsid iu unit : Nat) (mates : List Nat) : State :=
  s.mSt fun t => { t with
    nextRead := t.nextRead + mates.length
    reads := t.reads ++ mates.zipIdx.map fun m =>
      { id := t.nextRead + m.2, src := .rebuild id, cls := 2, nsid := nsid, iu := iu, unit := unit, addr := m.1
        arrived := s.mono } }

/-- A read of one codeword joins those of its die, where it waits for a slot (R76, R292); on a lost die it
waits for the other members of its stripe (R58). -/
def State.addRead (s : State) (src : ReadFor) (cls nsid iu unit addr : Nat) : State :=
  let id := s.st.nextRead
  let plan := if s.addrOn addr then none else s.rebuildPlan addr
  let r : MRead := { id := id, src := src, cls := cls, nsid := nsid, iu := iu, unit := unit, addr := addr, arrived := s.mono }
  let put := fun (s : State) (r : MRead) => s.mSt fun t => { t with nextRead := t.nextRead + 1, reads := t.reads ++ [r] }
  match plan with
  | none => put s r
  | some (mates, crates) =>
    let s := crates.foldl (fun t n => t.takeRef n) s
    (put s { r with st := 6, step := 12, refs := crates }).startMates id nsid iu unit mates

/-! ### Units being built -/

/-- The key of what a kind and write group builds. -/
def buildKey (kind group : Nat) : Nat := kind * 4 + group

/-- The codewords of an IU. -/
def State.lenOf (s : State) (u : UnitIu) : Nat := iuUnits (s.ns u.nsid).iu

/-- The number a host IU's fill request carries in the yard. -/
def fillWho (crate : Nat) : Nat := 0x10000 + crate

/-- The crates the yard has granted to a class and requester and that it still holds. -/
def State.granted (s : State) (cls who : Nat) : List Nat :=
  ((s.cr.grants.filter fun g => decide (g.1 = cls) && decide (g.2.1 = who)).map fun g => g.2.2).flatten

/-- The grants of a class and requester are freed (R242). -/
def State.freeGrants (s : State) (cls who : Nat) : State :=
  let l := s.granted cls who
  let s := s.mCr fun c => { c with grants := c.grants.filter fun g => !(decide (g.1 = cls) && decide (g.2.1 = who)) }
  l.foldl (fun t n => t.ownerFree n) s

/-- Whether an IU has all its units: its fills have come and their Sweep crate was granted (R190). -/
def State.unitReady (s : State) (u : UnitIu) : Bool :=
  !(s.wp.fills.any fun f => decide (f.1 = u.crate) && decide (f.2.1 = u.stamp))

/-- Program units queued at a die. -/
def State.queued (s : State) (ch die : Nat) : Nat :=
  (s.wp.units.filter fun u => decide (u.ch = ch) && decide (u.die = die)).length

/-- Lays IUs into codeword positions from `cur` up (R232): an IU of 16 KiB or more begins at SLOT 0, none
crosses position `fin`, none goes to a die its program has failed on, and at most `room` are taken. What is
laid, what remains, and whether the unit that ends at `stop` is full. -/
def layUnit (len : UnitIu → Nat) (stop fin die : Nat) : Nat → Nat → List UnitIu → List UnitIu × List UnitIu × Bool
  | _, cur, [] => ([], [], decide (stop ≤ cur))
  | room, cur, u :: t =>
    let p := if len u < 4 then cur else ceilDiv cur 4 * 4
    if stop ≤ p ∨ fin < p + len u ∨ room = 0 ∨ u.failedOn.contains die then ([], u :: t, true)
    else
      let r := layUnit len stop fin die (room - 1) (p + len u) t
      ({ u with pos := p } :: r.1, r.2)

/-! ### Stripes (R224, R225, R235 to R240) -/

/-- The pool and the number of the PARITY crates of a stripe (R224, R231). -/
def State.parityNeed (s : State) (mode : Nat) : Nat × Nat :=
  let n := s.unitCws mode * 4096
  if n ≤ poolSize 1 then (1, 1) else if n ≤ poolSize 2 then (2, 1) else (3, ceilDiv n (poolSize 3))

/-- The most stripes of a kind that may be open (R239). -/
def State.openLimit (s : State) (kind : Nat) : Nat :=
  if kind = 0 then s.rd R.WPATH.OPEN_CFG_HOST else if kind = 1 then s.rd R.WPATH.OPEN_CFG_FOLD else s.rd R.WPATH.OPEN_CFG_RELOC

/-- The stripes of a kind that are open: their parity unit is not yet issued. -/
def State.openStripes (s : State) (kind : Nat) : List Stripe :=
  s.wp.stripes.filter fun q => decide (q.kind = kind) && !q.parityIssued

/-- The unfilled data places of a stripe whose dies are in service. -/
def State.freePlaces (s : State) (q : Stripe) : List Nat :=
  (List.range q.members.length).filter fun i => decide (i ≠ q.parityAt) && !q.filled.contains i
    && !q.released.contains i && s.dieOn (q.members.getD i 0) (q.set % 16)

/-- The state with a stripe changed. -/
def State.mStripe (s : State) (serial : Nat) (g : Stripe → Stripe) : State :=
  s.mWp fun w => { w with stripes := w.stripes.map fun q => if q.serial = serial then g q else q }

/-- A stripe ends: its PARITY crates are freed (R242). -/
def State.endStripe (s : State) (q : Stripe) : State :=
  let s := s.mWp fun w => { w with stripes := w.stripes.filter fun r => decide (r.serial ≠ q.serial) }
  q.crates.foldl (fun t n => t.ownerFree n) s

/-- Pool-3 crates the open stripes hold (R225). -/
def State.parity3 (s : State) : Nat :=
  ((s.wp.stripes.map fun q => q.crates.filter fun n => decide (cratePool n = 3)).flatten).length

/-- PARITY crates for a stripe of a kind and group: those a wait was answered with, or a new request's. -/
def State.parityCrates (s : State) (key mode : Nat) : List Nat × State :=
  let need := s.parityNeed mode
  match s.granted 2 key with
  | a :: l =>
    (a :: l, s.mCr fun c => { c with grants := c.grants.filter fun g => !(decide (g.1 = 2) && decide (g.2.1 = key)) })
  | [] =>
    if s.cr.waitq.any fun r => decide (r.cls = 2) && decide (r.who = key) then ([], s)
    else if need.1 = 3 ∧ 48 < s.parity3 + need.2 then ([], s)
    else
      let a := s.askCrates { cls := 2, count := need.2, pool := need.1, kind := 2, owner := 2, otag := key, who := key }
      (a.1.getD [], a.2)

/-- A stripe opens (R236, R239): on `want`, or on the set whose members have the fewest programs queued,
first among those without an open stripe of the kind and group. It waits for its PARITY crates. -/
def State.newStripe (s : State) (kind group : Nat) (want : Option Nat) : State :=
  let key := buildKey kind group
  let mode := if kind = 0 then 0 else s.dense
  let has := fun t => s.wp.stripes.any fun q => decide (q.kind = kind) && decide (q.group = group) && decide (q.set = t)
      && !q.parityIssued
  let load := fun t => ((s.setMembers t).map fun c => s.queued c (t % 16)).sum
  let pick := match want with
    | some t => some t
    | none =>
      if s.openLimit kind ≤ (s.openStripes kind).length then none
      else pickMin (fun t => (if has t then 2 ^ 20 else 0) + load t)
        (s.sets.filter fun t => s.bandReady kind group t (s.sw.victims.any fun v => v.safety))
  match pick with
  | none => s
  | some t =>
    let a := s.parityCrates key mode
    if a.1 = [] then a.2
    else
      let s := if (a.2.openBand kind group t).isNone then a.2.startBand kind group t else a.2
      let m := s.setMembers t
      s.mWp fun w => { w with nextSerial := w.nextSerial + 1, stripes := w.stripes ++
        [{ serial := w.nextSerial, kind := kind, group := group, set := t, members := m
           parityAt := w.nextSerial % max m.length 1, filled := [], released := [], busy := 0, crates := a.1
           parity := [], parityIssued := false, parityFails := 0 }] }

/-- A stripe and place on a channel of a set, among the open stripes of a kind and group. -/
def State.placeOn (s : State) (kind group set ch : Nat) : Option (Stripe × Nat) :=
  ((s.openStripes kind).filter fun q => decide (q.group = group) && decide (q.set = set)).findSome? fun q =>
    ((s.freePlaces q).find? fun i => decide (q.members.getD i 0 = ch)).map fun i => (q, i)

/-- The unfilled data place whose die has the fewest programs queued (R236), off the dies `not_`. -/
def State.placeAny (s : State) (kind group : Nat) (not_ : List Nat) : Option (Stripe × Nat) :=
  let l := ((s.openStripes kind).filter fun q => decide (q.group = group)).flatMap fun q =>
    ((s.freePlaces q).filter fun i => !not_.contains (q.members.getD i 0 * 16 + q.set % 16)
      && (s.openBlock kind group q.set (q.members.getD i 0)).isSome).map fun i => (q, i)
  pickMin (fun p => s.queued (p.1.members.getD p.2 0) (p.1.set % 16)) l

/-- Codewords of [start, start + n) that IUs cover. -/
def State.covered (s : State) (start n : Nat) (l : List UnitIu) : Nat :=
  (l.map fun u => min (u.pos + s.lenOf u) (start + n) - max u.pos start).sum

/-- A program unit is made on a block's next positions and queued for its die (R231 to R236). Its stripe,
where it has one, takes it at `place`; its pads are counted and the block's summary list grows. -/
def State.assign (s : State) (kind blk serial place : Nat) (ius : List UnitIu) (members : Nat) : State :=
  let b := s.block blk
  let n := s.unitCws b.mode
  let pads := if 4 ≤ kind then 0 else n - s.covered b.next n ius
  let rows := (ius.filter fun u => decide (b.next ≤ u.pos)).map fun u => (u.nsid, u.iu, u.stamp, s.cwAddr blk u.pos)
  let unit : ProgUnit :=
    { id := s.wp.nextUnit, kind := kind, serial := serial, place := place, ch := blk / 131072, die := blk / 8192 % 16
      block := blk, start := b.next, cws := n, mode := b.mode, ius := ius, members := members }
  let s := s.mBlock blk fun b => { b with
    next := b.next + n
    written := if b.next = 0 then s.mono else b.written
    pitch := if b.next = 0 then (match ius with
      | u :: _ => u.pitch
      | [] => 1024) else b.pitch
    summary := b.summary ++ rows ++ (if pads = 0 then [] else [(0, 0, 0, 0)]) }
  let s := s.mWp fun w => { w with nextUnit := w.nextUnit + 1, units := w.units ++ [unit] }
  let s := (s.count R.WPATH.PROG_UNITS_COUNT).count R.WPATH.PAD_CW_COUNT 0 0 pads
  s.mStripe serial fun q => { q with
    filled := if kind = 4 then q.filled else q.filled ++ [place], busy := q.busy + 1
    parityIssued := q.parityIssued || decide (kind = 4) }

/-! ### Placing (R232 to R236, R382) -/

/-- Summary entries a block may hold (R382). -/
def State.entryLimit (s : State) (mode : Nat) : Nat := s.unitCws mode * 256 - 4

/-- Whether a block takes no further data unit. -/
def State.blockFull (s : State) (blk : Nat) : Bool :=
  decide (s.dataEnd (s.block blk).mode ≤ (s.block blk).next)
    || decide (s.entryLimit (s.block blk).mode ≤ (s.block blk).summary.length)

/-- Places one program unit of a kind and group: none where too little is ready, unless `short` asks for a
partly filled one, or where no stripe has a place. An IU begun in a block is finished there first. -/
def State.placeOne (s : State) (kind group : Nat) (short : Bool) : Option State :=
  let key := buildKey kind group
  let all := s.wp.building.get [] key
  let l := all.takeWhile fun u => s.unitReady u
  let rest := all.dropWhile fun u => s.unitReady u
  let carry := s.wp.carry.get none key
  let mode := if kind = 0 then 0 else s.dense
  let n := s.unitCws mode
  let total := (l.map fun u => s.lenOf u).sum + (match carry with
    | some (b, u) => u.pos + s.lenOf u - (s.block b).next
    | none => 0)
  if total = 0 ∨ (short = false ∧ total < n) then none
  else
    let find := fun (t : State) => match carry with
      | some (b, _) => t.placeOn kind group (t.setOfDie (b / 131072) (b / 8192 % 16)) (b / 131072)
      | none => t.placeAny kind group (match l with
        | u :: _ => u.failedOn
        | [] => [])
    let s := if (find s).isSome then s
      else s.newStripe kind group (carry.map fun c => s.setOfDie (c.1 / 131072) (c.1 / 8192 % 16))
    match find s with
    | none => some s
    | some (q, i) =>
      let ch := q.members.getD i 0
      let blk := match carry with
        | some (b, _) => some b
        | none => s.openBlock kind group q.set ch
      match blk with
      | none => some s
      | some blk =>
        let b := s.block blk
        let cur := match carry with
          | some (_, u) => u.pos + s.lenOf u
          | none => b.next
        let r := layUnit (fun u => s.lenOf u) (b.next + n) (s.dataEnd mode) (blk / 8192)
          (s.entryLimit mode - b.summary.length) cur l
        let ius := (match carry with
          | some (_, u) => [u]
          | none => []) ++ r.1
        if r.2.2 = false ∧ short = false then none
        else
          let next := match ius.getLast? with
            | some u => if b.next + n < u.pos + s.lenOf u then some (blk, u) else none
            | none => none
          let s := s.mWp fun w => { w with
            building := w.building.set [] key (r.2.1 ++ rest)
            carry := w.carry.set none key next
            buildFrom := w.buildFrom.set 0 key (if r.2.1 ++ rest = [] ∧ next = none then 0 else s.mono) }
          some (s.assign kind blk q.serial i ius 0)

/-- An IU is taken back from every unit and from the block it was begun in. -/
def State.recall (s : State) (u : UnitIu) : State :=
  let same := fun (v : UnitIu) => decide (v.nsid = u.nsid) && decide (v.iu = u.iu) && decide (v.stamp = u.stamp)
    && decide (v.copy = u.copy)
  s.mWp fun w => { w with
    units := w.units.map fun p => { p with ius := p.ius.filter fun v => !same v }
    carry := w.carry.filter fun e => match e.2 with
      | some (_, v) => !same v
      | none => false }

/-- IUs go to the head of what their kind and group builds. -/
def State.rebuildFirst (s : State) (key : Nat) (l : List UnitIu) : State :=
  s.mWp fun w => { w with building := w.building.set [] key (l ++ w.building.get [] key)
                          buildFrom := w.buildFrom.set 0 key (if w.buildFrom.get 0 key = 0 then s.mono else w.buildFrom.get 0 key) }

/-- A band closes (R335): every member writes its summary unit next, in a stripe of the set where one takes
it; an IU begun in one of its blocks and not finished is placed anew. -/
def State.closeBand (s : State) (b : Band) : State :=
  let s := (s.mBand b.num fun x => { x with st := 2, closedAt := s.sw.closedSeq }).mSw fun w => { w with closedSeq := w.closedSeq + 1 }
  let key := buildKey b.kind b.group
  let s := match s.wp.carry.get none key with
    | some (k, u) => if b.members.contains k then (s.recall u).rebuildFirst key [u] else s
    | none => s
  let open_ := b.members.filter fun k => decide ((s.block k).state = 1)
  let s := s.journal 5 ([b.num, b.kind, b.mode, b.group, b.set] ++ b.members)
  open_.foldl (fun t k =>
    let ch := k / 131072
    let t := if (t.placeOn b.kind b.group b.set ch).isSome then t else t.newStripe b.kind b.group (some b.set)
    let t := match t.placeOn b.kind b.group b.set ch with
      | some (q, i) => t.assign 5 k q.serial i [] 0
      | none => t.assign 5 k (2 ^ 48) 0 [] 0
    t.mBlock k fun x => { x with state := 2 }) s

/-- The parity unit of a stripe whose data places are all filled or released is issued (R236); a stripe with
nothing filled just ends. -/
def State.parityUnit (s : State) (q : Stripe) : State :=
  if q.parityIssued ∨ s.freePlaces q ≠ [] then s
  else if q.filled = [] then s.endStripe q
  else
    let ch := q.members.getD q.parityAt 0
    if s.dieOn ch (q.set % 16) = false then s.endStripe q
    else
      let s := if (s.openBand q.kind q.group q.set).isNone then s.startBand q.kind q.group q.set else s
      match s.openBlock q.kind q.group q.set ch with
      | some k => s.assign 4 k q.serial q.parityAt [] ((q.filled.map fun i => 2 ^ i).sum)
      | none => s

/-- Bands that are due close, and stripes that are due issue their parity units. -/
def tidy : Nat → State → State
  | 0, s => s
  | k + 1, s =>
    let s := (s.sw.bands.filter fun b => decide (b.st = 1) && b.members.any fun m => decide ((s.block m).state = 1) && s.blockFull m).foldl
      (fun t b => t.closeBand b) s
    tidy k (s.wp.stripes.foldl (fun t q => t.parityUnit q) s)

/-- Places units of a kind and group while they come out full, or once more, partly filled. -/
def pump (kind group : Nat) (short : Bool) : Nat → State → State
  | 0, s => s
  | k + 1, s =>
    match s.placeOne kind group short with
    | some t => if t.wp.nextUnit = s.wp.nextUnit then t else pump kind group short k (tidy 3 t)
    | none => s

/-- What a kind and group builds is placed as far as it goes. -/
def State.build (s : State) (kind group : Nat) (short : Bool) : State :=
  pump kind group short ((s.wp.building.get [] (buildKey kind group)).length + 2) s

/-! ### Taking rows (R189, R190, R234, R245) -/

/-- HOST crates of a pool exceed 75 % of it. -/
def State.hostHeavy (s : State) (pool : Nat) : Bool :=
  decide (3 * poolCrates pool < 4 * (s.cr.desc.filter fun e => decide (e.2.state = 1) && decide (e.2.kind = 0)
    && decide (cratePool e.1 = pool)).length)

/-- A unit under way holds a row older than every row not yet taken, of a pool that is over 75 % full. -/
def State.oldHeld (s : State) (group : Nat) : Bool :=
  (s.wp.building.get [] (buildKey 0 group)).any fun u =>
    (s.led.cix.all fun r => decide (r.st ≠ 0) || decide (u.stamp < r.stamp)) && s.hostHeavy (cratePool u.crate)

/-- A Flush that waits covers a row of the unit under way (R154, R234), an IU begun in a block and not yet finished
among them. -/
def State.flushHeld (s : State) (group : Nat) : Bool :=
  let key := buildKey 0 group
  let mine := s.wp.building.get [] key ++ (match s.wp.carry.get none key with
    | some (_, u) => [u]
    | none => [])
  s.host.cmds.any fun c => decide (c.kind = .flush) && decide (c.stage = .accepted)
    && c.covers.any fun e => mine.any fun u => decide (e.1 = u.nsid) && decide (e.2.1 = u.iu)

/-- What a write group builds from its rows is issued while its units are full; a partly filled one is issued with
pads where a Flush waits for it, or where it holds the oldest row of a pool that is over 75 % full (R234). -/
def State.buildHost (s : State) (group : Nat) : State :=
  let s := s.build 0 group false
  if s.flushHeld group || s.oldHeld group then s.build 0 group true else s

/-- A row's IU as the write path takes it: the units the row covers, and what its fills are. -/
def State.takeIu (s : State) (r : CixRow) : State :=
  let n := iuUnits (s.ns r.nsid).iu
  let miss := (List.range n).filter fun k => !bit r.units k
  let u : UnitIu :=
    { nsid := r.nsid, iu := r.iu, stamp := r.stamp, crate := r.crate, source := 0
      data := (List.range n).map fun k => if bit r.units k then s.crateUnit r.crate k else 0
      uncMask := if r.priorUnc then (miss.map fun k => 2 ^ k).sum else 0
      pos := 0, failedOn := [], sectors := popcount 128 r.acc, keys := [], enc := false
      fillMask := (miss.map fun k => 2 ^ k).sum, pitch := r.pitch }
  let read := !r.priorUnc && isMedia r.prior && decide (miss ≠ [])
  if read && miss.any (fun k => !s.readable (s.cwPlus r.prior k)) then s.deferIu r.nsid r.iu r.crate r.stamp 1
  else
  let s := if read then
      let a := s.askCrates { cls := 5, count := 1, pool := cratePool r.crate, kind := 1, owner := 3, otag := 0, who := fillWho r.crate }
      let s := match a.1 with
        | some l => a.2.mCr fun c => { c with grants := c.grants ++ [(5, fillWho r.crate, l)] }
        | none => a.2
      miss.foldl (fun t k => (t.mWp fun w => { w with fills := w.fills ++ [(r.crate, r.stamp, k)] }).addRead
        (.fill r.crate r.stamp) 2 r.nsid r.iu k (t.cwPlus r.prior k)) s
    else s
  let key := buildKey 0 (s.group r.nsid)
  s.mWp fun w => { w with building := w.building.set [] key (w.building.get [] key ++ [u])
                          buildFrom := w.buildFrom.set 0 key (if w.buildFrom.get 0 key = 0 then s.mono else w.buildFrom.get 0 key) }

/-- The oldest RESIDENT row of a write group is TAKEN (R189): a poisoned crate ends in a deferred error of
cause 2, and one whose data does not correct in one of cause 3 (R245); otherwise its IU joins the unit being built, which is issued once it is full, or partly filled where R234 asks for it. -/
def execRowTake (group : Nat) (s : State) : Host.Outcome State Fault Refusal :=
  .next <|
    match s.led.takeq.get [] group with
    | [] => s
    | row :: _ =>
      match s.cixAt row with
      | none => s
      | some r =>
        if r.st ≠ 0 ∨ 6 ≤ s.dst ∨ s.por.fills.any (fun f => decide (f.1 = r.crate)) then s
        else
          let s := ((s.untake row).mRow row fun r => { r with st := 1 }).takeRef r.crate
          if (s.crate r.crate).poison then s.deferIu r.nsid r.iu r.crate r.stamp 2
          else if s.cr.eccBad.get false r.crate then s.deferIu r.nsid r.iu r.crate r.stamp 3
          else
            (s.takeIu r).buildHost (s.group r.nsid)

/-- PAD_WAIT passes (R234): what the group builds is issued partly filled, with pads. -/
def execPadWaitExpiry (group : Nat) (s : State) : Host.Outcome State Fault Refusal :=
  .next ([0, 1, 2].foldl (fun t k => t.build k (group % 4) true) s)

/-- STRIPE_WAIT passes (R237): a stripe with a place filled and one unfilled closes short. -/
def State.closeShort (s : State) (q : Stripe) : State :=
  let l := s.freePlaces q
  if q.parityIssued ∨ q.filled = [] ∨ l = [] then s
  else
    tidy 3 ((s.mStripe q.serial fun q => { q with released := q.released ++ l }).count
      R.WPATH.SHORT_STRIPE_COUNT)

/-- STRIPE_WAIT of a stripe passes. -/
def execStripeWaitExpiry (serial : Nat) (s : State) : Host.Outcome State Fault Refusal :=
  .next <|
    match s.wp.stripes.find? fun q => decide (q.serial = serial) with
    | some q => s.closeShort q
    | none => s

/-! ### The end of a program (R32, R242 to R246, R344, R347) -/

/-- FLAGS of a codeword: its own bits with the mode and the code of the mode (R306). -/
def State.cwFlags (s : State) (own mode : Nat) : Nat :=
  own + mode * 0x100 + (if bit (s.rd R.DECODE.CW_CFG_CODE) mode then 0x400 else 0)

/-- The codewords of an IU that fall inside a unit, by media address (R307). -/
def State.iuCws (s : State) (p : ProgUnit) (width : Nat) (u : UnitIu) : List (Nat × Cw) :=
  ((List.range (s.lenOf u)).filter fun k => decide (p.start ≤ u.pos + k) && decide (u.pos + k < p.start + p.cws)).map fun k =>
    (s.cwAddr p.block (u.pos + k),
     { stamp := u.stamp, nsid := u.nsid, iu := u.iu, unit := k
       flags := s.cwFlags ((if bit u.uncMask k then 2 else 0) + (if bit u.fillMask k then 0x40 else 0)
         + (if u.copy = 0 then 0 else 0x80)) p.mode
       serial := p.serial % 2 ^ 48, pos := p.place, width := width, data := u.data.getD k 0, key := u.keys.getD k 0 })

/-- The codewords a program unit leaves on media: its IUs', pads, or the codewords of a parity or summary
unit, whose STAMP is the highest it covers (R307). -/
def State.unitMedia (s : State) (p : ProgUnit) : List (Nat × Cw) :=
  let q := s.wp.stripes.find? fun q => decide (q.serial = p.serial)
  let width := match q with
    | some q => q.members.length
    | none => 0
  let all := List.range p.cws
  let plain := fun (own stamp iu : Nat) (k : Nat) => (s.cwAddr p.block (p.start + k),
    ({ stamp := stamp, nsid := 0, iu := iu, unit := 0, flags := s.cwFlags own p.mode, serial := p.serial % 2 ^ 48
       pos := p.place, width := width, data := 0, key := 0 } : Cw))
  if p.kind = 4 then
    let st := (s.sw.blocks.map fun e => if e.2.band = (s.block p.block).band ∧ e.2.state ≠ 0 then
      (e.2.summary.map fun r => r.2.2.1).foldl max 0 else 0).foldl max 0
    all.map (plain 8 st p.members)
  else if p.kind = 5 then
    all.map (plain 4 (((s.block p.block).summary.map fun r => r.2.2.1).foldl max 0) (2 ^ 38 - 1))
  else
    let l := p.ius.flatMap fun u => s.iuCws p width u
    l ++ ((all.filter fun k => !(l.any fun e => decide (e.1 = s.cwAddr p.block (p.start + k)))).map (plain 1 0 (2 ^ 38 - 1)))

/-- A read leaves, with the references a rebuild held (R267). -/
def State.dropRead (s : State) (r : MRead) : State :=
  let s := s.mSt fun t => { t with reads := t.reads.filter fun x => decide (x.id ≠ r.id) }
  r.refs.foldl (fun t n => t.dropRef n) s

/-- The reads a test names are given up, with the rebuilds made for them. -/
def State.dropWhere (s : State) (q : MRead → Bool) : State :=
  let l := s.st.reads.filter q
  let kids := s.st.reads.filter fun r => l.any fun x => decide (r.src = .rebuild x.id)
  (kids ++ l).foldl (fun t r => t.dropRead r) s

/-- A copy slot is done with: it goes, and its victim has one copy fewer outstanding. -/
def State.endCopy (s : State) (slot : Nat) : State :=
  match s.sw.copies.find? fun c => decide (c.slot = slot) with
  | none => s
  | some c =>
    let s := s.mSw fun w => { w with
      copies := w.copies.filter fun d => decide (d.slot ≠ slot)
      victims := w.victims.map fun v => if v.band = c.band then { v with out := v.out - 1 } else v }
    (s.dropWhere fun r => decide (r.src = .sweep slot)).freeGrants 5 slot

/-- Relocated bytes of a RELOC victim are charged to the pitch of the source block (R338, R351). -/
def State.chargeReloc (s : State) (source bytes : Nat) : State :=
  let p := (s.block (aBlockKey source)).pitch
  s.mPit fun x => { x with table := x.table.set {} p { x.table.get {} p with sweepBytes := (x.table.get {} p).sweepBytes + bytes } }

/-- A copy has good status on its target (R344): SWEEP_COPY is applied or discarded, and its units are
counted under the victim's kind. -/
def State.copyDone (s : State) (u : UnitIu) (addr : Nat) : State :=
  let r := s.sweepCopy u.nsid u.iu u.source addr
  let n := s.lenOf u
  let kind := ((s.sw.copies.find? fun c => decide (c.slot = u.copy)).bind fun c =>
    (s.sw.victims.find? fun v => decide (v.band = c.band)).map fun v => v.kind).getD 0
  let s := r.2
  let s := if r.1 = false then s
    else if kind = 0 then s.count R.SWEEP.FOLD_UNITS_COUNT 0 0 n
    else if kind = 3 then s.count R.SWEEP.WEAR_UNITS_COUNT 0 0 n
    else if 4 ≤ kind then s.count R.SWEEP.RESTRIPE_UNITS_COUNT 0 0 n
    else
      let s := s.count R.SWEEP.RELOC_UNITS_COUNT 0 0 n
      if kind = 1 then s.chargeReloc u.source (n * 4096) else s
  s.endCopy u.copy

/-- Every unit of an IU has good status (R32, R344): it settles, or its copy applies. From CLOSING on
nothing does (R101, R246). -/
def State.iuDone (s : State) (blk : Nat) (u : UnitIu) : State :=
  if 6 ≤ s.dst then s
  else if u.copy = 0 then s.settleIu u.nsid u.iu u.crate u.stamp (s.cwAddr blk u.pos)
  else s.copyDone u (s.cwAddr blk u.pos)

/-- Whether an IU still stands in a program unit or waits to be finished. -/
def State.inFlight (s : State) (u : UnitIu) : Bool :=
  let same := fun (v : UnitIu) => decide (v.nsid = u.nsid) && decide (v.iu = u.iu) && decide (v.stamp = u.stamp)
    && decide (v.copy = u.copy)
  (s.wp.units.any fun p => p.ius.any same) || s.wp.carry.any fun e => match e.2 with
    | some (_, v) => same v
    | none => false

/-- A program unit has good status. -/
def State.unitGood (s : State) (p : ProgUnit) : State :=
  let l := s.unitMedia p
  let s := s.mNv fun n => { n with
    media := l.foldl (fun m e => m.set none e.1 (some e.2)) n.media
    headers := if p.kind = 5 then n.headers.set 0 p.block (s.erases p.block) else n.headers }
  let s := s.mWp fun w => { w with units := w.units.filter fun q => decide (q.id ≠ p.id) }
  let s := s.mStripe p.serial fun q => { q with busy := q.busy - 1 }
  let s := if p.kind = 4 then
      match s.wp.stripes.find? fun q => decide (q.serial = p.serial) with
      | some q => s.endStripe q
      | none => s
    else s
  let s := p.ius.foldl (fun t u => if t.inFlight u then t else t.iuDone p.block u) s
  if 6 ≤ s.dst then s else (tidy 3 s).followFloor

/-- A victim is abandoned (R347): its blocks and its band are CLOSED again and its copies go. -/
def State.abandon (s : State) (v : Victim) (nsid iu : Nat) : State :=
  let slots := (s.sw.copies.filter fun c => decide (c.band = v.band)).map fun c => c.slot
  let s := slots.foldl (fun t n => t.endCopy n) s
  let s := s.mWp fun w => { w with
    building := w.building.map fun e => (e.1, e.2.filter fun u => decide (u.copy = 0) || !slots.contains u.copy)
    carry := w.carry.map fun e => (e.1, match e.2 with
      | some (b, u) => if u.copy ≠ 0 ∧ slots.contains u.copy then none else some (b, u)
      | none => none)
    units := w.units.map fun p => { p with ius := p.ius.filter fun u => decide (u.copy = 0) || !slots.contains u.copy } }
  let s := (s.mBand v.band fun b => { b with st := 2 }).mSw fun w => { w with
    victims := w.victims.filter fun x => decide (x.band ≠ v.band)
    relocSeen := if v.hard ∨ v.kind = 1 then s.mono else w.relocSeen
    blocks := w.blocks.map fun e => (e.1, if e.2.band = v.band ∧ e.2.state = 3 then { e.2 with state := 2 } else e.2) }
  (s.count R.SWEEP.COPY_FAIL_ABANDON).record 2 0x109 [v.band, nsid, iu, iu / 2 ^ 32]

/-- An IU of a failed unit (R243, R244, R347): redone off the die that failed, or at its fourth failure a
deferred error of cause 1, or for a copy the end of its victim. -/
def State.redoIu (s : State) (key die : Nat) (u : UnitIu) : State :=
  let s := s.recall u
  let u := { u with failedOn := die :: u.failedOn, enc := decide (u.copy ≠ 0) }
  if u.failedOn.length < 4 then (s.rebuildFirst key [u]).count R.WPATH.REDO_COUNT
  else if u.copy = 0 then s.deferIu u.nsid u.iu u.crate u.stamp 1
  else
    match (s.sw.copies.find? fun c => decide (c.slot = u.copy)).bind fun c =>
        s.sw.victims.find? fun v => decide (v.band = c.band) with
    | some v => s.abandon v u.nsid u.iu
    | none => s

/-- The band of a retired OPEN block takes another block of its die, and its record names it (R336, R376). -/
def State.replaceOpen (s : State) (k : Nat) : State :=
  match s.sw.bands.find? fun b => decide (b.st = 1) && b.members.contains k with
  | none => s
  | some b =>
    match s.pickBlock (k / 8192) (bandPool b.kind) (decide (b.kind = 2)) with
    | none => s
    | some j =>
      let s := (s.mBand b.num fun b => { b with members := b.members ++ [j] }).mBlock j fun x =>
        { x with band := b.num, state := 1, mode := b.mode, next := 0 }
      s.journal 4 ([b.num, b.kind, b.mode, b.group, b.set] ++ b.members ++ [j])

/-- A program unit has failed (R243, R347); `retire` is false where the die itself is lost (R244) or the
failure was injected (R359). In CLOSING nothing is redone. -/
def State.unitFail (s : State) (p : ProgUnit) (retire : Bool) : State :=
  let key := buildKey (match s.wp.stripes.find? fun q => decide (q.serial = p.serial) with
    | some q => q.kind
    | none => 0) (match s.wp.stripes.find? fun q => decide (q.serial = p.serial) with
    | some q => q.group
    | none => 0)
  let s := s.count R.WPATH.PROG_FAIL_COUNT
  let s := if p.ius.any fun u => decide (u.copy ≠ 0) then s.count R.SWEEP.COPY_FAIL_COUNT else s
  let s := s.mWp fun w => { w with units := w.units.filter fun q => decide (q.id ≠ p.id) }
  let s := if retire && decide (s.dst < 6) then (s.retireBlock p.block 1).replaceOpen p.block else s
  if 6 ≤ s.dst then s
  else
    let s := s.mStripe p.serial fun q => { q with
      busy := q.busy - 1
      filled := q.filled.filter fun i => decide (i ≠ p.place)
      released := if p.kind = 4 then q.released else q.released ++ [p.place]
      parityIssued := q.parityIssued && decide (p.kind ≠ 4)
      parityFails := q.parityFails + (if p.kind = 4 then 1 else 0) }
    let s := match s.wp.stripes.find? fun q => decide (q.serial = p.serial) with
      | some q =>
        if 4 ≤ q.parityFails then
          (s.endStripe q).mSw fun w => { w with noParity := (s.block p.block).band :: w.noParity }
        else s
      | none => s
    let s := p.ius.reverse.foldl (fun t u => t.redoIu key (p.block / 8192) u) s
    tidy 3 (if key / 4 = 0 then s.buildHost (key % 4) else s.build (key / 4) (key % 4) false)

end Sys2Proof.Machine
end

