-- ==== Sys2Proof/Machine/DataPath.lean ====
section
/-! DEFINITION. The data of commands: what a read returns from each of its units, what makes a write
complete, and how each ends (R30 to R35, R139, R168, R179, R180, R187, R227 to R229, R403, R425). -/

namespace Sys2Proof.Machine

open Sys2Proof

/-! ### Media keys (R403 to R410) -/

/-- The number that stands for the key a namespace's slot holds now: 0 for none, else SEQ + 1. -/
def State.keyNo (s : State) (nsid : Nat) : Nat :=
  let k := s.ciph.media.get {} (nsid - 1)
  if k.loaded then k.seq + 1 else 0

/-- What deciphering a codeword under its namespace's present key yields (R403). -/
def State.decipher (s : State) (nsid : Nat) (c : Cw) : Nat :=
  if c.key = s.keyNo nsid then c.data else Config.garble c.data c.key (s.keyNo nsid) % 2 ^ 32768

/-- A media slot without a usable key has been needed (R410): SLOT_INFO.BAD is set, and a record says whether
its key record is missing, fails its tag, or could not be reloaded. -/
def State.slotBad (s : State) (slot : Nat) : State :=
  let why := match s.nv.keyRecs.get none slot with
    | none => 1
    | some (_, _, _, ok) => if ok then 3 else 2
  (s.mCiph fun c => { c with media := c.media.set {} slot { c.media.get {} slot with bad := true } }).record
    4 0x180 [slot, why, 0, 0]

/-! ### Units and sectors of a command -/

/-- The mask of the units of an IU that a block range touches. -/
def Ns.unitMask (n : Ns) (slba nlb iu : Nat) : Nat :=
  let u := n.unitRange slba nlb
  ((List.range (iuUnits n.iu)).map fun k =>
    if u.1 ≤ iu * iuUnits n.iu + k ∧ iu * iuUnits n.iu + k ≤ u.2 then 2 ^ k else 0).sum

/-- The mask of the 512 B sectors of an IU that a block range covers. -/
def Ns.sectorMask (n : Ns) (slba nlb iu : Nat) : Nat :=
  let a := slba * n.block / 512
  let b := (slba + nlb) * n.block / 512
  ((List.range (iuUnits n.iu * 8)).map fun k =>
    if a ≤ iu * iuUnits n.iu * 8 + k ∧ iu * iuUnits n.iu * 8 + k < b then 2 ^ k else 0).sum

/-- The IUs of a block range, in order. -/
def Ns.iusOf (n : Ns) (slba nlb : Nat) : List Nat :=
  let r := n.iuRange slba nlb
  (List.range (r.2 + 1 - r.1)).map fun i => r.1 + i

/-- The part of a unit's value that a command asks for: the whole unit, or its own 512 B blocks (R168). -/
def Ns.part (n : Ns) (slba nlb unit value : Nat) : Nat :=
  let a := max (slba * n.block) (unit * 4096) - unit * 4096
  let b := min ((slba + nlb) * n.block) ((unit + 1) * 4096) - unit * 4096
  value / 2 ^ (8 * a) % 2 ^ (8 * (b - a))

/-! ### Reads (R30, R31, R179, R180) -/

/-- The units of an IU with their sources, that a mask asks for. -/
def State.sources (s : State) (nsid iu mask : Nat) : List (Nat × UnitSrc) :=
  ((List.range 16).filter fun k => bit mask k).map fun k => (k, s.unitSrc nsid iu k)

/-- One unit of a read is taken from its source: the crate store, zeros, the media, or nowhere. A crate-hit
read holds its reference for the step only (R188); a poisoned crate, or one whose data does not correct, fails it
(R230, R271). Where the media
slot of the namespace is empty a media unit fails (R410). -/
def takeUnit (uid cls nsid iu : Nat) (a : State × IuWork) (e : Nat × UnitSrc) : State × IuWork :=
  match e.2 with
  | .crate n u =>
    if (a.1.crate n).poison || a.1.cr.eccBad.get false n then (a.1, { a.2 with failed := true })
    else (a.1, { a.2 with data := a.2.data ++ [(e.1, a.1.crateUnit n u)] })
  | .zero => (a.1, { a.2 with data := a.2.data ++ [(e.1, 0)] })
  | .unc => (a.1, { a.2 with failed := true })
  | .media addr u =>
    if a.1.readable (a.1.cwPlus addr u) = false then (a.1, { a.2 with failed := true })
    else if a.1.keyNo nsid = 0 then (a.1.slotBad (nsid - 1), { a.2 with failed := true })
    else (a.1.addRead (.cmd uid) cls nsid iu u (a.1.cwPlus addr u), { a.2 with media := some addr })

/-- An IU of a read. -/
def takeIuWork (c : Cmd) (a : State × List IuWork) (iu : Nat) : State × List IuWork :=
  let n := a.1.ns c.nsid
  let mask := n.unitMask c.slba c.nlb iu
  let s := a.1.lookIu c.nsid iu
  let r := (s.sources c.nsid iu mask).foldl (takeUnit c.uid c.cls c.nsid iu)
    (s, { iu := iu, mask := mask, media := none, data := [], failed := false })
  (r.1, a.2 ++ [r.2])

/-- Whether an IU of a read has all it needs, or has failed. -/
def IuWork.ended (w : IuWork) : Bool := w.failed || decide (w.data.length = popcount 16 w.mask)

/-- The values a read returns, unit by unit in order. -/
def Cmd.values (c : Cmd) (n : Ns) : List Nat :=
  (c.work.map fun w => ((List.range 16).filter fun k => bit w.mask k).map fun k =>
    let v := match w.data.find? fun d => decide (d.1 = k) with
      | some d => d.2
      | none => 0
    n.part c.slba c.nlb (w.iu * iuUnits n.iu + k) v).flatten

/-- The reads a command still has under way are given up. -/
def State.dropReads (s : State) (uid : Nat) : State :=
  let mine := fun (r : MRead) => match r.src with
    | .cmd u => decide (u = uid)
    | .merge u => decide (u = uid)
    | _ => false
  (s.dropWhere mine).mPor fun p => { p with egress := p.egress.filter fun e => decide (e.uid ≠ uid) }

/-- A Read, Compare or Verify ends once every IU has ended (R50, R144): with the data, with Unrecovered Read
Error, or with Compare Failure. -/
def State.readStep (s : State) (uid : Nat) : State :=
  match s.cmdOf uid with
  | none => s
  | some c =>
    if c.work.any fun w => !w.ended then s
    else if c.work.any fun w => w.failed then (s.dropReads uid).complete c 2 0x81
    else
      let v := c.values (s.ns c.nsid)
      match c.kind with
      | .compare => if v = c.payload then s.complete c 0 0 else s.complete c 2 0x85 true
      | .verify => s.complete c 0 0
      | _ => s.complete c 0 0 false 0 v

/-- An accepted Read, Compare or Verify starts: its units are looked up and taken from their sources. -/
def State.startRead (s : State) (uid : Nat) : State :=
  match s.cmdOf uid with
  | none => s
  | some c =>
    let r := ((s.ns c.nsid).iusOf c.slba c.nlb).foldl (takeIuWork c) (s, [])
    (r.1.mCmd uid fun c => { c with work := r.2, started := true }).readStep uid

/-- A unit of a read reaches its command. -/
def State.unitArrived (s : State) (uid iu unit value : Nat) : State :=
  (s.mCmd uid fun c => { c with work := c.work.map fun w =>
    if w.iu = iu then { w with data := w.data ++ [(unit, value)] } else w }).readStep uid

/-- A unit of a read fails: its IU ends without data (R318). -/
def State.unitFailed (s : State) (uid iu : Nat) : State :=
  let other := fun (r : MRead) => match r.src with
    | .cmd u => decide (u = uid) && decide (r.iu = iu)
    | _ => false
  ((s.dropWhere other).mCmd uid fun c => { c with work := c.work.map fun w => if w.iu = iu then { w with failed := true } else w }).readStep uid

/-! ### Writes (R34, R35, R99, R187, R227 to R229) -/

/-- A write ends without an INSERT (R99, R228, R163): its fetched and unfetched sectors are withdrawn and its
crates freed. -/
def State.withdrawWrite (s : State) (c : Cmd) : State :=
  let n := c.sectors
  let s := if n = 0 then s else
    ((s.move 183 (-((c.sectors - c.resident : Nat) : Int))).move 182 n).send 184 (-(c.resident : Int))
  let s := s.mCr fun r => { r with waitq := r.waitq.filter fun q => !(decide (q.cls = 3 ∨ q.cls = 4) && decide (q.who = c.uid)) }
  let s := c.crates.foldl (fun t k => t.ownerFree k) s
  s.mCmd c.uid fun c => { c with crates := [], sectors := 0, resident := 0 }

/-- A command a Flush covers is inserted: the Flush waits for its sectors (R154). -/
def State.flushInsert (s : State) (uid nsid iu acc : Nat) : State :=
  s.mHost fun h => { h with cmds := h.cmds.map fun c =>
    if 0 < acc ∧ c.covers.contains (0, uid, 1) then { c with covers := c.covers ++ [(nsid, iu, acc)] } else c }

/-- INSERTs of a command, one per IU in LBA order (R34, R227), each with the crate granted for it; a Write
Zeroes or a Write sets units, and only a Write accepts sectors (R98, R187). -/
def insertAll (c : Cmd) (zeroes : Bool) : List Nat → List Nat → State → State
  | iu :: t, k :: ks, s =>
    let n := s.ns c.nsid
    let cover := n.sectorMask c.slba c.nlb iu
    insertAll c zeroes t ks
      ((s.insertIu c.nsid iu (n.unitMask c.slba c.nlb iu) cover (if zeroes then 0 else cover) k (c.pitch.getD 1024)).flushInsert
        c.uid c.nsid iu (if zeroes then 0 else cover))
  | _, _, s => s

/-- A Write completes once every sector is resident and its merges are done (R34, R35, R168). -/
def State.writeStep (s : State) (uid : Nat) : State :=
  match s.cmdOf uid with
  | none => s
  | some c =>
    if c.kind ≠ .write ∨ c.stage ≠ .accepted ∨ c.resident < c.sectors ∨ c.merge ≠ [] ∨ c.crates = [] then s
    else
      let s := insertAll c false ((s.ns c.nsid).iusOf c.slba c.nlb) c.crates s
      (s.mCmd uid fun c => { c with crates := [], sectors := 0, resident := 0 }).complete c 0 0

/-- Whether a block range covers an IU wholly (R170). -/
def Ns.whole (n : Ns) (slba nlb iu : Nat) : Bool := decide (n.sectorMask slba nlb iu = 2 ^ (iuUnits n.iu * 8) - 1)

/-- The IUs a command has HOST crates for, in the order of its crates: every IU of a Write, the partly covered
ones of a Write Zeroes. -/
def State.crateIus (s : State) (c : Cmd) : List Nat :=
  let n := s.ns c.nsid
  (n.iusOf c.slba c.nlb).filter fun k => decide (c.kind ≠ .writeZeroes) || !n.whole c.slba c.nlb k

/-- A Write Zeroes ends once its zero units are written and its merges are done (R170, R427): the partly covered
IUs are inserted, the whole ones deallocated. -/
def State.zeroesStep (s : State) (uid : Nat) : State :=
  match s.cmdOf uid with
  | none => s
  | some c =>
    if c.kind ≠ .writeZeroes ∨ c.stage ≠ .accepted ∨ c.started = false ∨ c.merge ≠ []
        ∨ s.por.fills.any (fun f => c.crates.contains f.1) then s
    else
      let n := s.ns c.nsid
      let s := insertAll c true (s.crateIus c) c.crates s
      let s := ((n.iusOf c.slba c.nlb).filter fun k => n.whole c.slba c.nlb k).foldl (fun t k => t.deallocIu c.nsid k) s
      (s.mCmd uid fun c => { c with crates := [] }).complete c 0 0

/-- A merge unit arrives (R168, R229): the sectors the command does not write are filled from it. -/
def State.mergeUnit (s : State) (uid unit value : Nat) : State :=
  match s.cmdOf uid with
  | none => s
  | some c =>
    let n := s.ns c.nsid
    let per := iuUnits n.iu
    let crate := c.crates.getD ((s.crateIus c).idxOf (unit / per)) 0
    let a := c.slba * n.block / 512
    let b := (c.slba + c.nlb) * n.block / 512
    let s := (List.range 8).foldl (fun (t : State) k =>
      if a ≤ unit * 8 + k ∧ unit * 8 + k < b then t
      else t.crateWrite (crateBase crate + unit % per * 4096 + k * 512)
        (bytesOf (value / 2 ^ (4096 * k)) 512)) s
    let s := s.mCmd uid fun c => { c with merge := c.merge.filter fun m => decide (m ≠ unit) }
    (s.writeStep uid).zeroesStep uid

/-- A merge fails (R229): the write ends with Unrecovered Read Error and no LBA changes. -/
def State.mergeFailed (s : State) (uid : Nat) : State :=
  match s.cmdOf uid with
  | none => s
  | some c => (((s.dropReads uid).withdrawWrite c).complete c 2 0x81)

/-- The merge reads of a partial write (R168, R229): head and tail units the range does not fill. -/
def State.startMerge (s : State) (uid : Nat) : State :=
  match s.cmdOf uid with
  | none => s
  | some c =>
    let n := s.ns c.nsid
    let per := iuUnits n.iu
    let u := n.unitRange c.slba c.nlb
    let need := (if c.slba * n.block % 4096 = 0 then [] else [u.1])
      ++ (if (c.slba + c.nlb) * n.block % 4096 = 0 then [] else [u.2])
    let need := need.eraseDups
    let s := s.mCmd uid fun c => { c with merge := need }
    need.foldl (fun t k =>
      let t := t.lookIu c.nsid (k / per)
      match t.unitSrc c.nsid (k / per) (k % per) with
      | .crate m v => if (t.crate m).poison || t.cr.eccBad.get false m then t.mergeFailed uid else t.mergeUnit uid k (t.crateUnit m v)
      | .zero => t.mergeUnit uid k 0
      | .unc => t.mergeFailed uid
      | .media addr v =>
        if t.readable (t.cwPlus addr v) = false then t.mergeFailed uid
        else if t.keyNo c.nsid = 0 then (t.slotBad (c.nsid - 1)).mergeFailed uid
        else t.addRead (.merge uid) c.cls c.nsid (k / per) v (t.cwPlus addr v)) s

end Sys2Proof.Machine
end

