-- ==== Sys2Proof/Machine/Cluster.lean ====
section
/-! DEFINITION. The decode clusters' soft queues and the patrol scrub's cycle, as reads and commands use them
(R311 to R322). -/

namespace Sys2Proof.Machine

open Sys2Proof

/-! ### The soft queue (R313, R315) -/

/-- The page INDEX of a decode cluster. -/
def decodePage (k : Nat) : Nat := pageOf R.DECODE.CW_CFG_CODE k

/-- The decode cluster of a read. -/
def MRead.cluster (r : MRead) : Nat := aCh r.addr / 8

/-- A read. -/
def State.readOf (s : State) (id : Nat) : Option MRead := s.st.reads.find? fun r => decide (r.id = id)

/-- The state with a read changed. -/
def State.mRead (s : State) (id : Nat) (g : MRead → MRead) : State :=
  s.mSt fun t => { t with reads := t.reads.map fun r => if r.id = id then g r else r }

/-- The command a read serves. -/
def ReadFor.uid : ReadFor → Option Nat
  | .cmd u => some u
  | .merge u => some u
  | _ => none

/-- The rank of a read in the soft queue (R313): a rebuild's reads stand as the read they serve. -/
def State.softRank (s : State) (r : MRead) : Nat :=
  if r.cls = 0 then 0
  else
    let src := match r.src with
      | .rebuild p => match s.readOf p with
        | some q => q.src
        | none => r.src
      | _ => r.src
    match src with
    | .sweep _ => 2
    | .scrub _ => 2
    | _ => 1

/-- The deadline a read is served under: a read of no command has none. -/
def State.softDeadline (s : State) (r : MRead) : Nat :=
  match r.src.uid.bind s.cmdOf with
  | some c => c.deadline.getD (2 ^ 64)
  | none => 2 ^ 64

/-- The soft queue of a cluster. -/
def State.soft (s : State) (k : Nat) : List SoftJob := s.integ.soft.get [] k

/-- The state with a soft queue changed. -/
def State.mSoft (s : State) (k : Nat) (g : List SoftJob → List SoftJob) : State :=
  s.mInteg fun i => { i with soft := i.soft.set [] k (g (i.soft.get [] k)) }

/-- A soft queue with one job changed. -/
def markJob (id : Nat) (g : SoftJob → SoftJob) (l : List SoftJob) : List SoftJob :=
  l.map fun j => if j.read = id then g j else j

/-- The job a free soft decoder takes (R313): URGENT codewords in arrival order, then a preempted job, then other
host codewords by deadline, then the rest in arrival order. -/
def nextJob (l : List SoftJob) : Option SoftJob :=
  let w := l.filter fun j => !j.running
  (w.find? fun j => decide (j.rank = 0)).or ((w.find? fun j => j.preempted).or
    ((pickMin (fun j => j.deadline) (w.filter fun j => decide (j.rank = 1))).or (w.find? fun j => decide (j.rank = 2))))

/-- The two soft decoders of a cluster take work while they are free. -/
def runSoft (k : Nat) : Nat → State → State
  | 0, s => s
  | n + 1, s =>
    if 2 ≤ ((s.soft k).filter fun j => j.running).length then s
    else match nextJob (s.soft k) with
      | none => s
      | some j => runSoft k n (s.mSoft k (markJob j.read fun j => { j with running := true, preempted := false }))

/-- An URGENT codeword that finds both decoders busy preempts a job of another kind (R313). -/
def State.preempt (s : State) (k : Nat) : State :=
  let l := s.soft k
  if 2 ≤ (l.filter fun j => j.running).length ∧ l.any (fun j => !j.running && decide (j.rank = 0)) then
    match l.find? fun j => j.running && decide (j.rank ≠ 0) with
    | some j =>
      (s.mSoft k (markJob j.read fun j => { j with running := false, preempted := true })).count R.DECODE.SOFT_OVERFLOW_PREEMPT k
    | none => s
  else s

/-- Jobs of reads that have been given up leave the queue. -/
def State.pruneSoft (s : State) (k : Nat) : State :=
  s.mSoft k fun l => l.filter fun j => (s.readOf j.read).isSome

/-- A codeword enters the soft queue, where it may: 64 entries, 8 of them kept for URGENT. -/
def State.enterSoft (s : State) (r : MRead) (full : Bool) : Option State :=
  let k := r.cluster
  let s := s.pruneSoft k
  let l := s.soft k
  let rank := s.softRank r
  if 64 ≤ l.length ∨ (rank ≠ 0 ∧ 56 ≤ (l.filter fun j => decide (j.rank ≠ 0)).length) then none
  else
    let j : SoftJob := { read := r.id, rank := rank, deadline := s.softDeadline r, running := false, preempted := false, full := full }
    some (runSoft k 2 (((s.mRead r.id fun x => { x with st := 5 }).mSoft k fun l => l ++ [j]).preempt k))

/-- Codewords in soft decoding that found no entry take one, oldest first (R315). -/
def State.seatSoft (s : State) (k : Nat) : State :=
  (s.st.reads.filter fun r => decide (r.cluster = k) && decide (r.st = 5)).foldl (fun t r =>
    if (t.soft k).any fun j => decide (j.read = r.id) then t else (t.enterSoft r (decide (9 ≤ r.step))).getD t) s

/-- A codeword leaves the soft queue. -/
def State.leaveSoft (s : State) (k id : Nat) : State :=
  runSoft k 2 (((s.mSoft k fun l => l.filter fun j => decide (j.read ≠ id)).pruneSoft k).seatSoft k)

/-- The soft job of a read. -/
def State.jobOf (s : State) (r : MRead) : Option SoftJob := (s.soft r.cluster).find? fun j => decide (j.read = r.id)

/-- A codeword of steps 9 to 11 that has arrived waits for its full soft decode (R316). -/
def State.askFull (s : State) (r : MRead) : State := (s.enterSoft r true).getD (s.mRead r.id fun x => { x with st := 5 })

/-! ### Patrol scrub (R320 to R323) -/

/-- Time in SERVICE and QUIESCE is added to the scrub cycle (R320). -/
def State.scrubTime (s : State) : State :=
  let d := if s.dst = 4 ∨ s.dst = 5 then s.mono - s.integ.scrubFrom else 0
  s.mInteg fun i => { i with scrubCounted := i.scrubCounted + d, scrubFrom := s.mono }

/-- The length of a cycle in ticks. -/
def State.cycleTicks (s : State) : Nat := s.rd R.SCRUB.SCRUB_CFG_CYCLE_DAYS * 86400 * 100000000

/-- The codewords a walker has still to read. -/
def State.walkLeft (s : State) (ch : Nat) : List Nat :=
  ((s.integ.walkers.get [] ch).map fun b =>
    (s.nv.media.map Prod.fst).filter fun a => decide (aBlockKey a = b) && s.addrOn a
      && (decide (s.integ.walkPos.get 0 ch ≤ a) || decide (aBlockKey (s.integ.walkPos.get 0 ch) ≠ b))).flatten

/-- The codewords of the cycle still to be read, with those being read. -/
def State.scrubLeft (s : State) : Nat :=
  ((List.range 96).map fun c => (s.walkLeft c).length).sum
    + (s.st.reads.filter fun r => match r.src with
      | .scrub _ => true
      | _ => false).length

/-- A walker's next `n` codewords are asked for. -/
def State.walk (s : State) (ch n : Nat) : State :=
  let l := s.walkLeft ch
  let s := (l.take n).foldl (fun t a => match t.cwAt a with
    | some c => t.addRead (.scrub ch) 3 c.nsid c.iu c.unit a
    | none => t) s
  match l.drop n with
  | [] => s.mInteg fun i => { i with walkers := i.walkers.set [] ch [], walkPos := i.walkPos.set 0 ch 0 }
  | a :: _ => s.mInteg fun i => { i with
      walkers := i.walkers.set [] ch ((i.walkers.get [] ch).dropWhile fun b => decide (b ≠ aBlockKey a))
      walkPos := i.walkPos.set 0 ch a }

/-- A cycle begins: its walkers visit every block that holds valid data now (R320). -/
def State.beginCycle (s : State) : State :=
  let l := (s.sw.blocks.filter fun e => decide (0 < e.2.valid)).map Prod.fst
  s.mInteg fun i => { i with
    walkers := ((List.range 96).map fun c => (c, l.filter fun k => decide (k / 131072 = c))).filter fun e => decide (e.2 ≠ [])
    walkPos := [], scrubDone := 0, scrubCounted := 0, scrubFrom := s.mono, catchUp := false }

/-- The end of a cycle: blocks of bands with a WEAK member become candidates of standing WARN (R358). -/
def State.endCycle (s : State) : State :=
  let weak := s.sw.bands.filter fun b => b.members.any fun k => decide ((s.block k).hstate = 2)
  let s := (weak.map fun b => b.members).flatten.foldl (fun t k => t.addCand k 2 false) s
  (s.count R.SCRUB.SCRUB_CYCLE_NUM).beginCycle

/-- A scrub read has ended: a late cycle ends with its last one, and the next begins at once (R321). -/
def State.scrubbed (s : State) : State :=
  let s := s.mInteg fun i => { i with scrubDone := i.scrubDone + 1 }
  if s.integ.catchUp ∧ s.scrubLeft = 0 then s.endCycle else s

/-- A scrub read's outcome other than CLEAN (R322): 0 LOST, 1 RETRY, 2 WARN. An injected one enters no queue
(R573). -/
def State.scrubOutcome (s : State) (r : MRead) (rank : Nat) : State :=
  if r.injected then s
  else
    let s := match rank with
      | 0 => s.count R.SCRUB.OUTCOME2_LOST
      | 1 => s.count R.SCRUB.OUTCOME_RETRY
      | _ => s.count R.SCRUB.OUTCOME_WARN
    s.addCand (aBlockKey r.addr) rank (decide (rank = 0))

end Sys2Proof.Machine
end

