-- ==== Sys2Proof/Machine/Stall.lean ====
section
/-! DEFINITION. The stalls: slots, senses, bursts, the states of a die, timers, and the loss of dies,
channels and stall groups (R76 to R82, R277 to R302). A status poll reports 0 busy, 1 ready with pass, 2 ready
with fail, 3 suspended, 4 a reserved bit or no meaning for the operation (R300). -/

namespace Sys2Proof.Machine

open Sys2Proof

/-! ### Dies -/

/-- A die. -/
def State.die (s : State) (k : Nat) : Die := s.st.dies.get {} k

/-- The state with a die changed. -/
def State.mDie (s : State) (k : Nat) (g : Die → Die) : State :=
  s.mSt fun t => { t with dies := t.dies.set {} k (g (t.dies.get {} k)) }

/-- The page INDEX of a stall. -/
def stallPage (ch : Nat) : Nat := pageOf R.STALL.CH_STATE_STATE ch

/-- The island of a stall. -/
def stallIsland (ch : Nat) : Nat := pageIsland (stallPage ch)

/-- Whether an armed stall point fires on a die with a PARAM (R571). -/
def State.stallFire (s : State) (ch die point param : Nat) : Bool × State :=
  s.fire (stallPage ch) point fun sub p => decide (sub = die) && decide (p = param)

/-- A DIE_ANOMALY record (R300). -/
def State.anomaly (s : State) (ch die row opcode value want : Nat) (inj : Bool := false) : State :=
  s.record (stallIsland ch) 0x201 [die + row * 0x100 + opcode * 0x10000, value, want, 0] inj

/-! ### The ends of reads (R229, R238, R317, R318, R322) -/

/-- A fill's unit arrives (R190). -/
def State.fillArrived (s : State) (crate stamp unit : Nat) (c : Cw) : State :=
  let set := fun (l : List Nat) (v : Nat) =>
    ((List.range (max l.length (unit + 1))).map fun i => if i = unit then v else l.getD i 0)
  let s := s.mWp fun w => { w with
    fills := w.fills.filter fun f => decide (f ≠ (crate, stamp, unit))
    building := w.building.map fun e => (e.1, e.2.map fun u =>
      if u.crate = crate ∧ u.stamp = stamp then { u with data := set u.data c.data, keys := set u.keys c.key } else u) }
  ([0, 1, 2, 3] : List Nat).foldl (fun t g => t.buildHost g) s

/-- A fill fails beyond recovery: a deferred error of cause 1 (R190, R245). -/
def State.fillLost (s : State) (r : MRead) (crate stamp : Nat) : State :=
  let s := s.mWp fun w => { w with
    fills := w.fills.filter fun f => !(decide (f.1 = crate) && decide (f.2.1 = stamp))
    building := w.building.map fun e => (e.1, e.2.filter fun u => !(decide (u.crate = crate) && decide (u.stamp = stamp))) }
  let s := s.dropWhere fun x => decide (x.src = .fill crate stamp)
  (s.freeGrants 5 (fillWho crate)).deferIu r.nsid r.iu crate stamp 1

/-- The kind of the bands a victim's copies go to: folds for host bands, else relocation (R339, R343). -/
def State.targetKind (s : State) (band : Nat) : Nat :=
  match s.bandOf band with
  | some b => if b.kind = 0 then 1 else 2
  | none => 2

/-- A copy has read one unit of its IU; once it has all, the IU is placed (R36, R343). -/
def State.copyRead (s : State) (slot unit : Nat) (c : Cw) : State :=
  let s := s.mSw fun w => { w with copies := w.copies.map fun x => if x.slot = slot then
    { x with left := x.left - 1, data := x.data.set 0 unit c.data, keys := x.keys.set 0 unit c.key
             uncMask := if bit c.flags 1 then setBit x.uncMask unit else x.uncMask
             fillMask := if bit c.flags 6 then setBit x.fillMask unit else x.fillMask } else x }
  match s.sw.copies.find? fun x => decide (x.slot = slot) with
  | none => s
  | some x =>
    if x.left ≠ 0 then s
    else
      let n := iuUnits (s.ns x.nsid).iu
      let u : UnitIu :=
        { nsid := x.nsid, iu := x.iu, stamp := x.stamp, crate := 0, source := x.source
          data := (List.range n).map fun k => x.data.get 0 k, uncMask := x.uncMask, pos := 0, failedOn := [], sectors := 0
          keys := (List.range n).map fun k => x.keys.get 0 k, enc := true, fillMask := x.fillMask, copy := slot
          pitch := (s.block (aBlockKey x.source)).pitch }
      let kind := s.targetKind x.band
      let group := match s.bandOf x.band with
        | some b => b.group
        | none => 0
      let key := buildKey kind group
      let s := s.mWp fun w => { w with building := w.building.set [] key (w.building.get [] key ++ [u])
                                       buildFrom := w.buildFrom.set 0 key (if w.buildFrom.get 0 key = 0 then s.mono else w.buildFrom.get 0 key) }
      s.build kind group false

/-- A unit of a copy is unrecoverable: the copy ends, and the IU keeps its entry (R318, R348). -/
def State.copyLost (s : State) (slot : Nat) : State :=
  s.endCopy slot

/-- A command's or merge's codeword goes on to CIPHER; another's reaches whom it serves (R36, R190). -/
def State.readGood (s : State) (r : MRead) (c : Cw) : State :=
  match r.src with
  | .cmd _ => s.mRead r.id fun x => { x with st := 7, got := some c, arrived := s.mono }
  | .merge _ => s.mRead r.id fun x => { x with st := 7, got := some c, arrived := s.mono }
  | .fill crate stamp => (s.dropRead r).fillArrived crate stamp r.unit c
  | .sweep slot => (s.dropRead r).copyRead slot r.unit c
  | .scrub _ => (s.dropRead r).scrubbed
  | .rebuild p =>
    let s := s.dropRead r
    if s.st.reads.any fun x => decide (x.src = .rebuild p) then s
    else match s.readOf p with
      | some q => match s.cwAt q.addr with
        | some d =>
          let s := q.refs.foldl (fun t n => t.dropRef n) s
          match q.src with
          | .cmd _ => s.mRead p fun x => { x with st := 7, got := some d, refs := [], arrived := s.mono }
          | .merge _ => s.mRead p fun x => { x with st := 7, got := some d, refs := [], arrived := s.mono }
          | .fill crate stamp => (s.dropRead { q with refs := [] }).fillArrived crate stamp q.unit d
          | .sweep slot => (s.dropRead { q with refs := [] }).copyRead slot q.unit d
          | .scrub _ => ((s.dropRead { q with refs := [] }).scrubOutcome q 1).scrubbed
          | .rebuild _ => s.dropRead { q with refs := [] }
        | none => s
      | none => s

/-- An unrecoverable codeword (R318): counted, recorded with the step reached and the class, and its reader
told. An injected one enters no block record (R573). -/
def State.readLostOne (s : State) (r : MRead) : State :=
  let s := s.count R.DECODE.UNRECOVERED_COUNT (aCh r.addr / 8)
  let s := if r.injected then s else s.mBlock (aBlockKey r.addr) fun b => { b with unrec := b.unrec + 1 }
  let s := (s.record (pageIsland (decodePage (aCh r.addr / 8))) 0x210 [r.addr, r.addr / 2 ^ 32 + r.step * 0x100, r.cls, 0] r.injected).dropRead r
  match r.src with
  | .cmd uid => s.unitFailed uid r.iu
  | .merge uid => s.mergeFailed uid
  | .fill crate stamp => s.fillLost r crate stamp
  | .sweep slot => s.copyLost slot
  | .scrub _ => (s.scrubOutcome r 0).scrubbed
  | .rebuild _ => s

/-- A read is lost; one that served a rebuild loses the read it served too (R238). -/
def State.readLost (s : State) (r : MRead) : State :=
  match r.src with
  | .rebuild p =>
    let s := s.dropWhere fun x => decide (x.src = .rebuild p)
    match s.readOf p with
    | some q => s.readLostOne q
    | none => s
  | _ => s.readLostOne r

/-- A read climbs to step 12: its unit is rebuilt from the other members of its stripe, or is lost (R317). -/
def State.startRebuild (s : State) (r : MRead) : State :=
  let s := if r.injected then s else s.mBlock (aBlockKey r.addr) fun b => { b with parityRb := b.parityRb + 1 }
  match r.src, s.rebuildPlan r.addr with
  | .rebuild _, _ => s.readLost { r with step := 12 }
  | _, none => s.readLost { r with step := 12 }
  | _, some (mates, crates) =>
    let s := crates.foldl (fun t n => t.takeRef n) s
    (s.mRead r.id fun x => { x with st := 6, step := 12, refs := crates }).startMates r.id r.nsid r.iu r.unit mates

/-! ### Losses (R301, R302) -/

/-- DEGRADED is set at the next mode instant, where it is not set (R127, R302). -/
def State.degrade (s : State) : State := if s.mode 6 then s else s.hwMode 0x40 0 0x20

/-- The reads of a die that is lost are served from parity, or end (R302). -/
def State.rescueReads (s : State) (k : Nat) : State :=
  (s.st.reads.filter fun r => decide (aDieKey r.addr = k) && decide (r.st ≤ 3)).foldl (fun t r =>
    match t.readOf r.id with
    | some r => t.startRebuild r
    | none => t) s

/-- HSTATE of a block by its decode counts over the cycle (R358). -/
def State.health (s : State) (b : Block) : Nat :=
  if b.cwRead < s.rd R.HEALTH.HCFG_MIN_CW ∨ b.cwRead = 0 then b.hstate
  else
    let weak := decide (s.rd R.HEALTH.HCFG2_RETRY_PPM * b.cwRead < b.retryFirst * 1000000) || decide (b.retryDeep ≠ 0)
      || decide (b.parityRb ≠ 0)
    let watch := decide (s.rd R.HEALTH.HCFG_ITER_MEAN * b.cwRead < b.iterSum * 100)
      || decide (s.rd R.HEALTH.HCFG2_SOFT_PPM * b.cwRead < b.softPass * 1000000)
    max b.hstate (if weak then 2 else if watch then 1 else 0)

/-- A band whose members are all erased or retired is finished (R345). -/
def State.finishBand (s : State) (num : Nat) : State :=
  match s.bandOf num with
  | none => s
  | some b =>
    if b.st = 3 ∧ (b.members.all fun k => decide ((s.block k).state = 5) || decide ((s.block k).band ≠ num)
        || decide ((s.block k).state = 0)) then
      (s.mSw fun w => { w with
        bands := w.bands.filter fun x => decide (x.num ≠ num)
        victims := w.victims.filter fun v => decide (v.band ≠ num)
        relocSeen := if w.victims.any fun v => decide (v.band = num) && (v.hard || decide (v.kind = 1)) then s.mono else w.relocSeen
        noParity := w.noParity.filter fun n => decide (n ≠ num) }).count R.SWEEP.BANDS_ERASED_COUNT
    else s

/-- An erase ends (R99, R353, R376), with `status` as an ERASE record codes it: 1 good, 2 failed, 3 timeout,
4 aborted. Its block is FREE after a good one and retired after a failed one (R345, R359). -/
def State.eraseEnd (s : State) (blk status : Nat) : State :=
  let ch := blk / 131072
  let step := s.wearStep blk
  let s := s.mBlock blk fun b => { b with wear := (b.wear + step) % 2 ^ 32 }
  let s := (((s.eraseCount ch blk).move (192 + ch) 1).send 288 1).journal 6 [ch, blk / 8192 % 16, blk % 8192, 2, status]
  let s := s.mSw fun w => { w with planeErases :=
    (w.planeErases.filter fun e => decide (s.mono < e.2 + 100000000)) ++ [(blk / 8192, s.mono)] }
  if status = 1 then
    let b := s.block blk
    let h := s.health b
    let pool := if b.state = 4 then b.pool else s.poolFor (blk / 8192)
    let s := s.mBlock blk fun _ => { state := if b.state = 4 then 4 else 0, pool := pool, wear := b.wear, hstate := h
                                     lastErase := some s.mono }
    let s := s.mNv fun n => { n with
      media := n.media.filter fun e => decide (aBlockKey e.1 ≠ blk)
      headers := n.headers.filter fun e => decide (e.1 ≠ blk) }
    (s.finishBand b.band).reckonWear.followFloor
  else if status = 4 then s.mBlock blk fun b => { b with lastErase := some s.mono }
  else
    let num := (s.block blk).band
    (s.retireBlock blk 2).finishBand num

/-- The units queued at a die fail with it (R244, R302). -/
def State.failUnits (s : State) (k : Nat) : State :=
  (s.wp.units.filter fun u => decide (u.ch * 16 + u.die = k)).foldl (fun t u =>
    match t.wp.units.find? fun v => decide (v.id = u.id) with
    | some v => t.unitFail v false
    | none => t) s

/-- A die goes out of service for a cause of DIE_INFO.LOST_CAUSE (R302). -/
def State.dropDie (s : State) (ch a cause : Nat) : State :=
  let k := ch * 16 + a
  if s.dieOn ch a = false ∧ bit (s.rd R.STALL.DIE_MAP_IN_SERVICE ch) a = false then s
  else
    let d := s.die k
    let s := (s.wr R.STALL.DIE_MAP_IN_SERVICE (clrBit (s.rd R.STALL.DIE_MAP_IN_SERVICE ch) a) ch).wr
      R.DEVSTATE.DEG_INFO_DIES_LOST (s.rd R.DEVSTATE.DEG_INFO_DIES_LOST + 1)
    let s := s.mDie k fun d => { d with state := 11, lost := cause, runKind := 0, erase := none }
    let s := if d.runKind = 2 then s.eraseEnd d.running 4 else s
    let s := (s.failUnits k).rescueReads k
    (s.wp.stripes.filter fun q => decide (q.set % 16 = a) && q.members.contains ch).foldl (fun t q => t.closeShort q) s

/-- A channel is lost for a cause of CH_STATE.LOST_CAUSE; its dies go with it (R301, R302). -/
def State.dropChannel (s : State) (ch cause : Nat) : State :=
  if s.rd R.STALL.CH_STATE_STATE ch = 3 then s
  else
    let s := ((s.wr R.STALL.CH_STATE_LOST_CAUSE cause ch).set R.STALL.CH_STATE_STATE 3 ch).wr
      R.DEVSTATE.DEG_INFO_CH_LOST (s.rd R.DEVSTATE.DEG_INFO_CH_LOST + 1)
    (List.range 16).foldl (fun t a => t.dropDie ch a 10) s

/-- What every loss ends with: DEGRADED, the capacity test with the reduced N, and spare (R302, R360). -/
def State.afterLoss (s : State) : State := s.degrade.retest.reckonSpare

/-- A channel is lost. -/
def State.loseChannel (s : State) (ch cause : Nat) : State :=
  if s.rd R.STALL.CH_STATE_STATE ch = 3 then s
  else ((s.dropChannel ch cause).record (stallIsland ch) 0x203 [ch, cause, 0, 0]).afterLoss

/-- Dies are lost; a channel that has none left in service goes with them (R301). -/
def State.loseDies (s : State) (ch : Nat) (l : List Nat) (cause : Nat) : State :=
  let l := l.filter fun a => bit (s.rd R.STALL.DIE_MAP_IN_SERVICE ch) a
  if l = [] then s
  else
    let s := l.foldl (fun t a => (t.dropDie ch a cause).record (stallIsland ch) 0x202 [a, cause, 0, 0]) s
    if s.rd R.STALL.DIE_MAP_IN_SERVICE ch = 0 then s.loseChannel ch 4 else s.afterLoss

/-- A stall group is lost for a cause of the GROUP_LOST record (R25, R301): its channels go, its points are
disarmed (R572) and its vote is withdrawn. -/
def State.loseGroup (s : State) (g cause : Nat) : State :=
  if bit (s.rd R.DEVSTATE.DEG_INFO2_SG_LOST) g then s
  else
    let s := s.wr R.DEVSTATE.DEG_INFO2_SG_LOST (setBit (s.rd R.DEVSTATE.DEG_INFO2_SG_LOST) g)
    let s := s.record 8 0x204 [g, cause, 0, 0]
    let s := ((List.range 8).map fun i => g * 8 + i).foldl (fun t c => t.dropChannel c 5) s
    let s := s.disarmThose (fun p => decide (g * 8 ≤ p - stallPage 0 ∧ p - stallPage 0 < g * 8 + 8 ∧ stallPage 0 ≤ p)
      || decide (p = pageOf R.DECODE.CW_CFG_CODE g)) 8
    s.afterLoss

/-- The dies of a target: the four LUNs of a CE. -/
def targetDies (a : Nat) : List Nat := (List.range 4).map fun i => a / 4 * 4 + i

/-! ### Slots (R76, R77, R281) -/

/-- Whether a channel runs with the reduced layout limits (R279, R281). -/
def State.reduced (s : State) (ch : Nat) : Bool := decide (s.rd R.STALL.CH_RATE_MTS ch < 3200)

/-- Whether a die grants slots (R77). -/
def State.dieGrants (s : State) (k : Nat) : Bool :=
  let d := s.die k
  s.dieOn (k / 16) (k % 16) && !d.closed && !(decide (d.runKind ≠ 0) && decide (6 ≤ d.susp))
    && !(decide (d.state = 7) && decide (s.mono < d.runFrom + 30000))

/-- The reads of a class that hold slots, on a die or on a channel, other than those of one reader. -/
def State.holders (s : State) (cls : Nat) (src : ReadFor) (here : Nat → Bool) : Nat :=
  ((s.st.reads.filter fun r => decide (r.cls = cls) && here r.addr && decide (r.src ≠ src)
    && (decide (r.st = 1) || (decide (cls = 0) && decide (1 ≤ r.st) && decide (r.st ≤ 3)))).map fun r => r.src).eraseDups.length

/-- Whether a reader may hold a slot of a class at a media address's die (R76). -/
def State.slotFree (s : State) (cls : Nat) (src : ReadFor) (a : Nat) : Bool :=
  let onDie := fun b => decide (aDieKey b = aDieKey a)
  let onCh := fun b => decide (aCh b = aCh a)
  s.dieGrants (aDieKey a) && (match cls with
    | 0 => decide (s.holders 0 src onCh = 0)
    | 1 => decide (s.holders 1 src onDie = 0) && decide (s.holders 1 src onCh < if s.reduced (aCh a) then 3 else 6)
    | 2 => decide (s.holders 2 src onDie < 2) && decide (s.holders 2 src onCh < 4)
    | _ => decide (s.holders 3 src onDie < 2) && decide (s.holders 3 src onCh < 4))

/-- Reads without a slot at a die take one where they may, oldest first. -/
def State.grantSlots (s : State) (k : Nat) : State :=
  (s.st.reads.filter fun r => decide (aDieKey r.addr = k) && decide (r.st = 0)).foldl (fun t r =>
    if t.slotFree r.cls r.src r.addr then t.mRead r.id fun x => { x with st := 1 } else t) s

/-! ### Senses (R78, R79, R293, R299) -/

/-- The reads waiting for a sense at a die. -/
def State.waitingAt (s : State) (k : Nat) : List MRead :=
  s.st.reads.filter fun r => decide (aDieKey r.addr = k) && decide (r.st = 1)

/-- The read a die serves next (R78). -/
def pickSense (d : Die) (l : List MRead) : Option MRead :=
  let first := fun (c : Nat) => l.find? fun r => decide (r.cls = c)
  let others := l.any fun r => decide (r.cls ≠ 0)
  match first 0 with
  | some u => if d.lastUrgent && others then pickNext l d else some u
  | none => pickNext l d
where
  pickNext (l : List MRead) (d : Die) : Option MRead :=
    let aged := if d.lastAged then none else l.find? fun r => decide (r.cls = 2) && decide (4 ≤ r.passed)
    aged.or ((l.find? fun r => decide (r.cls = 1)).or ((l.find? fun r => decide (r.cls = 2)).or
      (l.find? fun r => decide (r.cls = 3))))

/-- Waiting reads are passed by a sense of class `cls`; an IDLE read passed by 16 becomes a BULK read that
arrives now (R78). -/
def State.passSense (s : State) (k cls : Nat) : State :=
  let step := fun (r : MRead) =>
    if aDieKey r.addr = k ∧ r.st = 1 ∧ (r.cls = 3 ∨ (r.cls = 2 ∧ cls ≠ 0)) then { r with passed := r.passed + 1 } else r
  let old := fun (r : MRead) => decide (aDieKey r.addr = k) && decide (r.st = 1) && decide (r.cls = 3) && decide (16 ≤ r.passed)
  s.mSt fun t =>
    let l := t.reads.map step
    { t with reads := (l.filter fun r => !old r) ++ ((l.filter old).map fun r => { r with cls := 2, passed := 0, arrived := s.mono }) }

/-- The unit a die loads next: the running one whose load is not complete, or the highest kind and oldest
stripe among those CIPHER has passed (R241). -/
def State.unitRank (s : State) (u : ProgUnit) : Nat :=
  let k := match s.wp.stripes.find? fun q => decide (q.serial = u.serial) with
    | some q => q.kind
    | none => if u.kind < 4 then u.kind else 0
  k * 2 ^ 64 + u.serial

/-- The unit with a number. -/
def State.unitOf (s : State) (id : Nat) : Option ProgUnit := s.wp.units.find? fun u => decide (u.id = id)

/-- The unit that could begin its load at a die. -/
def State.nextUnit (s : State) (k : Nat) : Option ProgUnit :=
  pickMin (fun u => s.unitRank u) (s.wp.units.filter fun u => decide (u.ch * 16 + u.die = k) && u.ius.all fun i => i.enc)

/-- SENSE_START (R78, R79, R293): a die that is idle or suspended senses one page of the read it serves
next, on every plane that read needs. With a program pending or suspended it makes at most 4 senses, but
serves every read in the sixth suspension. -/
def execSenseStart (ch die : Nat) (s : State) : Host.Outcome State Fault Refusal :=
  .next <|
    let k := ch * 16 + die
    let s := s.grantSlots k
    let d := s.die k
    let idle := decide (d.state = 1)
    let held := (decide (d.state = 6) || decide (d.state = 9))
    let spent := decide (4 ≤ d.senses) && (if idle then (s.nextUnit k).isSome else decide (d.susp < 6))
    if s.dieOn ch die = false ∨ (idle || held) = false ∨ spent then s
    else match pickSense d (s.waitingAt k) with
      | none => s
      | some r =>
        let same := fun (x : MRead) => decide (x.st = 1) && decide (x.src = r.src) && decide (aBlockKey x.addr = aBlockKey r.addr)
          && decide (bits x.addr 2 11 = bits r.addr 2 11) && decide (x.step = r.step)
        let s := (s.mSt fun t => { t with reads := t.reads.map fun x => if same x then { x with st := 2 } else x }).passSense k r.cls
        let s := s.mDie k fun d => { d with
          back := d.state, state := 2, senses := d.senses + 1, lastUrgent := decide (r.cls = 0)
          lastAged := if r.cls = 0 then d.lastAged else decide (r.cls = 2) && decide (4 ≤ r.passed) }
        let s := s.count R.STALL.SENSES_COUNT ch
        if r.step = 0 then s else s.count R.STALL.RETRY_STEPS ch

/-- A suspended die resumes, where no read waits or its four senses are made (R79, R294); an abandoned load
begins again from its first burst. -/
def State.resumeDie (s : State) (k : Nat) : State :=
  let d := s.die k
  let none_ := decide (s.waitingAt k = [])
  if (d.state = 6 ∨ d.state = 9) ∧ (none_ ∨ (4 ≤ d.senses ∧ d.susp < 6)) then
    let cws := match s.unitOf d.running with
      | some u => u.cws
      | none => 0
    s.mDie k fun d => { d with
      state := if d.state = 9 then 7 else if d.loaded < cws then 3 else 4
      senses := 0, runFrom := s.mono }
  else s

/-- A sense's last codeword is out: the die returns to where it was (R293). -/
def State.senseOver (s : State) (k : Nat) : State :=
  let d := s.die k
  if d.state = 2 ∧ !(s.st.reads.any fun r => decide (aDieKey r.addr = k) && (decide (r.st = 2) || decide (r.st = 3))) then
    (s.mDie k fun d => { d with state := d.back }).resumeDie k
  else s

/-- The next ladder step of a read (R316, R317): a retry sense, or a rebuild after step 11. -/
def State.nextStep (s : State) (r : MRead) : State :=
  let last := match r.src with
    | .rebuild _ => 9
    | _ => 11
  if last ≤ r.step then s.startRebuild r
  else s.mRead r.id fun x => { x with step := x.step + 1, st := 1 }

/-! ### Bursts (R81, R242, R298) -/

/-- Codewords in a burst: whole codewords within 4.0 µs, at least one (R81). -/
def State.burstCws (s : State) (ch : Nat) : Nat := max 1 (4 * s.rd R.STALL.CH_RATE_MTS ch / 4608)

/-- The load a die could send a burst of: its running one, or one that could begin (R241, R296). -/
def State.loadAt (s : State) (k : Nat) : Option ProgUnit :=
  let d := s.die k
  if s.dieOn (k / 16) (k % 16) = false then none
  else if d.state = 3 then s.unitOf d.running
  else if d.state = 1 then s.nextUnit k
  else none

/-- The dies of a channel with a load to send. -/
def State.loads (s : State) (ch : Nat) : List Nat :=
  ((List.range 16).map fun a => ch * 16 + a).filter fun k => (s.loadAt k).isSome

/-- A burst of a load (R242, R298): at its last the confirm is sent, and SWEEP crates are freed. -/
def State.sendLoad (s : State) (k : Nat) (u : ProgUnit) : State :=
  let n := s.burstCws (k / 16)
  let s := s.mDie k fun d =>
    { d with state := 3, runKind := 1, running := u.id, loadPassed := 0
             loaded := (if d.state = 3 then d.loaded else 0) + n
             runFrom := if d.state = 3 then d.runFrom else s.mono
             susp := if d.state = 3 then d.susp else 0
             noSusp := d.noSusp && decide (d.state = 3)
             senses := 0 }
  if (s.die k).loaded < u.cws then s
  else
    let s := (s.mDie k fun d => { d with state := 4 }).count R.STALL.PROGRAMS_COUNT (k / 16)
    u.ius.foldl (fun t i => if i.copy = 0 then t.freeGrants 5 (fillWho i.crate) else t.freeGrants 5 i.copy) s

/-- Codewords waiting on a channel are passed by `n` of class `cls` (R81, R298). -/
def State.passBurst (s : State) (ch cls n : Nat) : State :=
  let s := s.mSt fun t => { t with
    reads := t.reads.map fun r =>
      if aCh r.addr = ch ∧ r.st = 3 ∧ ((r.cls = 2 ∧ cls = 1) ∨ (r.cls = 3 ∧ cls ≠ 3)) then { r with passed := r.passed + n } else r }
  (s.loads ch).foldl (fun t k => t.mDie k fun d => { d with loadPassed := d.loadPassed + n }) s

/-- A burst of read data (R81): up to a burst's codewords of one reader's sense on one die go to the decode
cluster. -/
def State.sendRead (s : State) (ch : Nat) (r : MRead) : State :=
  let k := aDieKey r.addr
  let l := ((s.st.reads.filter fun x => decide (x.st = 3) && decide (x.src = r.src) && decide (aDieKey x.addr = k)).map
    fun x => x.id).take (if r.cls = 0 then 64 else s.burstCws ch)
  let s := s.mSt fun t => { t with
    reads := t.reads.map fun x => if l.contains x.id then { x with st := 4, passed := 0 } else x
    noDqs := t.noDqs.set [] ch [] }
  let s := (s.passBurst ch r.cls l.length).senseOver k
  (s.st.reads.filter fun x => l.contains x.id && decide (9 ≤ x.step)).foldl (fun t x => t.askFull x) s

/-- What a channel serves next (R81, R298): a read with whether its burst is aged, or a load with the same. -/
def State.pickBurst (s : State) (ch : Nat) : Option ((MRead ⊕ Nat) × Bool) :=
  let l := s.st.reads.filter fun r => decide (aCh r.addr = ch) && decide (r.st = 3)
  let loads := s.loads ch
  let last := s.st.lastAged.get false ch
  let oldB := l.find? fun r => decide (r.cls = 2) && decide (96 ≤ r.passed)
  let oldL := loads.find? fun k => decide (64 ≤ (s.die k).loadPassed)
  let read := fun (r : MRead) => some ((Sum.inl r : MRead ⊕ Nat), false)
  match l.find? fun r => decide (r.cls = 0), (if last then none else oldB), (if last then none else oldL) with
  | some u, _, _ => read u
  | none, some b, some k => if b.passed < (s.die k).loadPassed then some (.inr k, true) else some (.inl b, true)
  | none, some b, none => some (.inl b, true)
  | none, none, some k => some (.inr k, true)
  | none, none, none =>
    match l.find? fun r => decide (r.cls = 1),
        l.find? (fun r => decide (r.cls = 2) || (decide (r.cls = 3) && decide (64 ≤ r.passed))), loads,
        l.find? fun r => decide (r.cls = 3) with
    | some r, _, _, _ => read r
    | none, some r, _, _ => read r
    | none, none, k :: _, _ => some (.inr k, false)
    | none, none, [], some r => read r
    | none, none, [], none => none

/-- Reset LUN is issued; the die returns to state `back` (R291, R293). -/
def State.resetLun (s : State) (k back : Nat) : State := s.mDie k fun d => { d with state := 10, back := back }

/-- The senses of a die are made again. -/
def State.repeatSense (s : State) (k : Nat) : State :=
  s.mSt fun t => { t with
    reads := t.reads.map fun r =>
      if aDieKey r.addr = k ∧ (r.st = 2 ∨ r.st = 3) then { r with st := 1, timeouts := r.timeouts + 1 } else r }

/-- CHANNEL_BURST (R81, R298). An armed no-DQS answer on read data leads to Reset LUN and a repeat (R571). -/
def execChannelBurst (ch : Nat) (s : State) : Host.Outcome State Fault Refusal :=
  .next <|
    if s.rd R.STALL.CH_STATE_STATE ch ≠ 2 then s
    else match s.pickBurst ch with
      | none => s
      | some (.inl r, aged) =>
        let f := s.stallFire ch (aDie r.addr) 2 3
        if f.1 then ((f.2.anomaly ch (aDie r.addr) 4 0x06 0 0 true).repeatSense (aDieKey r.addr)).resetLun (aDieKey r.addr) (f.2.die (aDieKey r.addr)).back
        else (f.2.sendRead ch r).mSt fun t => { t with lastAged := t.lastAged.set false ch aged }
      | some (.inr k, aged) =>
        match s.loadAt k with
        | some u => (s.sendLoad k u).mSt fun t => { t with lastAged := t.lastAged.set false ch aged }
        | none => s

/-! ### Status (R291 to R295, R300) -/

/-- A program or erase is over: the die is idle again. -/
def State.opOver (s : State) (k : Nat) : State :=
  s.mDie k fun d => { d with state := 1, runKind := 0, running := 0, loaded := 0, susp := 0, noSusp := false, senses := 0, closed := false }

/-- The running program of a die ends, with good or failed status (R243). An injected failure redoes its IUs
and retires nothing. -/
def State.programOver (s : State) (k : Nat) (good retire : Bool) : State :=
  let id := (s.die k).running
  let s := s.opOver k
  match s.unitOf id with
  | none => s
  | some u => if good then s.unitGood u else s.unitFail u retire

/-- The running erase of a die ends. -/
def State.eraseOver (s : State) (k status : Nat) : State :=
  let b := (s.die k).running
  (s.opOver k).eraseEnd b status

/-- An erase that an injected failure ended is repeated (R571). -/
def State.eraseAgain (s : State) (k : Nat) : State :=
  let b := (s.die k).running
  ((s.opOver k).eraseEnd b 2).mDie k fun d => d

/-- Suspended status (R295): the suspend is counted. -/
def State.suspended (s : State) (k : Nat) (prog : Bool) : State :=
  let ch := k / 16
  let s := s.mDie k fun d => { d with state := if prog then 6 else 9, susp := d.susp + 1, senses := 0 }
  let s := s.count (if prog then R.STALL.SUSP_CNT_PROG else R.STALL.SUSP_CNT_ERASE) ch
  let s := if (s.die k).susp = 6 then s.count R.STALL.SUSP_CNT2_SIXTH ch else s
  s.resumeDie k

/-- A status without meaning (R300): the third in a row takes the die out of service. -/
def State.oddStatus (s : State) (ch a status : Nat) : State :=
  let k := ch * 16 + a
  let s := ((s.count R.STALL.ODD_CNT_STATUS ch).anomaly ch a 1 0x78 status 0).mDie k fun d => { d with oddStatus := d.oddStatus + 1 }
  if 3 ≤ (s.die k).oddStatus then s.loseDies ch [a] 5 else s

/-- A read timeout (R291): the sense is made again once after Reset LUN, then the die is lost; data outs without
DQS may lose the channel (R301). -/
def State.readTimeout (s : State) (ch a : Nat) (inj : Bool) : State :=
  let k := ch * 16 + a
  let d := s.die k
  let mine := s.st.reads.filter fun r => decide (aDieKey r.addr = k) && (decide (r.st = 2) || decide (r.st = 3))
  if d.state ≠ 2 ∨ mine = [] then s
  else if inj then (s.repeatSense k).resetLun k d.back
  else
    let s := (s.count R.STALL.TMO_CNT_READ ch)
    let silent := mine.any fun r => decide (r.st = 3)
    let s := if silent then (s.anomaly ch a 4 0x06 0 0).mSt fun t => { t with noDqs := t.noDqs.set [] ch (t.noDqs.get [] ch ++ [a]) }
      else s.anomaly ch a 5 0x78 0 0
    let run := s.st.noDqs.get [] ch
    if 16 ≤ run.length ∧ 2 ≤ run.eraseDups.length then s.loseChannel ch 2
    else if mine.any fun r => decide (1 ≤ r.timeouts) then s.loseDies ch [a] 2
    else (s.repeatSense k).resetLun k d.back

/-- A program or erase timeout counts towards the three in a row that lose a die (R291). -/
def State.opTimeout (s : State) (ch a : Nat) : State :=
  let s := s.mDie (ch * 16 + a) fun d => { d with opTimeouts := d.opTimeouts + 1 }
  if 3 ≤ (s.die (ch * 16 + a)).opTimeouts then s.loseDies ch [a] 3 else s

/-- A program timeout: the program has failed, and the die is reset. -/
def State.programTimeout (s : State) (ch a : Nat) (inj : Bool) : State :=
  let k := ch * 16 + a
  if (s.die k).state ≠ 4 then s
  else if inj then (s.programOver k false false).resetLun k 1
  else (((s.count R.STALL.TMO_CNT_PROG ch).anomaly ch a 5 0x10 0 0).programOver k false true |>.resetLun k 1).opTimeout ch a

/-- An erase timeout: the erase has failed and its block is retired. An injected one is repeated. -/
def State.eraseTimeout (s : State) (ch a : Nat) (inj : Bool) : State :=
  let k := ch * 16 + a
  let b := (s.die k).running
  if (s.die k).state ≠ 7 then s
  else if inj then ((s.opOver k).eraseEnd b 4).mDie k (fun d => { d with erase := some (b % 8192, s.mono) }) |>.resetLun k 1
  else (((s.count R.STALL.TMO_CNT_ERASE ch).anomaly ch a 5 0xD0 0 0).eraseOver k 3 |>.resetLun k 1).opTimeout ch a

/-- A suspend is not acknowledged (R295): the operation runs to its end unsuspended. -/
def State.suspendTimeout (s : State) (ch a : Nat) : State :=
  let k := ch * 16 + a
  let d := s.die k
  if d.state ≠ 5 ∧ d.state ≠ 8 then s
  else
    ((s.count R.STALL.SUSP_CNT2_NOSUSP ch).count R.STALL.TMO_CNT_OTHER ch).mDie k fun d =>
      { d with state := if d.state = 5 then 4 else 7, noSusp := true }

/-- Real status of a die (R293, R295). -/
def State.pollReal (s : State) (ch a status : Nat) : State :=
  let k := ch * 16 + a
  let d := s.die k
  let odd := decide (4 ≤ status)
  let s := if odd then s.oddStatus ch a status else s.mDie k fun d => { d with oddStatus := 0 }
  if odd ∧ (s.die k).state = 11 then s
  else match d.state with
    | 2 =>
      if status = 1 then
        s.mSt fun t => { t with reads := t.reads.map fun r => if aDieKey r.addr = k ∧ r.st = 2 then { r with st := 3 } else r }
      else if odd then
        ((s.st.reads.filter fun r => decide (aDieKey r.addr = k) && decide (r.st = 2)).foldl (fun t r => t.nextStep r) s).senseOver k
      else s
    | 4 => if status = 1 then (s.mDie k fun d => { d with opTimeouts := 0 }).programOver k true true
      else if status = 2 ∨ odd then s.programOver k false true else s
    | 5 => if status = 3 then s.suspended k true
      else if status = 1 then s.programOver k true true
      else if status = 2 ∨ odd then s.programOver k false true else s
    | 7 => if status = 1 then (s.mDie k fun d => { d with opTimeouts := 0 }).eraseOver k 1
      else if status = 2 ∨ odd then s.eraseOver k 2 else s
    | 8 => if status = 3 then s.suspended k false
      else if status = 1 then s.eraseOver k 1
      else if status = 2 ∨ odd then s.eraseOver k 2 else s
    | 10 => if status = 1 then (s.mDie k fun d => { d with state := d.back, opTimeouts := d.opTimeouts }).resumeDie k else s
    | _ => s

/-- STATUS_POLL (R291): an armed point acts at the real answer of a program, an erase, a sense or a suspend
(R571), else the status is the die's own. -/
def execStatusPoll (ch die status : Nat) (s : State) : Host.Outcome State Fault Refusal :=
  .next <|
    let k := ch * 16 + die
    let d := s.die k
    if s.dieOn ch die = false ∨ status = 0 then s
    else
      let op := if d.state = 4 then 1 else if d.state = 7 then 2 else 0
      let a := if op = 0 then (false, s) else s.stallFire ch die 0 op
      let b := if op = 0 ∨ a.1 then (false, a.2) else a.2.stallFire ch die 0 3
      let t := if d.state = 2 then 1 else if d.state = 4 then 2 else if d.state = 7 then 3
        else if d.state = 5 ∨ d.state = 8 then 4 else 0
      let c := if t = 0 ∨ a.1 ∨ b.1 then (false, b.2) else b.2.stallFire ch die 1 t
      let s := c.2
      if a.1 ∨ b.1 then
        let s := if b.1 then s.anomaly ch die 1 0x78 0 0 true else s
        if op = 1 then s.programOver k false false
        else
          let blk := d.running
          ((s.opOver k).eraseEnd blk 4).mDie k fun d => { d with erase := some (blk % 8192, s.mono) }
      else if c.1 then
        match t with
        | 1 => s.readTimeout ch die true
        | 2 => s.programTimeout ch die true
        | 3 => s.eraseTimeout ch die true
        | _ => s.mDie k fun d => { d with state := if d.state = 5 then 4 else 7, noSusp := true }
      else s.pollReal ch die status

/-- PROGRAM_SUSPEND (R294): a program that has run 60 µs is suspended while a read waits, at most six times. -/
def execProgramSuspend (ch die : Nat) (s : State) : Host.Outcome State Fault Refusal :=
  .next <|
    let k := ch * 16 + die
    let s := s.grantSlots k
    let d := s.die k
    if d.state = 4 ∧ d.susp < 6 ∧ d.noSusp = false ∧ s.waitingAt k ≠ [] ∧ d.runFrom + 6000 ≤ s.mono then
      s.mDie k fun d => { d with state := 5 }
    else s

/-- ERASE_SUSPEND (R294): an erase that has run 300 µs is suspended while a read waits. -/
def execEraseSuspend (ch die : Nat) (s : State) : Host.Outcome State Fault Refusal :=
  .next <|
    let k := ch * 16 + die
    let s := s.grantSlots k
    let d := s.die k
    if d.state = 7 ∧ d.susp < 6 ∧ d.noSusp = false ∧ s.waitingAt k ≠ [] ∧ d.runFrom + 30000 ≤ s.mono then
      s.mDie k fun d => { d with state := 8 }
    else s

/-- LOAD_ABANDON (R294): a load whose run has reached 60 µs is cut while a read waits; Reset LUN is issued, and
it counts as a suspend. -/
def execLoadAbandon (ch die : Nat) (s : State) : Host.Outcome State Fault Refusal :=
  .next <|
    let k := ch * 16 + die
    let s := s.grantSlots k
    let d := s.die k
    if d.state = 3 ∧ d.susp < 6 ∧ s.waitingAt k ≠ [] ∧ d.runFrom + 6000 ≤ s.mono then
      let s := (s.mDie k fun d => { d with loaded := 0, susp := d.susp + 1, senses := 0 }).resetLun k 6
      let s := s.count R.STALL.SUSP_CNT_PROG ch
      if (s.die k).susp = 6 then s.count R.STALL.SUSP_CNT2_SIXTH ch else s
    else s

/-! ### Erases (R80, R296, R345, R356) -/

/-- A block's erase is asked of its die. -/
def State.askErase (s : State) (blk : Nat) : State :=
  if (s.die (blk / 8192)).erase.isSome then s
  else s.mDie (blk / 8192) fun d => { d with erase := some (blk % 8192, s.mono) }

/-- Whether a ceiling of R356 holds an erase. -/
def State.eraseHeld (s : State) (blk : Nat) : Bool :=
  (match (s.block blk).lastErase with
    | some t => decide (s.mono < t + 10000000)
    | none => false)
    || decide (64 ≤ (s.sw.planeErases.filter fun e => decide (e.1 = blk / 8192) && decide (s.mono < e.2 + 100000000)).length)

/-- A die without a pending erase takes the next block a Block Erase has still to ask for (R141). -/
def State.sanNext (s : State) (k : Nat) : State :=
  match s.sw.sanTodo.find? fun b => decide (b / 8192 = k) with
  | some b =>
    if (s.die k).erase.isSome then s
    else (s.mSw fun w => { w with sanTodo := w.sanTodo.erase b }).askErase b
  | none => s

/-- ERASE_START (R80, R296): the pending erase begins when no accepted read waits at the die, no program is
queued there, and no ceiling holds it; a held one is counted. -/
def execEraseStart (ch die : Nat) (s : State) : Host.Outcome State Fault Refusal :=
  .next <|
    let k := ch * 16 + die
    let s := s.sanNext k
    let d := s.die k
    match d.erase with
    | none => s
    | some (b, _) =>
      let blk := k * 8192 + b
      if s.dieOn ch die = false ∨ d.state ≠ 1 ∨ s.waitingAt k ≠ [] ∨ s.queued ch die ≠ 0 then s
      else if s.eraseHeld blk then s.count R.HEALTH.RATE_REFUSED_COUNT
      else
        (s.mDie k fun d => { d with state := 7, runKind := 2, running := blk, runFrom := s.mono, susp := 0, senses := 0
                                    noSusp := false, erase := none }).journal 6 [ch, die, b, 1, 0]

/-- ERASE_PENDING_CLOSE (R80): the die closes to new slots. -/
def execErasePendingClose (ch die : Nat) (s : State) : Host.Outcome State Fault Refusal :=
  .next <| if (s.die (ch * 16 + die)).erase.isSome then s.mDie (ch * 16 + die) fun d => { d with closed := true } else s

/-! ### Timers (R291, R295, R299, R300) -/

/-- READ_TIMEOUT. -/
def execReadTimeout (ch die : Nat) (s : State) : Host.Outcome State Fault Refusal := .next (s.readTimeout ch die false)

/-- PROGRAM_TIMEOUT. -/
def execProgramTimeout (ch die : Nat) (s : State) : Host.Outcome State Fault Refusal := .next (s.programTimeout ch die false)

/-- ERASE_TIMEOUT. -/
def execEraseTimeout (ch die : Nat) (s : State) : Host.Outcome State Fault Refusal := .next (s.eraseTimeout ch die false)

/-- SUSPEND_TIMEOUT. -/
def execSuspendTimeout (ch die : Nat) (s : State) : Host.Outcome State Fault Refusal := .next (s.suspendTimeout ch die)

/-- RESET_TIMEOUT (R291): the die is lost, or after FFh every die of its target. -/
def execResetTimeout (ch die : Nat) (target : Bool) (s : State) : Host.Outcome State Fault Refusal :=
  .next <|
    if (s.die (ch * 16 + die)).state ≠ 10 then s
    else (s.count R.STALL.TMO_CNT_OTHER ch).loseDies ch (if target then targetDies die else [die]) 1

/-- FEATURE_TIMEOUT (R291): Reset LUN and one repeat; a second expiry loses the die. -/
def execFeatureTimeout (ch die : Nat) (s : State) : Host.Outcome State Fault Refusal :=
  .next <|
    let k := ch * 16 + die
    if s.dieOn ch die = false ∨ (s.die k).state = 10 then s
    else
      let s := (s.count R.STALL.TMO_CNT_OTHER ch).mDie k fun d => { d with featBad := d.featBad + 1 }
      if 2 ≤ (s.die k).featBad then s.loseDies ch [die] 5
      else s.resetLun k (s.die k).state

/-- ZQ_INTERVAL_EXPIRY (R290): a ZQ Calibration Short of a target; its second failure in a row takes the
target's dies out of service. An armed failure is repeated and goes no further. -/
def execZqIntervalExpiry (ch die : Nat) (ok : Bool) (s : State) : Host.Outcome State Fault Refusal :=
  .next <|
    if s.rd R.STALL.CH_STATE_STATE ch ≠ 2 then s
    else
      let f := s.stallFire ch die 2 4
      let s := f.2.count R.STALL.ZQ_CNT_SHORT ch
      let t := ch * 4 + die / 4
      let s := s.mSt fun x => { x with zqTemp := x.zqTemp.set none t (s.pwr.temps.get none (ch / 8)) }
      if f.1 then s.anomaly ch die 2 0xD9 0 0 true
      else if ok then s.mSt fun x => { x with zqFails := x.zqFails.set 0 t 0 }
      else
        let s := (s.count R.STALL.ZQ_CNT_FAIL ch).mSt fun x => { x with zqFails := x.zqFails.set 0 t (x.zqFails.get 0 t + 1) }
        if 2 ≤ s.st.zqFails.get 0 t then s.loseDies ch (targetDies die) 6 else s

/-- IDENTITY_CHECK (R299, R300): a difference resets the target and the check is repeated; a second one loses
every die of the target. -/
def execIdentityCheck (ch die : Nat) (ok : Bool) (s : State) : Host.Outcome State Fault Refusal :=
  .next <|
    if s.rd R.STALL.CH_STATE_STATE ch ≠ 2 then s
    else
      let k := ch * 16 + die
      let f := s.stallFire ch die 2 2
      let s := f.2
      if f.1 then s.anomaly ch die 3 0x90 0 0 true
      else if ok then s.mDie k fun d => { d with idBad := 0 }
      else
        let s := ((s.count R.STALL.ODD_CNT_FEATURE ch).anomaly ch die 3 0x90 0 0).mDie k fun d => { d with idBad := d.idBad + 1 }
        if 2 ≤ (s.die k).idBad then s.loseDies ch (targetDies die) 4
        else (targetDies die).foldl (fun t a =>
          if t.dieOn ch a ∧ (t.die (ch * 16 + a)).state = 1 then t.resetLun (ch * 16 + a) 1 else t) s

/-- VCCQ_FL_OUT_OF_RANGE (R301): the stall group is lost. -/
def execVccqFlOutOfRange (group : Nat) (s : State) : Host.Outcome State Fault Refusal :=
  .next (if group < 12 then s.loseGroup group 2 else s)

end Sys2Proof.Machine
end

