-- ==== Sys2Proof/Machine/Integrity.lean ====
section
/-! DEFINITION. Decoding, the read-retry ladder and the patrol scrub (R83 to R85, R311 to R323). -/

namespace Sys2Proof.Machine

open Sys2Proof

/-! ### The outcome of a decode (R311, R316 to R319) -/

/-- Whether a read answers a host command or a merge, or fills a unit for one (R311). -/
def MRead.forHost (r : MRead) : Bool :=
  match r.src with
  | .cmd _ => true
  | .merge _ => true
  | .fill _ _ => true
  | _ => false

/-- The header checks of R311 beside HCRC: the lookup's IU, unit and namespace, and no PAD, SUMMARY or PARITY. -/
def MRead.header (r : MRead) (c : Cw) : Bool :=
  !r.forHost || (decide (c.nsid = r.nsid) && decide (c.iu = r.iu) && decide (c.unit = r.unit)
    && !bit c.flags 0 && !bit c.flags 2 && !bit c.flags 3)

/-- The retry-table entry of ladder step 1 to 8: the block's sticky entry first, then the others in order. -/
def retryEntry (sticky step : Nat) : Nat :=
  if sticky = 0 then step else if step = 1 then sticky else if step ≤ sticky then step - 1 else step

/-- The block record counts a decode, unless its failure was injected (R319). -/
def State.tell (s : State) (r : MRead) (g : Block → Block) : State :=
  if r.injected then s else s.mBlock (aBlockKey r.addr) g

/-- A firing has met a read: it and its command are marked (R92, R573). -/
def State.markInjected (s : State) (r : MRead) : State :=
  let s := s.mRead r.id fun x => { x with injected := true }
  match r.src.uid with
  | some u => s.mCmd u fun c => { c with injected := true }
  | none => s

/-- A codeword has decoded and passed its checks at its step; `plain` when a hard decode within ITER_WARN did it
at step 0 (R311, R317, R322). A set UNC flag ends a host read's unit at once. -/
def State.decoded (s : State) (r : MRead) (c : Cw) (plain : Bool) : State :=
  let s := s.count R.DECODE.STEP_CNT_COUNT r.cluster r.step
  let s := if 1 ≤ r.step ∧ r.step ≤ 8 then s.tell r fun b => { b with sticky := retryEntry b.sticky r.step } else s
  if r.forHost && bit c.flags 1 then
    let s := (s.count R.DECODE.HDR_ERR_UNC r.cluster).dropRead r
    match r.src with
    | .cmd uid => s.unitFailed uid r.iu
    | .merge uid => s.mergeFailed uid
    | .fill crate stamp => s.fillLost r crate stamp
    | _ => s
  else
    let s := match r.src with
      | .scrub _ => if r.step ≠ 0 then s.scrubOutcome r 1 else if plain then s else s.scrubOutcome r 2
      | _ => s
    s.readGood r c

/-- A codeword climbs to its next ladder step (R316, R317, R319). -/
def State.climb (s : State) (r : MRead) : State :=
  let s := if r.step = 0 then s.tell r fun b => { b with retryFirst := b.retryFirst + 1 }
    else if r.step = 8 then s.tell r fun b => { b with retryDeep := b.retryDeep + 1 } else s
  s.nextStep r

/-- Whether a command's reads are DATA_FIRST (R83): an unpitched one's are not. -/
def State.isDataFirst (s : State) (c : Cmd) : Bool :=
  match c.pitch with
  | some p => decide ((s.pitch p).c.recovery = 1)
  | none => false

/-- A codeword fails at step 0 (R83, R139): a Read with LR set ends there, and the others take their first retry
step under their RECOVERY choice. -/
def State.needRetry (s : State) (r : MRead) : State :=
  match r.src.uid.bind s.cmdOf with
  | some c =>
    if c.kind = .read ∧ bit (c.cdw 12) 31 then (s.dropRead r).unitFailed c.uid r.iu
    else (s.mCmd c.uid fun c => { c with dataFirst := s.isDataFirst c }).climb r
  | none => s.climb r

/-! ### Hard decode (R311, R312) -/

/-- A LADDER firing fails every decode of its codeword below the step in PARAM (R571). -/
def State.ladderFire (s : State) (r : MRead) : Bool × State :=
  if r.step < r.failTo then (true, s)
  else
    let p := s.armedParam (decodePage r.cluster) 2
    let f := s.fire (decodePage r.cluster) 2 fun _ p => decide (r.step < p)
    if f.1 then (true, (f.2.markInjected r).mRead r.id fun x => { x with failTo := p.getD 0 }) else (false, f.2)

/-- A hard decode that fails by injection: HARD_FAIL, for URGENT reads alone where PARAM says so, or LADDER. -/
def State.hardFire (s : State) (r : MRead) : Bool × State :=
  let f := s.fire (decodePage r.cluster) 0 fun _ p => decide (p = 0) || decide (r.cls = 0)
  if f.1 then (true, f.2.markInjected r) else s.ladderFire r

/-- A header check that fails by injection: point HEADER, at step 0. -/
def State.headerFire (s : State) (r : MRead) : Bool × State :=
  let f := s.fire (decodePage r.cluster) 3 fun _ _ => decide (r.step = 0)
  if f.1 then (true, f.2.markInjected r) else (false, f.2)

/-- The codeword at a read's address, where the decode and every check of R311 pass. -/
def State.passed (s : State) (r : MRead) (ok : Bool) : Option Cw :=
  match s.cwAt r.addr with
  | some c => if ok && r.header c then some c else none
  | none => none

/-- HARD_DECODE_COMPLETE (R312): a hard decoder ends with a codeword after `iters` iterations. It is decoded and
checked, and goes to its reader, or else to the soft queue; a host codeword that finds no entry there needs its
first retry step (R315). -/
def execHardDecodeComplete (read iters : Nat) (ok headerOk : Bool) (s : State) : Host.Outcome State Fault Refusal :=
  .next <|
    match s.readOf read with
    | none => s
    | some r =>
      if r.st ≠ 4 ∨ 9 ≤ r.step then s
      else
        let k := r.cluster
        let f := s.hardFire r
        let good := ok && !f.1
        let s := (f.2.count R.DECODE.CW_HARD_COUNT k).count R.DECODE.ITER_SUM_COUNT k 0 iters
        let s := if good then s else s.count R.DECODE.HARD_FAIL_COUNT k
        let h := if good then s.headerFire r else (false, s)
        let s := h.2
        let r := (s.readOf read).getD r
        let s := s.tell r fun b => { b with cwRead := b.cwRead + (if r.step = 0 then 1 else 0), iterSum := b.iterSum + iters }
        match s.passed r (good && headerOk && !h.1) with
        | some c => s.decoded r c (decide (iters ≤ s.rd R.DECODE.HARD_CFG_ITER_WARN k))
        | none =>
          let s := if good then s.count R.DECODE.HDR_ERR_COUNT k else s
          match s.enterSoft r false with
          | some t => t
          | none =>
            if s.softRank r = 2 then s.mRead r.id fun x => { x with st := 5 }
            else (s.count R.DECODE.SOFT_OVERFLOW_COUNT k).needRetry r

/-! ### Soft decode (R313 to R316) -/

/-- A soft pass or a full soft decode that fails by injection: SOFT_FAIL, or LADDER. -/
def State.softFire (s : State) (r : MRead) : Bool × State :=
  let f := s.fire (decodePage r.cluster) 1 fun _ _ => true
  if f.1 then (true, f.2.markInjected r) else s.ladderFire r

/-- The end of a soft job of a read. -/
def State.softEnd (s : State) (r : MRead) (full ok : Bool) : State :=
  let k := r.cluster
  let f := s.softFire r
  let good := ok && !f.1
  let s := f.2.leaveSoft k r.id
  let r := (s.readOf r.id).getD r
  let s := if full then s else (if good then s.count R.DECODE.SOFT_PASS_OK k else s.count R.DECODE.SOFT_PASS_FAIL k)
  let s := if full ∨ r.step ≠ 0 then s else s.tell r fun b => { b with softPass := b.softPass + 1 }
  match s.passed r good with
  | some c => s.decoded r c false
  | none =>
    let s := if good then s.count R.DECODE.HDR_ERR_COUNT k else s
    if r.step = 0 then s.needRetry r else s.climb r

/-- A soft job of a read ends, where the job runs and is of the kind named. -/
def State.softDone (s : State) (read : Nat) (full ok : Bool) : State :=
  match s.readOf read with
  | none => s
  | some r =>
    match s.jobOf r with
    | some j => if j.running ∧ j.full = full then s.softEnd r full ok else s
    | none => s

/-- SOFT_PASS_COMPLETE (R313): at step 0 a failed codeword takes its first retry step, and later its next. -/
def execSoftPassComplete (read : Nat) (ok : Bool) (s : State) : Host.Outcome State Fault Refusal :=
  .next (s.softDone read false ok)

/-- FULL_SOFT_DECODE_COMPLETE (R313, R316): steps 9 to 11; after step 11 the unit is rebuilt from parity. -/
def execFullSoftDecodeComplete (read : Nat) (ok : Bool) (s : State) : Host.Outcome State Fault Refusal :=
  .next (s.softDone read true ok)

/-- SOFT_WAIT_EXPIRY (R315): a host codeword other than an URGENT one, whose soft pass has not started, leaves the
queue and needs its first retry step. -/
def execSoftWaitExpiry (read : Nat) (s : State) : Host.Outcome State Fault Refusal :=
  .next <|
    match s.readOf read with
    | none => s
    | some r =>
      match s.jobOf r with
      | some j =>
        if j.rank ≠ 1 ∨ j.running ∨ j.preempted ∨ j.full then s
        else
          let s := (s.leaveSoft r.cluster read).count R.DECODE.SOFT_OVERFLOW_COUNT r.cluster
          if r.step = 0 then s.needRetry r else s.climb r
      | none => s

/-- DEADLINE_FIRST_EXPIRY (R84, R317, R322): a DEADLINE_FIRST read still climbing at 98 % of its bound completes
with Unrecovered Read Error, counted as a deadline error of its pitch, and the blocks of the units it still reads
go to the head of the scrub candidates. -/
def execDeadlineFirstExpiry (port sqid cid : Nat) (s : State) : Host.Outcome State Fault Refusal :=
  .next <|
    match s.host.cmds.find? fun c => decide (c.port = port) && decide (c.sqid = sqid) && decide (c.cid = cid) with
    | none => s
    | some c =>
      let climbing := s.st.reads.filter fun r => decide (r.src = .cmd c.uid) && decide (0 < r.step)
      if c.stage ≠ .accepted ∨ s.isDataFirst c ∨ climbing = [] then s
      else
        let s := (climbing.filter fun r => !r.injected).foldl (fun t r => t.addCand (aBlockKey r.addr) 1 true) s
        let s := match c.pitch with
          | some p => s.pitchLog p fun l => { l with deadlineErrors := l.deadlineErrors + 1 }
          | none => s
        (s.dropReads c.uid).complete c 2 0x81

/-! ### Patrol scrub (R320 to R323) -/

/-- The time a walker's pace is reckoned over, in s (R321, R131): up to 90 % of the cycle, in ARCHIVE all of it. -/
def State.scrubTimeLeft (s : State) : Nat :=
  let t := if s.mode 1 then s.cycleTicks else s.cycleTicks * 9 / 10
  max 1 ((t - s.integ.scrubCounted) / 100000000)

/-- Whether walkers stop at their next block boundary (R109, R131, R321). -/
def State.scrubHeld (s : State) : Bool := s.mode 3 || s.tal.realSeen

/-- A walker sets its pace for a second and asks for what it comes to: in MAINTAIN, and in a late cycle, all it
has left, which then takes the IDLE slots as they fall free; while held, the rest of the block it is in. -/
def State.paceOne (s : State) (ch : Nat) : State :=
  let l := s.walkLeft ch
  if l = [] then s
  else
    let n := ceilDiv l.length s.scrubTimeLeft
    let s := s.wr R.SCRUB.SCRUB_RATE_CWPS (s.rd R.SCRUB.SCRUB_RATE_CWPS + n)
    let n := if s.mode 4 ∨ s.integ.catchUp then l.length else n
    let n := if s.scrubHeld then
        (if s.integ.walkPos.get 0 ch = 0 then 0 else min n (l.filter fun a => decide (aBlockKey a = aBlockKey (s.integ.walkPos.get 0 ch))).length)
      else n
    s.walk ch n

/-- SCRUB_PACE (R321). -/
def execScrubPace (s : State) : Host.Outcome State Fault Refusal :=
  .next <|
    let s := s.scrubTime
    if s.dst = 4 ∨ s.dst = 5 then
      (List.range 96).foldl (fun t c => t.paceOne c) (s.wr R.SCRUB.SCRUB_RATE_CWPS 0)
    else s

/-- SCRUB_CYCLE_END (R321): a cycle not complete is counted and recorded, and its walkers read at the MAINTAIN rate
until it completes; else the next begins. -/
def execScrubCycleEnd (s : State) : Host.Outcome State Fault Refusal :=
  .next <|
    let s := s.scrubTime
    if s.dst ≠ 4 ∧ s.dst ≠ 5 then s
    else if s.scrubLeft = 0 then s.endCycle
    else ((s.count R.SCRUB.LATE_COUNT).record 2 0x105 [0, 0, 0, 0]).mInteg fun i => { i with catchUp := true }

/-- The register fields whose tables mark them restored, with how many entries each has (R332, R367). -/
def savedFields : List (Field × Nat) :=
  [(R.SCRUB.SCRUB_CYCLE_NUM, 1), (R.SCRUB.LATE_COUNT, 1), (R.HEALTH.RETIRED_COUNT, 1), (R.HEALTH.RETIRED_PROG_COUNT, 1),
   (R.HEALTH.RETIRED_ERASE_COUNT, 1), (R.HEALTH.WEAR_USED_DAY_PPM, 1), (R.HEALTH.WEAR_USED2_YEAR_PPM, 1),
   (R.HEALTH.BUDGET_REFUSED_COUNT, 1), (R.HEALTH.RATE_REFUSED_COUNT, 1), (R.HEALTH.TEMP_BIN_SECONDS, 30),
   (R.HEALTH.TEMP_EXT_MAX, 1), (R.HEALTH.TEMP_EXT_MIN, 1), (R.HEALTH.TEMP_AVG_HUNDREDTHS, 1),
   (R.HEALTH.TEMP_ABOVE_HOST_SECONDS, 1), (R.HEALTH.TEMP_ABOVE_WARN_SECONDS, 1), (R.HEALTH.TEMP_ABOVE_CRIT_SECONDS, 1),
   (R.HEALTH.DAYS_COUNT, 1)]

/-- The other figures saved, in order: whether anything is, the scrub cycle's, the wear calendar's, and the
temperature statistics' (R323, R354, R362). A temperature sum is kept above an offset of 2^62. -/
def State.savedNumbers (s : State) : List Nat :=
  [1, s.integ.scrubCounted, s.integ.scrubDone, b2n s.integ.catchUp, s.sw.dayTicks, s.sw.yearDays, s.sw.dayMean,
   s.sw.yearMean, (s.sw.tempSum + (2 ^ 62 : Nat)).toNat, s.sw.tempCount, s.sw.tempMaxAt, s.sw.thermalHalts]

/-- The scrub, wear and temperature state is saved to RECORDS (R323, R354, R362). -/
def State.saveState (s : State) : State :=
  let s := s.scrubTime
  let t : Tbl Nat := s.savedNumbers.zipIdx.foldl (fun t e => t.set 0 e.2 e.1) []
  let t := savedFields.foldl (fun t e => (List.range e.2).foldl (fun t b => t.set 0 (e.1.key 0 b) (s.rd e.1 0 b)) t) t
  let t := (List.range 96).foldl (fun t c => t.set 0 (1000 + c) (s.integ.walkPos.get 0 c)) t
  s.mNv fun n => { n with saved := t, walkers := s.integ.walkers }

/-- SCRUB_STATE_SAVE (R323): every 10 minutes. -/
def execScrubStateSave (s : State) : Host.Outcome State Fault Refusal :=
  .next <| if 4 ≤ s.dst ∧ s.dst ≤ 5 then s.saveState else s

/-- What REBUILD restores of it (R323); with nothing readable a new cycle begins, with a record. -/
def State.restoreState (s : State) : State :=
  let t := s.nv.saved
  if t.get 0 0 = 0 then s.beginCycle.record 2 0x106 [0, 0, 0, 0]
  else
    let s := savedFields.foldl (fun s e => (List.range e.2).foldl (fun s b => s.wr e.1 (t.get 0 (e.1.key 0 b)) 0 b) s) s
    let s := s.mInteg fun i => { i with
      scrubCounted := t.get 0 1, scrubDone := t.get 0 2, catchUp := decide (t.get 0 3 = 1), scrubFrom := s.mono
      walkers := s.nv.walkers
      walkPos := (List.range 96).foldl (fun p c => p.set 0 c (t.get 0 (1000 + c))) ([] : Tbl Nat) }
    s.mSw fun w => { w with
      dayTicks := t.get 0 4, yearDays := t.get 0 5, dayMean := t.get 0 6, yearMean := t.get 0 7
      tempSum := ((t.get 0 8 : Nat) : Int) - (2 ^ 62 : Nat), tempCount := t.get 0 9, tempMaxAt := t.get 0 10, thermalHalts := t.get 0 11 }

end Sys2Proof.Machine
end

