-- ==== Sys2Proof/Machine/Sweep.lean ====
section
/-! DEFINITION. The Sweep's candidates, victims, copies, credit and erases, and its epoch (R69, R252, R339 to
R355, R361, R386). -/

namespace Sys2Proof.Machine

open Sys2Proof

/-! ### Candidates (R339) -/

/-- The closed bands that satisfy a test. -/
def State.closedBands (s : State) (q : Band → Bool) : List Band := s.sw.bands.filter fun b => decide (b.st = 2) && q b

/-- The earliest closed of them. -/
def State.firstClosed (s : State) (q : Band → Bool) : Option Band := pickMin (fun b => b.closedAt) (s.closedBands q)

/-- The VALID units of a band. -/
def State.bandValid (s : State) (b : Band) : Nat := (b.members.map fun k => (s.block k).valid).sum

/-- The unit positions of a band. -/
def State.bandUnits (s : State) (b : Band) : Nat := b.members.length * s.dataEnd b.mode

/-- The VALID share of a band in parts of 2^32. -/
def State.bandShare (s : State) (b : Band) : Nat := s.bandValid b * 2 ^ 32 / max 1 (s.bandUnits b)

/-- Whether a band has a member on a die that is lost (R302), or is to be re-striped for want of parity (R244). -/
def State.hurt (s : State) (b : Band) : Bool :=
  s.sw.noParity.contains b.num || b.members.any fun k => !s.dieOn (k / 131072) (k / 8192 % 16)

/-- Whether a band holds a retired block with valid units. -/
def State.retiredIn (s : State) (b : Band) : Bool :=
  b.members.any fun k => decide ((s.block k).state = 5) && decide ((s.block k).valid ≠ 0)

/-- The spread of a die's erase counts, with the lowest: over its good blocks outside the reserve that have a record
or a count; the others count 0. -/
def State.spread (s : State) (die : Nat) : Nat × Nat :=
  let l := ((s.sw.blocks.map Prod.fst ++ s.sw.erases.map Prod.fst).filter fun k =>
    decide (k / 8192 = die) && (s.block k).inUse).eraseDups
  let c := l.map s.erases
  let low := if l.length < (s.countOn die fun b => b.inUse) then 0 else minOr 0 c
  (c.foldl max 0 - low, low)

/-- The WEAR candidate: on the die of the widest spread beyond SPREAD. -/
def State.wearCand (s : State) : Option Band :=
  let dies := s.diesOn.filter fun d => decide (s.rd R.SWEEP.WEAR_CFG_SPREAD < (s.spread d).1)
  match pickMin (fun d => 2 ^ 40 - (s.spread d).1) dies with
  | none => none
  | some d => s.firstClosed fun b => decide (b.kind ≠ 0) && b.members.any fun k =>
      decide (k / 8192 = d) && decide (s.erases k = (s.spread d).2)

/-- The band of the head entry of the scrub candidates. -/
def State.headBand (s : State) : Option (Band × Nat) :=
  match s.integ.cands with
  | [] => none
  | (k, r) :: _ => (s.sw.bands.find? fun b => b.members.contains k && decide (b.st = 2)).map fun b => (b, r)

/-- The candidate of a kind, as CAND_SEL codes it: 0 FOLD, 1 RELOC, 2 SCRUB, 3 WEAR, 4 RESTRIPE, 5 RETIRE. None of
RELOC and WEAR is offered while the walk that counts VALID runs (R394). -/
def State.candidate (s : State) (kind : Nat) : Option Band :=
  match kind with
  | 0 => s.firstClosed fun b => decide (b.kind = 0)
  | 1 => if s.bell.validWalk then none else pickMin (fun b => s.bandShare b * 2 ^ 64 + b.closedAt) (s.closedBands fun b => decide (b.kind ≠ 0))
  | 2 => s.headBand.map Prod.fst
  | 3 => if s.bell.validWalk then none else s.wearCand
  | 4 => s.firstClosed s.hurt
  | 5 => s.firstClosed s.retiredIn
  | _ => none

/-! ### Victims (R340 to R342) -/

/-- Whether a kind fits a band (R339, R340): firmware names kinds 0 to 3. -/
def kindFits (kind : Nat) (b : Band) : Bool :=
  match kind with
  | 0 => decide (b.kind = 0)
  | 1 => decide (b.kind ≠ 0)
  | 2 => true
  | 3 => decide (b.kind ≠ 0)
  | _ => false

/-- Whether the Sweep begins nothing new (R361): paused, stopped by a real Tally violation, or in SANITIZE. -/
def State.sweepHeld (s : State) : Bool :=
  decide (s.rd R.SWEEP.SWEEP_STAT_CORE_PAUSE = 1) || decide (s.rd R.SWEEP.SWEEP_STAT_TALLY_STOP = 1) || s.mode 3

/-- Whether the wear budget of the day or the year is spent (R355). -/
def State.budgetSpent (s : State) : Bool :=
  decide (s.rd R.HEALTH.WEAR_BUDGET_DAY_PPM ≤ s.rd R.HEALTH.WEAR_USED_DAY_PPM)
    || decide (s.rd R.HEALTH.WEAR_BUDGET2_YEAR_PPM ≤ s.rd R.HEALTH.WEAR_USED2_YEAR_PPM)

/-- The standing of a band's best candidate entry: 3 for none. -/
def State.standing (s : State) (b : Band) : Nat :=
  match s.integ.cands.find? fun e => b.members.contains e.1 with
  | some e => e.2
  | none => 3

/-- The IUs a block's summary names, in order (R343, R384). -/
def State.summaryIus (s : State) (k : Nat) : List (Nat × Nat × Nat × Nat) := (s.block k).summary

/-- Whether an IU's entry, or its row's PRIOR, is an address (R343). -/
def State.names (s : State) (nsid iu addr : Nat) : Bool :=
  match s.cixRow nsid iu with
  | some r => decide (r.prior = addr)
  | none => decide (s.entry nsid iu = addr)

/-- A band becomes a victim: its blocks with it, retired ones excepted; its candidate entries are used up. -/
def State.makeVictim (s : State) (b : Band) (kind : Nat) (hard safety : Bool) : State :=
  let todo := (b.members.map s.summaryIus).flatten
  let s := (s.mBand b.num fun b => { b with st := 3 }).mSw fun w => { w with victims := w.victims ++
    [{ band := b.num, kind := kind, hard := hard, safety := safety, todo := todo, out := 0, walked := false, standing := s.standing b }] }
  let s := b.members.foldl (fun t k => t.mBlock k fun x => if x.state = 2 then { x with state := 3 } else x) s
  s.mInteg fun i => { i with cands := i.cands.filter fun e => !b.members.contains e.1 }

/-- The code a naming is refused with (R340), or 0. -/
def State.nameCode (s : State) (num kind : Nat) : Nat :=
  if s.sweepHeld then 6
  else match s.bandOf num with
    | none => 1
    | some b =>
      if b.st ≠ 2 then 1
      else if kindFits kind b = false then 2
      else if s.mode 2 ∧ (kind = 1 ∨ kind = 3) then 3
      else if (kind = 3 ∨ (kind = 2 ∧ s.standing b = 2)) ∧ s.budgetSpent then 4
      else if 16 ≤ s.sw.victims.length then 5 else 0

/-- VICTIM_CMD.GO (R340), by policy firmware: VICTIM.BAND and VICTIM_CMD.KIND name the victim. -/
def execVictimName (who : Initiator) (s : State) : Host.Outcome State Fault Refusal :=
  .next <| s.access who (pageOf R.SWEEP.VICTIM_CMD_GO 0) R.SWEEP.VICTIM_CMD_GO.off true fun s =>
    if mayWrite R.SWEEP.VICTIM_CMD_GO who = false then s.denyWrite who R.SWEEP.VICTIM_CMD_GO
    else
      let kind := s.rd R.SWEEP.VICTIM_CMD_KIND
      let num := s.rd R.SWEEP.VICTIM_BAND
      let c := s.nameCode num kind
      let i := if kind = 2 ∨ kind = 3 then s.limFire 3 else (false, s)
      let inj := i.1 && decide (c = 0)
      let s := i.2
      let c := if inj then 4 else c
      let s := s.set R.SWEEP.VICTIM_RES_CODE c
      if c = 0 then
        match s.bandOf num with
        | some b => s.makeVictim b kind false (decide (kind = 2) && decide (s.standing b < 2))
        | none => s
      else
        let s := s.count R.SWEEP.VICTIM_REFUSED_COUNT
        if c = 4 then (s.count R.HEALTH.BUDGET_REFUSED_COUNT).refuse 3 (initCode who) (initHart who)
            (regAddr who (pageOf R.SWEEP.VICTIM_CMD_GO 0) R.SWEEP.VICTIM_CMD_GO.off) inj else s

/-- A hardware naming is counted and recorded (R341). -/
def State.forced (s : State) (band kind case_ : Nat) : State :=
  (s.count R.SWEEP.FORCED_COUNT).record 2 0x107 [band, kind, case_, 0]

/-- Whether the dies' free blocks call for a relocation (R341). -/
def State.lowFree (s : State) : Bool :=
  decide (s.freeMin ≤ s.rd R.SWEEP.FREE_CFG_LOW) && !(s.sw.victims.any fun v => v.hard || decide (v.kind = 1))
    && decide (s.sw.relocSeen + 10000000 ≤ s.mono)

/-- HARDWARE_VICTIM_NAMING (R341): the offered RETIRE or RESTRIPE candidate, or with few free blocks the RELOC one. -/
def execHardwareVictimNaming (kind : Nat) (s : State) : Host.Outcome State Fault Refusal :=
  .next <|
    match s.candidate kind with
    | none => s
    | some b =>
      if s.sweepHeld ∨ 16 ≤ s.sw.victims.length ∨ ¬ (4 ≤ kind ∨ (kind = 1 ∧ s.lowFree)) then s
      else (s.makeVictim b kind true true).forced b.num kind (if kind = 1 then 2 else 1)

/-- VICTIM_WALK_TIMEOUT (R341): a walk not finished after 10 s makes its band a forced one. -/
def execVictimWalkTimeout (band : Nat) (s : State) : Host.Outcome State Fault Refusal :=
  .next <|
    match s.sw.victims.find? fun v => decide (v.band = band) with
    | none => s
    | some v =>
      if v.walked then s
      else (s.mSw fun w => { w with victims := w.victims.map fun x =>
        if x.band = band then { x with hard := true, safety := true } else x }).forced band v.kind 3

/-- SWEEP_CTRL.RESUME (R361). -/
def execSweepCtrlResume (who : Initiator) (s : State) : Host.Outcome State Fault Refusal :=
  .next <| s.access who (pageOf R.SWEEP.SWEEP_CTRL_RESUME 0) R.SWEEP.SWEEP_CTRL_RESUME.off true fun s =>
    if mayWrite R.SWEEP.SWEEP_CTRL_RESUME who = false then s.denyWrite who R.SWEEP.SWEEP_CTRL_RESUME
    else s.wr R.SWEEP.SWEEP_STAT_CORE_PAUSE 0

/-! ### Credit (R349, R350) -/

/-- The cap of the credit, in 2^-16 ns. -/
def State.creditCap (s : State) : Nat := s.rd R.SWEEP.CREDIT_CAP_MS * 1000000 * s.mts / 3600 * 65536

/-- CREDIT follows the credit. -/
def State.showCredit (s : State) : State := s.wr64 R.SWEEP.CREDIT_LO_VALUE R.SWEEP.CREDIT_HI_VALUE (s.sw.credit / 65536)

/-- The tax of an accepted write is earned, in 2^-16 ns; what passes the cap is forfeited (R349). -/
def State.earnCredit (s : State) (tax : Nat) : State :=
  let c := s.sw.credit + tax
  let v := min c (max s.sw.credit s.creditCap)
  let f := s.sw.forfeitRest + (c - v)
  let us := 1000 * 65536
  ((s.mSw fun w => { w with credit := v, forfeitRest := f % us }).count R.SWEEP.FORFEIT_US 0 0 (f / us)).showCredit

/-- The channel time of a copy of `bytes`, in 2^-16 ns. -/
def copyCost (bytes : Nat) : Nat := bytes * 645161 * 65536 / 1000000

/-- The order of copies among victims (R350). -/
def copyRank (v : Victim) : Nat :=
  if v.kind = 5 then 0 else if v.kind = 2 ∧ v.safety ∧ v.standing = 0 then 1 else if v.kind = 4 then 2
  else if v.kind = 1 ∧ v.hard then 3 else if v.kind = 2 ∧ v.safety then 4 else 5

/-- Whether a data-safety copy fits the share of a channel's time while the credit is short. -/
def State.shareFits (s : State) (ch : Nat) : Bool :=
  let used := (s.sw.copied.filter fun e => decide (s.mono < e.1 + 100000) && decide (e.2.1 = ch)).map fun e => e.2.2
  decide (used.sum < s.rd R.SWEEP.FREE_CFG2_SHARE * 1000)

/-- Whether a copy may start (R350, R361): folds spend no credit; firmware's RELOC, SCRUB and WEAR need it, but for
MAINTAIN; data-safety copies that lack it keep to their share. While the Sweep is held, only a block already begun
is finished, and a pause stops that too. -/
def State.mayCopy (s : State) (v : Victim) (e : Nat × Nat × Nat × Nat) : Bool :=
  let bytes := iuUnits (s.ns e.1).iu * 4096
  let blk := aBlockKey e.2.2.2
  let begun := decide ((v.todo.filter fun x => decide (aBlockKey x.2.2.2 = blk)).length < (s.summaryIus blk).length)
  let paid := decide (copyCost bytes ≤ s.sw.credit)
  decide (s.rd R.SWEEP.SWEEP_STAT_CORE_PAUSE = 0) && (!s.sweepHeld || begun)
    && (decide (v.kind = 0) || paid || (if v.safety then s.shareFits (aCh e.2.2.2) else s.mode 4 && !bit s.pwr.above 0))
    && (decide (v.kind ≠ 0) || !s.foldHeld || (s.sw.bands.any fun b => decide (b.st = 1) && decide (b.kind = 1)))

/-! ### The copy (R343 to R348) -/

/-- A victim's walk is over once no copy is outstanding: members left with VALID are counted and recorded, and what
their headers say is still named is copied (R343). -/
def State.endWalk (s : State) (v : Victim) : State :=
  match s.bandOf v.band with
  | none => s
  | some b =>
    let left := b.members.filter fun k => decide ((s.block k).valid ≠ 0) && decide ((s.block k).state = 3)
    let s := left.foldl (fun t k => (t.count R.SWEEP.VALID_MISMATCH_COUNT).record 2 0x108 [b.num, k / 131072, k / 8192 % 16, k % 8192]) s
    let heads := (left.map fun k => (s.nv.media.filter fun e => decide (aBlockKey e.1 = k)).filterMap fun e =>
      match e.2 with
      | some c => if s.names c.nsid c.iu e.1 then some (c.nsid, c.iu, c.stamp, e.1) else none
      | none => none).flatten
    s.mSw fun w => { w with victims := w.victims.map fun x =>
      if x.band = v.band then { x with walked := true, todo := heads } else x }

/-- The pool whose crates hold an IU of `n` units (R257). -/
def poolOfUnits (n : Nat) : Nat := if n ≤ 1 then 0 else if n ≤ 4 then 1 else 2

/-- The sweep prefetch (R217): the lines of the IUs that follow in a victim's summaries, at most 64 ahead. -/
def State.sweepPrefetch (s : State) (band : Nat) : State :=
  if s.rd R.LCACHE.PF_CFG_SWEEP = 0 then s
  else match s.sw.victims.find? fun v => decide (v.band = band) with
    | none => s
    | some v => (((v.todo.filterMap fun e => (s.ns e.1).lineOf e.2.1).eraseDups).take 64).foldl (fun (t : State) l => t.prefetch l) s

/-- A copy starts: its slot, its credit, its SWEEP crate and its reads, a read it cannot have ending it (R343, R348,
R349). -/
def State.startCopy (s : State) (v : Victim) (e : Nat × Nat × Nat × Nat) : State :=
  let n := iuUnits (s.ns e.1).iu
  let slot := s.sw.nextSlot
  let cost := copyCost (n * 4096)
  let short := decide (s.sw.credit < cost)
  let s := (s.lookIu e.1 e.2.1).sweepPrefetch v.band
  let s := s.mSw fun w => { w with
    nextSlot := slot % 0xFFFF + 1
    credit := if v.kind = 0 ∨ v.kind = 5 then w.credit else w.credit - cost
    copied := if short && v.safety then
        (w.copied.filter fun x => decide (s.mono < x.1 + 100000)) ++ [(s.mono, aCh e.2.2.2, cost / 65536)] else w.copied
    copies := w.copies ++ [{ slot := slot, band := v.band, nsid := e.1, iu := e.2.1, stamp := e.2.2.1, source := e.2.2.2,
                             left := n, data := [], keys := [], uncMask := 0, fillMask := 0 }]
    victims := w.victims.map fun x => if x.band = v.band then { x with out := x.out + 1 } else x }
  let a := s.showCredit.askCrates { cls := 5, count := 1, pool := poolOfUnits n, kind := 1, owner := 3, otag := 0, who := slot }
  let s := match a.1 with
    | some l => a.2.mCr fun c => { c with grants := c.grants ++ [(5, slot, l)] }
    | none => a.2
  let all := (List.range n).all fun k => s.readable (s.cwPlus e.2.2.2 k)
  if all then (List.range n).foldl (fun t k => t.addRead (.sweep slot) 2 e.1 e.2.1 k (t.cwPlus e.2.2.2 k)) s
  else s.copyLost slot

/-- The IUs of a victim still to copy that still name their address. -/
def State.todoOf (s : State) (v : Victim) : List (Nat × Nat × Nat × Nat) :=
  v.todo.dropWhile fun e => !s.names e.1 e.2.1 e.2.2.2

/-- SWEEP_COPY_START (R343, R350): the next IU of the victim that is still named there is copied, where the victim
stands first among those that may copy; with none left its walk ends. -/
def execSweepCopyStart (band : Nat) (s : State) : Host.Outcome State Fault Refusal :=
  .next <|
    match s.sw.victims.find? fun v => decide (v.band = band) with
    | none => s
    | some v =>
      match s.todoOf v with
      | [] =>
        let s := s.mSw fun w => { w with victims := w.victims.map fun x => if x.band = band then { x with todo := [] } else x }
        if v.out = 0 ∧ v.walked = false then s.endWalk { v with todo := [] } else s
      | e :: rest =>
        let ready := s.sw.victims.filter fun x => match s.todoOf x with
          | [] => false
          | y :: _ => s.mayCopy x y
        let first := pickMin copyRank ready
        if first.map (fun x => x.band) ≠ some band then s
        else (s.mSw fun w => { w with victims := w.victims.map fun x => if x.band = band then { x with todo := rest } else x }).startCopy v e

/-- VICTIM_ERASE (R345, R361, R394): a member of a victim whose walk is over, with no copy out of it outstanding and
VALID 0, is erased through its die. -/
def execVictimErase (block : Nat) (s : State) : Host.Outcome State Fault Refusal :=
  .next <|
    let b := s.block block
    match s.sw.victims.find? fun v => decide (v.band = b.band) with
    | none => s
    | some v =>
      let s := if v.walked = false ∧ v.out = 0 ∧ s.todoOf v = [] then s.endWalk v else s
      let v := (s.sw.victims.find? fun x => decide (x.band = b.band)).getD v
      let busy := (s.sw.copies.any fun c => decide (aBlockKey c.source = block))
        || v.todo.any fun e => decide (aBlockKey e.2.2.2 = block) && s.names e.1 e.2.1 e.2.2.2
      if b.state ≠ 3 ∨ v.walked = false ∨ busy ∨ (s.block block).valid ≠ 0 ∨ s.bell.validWalk
          ∨ s.rd R.SWEEP.SWEEP_STAT_CORE_PAUSE = 1 ∨ s.sweepHeld ∨ s.dieOn (block / 131072) (block / 8192 % 16) = false then s
      else s.askErase block

/-! ### Checkpoint laps (R386) -/

/-- A lap begins; in PS3 it is held, and in PS4 it is complete at its start (R481). Else: an ALL CLEAN of the ledger cache, whose lines are logged, and the flush of the journal so far. -/
def State.startLap (s : State) : State :=
  if s.bell.lap.isSome ∨ (s.dst ≠ 4 ∧ s.dst ≠ 5) then s
  else if s.eff = 3 then s.mBell fun b => { b with lapHeld := true }
  else if s.eff = 4 then
    let n := s.rd R.CKPT.CKPT_LAP_NUM + 1
    let s := (s.journal 8 [n, s.mono, s.nextStamp, s.bell.made]).wr R.CKPT.CKPT_LAP_NUM n
    (s.wr64 R.CKPT.CKPT_H_LO_VALUE R.CKPT.CKPT_H_HI_VALUE s.mono).wr R.CKPT.LAP_LAST_US 0
  else
    let s := s.lc.ways.foldl (fun t e => match e.2 with
      | some c => (t.writeBack c).setWay (e.1 / 16) (e.1 % 16) (some { c with dirty := false })
      | none => t) s
    s.mBell fun b => { b with
      lap := some (s.rd R.CKPT.CKPT_LAP_NUM + 1, s.mono, s.nextStamp, b.made), flushing := b.journal.length, lapLate := false }

/-! ### The epoch (R69, R252, R351, R352, R354) -/

/-- The fill level: the size of every live IU over the user capacity (R69). -/
def State.fillLevel (s : State) : Nat :=
  let u := s.spareU
  let v := (s.led.ns.map fun e => (s.liveIus e.1).length * iuUnits e.2.iu * 4096).sum
  if u = 0 then 0 else min 10000 (v * 10000 / u)

/-- The measured amplification of a pitch after an epoch in which it wrote (R69, R351), to the nearest hundredth. -/
def nextAmp (t host sweep : Nat) : Nat :=
  if host = 0 then t else (2 * (3 * t * host + 100 * (host + sweep)) + 4 * host) / (8 * host)

/-- T_p of every pitch is updated, and the epoch's bytes start again. -/
def State.updateAmps (s : State) : State :=
  s.mPit fun x => { x with table := x.table.map fun e =>
    (e.1, { e.2 with meas := nextAmp e.2.meas e.2.hostBytes e.2.sweepBytes, hostBytes := 0, sweepBytes := 0 }) }

/-- The target of the SLC buffer in MiB of SLC data (R252). -/
def State.slcTarget (s : State) : Nat :=
  let w := s.widest
  if w = 0 then 0
  else s.diesOn.length * s.st.blocks * s.denseBytes * s.slcShare * (w - 1) / (10000 * w * modeBits s.dense * 1048576)

/-- Wear days and years roll over, and their budgets with them (R354, R355). -/
def State.wearRoll (s : State) : State :=
  let day := 86400 * 100000000
  let t := s.sw.dayTicks + (s.mono - s.sw.lastWearTick)
  let s := s.mSw fun w => { w with lastWearTick := s.mono, dayTicks := t }
  if t < day then s
  else
    let m := s.wearMean
    let s := (s.count R.HEALTH.DAYS_COUNT).mSw fun w => { w with dayTicks := t - day, yearDays := w.yearDays + 1, dayMean := m }
    let s := if s.sw.yearDays < 365 then s else s.mSw fun w => { w with yearDays := 0, yearMean := m }
    (s.mCf fun c => { c with dayErases := [] }).reckonWear

/-- SWEEP_EPOCH (R352): the fill level is latched, every T_p updated, the buffer's target set, the wear calendar
checked, and a lap begins. The candidates are those that stand whenever they are read. -/
def execSweepEpoch (s : State) : Host.Outcome State Fault Refusal :=
  .next <|
    let s := (s.wr R.INTAKE.FILL_LEVEL_F s.fillLevel).updateAmps
    let s := s.wr R.WPATH.SLC_TARGET_MIB s.slcTarget
    let s := (s.wearRoll.wr R.CKPT.LOG_RATE_MBPS (s.bell.logged * 256 / 1000000)).mBell fun b => { b with logged := 0 }
    let s := s.mNv fun n => { n with deferLog := s.host.deferLog, deferTotal := s.rd R.INTAKE.DEFER_TOTAL_COUNT }
    s.startLap

end Sys2Proof.Machine
end

