-- ==== Sys2Proof/Machine/Laps.lean ====
section
/-! DEFINITION. Checkpoint laps, the rolling walk, and the record journal (R376, R385 to R387). -/

namespace Sys2Proof.Machine

open Sys2Proof

/-- Line records become durable: the newest of each line takes the place of the older (R385, R389). -/
def logDurable (old new : List LineRec) : List LineRec :=
  (old.filter fun r => !(new.any fun x => decide (x.nsid = r.nsid) && decide (x.line = r.line))) ++ new

/-- The `n` oldest journal records have good status in RECORDS and leave the journal (R376). -/
def State.flushed (s : State) (n : Nat) : State :=
  let l := s.bell.journal.take n
  let s := (s.mNv fun v => { v with records := v.records ++ l }).mBell fun b => { b with
    journal := b.journal.drop n, flushing := b.flushing - min n b.flushing }
  s.wr R.CKPT.JOURNAL_USE_RECORDS s.bell.journal.length

/-- The end of a lap that is late releases the writes it held (R386, R398). -/
def State.lapOver (s : State) (start : Nat) : State :=
  let s := if s.bell.lapLate then s.count R.CKPT.LATE_HOLD_US 0 0 ((s.mono - start - 90000000) / 100) else s
  s.mBell fun b => { b with lap := none, lapLate := false }

/-- LAP_COMPLETE (R386): the lap's lines and journal records are durable; a LAP record is made, and H becomes the
lap's start. Trims older than H are in the lines and are needed no more. -/
def execLapComplete (s : State) : Host.Outcome State Fault Refusal :=
  .next <|
    match s.bell.lap with
    | none => s
    | some (num, start, next, no) =>
      let s := s.flushed s.bell.flushing
      let ripe := s.bell.lines.filter fun r => decide (r.at_ ≤ no)
      let s := (s.mNv fun v => { v with
          ckpt := logDurable v.ckpt ripe
          records := v.records.filter fun r => !(decide (r.kind ≤ 2) && decide (r.no < no)) }).mBell fun b =>
        { b with lines := b.lines.filter fun r => !(decide (r.at_ ≤ no)) }
      let s := (s.journal 8 [num, start, next, no]).wr R.CKPT.CKPT_LAP_NUM num
      let s := (s.wr64 R.CKPT.CKPT_H_LO_VALUE R.CKPT.CKPT_H_HI_VALUE start).wr R.CKPT.LAP_LAST_US ((s.mono - start) / 100)
      s.lapOver start

/-- LAP_LATE (R386): writes wait until the lap completes. -/
def execLapLate (s : State) : Host.Outcome State Fault Refusal :=
  .next <|
    if s.bell.lap.isNone ∨ s.bell.lapLate then s
    else (s.mBell fun b => { b with lapLate := true }).count R.CKPT.LATE_COUNT

/-- The ledger lines of every namespace, in DRAM address order (R387). -/
def State.allLines (s : State) : List Nat :=
  let l := (s.led.ns.map fun e => (List.range (ceilDiv e.2.ius 48)).filterMap fun k => e.2.lineAddr k).flatten
  let gs := (l.map fun a => a / 4096).eraseDups
  let top := gs.foldl max 0
  (((List.range (top + 1)).filter fun g => gs.contains g).map fun g => (List.range 4096).filterMap fun i =>
    if l.contains (g * 4096 + i) then some (g * 4096 + i) else none).flatten

/-- ROLLING_WALK (R387): the next line in address order is taken through the cache and logged; a circuit ends with
the last. -/
def execRollingWalk (s : State) : Host.Outcome State Fault Refusal :=
  .next <|
    let l := s.allLines
    if (s.dst ≠ 4 ∧ s.dst ≠ 5) ∨ l = [] then s
    else
      let i := s.bell.walkAt % l.length
      let s := match l[i]? with
        | some a => (s.lookLine a).logLine a
        | none => s
      let j := (i + 1) % l.length
      (s.mBell fun b => { b with walkAt := j, walked := if j = 0 then b.walked + 1 else b.walked }).wr
        R.CKPT.CIRCUIT_PERMILLE (j * 1000 / l.length)

/-- JOURNAL_FLUSH (R376): the journal's records are programmed to RECORDS and leave it. -/
def execJournalFlush (s : State) : Host.Outcome State Fault Refusal :=
  .next <| if 3 ≤ s.dst ∧ s.dst ≤ 5 then s.flushed s.bell.journal.length else s

/-- RECORDS_SAVE (R376): every block record and the erase-count table are saved whole. -/
def execRecordsSave (s : State) : Host.Outcome State Fault Refusal :=
  .next <|
    if s.dst = 4 ∨ s.dst = 5 then
      s.mNv fun v => { v with blocks := s.sw.blocks, erases := s.sw.erases, saveNo := s.bell.made }
    else s

end Sys2Proof.Machine
end

