-- ==== Sys2Proof/Machine/Cipher.lean ====
section
/-! DEFINITION. The cipher engine (R400 to R419): media units, media keys, general slots, and the jobs of the
user pages. -/

namespace Sys2Proof.Machine

open Sys2Proof

/-! ### Media units (R401 to R405) -/

/-- An egress channel takes a deciphered unit (R420, R425). -/
def State.toEgress (s : State) (r : MRead) (uid : Nat) : State :=
  match s.cmdOf uid with
  | none => s
  | some c =>
    let n := s.ns r.nsid
    let k := r.iu * iuUnits n.iu + r.unit
    let from_ := max (c.slba * n.block) (k * 4096)
    let last := min ((c.slba + c.nlb) * n.block) ((k + 1) * 4096)
    s.mPor fun p => { p with egress := p.egress ++
      [{ read := r.id, uid := uid, ch := min c.cls 3, start := from_ - c.slba * n.block, gone := 0, left := last - from_
         arrived := s.mono }] }

/-- A pipe has deciphered a unit (R403, R404): a merge's goes to its crate, a Read's to the Porter, a Compare's
or Verify's to its command. An empty slot fails the unit (R410). -/
def State.unitDeciphered (s : State) (r : MRead) (c : Cw) : State :=
  if s.keyNo r.nsid = 0 then
    let s := (s.slotBad (r.nsid - 1)).dropRead r
    match r.src with
    | .cmd uid => s.unitFailed uid r.iu
    | .merge uid => s.mergeFailed uid
    | _ => s
  else
    let v := s.decipher r.nsid c
    let s := s.count R.CIPHER.DEC_UNITS_COUNT
    let s := if r.cls = 0 then s.peak R.CIPHER.URG_WAIT_MAX_NS (min 65535 ((s.mono - r.arrived) * 10)) else s
    match r.src with
    | .merge uid => (s.dropRead r).mergeUnit uid (r.iu * iuUnits (s.ns r.nsid).iu + r.unit) v
    | .cmd uid =>
      match s.cmdOf uid with
      | some k =>
        if k.kind = .read then
          (s.mRead r.id fun x => { x with st := 8, got := some { c with data := v } }).toEgress r uid
        else (s.dropRead r).unitArrived uid r.iu r.unit v
      | none => s.dropRead r
    | _ => s

/-- An IU of a program unit passes the pipes: its host units and the zero units of a DEALLOCATED PRIOR are
enciphered under the namespace's key; units filled from media keep theirs (R190, R404). -/
def State.encIu (s : State) (u : UnitIu) : UnitIu :=
  let own := fun k => !bit u.fillMask k || decide (u.keys.getD k 0 = 0)
  { u with enc := true
           keys := (List.range (s.lenOf u)).map fun k => if own k then s.keyNo u.nsid else u.keys.getD k 0 }

/-- The units of an IU that the pipes encipher. -/
def State.encCount (s : State) (u : UnitIu) : Nat :=
  if u.enc then 0
  else ((List.range (s.lenOf u)).filter fun k => !bit u.fillMask k || decide (u.keys.getD k 0 = 0)).length

/-- An injected slot error reloads the slot from its key record (R415, R571). -/
def State.slotFire (s : State) (slot : Nat) : State :=
  let f := s.fire (pageOf R.CIPHER.KEY_SEL_SLOT 0) 0 fun sub _ => decide (sub = slot)
  if f.1 then f.2.count R.CIPHER.ERR_SLOT_RELOAD else f.2

/-- A pipe finishes (R401): an enciphering pipe a program unit's host units, a deciphering pipe the unit of a
media read. A host unit whose crate no longer corrects ends in a deferred error of cause 3 (R245). -/
def execCipherUnitComplete (encipher : Bool) (id : Nat) (s : State) : Host.Outcome State Fault Refusal :=
  .next <|
    if encipher then
      match s.unitOf id with
      | none => s
      | some p =>
        let bad := p.ius.filter fun u => !u.enc && s.cr.eccBad.get false u.crate
        let n := (p.ius.map fun u => s.encCount u).sum
        let s := (p.ius.filter fun u => !u.enc).foldl (fun t u => t.slotFire (u.nsid - 1)) s
        let s := s.count R.CIPHER.ENC_UNITS_COUNT 0 0 n
        let s := s.mWp fun w => { w with units := w.units.map fun q =>
          if q.id = id then { q with ius := q.ius.map fun u => if u.enc then u else s.encIu u } else q }
        bad.foldl (fun t u => t.deferIu u.nsid u.iu u.crate u.stamp 3) s
    else
      match s.readOf id with
      | none => s
      | some r =>
        match r.got with
        | some c => if r.st = 7 then (s.slotFire (r.nsid - 1)).unitDeciphered r c else s
        | none => s

/-! ### Media keys (R405 to R410) -/

/-- USE of a media slot (R405). -/
def State.slotUse (s : State) (slot : Nat) : Nat :=
  (s.led.cix.filter fun r => decide (r.nsid = slot + 1)).length
    + (s.host.cmds.filter fun c => decide (c.nsid = slot + 1) && decide (c.kind ≠ .admin) && decide (c.stage = .accepted)).length

/-- Whether a state of R407 permits a new key for a slot. -/
def State.keyPermitted (s : State) (slot : Nat) : Bool :=
  let n := s.ns (slot + 1)
  decide (n.st = 1) || (n.formatting && (decide (n.ses = 1) || decide (n.ses = 2))) || s.mode 3

/-- Two key halves drawn by the random bit generator. -/
def State.drawKey (s : State) : (Nat × Nat) × State :=
  let a := s.fresh
  let b := a.2.fresh
  ((Config.freeValue a.1 % 2 ^ 256, Config.freeValue b.1 % 2 ^ 256), b.2)

/-- KEY_CMD.OP 1 of the CIPHER page: GENERATE for the selected media slot (R407, R417). -/
def execMediaKeyGenerate (who : Initiator) (s : State) : Host.Outcome State Fault Refusal :=
  .next <| s.access who (pageOf R.CIPHER.KEY_CMD_OP 0) R.CIPHER.KEY_CMD_OP.off true fun s =>
    let slot := s.rd R.CIPHER.KEY_SEL_SLOT
    if mayWrite R.CIPHER.KEY_CMD_OP who = false then s.denyWrite who R.CIPHER.KEY_CMD_OP
    else if s.rd R.CIPHER.KEY_CMD_BUSY = 1 then s.count R.CIPHER.KEY_RES_DROPPED
    else if s.keyPermitted slot = false then s.set R.CIPHER.KEY_RES_CODE 1
    else if s.slotUse slot ≠ 0 then s.set R.CIPHER.KEY_RES_CODE 2
    else
      let k := s.drawKey
      if k.1.1 = k.1.2 then k.2.set R.CIPHER.KEY_RES_CODE 3
      else (k.2.mCiph fun c => { c with generating := some (slot, k.1.1, k.1.2) }).set R.CIPHER.KEY_CMD_BUSY 1

/-- A value of the wrap counter is used (R409); code flash is told before the counter passes what it holds. -/
def State.takeWrap (s : State) : Nat × State :=
  let v := s.dev.wrap
  let s := s.mDev fun d => { d with wrap := (v + 1) % 2 ^ 64 }
  (v, if s.nv.wrapCtr + 65535 ≤ v then s.mNv fun n => { n with wrapCtr := (v + 1) % 2 ^ 64 } else s)

/-- The code-flash controller reports the key record written, or not (R408): only then is the slot used. -/
def execKeyRecordWritten (ok : Bool) (s : State) : Host.Outcome State Fault Refusal :=
  .next <|
    match s.ciph.generating with
    | none => s
    | some (slot, k1, k2) =>
      let s := s.mCiph fun c => { c with generating := none }
      if ok then
        let w := s.takeWrap
        let seq := w.1 % 2 ^ 32
        let s := w.2.mCiph fun c => { c with media := c.media.set {} slot { loaded := true, bad := false, seq := seq, k1 := k1, k2 := k2 } }
        let s := s.mNv fun n => { n with keyRecs := n.keyRecs.set none slot (some (seq, k1, k2, true)) }
        (s.set R.CIPHER.KEY_RES_CODE 0).set R.CIPHER.KEY_CMD_BUSY 0
      else (s.set R.CIPHER.KEY_RES_CODE 3).set R.CIPHER.KEY_CMD_BUSY 0

/-- Media slots are loaded from their key records (R410, R416): one whose record is missing or does not open is
left empty, with a record. -/
def State.loadSlots (s : State) : State :=
  (List.range 256).foldl (fun (t : State) k =>
    match t.nv.keyRecs.get none k with
    | some (seq, k1, k2, true) =>
      t.mCiph fun c => { c with media := c.media.set {} k { loaded := true, bad := false, seq := seq, k1 := k1, k2 := k2 } }
    | some (_, _, _, false) =>
      (t.mCiph fun c => { c with media := c.media.set {} k { bad := true } }).record 4 0x180 [k, 2, 0, 0]
    | none =>
      let t := t.mCiph fun c => { c with media := c.media.set {} k {} }
      if (t.ns (k + 1)).st = 0 then t
      else (t.mCiph fun c => { c with media := c.media.set {} k { bad := true } }).record 4 0x180 [k, 1, 0, 0]) s

/-! ### User pages (R411) -/

/-- The owner of a user page: 0 none, 1 management cores, 2 policy cores, 3 the Porter. -/
def State.pageOwner (s : State) (p : Nat) : Nat := bits (s.rd R.CIPHER.USER_OWNER_MAP) (2 * p) 2

/-- Whether an initiator reaches a user page. -/
def State.mayUser (s : State) (who : Initiator) (p : Nat) : Bool :=
  match who with
  | .policy _ _ _ => decide (s.pageOwner p = 2)
  | .mgmt _ _ => decide (s.pageOwner p = 1)
  | .mi => false
  | .bootRom => true

/-- An access by another initiator changes nothing, is counted and recorded (R411), and is a refusal under
limit 16 (R499). -/
def State.isoRefuse (s : State) (who : Initiator) (p off : Nat) (inj : Bool := false) : State :=
  ((s.count R.CIPHER.ISO_REFUSED_COUNT).record 4 0x181 [p, initCode who, off, 0] inj).refuse 16 (initCode who) (initHart who)
    (regAddr who (pageOf R.CUSER.JOB_MODE_MODE p) off) inj

/-- A write to a user page passes its owner and BUSY (R411, R418) and then acts. -/
def State.onPage (s : State) (who : Initiator) (p off : Nat) (f : State → State) : State :=
  if 16 ≤ p then s
  else s.access who (pageOf R.CUSER.JOB_MODE_MODE p) off true fun s =>
    let i := s.limFire 16
    let s := i.2
    if s.mayUser who p = false then s.isoRefuse who p off
    else if i.1 then s.isoRefuse who p off true
    else if s.rd R.CUSER.JOB_STAT_BUSY p = 1 then s.count R.CUSER.JOB_STAT_DROPPED p
    else f s

/-- A page's chaining state is loaded or cleared, with JOB_STAT.CHAINED. -/
def State.setChain (s : State) (p : Nat) (c : Option Chain) : State :=
  (s.mCiph fun x => { x with chains := x.chains.set none p c }).wr R.CUSER.JOB_STAT_CHAINED (b2n c.isSome) p

/-- A page's job ends with a code. -/
def State.endJob (s : State) (p code : Nat) : State :=
  ((s.mCiph fun x => { x with jobs := x.jobs.set none p none }).set R.CUSER.JOB_STAT_CODE code p).set
    R.CUSER.JOB_STAT_BUSY 0 p

/-- JOB_IV as one number, IV0 least significant. -/
def State.jobIv (s : State) (p : Nat) : Nat :=
  s.rd (R.CUSER.JOB_IV_VALUE 0) p + s.rd (R.CUSER.JOB_IV_VALUE 1) p * 2 ^ 32 + s.rd (R.CUSER.JOB_IV_VALUE 2) p * 2 ^ 64
    + s.rd (R.CUSER.JOB_IV_VALUE 3) p * 2 ^ 96

/-- The general slot of a number, where it holds a key. -/
def State.genSlot (s : State) (n : Nat) : Option GSlot := s.ciph.gen.get none n

/-! ### Sources and destinations (R412) -/

/-- The lent crate a handle names, where it passes the checks of R273. -/
def State.lentCrate (s : State) (h : Nat) : Option Nat :=
  match (if h % 16 = 0 then crateAt (h - h % 0x1000) else none) with
  | none => none
  | some n =>
    let d := s.crate n
    if d.state = 2 ∧ d.owner = 5 ∧ d.gen = bits h 4 8 then some n else none

/-- The FIRMWARE region of DRAM (R174). -/
def inFirmware (a len : Nat) : Bool := decide (a + len ≤ 0x100000000)

/-- Whether a source or destination of kind and value may be used for `len` bytes. -/
def State.mayMove (s : State) (kind v len : Nat) : Bool :=
  match kind with
  | 0 => inFirmware v len
  | 1 => match s.lentCrate (v % 2 ^ 32) with
    | some n => decide (len ≤ poolSize (cratePool n))
    | none => false
  | _ => false

/-- Bytes of a source. -/
def State.srcBytes (s : State) (kind v len : Nat) : List Nat :=
  match kind with
  | 0 => bytesAt s.dram v len
  | 1 => match s.lentCrate (v % 2 ^ 32) with
    | some n => bytesAt s.cr.mem (crateBase n) len
    | none => []
  | _ => []

/-- Bytes are written to a destination. -/
def State.dstBytes (s : State) (kind v : Nat) (bs : List Nat) : State :=
  match kind with
  | 0 => { s with dram := putBytes s.dram v bs }
  | 1 => match s.lentCrate (v % 2 ^ 32) with
    | some n => s.crateWrite (crateBase n) bs
    | none => s
  | _ => s

/-- JOB_SRC's address or handle. -/
def State.jobSrc (s : State) (p : Nat) : Nat := s.rd R.CUSER.JOB_SRC_LO_VALUE p + s.rd R.CUSER.JOB_SRC_HI_VALUE p * 2 ^ 32

/-- JOB_DST's address or handle. -/
def State.jobDst (s : State) (p : Nat) : Nat := s.rd R.CUSER.JOB_DST_LO_VALUE p + s.rd R.CUSER.JOB_DST_HI_VALUE p * 2 ^ 32

/-! ### Jobs (R412, R413) -/

/-- The bytes of an XTS data unit by JOB_MODE.DU. -/
def State.jobUnit (s : State) (p : Nat) : Nat := 512 * 2 ^ s.rd R.CUSER.JOB_MODE_DU p

/-- The AAD bytes a chunk takes from its source: GCM's, in the FIRST chunk only. -/
def State.jobAad (s : State) (p : Nat) (j : Job) : Nat :=
  if j.first ∧ j.mode ≤ 2 then s.rd R.CUSER.JOB_AAD_BYTES p else 0

/-- The bytes a chunk holds for the next one. -/
def holdOf (last : Bool) (have_ len : Nat) : Nat := if last then 0 else (have_ + len) % 16

/-- The bytes a chunk writes out. -/
def State.jobOut (s : State) (p : Nat) (j : Job) : Nat :=
  let held := match s.ciph.chains.get none p with
    | some c => c.held.length
    | none => 0
  let len := s.rd R.CUSER.JOB_LEN_BYTES p
  if 4 ≤ j.mode then len else held + len - holdOf j.last held len

/-- The job that GO would start: a chunk after the first goes on under the chaining state's mode and slot. -/
def State.jobWanted (s : State) (p flags : Nat) : Job :=
  match bit flags 1, s.ciph.chains.get none p with
  | false, some c => { first := false, last := bit flags 2, mode := c.mode, slot := c.slot }
  | f, _ => { first := f, last := bit flags 2, mode := s.rd R.CUSER.JOB_MODE_MODE p, slot := s.rd R.CUSER.JOB_KEY_SLOT p }

/-- The code a job is refused with, before any byte moves; `moves` says whether its source and destination
pass (R412, R413, R418). -/
def State.jobRefusal (s : State) (p : Nat) (j : Job) (moves : Bool) : Option Nat :=
  let len := s.rd R.CUSER.JOB_LEN_BYTES p
  let xts := decide (4 ≤ j.mode)
  let tail := len % s.jobUnit p
  if j.mode = 0 ∨ 5 < j.mode ∨ (xts = true ∧ (len < 16 ∨ (tail ≠ 0 ∧ tail < 16))) then some 4
  else if j.slot < 256 then some 3
  else match s.genSlot j.slot with
    | none => some 2
    | some g =>
      if g.owner ≠ p then some 3
      else if (s.ciph.chains.get none p).isSome = j.first ∨ (xts = true ∧ (j.first = false ∨ j.last = false)) then some 8
      else if moves = false then some 5
      else none

/-- The chaining state a chunk begins with: a FIRST one's from the registers, with its AAD hashed. -/
def State.jobChain (s : State) (p : Nat) (j : Job) (k : Nat) (aad : List Nat) : Chain :=
  match (if j.first then none else s.ciph.chains.get none p) with
  | some c => c
  | none =>
    let gcm := decide (j.mode ≤ 2)
    let iv := s.jobIv p
    { mode := j.mode, slot := j.slot, ctr := if gcm then nextCtr true (gcmJ0 iv) else iv, j0 := gcmJ0 iv
      acc := if gcm then ghash (gcmH k) 0 aad else 0, held := [], aad := aad.length, len := 0
      tagLen := s.rd R.CUSER.JOB_MODE_TAG_LEN p }

/-- JOB_TAG as its words show a tag. -/
def State.putTag (s : State) (p : Nat) (tag : List Nat) : State :=
  (words32 tag).zipIdx.foldl (fun t e => t.wr (R.CUSER.JOB_TAG_VALUE e.2) e.1 p) s

/-- TAG_EXP's bytes, the first word first. -/
def State.expTag (s : State) (p : Nat) : List Nat :=
  (List.range 4).flatMap fun n => bytesOf (s.rd (R.CUSER.TAG_EXP_VALUE n) p) 4

/-- A GCM or CTR chunk over its payload: what it writes out, its code, and the state with the chaining state, the
tag and TAG_OK (R413). -/
def State.runChunk (s : State) (p : Nat) (j : Job) (k : Nat) (aad body : List Nat) : List Nat × Nat × State :=
  let c := s.jobChain p j k aad
  let gcm := decide (c.mode ≤ 2)
  let all := c.held ++ body
  let keep := holdOf j.last c.held.length body.length
  let now := all.take (all.length - keep)
  let r := ctrBytes k gcm now c.ctr
  let hashed := if c.mode = 2 then now else r.1
  let acc := if gcm then ghash (gcmH k) c.acc hashed else 0
  let len := c.len + body.length
  if j.last = false then
    (r.1, 0, s.setChain p (some { c with ctr := r.2, acc := acc, held := all.drop (all.length - keep), len := len }))
  else if gcm = false then (r.1, 0, s.setChain p none)
  else
    let tag := (gcmTag k c.j0 (ghash (gcmH k) acc (lengthBlock c.aad len))).take c.tagLen
    let s := (s.setChain p none).putTag p (tag ++ List.replicate (16 - tag.length) 0)
    if c.mode = 1 then (r.1, 0, s)
    else
      let f := s.fire (pageOf R.CIPHER.KEY_SEL_SLOT 0) 1 fun sub _ => decide (sub = p)
      let ok := decide (tag = (s.expTag p).take c.tagLen) && !f.1
      (r.1, if ok then 0 else 1, f.2.wr R.CUSER.JOB_STAT_TAG_OK (b2n ok) p)

/-- A page's job over the bytes of its source, AAD first: what it writes out, its code, and the state. -/
def State.runJob (s : State) (p : Nat) (j : Job) (input : List Nat) : List Nat × Nat × State :=
  match s.genSlot j.slot with
  | none => ([], 2, s)
  | some g =>
    if 4 ≤ j.mode then
      (xtsBytes g.k1 g.k2 (decide (j.mode = 5)) (s.jobUnit p) (s.jobIv p) input, 0, s)
    else s.runChunk p j g.k1 (input.take (s.jobAad p j)) (input.drop (s.jobAad p j))

/-- The counters a job's output moves. -/
def State.jobDone (s : State) (p bytes : Nat) : State :=
  (s.wr R.CUSER.JOB_DONE_BYTES bytes p).count R.CIPHER.USER_KIB_COUNT 0 0 (ceilDiv bytes 1024)

/-- JOB_CMD.GO (R412, R413); `flags` is the word written to JOB_CMD. -/
def execJobGo (who : Initiator) (page flags : Nat) (s : State) : Host.Outcome State Fault Refusal :=
  .next <| s.onPage who page 0x138 fun s =>
    let j := s.jobWanted page flags
    let moves := s.mayMove (s.rd R.CUSER.JOB_SRC_KIND page) (s.jobSrc page) (s.jobAad page j + s.rd R.CUSER.JOB_LEN_BYTES page)
      && s.mayMove (s.rd R.CUSER.JOB_DST_KIND page) (s.jobDst page) (s.jobOut page j)
    let s := s.wr R.CUSER.JOB_DONE_BYTES 0 page
    match s.jobRefusal page j moves with
    | some code => s.set R.CUSER.JOB_STAT_CODE code page
    | none =>
      ((s.mCiph fun x => { x with jobs := x.jobs.set none page (some j) }).wr R.CUSER.JOB_STAT_CODE 0 page).set
        R.CUSER.JOB_STAT_BUSY 1 page

/-- A job or chunk ends (R413): its output is written, its chaining state advanced or ended, its code loaded. -/
def execJobComplete (page : Nat) (s : State) : Host.Outcome State Fault Refusal :=
  .next <|
    match s.ciph.jobs.get none page with
    | none => s
    | some j =>
      let sk := s.rd R.CUSER.JOB_SRC_KIND page
      let dk := s.rd R.CUSER.JOB_DST_KIND page
      let n := s.jobAad page j + s.rd R.CUSER.JOB_LEN_BYTES page
      if s.mayMove sk (s.jobSrc page) n = false ∨ s.mayMove dk (s.jobDst page) (s.jobOut page j) = false then
        s.endJob page 5
      else
        let r := s.runJob page j (s.srcBytes sk (s.jobSrc page) n)
        ((r.2.2.dstBytes dk (s.jobDst page) r.1).jobDone page r.1.length).endJob page r.2.1

/-- JOB_CMD.ABORT (R418): a running job ends at a 512 B boundary, of which the number passed is a free value,
with code 7; the chaining state is cleared. -/
def State.abortJob (s : State) (page : Nat) : State :=
  match s.ciph.jobs.get none page with
  | none => s.setChain page none
  | some j =>
    let sk := s.rd R.CUSER.JOB_SRC_KIND page
    let f := s.fresh
    let input := s.srcBytes sk (s.jobSrc page) (s.jobAad page j + s.rd R.CUSER.JOB_LEN_BYTES page)
    let r := s.runJob page j input
    let n := Config.freeValue f.1 % (r.1.length / 512 + 1) * 512
    let t := (f.2.dstBytes (s.rd R.CUSER.JOB_DST_KIND page) (s.jobDst page) (r.1.take n)).jobDone page n
    (t.setChain page none).endJob page 7

/-- ABORT acts while BUSY too. -/
def execJobAbort (who : Initiator) (page : Nat) (s : State) : Host.Outcome State Fault Refusal :=
  .next <|
    if 16 ≤ page then s
    else s.access who (pageOf R.CUSER.JOB_MODE_MODE page) 0x138 true fun s =>
    if s.mayUser who page = false then s.isoRefuse who page 0x138
    else s.abortJob page

/-! ### Blobs (R408, R409, R414) -/

/-- A blob of a purpose for an index over an 80 B payload, wrapped under the device wrap key, and the state with
the wrap counter advanced. -/
def State.wrapBlob (s : State) (purpose index : Nat) (payload : List Nat) : List Nat × State :=
  let w := s.takeWrap
  let head := [1, purpose] ++ bytesOf index 2 ++ bytesOf w.1 4
  let ivb := List.replicate 4 0 ++ bytesOf w.1 8
  let g := gcmSeal Config.wrapKey (beNum ivb) head payload
  (head ++ ivb ++ g.1 ++ g.2 ++ List.replicate 12 0, w.2)

/-- The index and payload of a blob of a purpose, where its version, purpose, reserved bytes and tag fit. -/
def openBlob (purpose : Nat) (b : List Nat) : Option (Nat × List Nat) :=
  if b.length = 128 ∧ b.getD 0 0 = 1 ∧ b.getD 1 0 = purpose then
    match gcmOpen Config.wrapKey (beNum ((b.drop 8).take 12)) (b.take 8) ((b.drop 20).take 80) ((b.drop 100).take 16) with
    | some p => some (ofBytes ((b.drop 2).take 2), p)
    | none => none
  else none

/-- The payload that carries a chaining state. -/
def Chain.bytes (c : Chain) : List Nat :=
  bytesOf c.ctr 16 ++ bytesOf c.j0 16 ++ bytesOf c.acc 16 ++ (c.held ++ List.replicate (15 - c.held.length) 0)
    ++ [c.held.length] ++ bytesOf c.aad 2 ++ bytesOf c.len 8 ++ [c.mode] ++ bytesOf c.slot 2 ++ [c.tagLen, 0, 0]

/-- The chaining state a payload carries. -/
def Chain.ofPayload (b : List Nat) : Chain :=
  { ctr := ofBytes (b.take 16), j0 := ofBytes ((b.drop 16).take 16), acc := ofBytes ((b.drop 32).take 16)
    held := (b.drop 48).take (b.getD 63 0), aad := ofBytes ((b.drop 64).take 2), len := ofBytes ((b.drop 66).take 8)
    mode := b.getD 74 0, slot := ofBytes ((b.drop 75).take 2), tagLen := b.getD 77 0 }

/-- JOB_CMD.SAVE (R414): the chaining state goes out as a blob and the page is cleared of it. -/
def execJobSave (who : Initiator) (page : Nat) (s : State) : Host.Outcome State Fault Refusal :=
  .next <| s.onPage who page 0x138 fun s =>
    match s.ciph.chains.get none page with
    | none => s.set R.CUSER.JOB_STAT_CODE 8 page
    | some c =>
      let dk := s.rd R.CUSER.JOB_DST_KIND page
      if s.mayMove dk (s.jobDst page) 128 = false then s.set R.CUSER.JOB_STAT_CODE 5 page
      else
        let b := s.wrapBlob 3 page c.bytes
        ((b.2.dstBytes dk (s.jobDst page) b.1).setChain page none).set R.CUSER.JOB_STAT_CODE 0 page

/-- JOB_CMD.RESTORE (R414): a blob that names this page and a slot this page owns is loaded. -/
def execJobRestore (who : Initiator) (page : Nat) (s : State) : Host.Outcome State Fault Refusal :=
  .next <| s.onPage who page 0x138 fun s =>
    let sk := s.rd R.CUSER.JOB_SRC_KIND page
    if s.mayMove sk (s.jobSrc page) 128 = false then s.set R.CUSER.JOB_STAT_CODE 5 page
    else
      match openBlob 3 (s.srcBytes sk (s.jobSrc page) 128) with
      | none => s.set R.CUSER.JOB_STAT_CODE 9 page
      | some (index, payload) =>
        let c := Chain.ofPayload payload
        let owned := match s.genSlot c.slot with
          | some g => decide (g.owner = page)
          | none => false
        if index = page ∧ owned = true then (s.setChain page (some c)).set R.CUSER.JOB_STAT_CODE 0 page
        else s.set R.CUSER.JOB_STAT_CODE 9 page

/-! ### General slots (R411, R418) -/

/-- KEY_W is cleared after each key command. -/
def State.clearStaging (s : State) (page : Nat) : State :=
  (List.range 16).foldl (fun t n => t.wr (R.CUSER.KEY_W_VALUE n) 0 page) s

/-- Eight words of KEY_W as a key. -/
def State.staged (s : State) (page at_ : Nat) : Nat :=
  ((List.range 8).map fun n => s.rd (R.CUSER.KEY_W_VALUE (at_ + n)) page * 2 ^ (32 * n)).sum

/-- A general slot takes a key pair, or is released. -/
def State.setGen (s : State) (slot : Nat) (g : Option GSlot) : State :=
  s.mCiph fun c => { c with gen := c.gen.set none slot g }

/-- A key command passes its page and its slot's owner (R411, R418), acts, and clears the staging. -/
def State.keyCmd (s : State) (who : Initiator) (page slot : Nat) (f : State → State) : State :=
  s.onPage who page 0x1A0 fun s =>
    let foreign := match s.genSlot slot with
      | some g => decide (g.owner ≠ page)
      | none => false
    let s := if slot < 256 ∨ 511 < slot then s.set R.CUSER.KEY_RES_CODE 1 page
      else if foreign then s.set R.CUSER.KEY_RES_CODE 2 page
      else f s
    s.clearStaging page

/-- A key pair is loaded unless its halves are equal (R406). -/
def State.loadPair (s : State) (page slot k1 k2 : Nat) : State :=
  if k1 = k2 then s.set R.CUSER.KEY_RES_CODE 3 page
  else (s.setGen slot (some { owner := page, k1 := k1, k2 := k2 })).set R.CUSER.KEY_RES_CODE 0 page

/-- KEY_CMD.OP 1: the slot is loaded from KEY_W. -/
def execLoadPlain (who : Initiator) (page slot : Nat) (s : State) : Host.Outcome State Fault Refusal :=
  .next (s.keyCmd who page slot fun s => s.loadPair page slot (s.staged page 0) (s.staged page 8))

/-- KEY_CMD.OP 2: a key is drawn, its blob written to the destination, and the slot loaded. A destination that may
not be written refuses it with code 4. -/
def execGenerate (who : Initiator) (page slot : Nat) (s : State) : Host.Outcome State Fault Refusal :=
  .next (s.keyCmd who page slot fun s =>
    let dk := s.rd R.CUSER.JOB_DST_KIND page
    if s.mayMove dk (s.jobDst page) 128 = false then s.set R.CUSER.KEY_RES_CODE 4 page
    else
      let k := s.drawKey
      if k.1.1 = k.1.2 then k.2.set R.CUSER.KEY_RES_CODE 3 page
      else
        let b := k.2.wrapBlob 2 slot (bytesOf k.1.1 32 ++ bytesOf k.1.2 32 ++ List.replicate 16 0)
        (b.2.dstBytes dk (s.jobDst page) b.1).loadPair page slot k.1.1 k.1.2)

/-- KEY_CMD.OP 3: the slot is loaded from a blob of purpose 2 whose INDEX names a general slot (R409). -/
def execLoadWrapped (who : Initiator) (page slot : Nat) (s : State) : Host.Outcome State Fault Refusal :=
  .next (s.keyCmd who page slot fun s =>
    let sk := s.rd R.CUSER.JOB_SRC_KIND page
    match (if s.mayMove sk (s.jobSrc page) 128 then openBlob 2 (s.srcBytes sk (s.jobSrc page) 128) else none) with
    | some (index, payload) =>
      if 256 ≤ index ∧ index ≤ 511 then
        s.loadPair page slot (ofBytes (payload.take 32)) (ofBytes ((payload.drop 32).take 32))
      else s.set R.CUSER.KEY_RES_CODE 4 page
    | none => s.set R.CUSER.KEY_RES_CODE 4 page)

/-- KEY_CMD.OP 4: the slot is cleared and released. -/
def execClear (who : Initiator) (page slot : Nat) (s : State) : Host.Outcome State Fault Refusal :=
  .next (s.keyCmd who page slot fun s => (s.setGen slot none).set R.CUSER.KEY_RES_CODE 0 page)

/-! ### Resets and power (R407, R416) -/

/-- Every general slot is cleared; a job of a page that owned one ends with code 2 (R407). -/
def State.clearGeneral (s : State) : State :=
  let l := (List.range 16).filter fun p => match s.ciph.jobs.get none p with
    | some j => (s.genSlot j.slot).isSome
    | none => false
  let s := s.mCiph fun c => { c with gen := [] }
  l.foldl (fun t p => (t.setChain p none).endJob p 2) s

/-- Every running job ends with code 7 (CLOSING, R416). -/
def State.endJobs (s : State) (which : Nat → Bool) : State :=
  ((List.range 16).filter fun p => which p && (s.ciph.jobs.get none p).isSome).foldl (fun t p => t.abortJob p) s

/-- A CORE reset: the jobs of policy pages end with code 7, their pages are cleared, and their slots released. -/
def State.cipherCoreReset (s : State) : State :=
  let mine := fun p => decide (s.pageOwner p = 2)
  let t := s.endJobs mine
  let t := t.mCiph fun c => { c with gen := c.gen.filter fun e => match e.2 with
    | some g => !mine g.owner
    | none => false }
  ((List.range 16).filter mine).foldl (fun t p =>
    { t.setChain p none with
      regs := t.regs.filter fun e => decide (keyPage e.1 ≠ pageOf R.CUSER.JOB_MODE_MODE p)
        || decide (e.1 / (32 * 0x10000) % 0x1000 < 0x100) || decide (e.1 / (32 * 0x10000) % 0x1000 = 0x13C) }) t

/-- DATA goes off: slots and chaining states are kept in WATCH retention. -/
def State.cipherKeep (s : State) : State :=
  s.mCiph fun c => { c with keptGen := c.gen, keptChains := c.chains }

/-- DATA comes on again: the media slots are reloaded from their records and the rest restored. -/
def State.cipherRestore (s : State) : State :=
  let s := s.loadSlots
  let s := s.mCiph fun c => { c with gen := c.keptGen, chains := c.keptChains, keptGen := [], keptChains := [] }
  (List.range 16).foldl (fun t p => t.wr R.CUSER.JOB_STAT_CHAINED (b2n (t.ciph.chains.get none p).isSome) p) s

end Sys2Proof.Machine
end

