-- ==== Sys2Proof/Machine/Porter.lean ====
section
/-! DEFINITION. The Porter (R420 to R440): bursts and their arbitration, egress, zero fill, firmware descriptors,
completions and late errors. Channels 0 to 3 are egress, 4 is zero fill, 8 to 63 are firmware's. -/

namespace Sys2Proof.Machine

open Sys2Proof

/-! ### Channels -/

/-- Channel `k` beside its registers. -/
def State.pch (s : State) (k : Nat) : PChan := s.por.ch.get {} k

/-- The state with a channel changed. -/
def State.mCh (s : State) (k : Nat) (g : PChan → PChan) : State :=
  s.mPor fun p => { p with ch := p.ch.set {} k (g (p.ch.get {} k)) }

/-- CH_STAT.STATE of R439: 0 IDLE, 1 WAIT_TOKEN, 2 FETCH, 3 CHECK, 4 MOVE, 5 STOPPING, 6 STOPPED, 7 ERROR. -/
def State.chState (s : State) (k : Nat) : Nat := s.rd R.PCHAN.CH_STAT_STATE k

/-- The owner of a channel: 1 management cores, 2 policy cores; others have none. -/
def State.chOwner (s : State) (k : Nat) : Nat := s.rd R.PCHAN.CH_OWNER_OWNER k

/-- Whether an initiator is the owner coded 1 or 2. -/
def isOwner (who : Initiator) (o : Nat) : Bool :=
  match who with
  | .policy _ _ _ => decide (o = 2)
  | .mgmt _ _ => decide (o = 1)
  | .mi => false
  | .bootRom => true

/-- An access or a write turned away for ownership or source naming (R430, R431, R440), of page INDEX `p`. -/
def State.porterIso (s : State) (who : Initiator) (p off : Nat) (inj : Bool := false) : State :=
  ((s.count R.PORTER.ISO_REFUSED_COUNT).record 5 0x190 [p, initCode who, off, 0] inj).refuse 16 (initCode who) (initHart who)
    (regAddr who p off) inj

/-- A write to a firmware channel's page by its owner acts; a hardware channel ignores every write. -/
def State.onChan (s : State) (who : Initiator) (k off : Nat) (f : State → State) : State :=
  if k < 8 ∨ 64 ≤ k then s
  else s.access who (pageOf R.PCHAN.CH_CTRL_GO k) off true fun s =>
    let i := s.limFire 16
    let s := i.2
    if isOwner who (s.chOwner k) = false then s.porterIso who (pageOf R.PCHAN.CH_CTRL_GO k) off
    else if i.1 then s.porterIso who (pageOf R.PCHAN.CH_CTRL_GO k) off true
    else f s

/-- Descriptors wait in a channel's ring. -/
def State.ringWaits (s : State) (k : Nat) : Bool := decide (s.rd R.PCHAN.RING_HEAD_INDEX k ≠ s.rd R.PCHAN.RING_TAIL_INDEX k)

/-- An idle channel waits for a token where a start source paces it and its ring holds a descriptor. -/
def State.chRest (s : State) (k : Nat) : State :=
  if s.chState k ≤ 3 then
    s.set R.PCHAN.CH_STAT_STATE (if s.rd R.PCHAN.CH_CTRL_ENABLE k = 1 ∧ s.rd R.PCHAN.CH_CFG_START_KIND k ≠ 0
      ∧ s.rd R.PCHAN.CH_STAT_TOKENS k = 0 ∧ s.ringWaits k then 1 else 0) k
  else s

/-- A start token: at most 15 are pending, one more is lost (R430). -/
def State.addToken (s : State) (k : Nat) : State :=
  let n := s.rd R.PCHAN.CH_STAT_TOKENS k
  if 15 ≤ n then s.count R.PORTER.TOKEN_LOST_COUNT else (s.wr R.PCHAN.CH_STAT_TOKENS (n + 1) k).chRest k

/-- The channels whose start source is a timer (kind 1) or a channel (kind 2) of a number. -/
def State.startedBy (s : State) (kind n : Nat) : List Nat :=
  ((List.range 56).map fun k => k + 8).filter fun k =>
    decide (s.rd R.PCHAN.CH_CFG_START_KIND k = kind) && decide (s.rd R.PCHAN.CH_CFG_START_IDX k = n)

/-! ### Descriptors and their end (R428, R432 to R435) -/

/-- The crates a descriptor names. -/
def PDesc.crates (d : PDesc) : List Nat :=
  let at_ := fun (k h : Nat) => if k = 1 then (crateAt (h % 2 ^ 32 - h % 0x1000)).toList else []
  at_ d.sk d.src ++ at_ d.dk d.dst

/-- A descriptor's references are released (R267). -/
def State.dropCrates (s : State) (d : PDesc) : State := d.crates.foldl (fun t n => t.dropRef n) s

/-- A completion record enters the channel's FIFO (R435). -/
def State.pushCpl (s : State) (k : Nat) (r : PCpl) : State :=
  let s := s.mCh k fun c => { c with cpl := c.cpl ++ [r] }
  let s := s.wr R.PCHAN.CH_STAT_CPL_USE (s.pch k).cpl.length k
  if r.code = 0 then s else s.count R.PCHAN.CH_ERR_COUNT k

/-- Whether the record a channel owes may be made now (R432, R434, R435): none of the previous descriptor's
responses is outstanding, the FIFO has a free entry beside the kept one, and a RESP descriptor's own responses
have come before it reports success. -/
def PChan.mayRecord (c : PChan) (d : PDesc) (code : Nat) : Bool :=
  decide (c.prevOut = 0) && decide (c.cpl.length < 15) && (!(decide (code = 0 ∨ code = 3) && d.resp) || decide (c.out = 0))

/-- The record of the running descriptor is made: with the chained tokens of a success, the head's advance, the
references released once no response is outstanding, and the state the code leads to. -/
def State.makeRecord (s : State) (k : Nat) (d : PDesc) (code : Nat) (inj : Bool) : State :=
  let out := (s.pch k).out
  let s := s.pushCpl k { tag := d.tag, code := code, late := false, inj := inj, bytes := d.moved }
  let s := s.count R.PCHAN.CH_CNT_DESCS k
  let s := if code = 4 ∨ code = 5 then s.count R.PORTER.DESC_BAD_COUNT else s
  let size := 2 ^ s.rd R.PCHAN.RING_SIZE_LOG2 k
  let s := if code = 7 then s else s.wr R.PCHAN.RING_HEAD_INDEX ((s.rd R.PCHAN.RING_HEAD_INDEX k + 1) % size) k
  let s := if d.irq then s.raise (pageOf R.PCHAN.CH_CTRL_GO k) 0 else s
  let s := s.mCh k fun c => { c with
    desc := none, out := 0, owed := none, poisoned := false, prev := if out = 0 then none else some d, prevOut := out
    prevDone := decide (code ≠ 0) && decide (code ≠ 3) }
  let s := if out = 0 then s.dropCrates d else s
  let s := if code = 2 ∨ code = 6 then s.set R.PCHAN.CH_STAT_STATE 7 k
    else if code = 7 then (s.wr R.PCHAN.CH_STAT_TOKENS 0 k).set R.PCHAN.CH_STAT_STATE 6 k
    else if s.chState k = 5 then s
    else (s.set R.PCHAN.CH_STAT_STATE 0 k).chRest k
  if code = 0 then (s.startedBy 2 k).foldl (fun t j => t.addToken j) s else s

/-- The running descriptor ends with a code: its record is made, or waits. -/
def State.endDesc (s : State) (k code : Nat) (inj : Bool) : State :=
  let c := s.pch k
  match c.desc with
  | none => s
  | some d =>
    if c.mayRecord d code then s.makeRecord k d code inj
    else s.mCh k fun c => { c with owed := some (code, inj) }

/-- A record that waited is made where it now may. -/
def State.tryOwed (s : State) (k : Nat) : State :=
  match (s.pch k).owed with
  | some (code, inj) => s.endDesc k code inj
  | none => s

/-! ### Starting a descriptor (R428 to R430, R501) -/

/-- The next descriptor as its ring holds it, with whether a reserved bit is set. -/
def State.fetchDesc (s : State) (k : Nat) : PDesc × Bool :=
  let base := s.rd R.PCHAN.RING_BASE_LO_VALUE k + s.rd R.PCHAN.RING_BASE_HI_VALUE k * 2 ^ 32
  let b := bytesAt s.dram (base + 32 * s.rd R.PCHAN.RING_HEAD_INDEX k) 32
  let kinds := b.getD 22 0
  let flags := b.getD 23 0
  let src := ofBytes (b.take 8)
  let dst := ofBytes ((b.drop 8).take 8)
  let rsv := fun (kind v : Nat) => match kind with
    | 0 => decide (2 ^ 40 ≤ v)
    | 1 => decide (2 ^ 32 ≤ v)
    | 3 => decide (16 ≤ v)
    | _ => false
  ({ src := src, dst := dst, len := ofBytes ((b.drop 16).take 4), tag := ofBytes ((b.drop 20).take 2)
     sk := bits kinds 0 2, dk := bits kinds 2 2, burst := bits flags 0 3, resp := bit flags 3, irq := bit flags 4, port := 0 },
   decide (16 ≤ kinds) || decide (32 ≤ flags) || (b.drop 24).any (fun x => decide (x ≠ 0))
     || rsv (bits kinds 0 2) src || rsv (bits kinds 2 2) dst)

/-- The base, size, port and permissions of host-granted window `w`. -/
def State.hwinAllows (s : State) (w a len : Nat) (toHost : Bool) : Option Nat :=
  let base := s.rd R.INSPECT.HWIN_BASE_LO_VALUE 0 w + s.rd R.INSPECT.HWIN_BASE_HI_VALUE 0 w * 2 ^ 32
  let size := s.rd R.INSPECT.HWIN_CFG_PAGES 0 w * 4096
  let allow := if toHost then s.rd R.INSPECT.HWIN_CFG_ALLOW_WR 0 w else s.rd R.INSPECT.HWIN_CFG_ALLOW_RD 0 w
  if s.rd R.INSPECT.HWIN_CFG_VALID 0 w = 1 ∧ allow = 1 ∧ base ≤ a ∧ a + len ≤ base + size then
    some (s.rd R.INSPECT.HWIN_CFG_PORT 0 w)
  else none

/-- The port under which a host range passes limit 0 (R501): one range of an admin command that policy firmware
holds, in its direction, or one host-granted window. -/
def State.hostAllows (s : State) (k a len : Nat) (toHost : Bool) : Option Nat :=
  let held := if s.chOwner k = 2 then
      (s.core.adm.filterMap fun e => e.2).find? fun x => decide (x.st = 2) && decide (x.toHost = toHost)
        && x.ranges.any fun r => decide (r.1 ≤ a) && decide (a + len ≤ r.1 + r.2)
    else none
  match held with
  | some x => some x.port
  | none => ((List.range 8).filterMap fun w => s.hwinAllows w a len toHost).head?

/-- Whether a crate handle may be moved through a channel (R429). -/
def State.crateAllows (s : State) (k h len : Nat) : Bool :=
  match s.crateCheck h 3 0 0 with
  | .inl _ => false
  | .inr n => decide ((s.crate n).state = 2) && decide ((s.crate n).owner = 5) && decide (s.chOwner k = 2)
      && decide (len ≤ poolSize (cratePool n))

/-- Whether a CUSER page is bound to a channel (R438, R439). -/
def State.bound (s : State) (k page : Nat) : Bool :=
  decide (s.rd R.PCHAN.CH_CFG_CUSER_EN k = 1) && decide (s.rd R.PCHAN.CH_CFG_CUSER k = page)

/-- The check of R429 that a descriptor fails first: 4 format, 5 DRAM, crate, host memory (which the Inspector
counts) or CIPHER page. -/
def State.descFault (s : State) (k : Nat) (d : PDesc) (rsv : Bool) : Option (Nat × Option Nat) :=
  let ends := [(d.sk, d.src, false), (d.dk, d.dst, true)]
  let bad := fun (kind : Nat) (f : Nat → Bool → Bool) => ends.any fun e => decide (e.1 = kind) && !f e.2.1 e.2.2
  if rsv ∨ d.len = 0 ∨ 16777216 < d.len ∨ 6 < d.burst ∨ (d.sk = 3 ∧ d.dk = 3) then some (4, none)
  else if bad 0 (fun a _ => inFirmware a d.len) then some (5, none)
  else if bad 1 (fun h _ => s.crateAllows k h d.len) then some (5, none)
  else match ends.find? fun e => decide (e.1 = 2) && (s.hostAllows k e.2.1 d.len e.2.2).isNone with
    | some e => some (5, some e.2.1)
    | none => if bad 3 (fun a _ => s.bound k (a % 16)) then some (5, none) else none

/-- A firmware channel fetches and checks its next descriptor (R428 to R430). -/
def execDescriptorStart (ch : Nat) (s : State) : Host.Outcome State Fault Refusal :=
  .next <|
    let kind := s.rd R.PCHAN.CH_CFG_START_KIND ch
    let n := s.rd R.PCHAN.CH_STAT_TOKENS ch
    if ch < 8 ∨ 64 ≤ ch ∨ s.rd R.PCHAN.CH_CTRL_ENABLE ch = 0 ∨ 1 < s.chState ch ∨ (s.pch ch).desc.isSome
        ∨ s.ringWaits ch = false ∨ (kind ≠ 0 ∧ n = 0) ∨ s.por.stopped ∨ 6 ≤ s.dst then s
    else
      let s := if kind = 0 then s else s.wr R.PCHAN.CH_STAT_TOKENS (n - 1) ch
      let f := s.fetchDesc ch
      let i := s.fire (pageOf R.PORTER.FW_CFG_RATE 0) 2 fun _ p => decide (p = ch)
      let s := (i.2.mCh ch fun c => { c with desc := some f.1, out := 0, poisoned := false, passed := 0 }).set
        R.PCHAN.CH_STAT_STATE 4 ch
      let l := if f.1.sk = 2 ∨ f.1.dk = 2 then s.limFire 0 else (false, s)
      let s := l.2
      let real := s.descFault ch f.1 f.2
      match (if real.isSome then real else if i.1 then some (5, none)
        else if l.1 then some (5, some (if f.1.sk = 2 then f.1.src else f.1.dst)) else none) with
      | some (code, host) =>
        let s := match host with
          | some a => s.refuse 0 4 ch a real.isNone
          | none => s
        let s := s.mCh ch fun c => { c with desc := some { f.1 with sk := 0, dk := 0 } }
        s.endDesc ch code real.isNone
      | none =>
        let d := f.1
        let port := ((if d.dk = 2 then s.hostAllows ch d.dst d.len true else none).orElse fun _ =>
          if d.sk = 2 then s.hostAllows ch d.src d.len false else none).getD 0
        let s := d.crates.foldl (fun t n => t.takeRef n) s
        s.mCh ch fun c => { c with desc := some { d with port := port } }

/-! ### Bursts (R421 to R424) -/

/-- The port a descriptor's bursts use, by its destination. -/
def PDesc.toPort (d : PDesc) : Nat := if d.dk = 2 then 0 else if d.dk = 0 then 2 else 1

/-- The firmware channels with a burst ready at a port. -/
def State.fwReady (s : State) (prt : Nat) : List Nat :=
  ((List.range 56).map fun k => k + 8).filter fun k =>
    let c := s.pch k
    decide (s.chState k = 4) && c.owed.isNone && match c.desc with
      | some d => decide (d.toPort = prt) && decide (d.moved < d.len)
      | none => false

/-- The channels with a burst ready at a port, each with its priority (R420). -/
def State.ready (s : State) (prt : Nat) : List (Nat × Nat) :=
  (if prt = 0 then ((List.range 4).filter fun c => s.por.egress.any fun e => decide (e.ch = c)).map fun c => (c, 7 - c) else [])
    ++ (if prt = 1 ∧ s.por.fills ≠ [] ∧ s.dst < 6 then [(4, 5)] else [])
    ++ (s.fwReady prt).map fun k => (k, s.rd R.PCHAN.CH_CFG_PRIO k)

/-- Of channels of one priority the next in round robin after the one served last. -/
def nextRound (last : Nat) (l : List (Nat × Nat)) : Option (Nat × Nat) :=
  (l.find? fun e => decide (last < e.1)).orElse fun _ => l.head?

/-- The burst a port serves (R424): an aged one, unless its last burst was aged; otherwise of the highest
priority. With it, whether it is served as aged. -/
def State.pickBurstAt (s : State) (prt : Nat) : Option ((Nat × Nat) × Bool) :=
  let l := s.ready prt
  let best := fun (l : List (Nat × Nat)) =>
    let top := (l.map Prod.snd).foldl max 0
    nextRound (s.por.last.get 99 (prt * 8 + top)) (l.filter fun e => decide (e.2 = top))
  match (if s.por.lastAged.get false prt then none else best (l.filter fun e => decide (64 ≤ (s.pch e.1).passed))) with
  | some e => some (e, true)
  | none => (best l).map fun e => (e, false)

/-- The arbitration's memory after a burst: the channels it passed age, the served one does not. -/
def State.passPort (s : State) (prt : Nat) (e : Nat × Nat) (aged : Bool) : State :=
  let s := (s.ready prt).foldl (fun t x => if x.2 < e.2 then t.mCh x.1 fun c => { c with passed := c.passed + 1 } else t) s
  let s := (s.mCh e.1 fun c => { c with passed := 0 }).mPor fun p => { p with
    last := p.last.set 99 (prt * 8 + e.2) e.1, lastAged := p.lastAged.set false prt aged }
  if aged then s.count R.PORTER.AGED_COUNT else s

/-- The host address at an offset of a command's data, and the bytes left in its range. -/
def rangeAt : List (Nat × Nat) → Nat → Nat × Nat
  | [], o => (o, 4096)
  | r :: t, o => if o < r.2 then (r.1 + o, r.2 - o) else rangeAt t (o - r.2)

/-- One egress burst of channel `c` (R422, R425): to the next host page, the unit's end or Max_Payload_Size; the
last one of a unit gives it to its command. -/
def State.egressBurst (s : State) (c : Nat) : State :=
  match s.por.egress.find? fun e => decide (e.ch = c) with
  | none => s
  | some e =>
    match s.cmdOf e.uid with
    | none => s.mPor fun p => { p with egress := p.egress.filter fun x => decide (x.read ≠ e.read) }
    | some k =>
      let a := rangeAt k.ranges (e.start + e.gone)
      let n := max 1 (min (min e.left a.2) (min (s.port k.port).mps (4096 - a.1 % 4096)))
      let s := s.count R.PORTER.EGRESS_BURSTS_COUNT
      let s := if c = 0 ∧ e.gone = 0 then s.peak R.PORTER.URG_WAIT_MAX_NS (min 65535 ((s.mono - e.arrived) * 10)) else s
      if n < e.left then
        s.mPor fun p => { p with egress := p.egress.map fun x =>
          if x.read = e.read then { x with gone := x.gone + n, left := x.left - n } else x }
      else
        let s := s.mPor fun p => { p with egress := p.egress.filter fun x => decide (x.read ≠ e.read) }
        match s.readOf e.read with
        | none => s
        | some r =>
          (s.dropRead r).unitArrived e.uid r.iu r.unit ((r.got.map fun c => c.data).getD 0)

/-- One zero-fill burst (R427): a unit of a HOST crate; of a Write Zeroes only the sectors it covers. -/
def State.fillBurst (s : State) : State :=
  match s.por.fills with
  | [] => s
  | f :: rest =>
    let s := (s.mPor fun p => { p with fills := rest }).count R.PORTER.FILL_KIB_COUNT 0 0 4
    match s.host.cmds.find? fun c => decide (c.kind = .writeZeroes) && c.crates.contains f.1 with
    | none => s.putUnit f.1 f.2 0
    | some c =>
      let n := s.ns c.nsid
      let iu := (s.crateIus c).getD (c.crates.idxOf f.1) 0
      let cover := n.sectorMask c.slba c.nlb iu
      let s := (List.range 8).foldl (fun t k =>
        if bit cover (f.2 * 8 + k) then t.mCr fun r => { r with mem := zeroBytes r.mem (crateBase f.1 + f.2 * 4096 + k * 512) 512 }
        else t) s
      s.zeroesStep c.uid

/-- The job of a CIPHER page that a descriptor carries, set up by the Porter as FIRST and LAST (R412, R429): the
code of the descriptor. -/
def State.porterJob (s : State) (k : Nat) (d : PDesc) : State :=
  let into := decide (d.dk = 3)
  let page := if into then d.dst % 16 else d.src % 16
  let j := s.jobWanted page 6
  let need := s.jobAad page j + s.rd R.CUSER.JOB_LEN_BYTES page
  let sk := s.rd R.CUSER.JOB_SRC_KIND page
  let dk := s.rd R.CUSER.JOB_DST_KIND page
  let fits := if into then decide (sk = 2) && decide (need = d.len) && s.mayMove dk (s.jobDst page) (s.jobOut page j)
    else decide (dk = 2) && decide (s.jobOut page j = d.len) && s.mayMove sk (s.jobSrc page) need
  match s.jobRefusal page j fits with
  | some code => (s.set R.CUSER.JOB_STAT_CODE code page).endDesc k 8 false
  | none =>
    let host := s.fresh
    let from_ := fun (t : State) => if d.sk = 2 then bytesOf (Config.freeValue host.1) d.len else t.srcBytes d.sk d.src d.len
    let s := host.2
    let r := s.runJob page j (if into then from_ s else s.srcBytes sk (s.jobSrc page) need)
    let t := if into then r.2.2.dstBytes dk (s.jobDst page) r.1 else r.2.2.dstBytes d.dk d.dst r.1
    let t := (t.jobDone page r.1.length).set R.CUSER.JOB_STAT_CODE r.2.1 page
    t.endDesc k (if r.2.1 = 0 then 0 else 8) false

/-- An early error ends the running descriptor with code 2 and poisons a crate destination (R433). -/
def State.earlyError (s : State) (k : Nat) (d : PDesc) (inj : Bool) : State :=
  let s := if d.dk = 1 then s.poisonCrate (d.dst % 2 ^ 32) else s
  s.endDesc k 2 inj

/-- One burst of a firmware channel (R421, R422, R435). -/
def State.fwBurst (s : State) (k : Nat) : State :=
  match (s.pch k).desc with
  | none => s
  | some d =>
    let page := pageOf R.PORTER.FW_CFG_RATE 0
    let m := s.fire page 3 fun _ p => decide (p = k)
    if m.1 then m.2.endDesc k 6 true
    else
      let size := min (64 * 2 ^ d.burst) (d.len - d.moved)
      let n := if d.dk = 2 then min size (m.2.port d.port).mps else size
      let s := m.2
      let srcCrate := if d.sk = 1 then crateAt (d.src % 2 ^ 32 - d.src % 0x1000) else none
      let unreadable := match srcCrate with
        | some c => s.cr.eccBad.get false c
        | none => false
      if unreadable then s.endDesc k 1 false
      else
        let poisoned := match srcCrate with
          | some c => (s.crate c).poison
          | none => false
        let last := decide (d.moved + n = d.len)
        let piped := decide (d.sk = 3) || decide (d.dk = 3)
        let e := { d with moved := d.moved + n }
        let s := s.mCh k fun c => { c with
          desc := some e, poisoned := c.poisoned || poisoned
          out := if piped || decide (d.dk = 2) then c.out else c.out + 1 }
        if piped then if last then s.porterJob k e else s
        else
          let f := s.fresh
          let bytes := match d.sk with
            | 0 => bytesAt f.2.dram (d.src + d.moved) n
            | 1 => match srcCrate with
              | some c => bytesAt f.2.cr.mem (crateBase c + d.moved) n
              | none => []
            | _ => bytesOf (Config.freeValue f.1) n
          let s := f.2
          let s := match d.dk with
            | 0 => { s with dram := putBytes s.dram (d.dst + d.moved) bytes }
            | 1 => match crateAt (d.dst % 2 ^ 32 - d.dst % 0x1000) with
              | some c => s.crateWrite (crateBase c + d.moved) bytes
              | none => s
            | _ => s
          let w := if d.dk = 2 then (false, s) else s.fire page 0 fun _ p => decide (p = k)
          if w.1 then w.2.earlyError k e true
          else if last then w.2.endDesc k (if (w.2.pch k).poisoned then 3 else 0) false
          else w.2

/-- A port falls free (R424): 0 egress, 1 store, 2 memory. -/
def execPorterBurst (prt : Nat) (s : State) : Host.Outcome State Fault Refusal :=
  .next <|
    if s.por.stopped then s
    else match s.pickBurstAt prt with
      | none => s
      | some (e, aged) =>
        let s := s.passPort prt e aged
        if e.1 < 4 then s.egressBurst e.1 else if e.1 = 4 then s.fillBurst else s.fwBurst e.1

/-! ### Responses (R432 to R434) -/

/-- The descriptor completed last has one response fewer outstanding; the last one releases its references. -/
def State.prevResponse (s : State) (k : Nat) : State :=
  let c := s.pch k
  if c.prevOut ≤ 1 then
    let s := s.mCh k fun c => { c with prev := none, prevOut := 0, prevDone := false }
    match c.prev with
    | some d => s.dropCrates d
    | none => s
  else s.mCh k fun c => { c with prevOut := c.prevOut - 1 }

/-- A late error (R433): a second record with the descriptor's TAG, code 2 and LATE, and the poison of a crate. -/
def State.lateError (s : State) (k : Nat) (d : PDesc) (inj : Bool) : State :=
  let quiet := (s.pch k).prevDone
  let s := if quiet then s
    else (s.pushCpl k { tag := d.tag, code := 2, late := true, inj := inj, bytes := d.moved }).count R.PORTER.LATE_ERR_COUNT
  let s := if d.dk = 1 then s.poisonCrate (d.dst % 2 ^ 32) else s
  ((s.mCh k fun c => { c with prevDone := true }).prevResponse k).tryOwed k

/-- The bytes of the erring beat are undefined at a DRAM destination (R433): those of the last burst. -/
def State.beatLost (s : State) (d : PDesc) : State :=
  if d.dk = 0 then
    let f := s.fresh
    let n := min d.moved (64 * 2 ^ d.burst)
    { f.2 with dram := putBytes f.2.dram (d.dst + d.moved - n) (bytesOf (Config.freeValue f.1) n) }
  else s

/-- A good write response (R432, R434). -/
def execPorterWriteResponse (ch : Nat) (s : State) : Host.Outcome State Fault Refusal :=
  .next <|
    let c := s.pch ch
    match c.prev with
    | some d =>
      let f := s.fire (pageOf R.PORTER.FW_CFG_RATE 0) 1 fun _ p => decide (p = ch) && decide (c.prevOut = 1)
      if f.1 then f.2.lateError ch d true else (s.prevResponse ch).tryOwed ch
    | none =>
      if c.out = 0 then s
      else (s.mCh ch fun c => { c with out := c.out - 1 }).tryOwed ch

/-- An error response (R433): before the count reached zero, or before a RESP descriptor's record, it ends the
descriptor with code 2; after that it is a late error. -/
def execWriteResponseError (ch : Nat) (s : State) : Host.Outcome State Fault Refusal :=
  .next <|
    let c := s.pch ch
    match c.prev, c.desc with
    | some d, _ => (s.beatLost d).lateError ch d false
    | none, some d =>
      if c.out = 0 then s
      else
        let s := (s.mCh ch fun c => { c with out := c.out - 1 }).beatLost d
        if s.chState ch = 5 then s.mCh ch fun c => { c with owed := some (2, false) }
        else s.earlyError ch d false
    | none, none => s

/-! ### Starting, stopping, popping (R430, R431, R436, R439) -/

/-- A timer expires (R431): counted, a token for each channel it starts; a ONE_SHOT timer clears ENABLE. -/
def execPorterTimerExpiry (timer : Nat) (s : State) : Host.Outcome State Fault Refusal :=
  .next <|
    if 16 ≤ timer ∨ s.rd (R.PORTER.TMR_CTRL_ENABLE timer) = 0 then s
    else
      let s := s.count (R.PORTER.TMR_STAT_EXPIRIES timer)
      let t0 := (s.por.timers.get (0, 0) timer)
      let s := s.mPor fun p => { p with timers := p.timers.set (0, 0) timer (t0.1, t0.2 + 1) }
      let s := if s.rd (R.PORTER.TMR_CTRL_ONE_SHOT timer) = 1 then s.wr (R.PORTER.TMR_CTRL_ENABLE timer) 0 else s
      (s.startedBy 1 timer).foldl (fun t k => t.addToken k) s

/-- CH_CTRL.ENABLE is written (R433, R436): 0 clears ERROR and STOPPED. -/
def State.chEnable (s : State) (ch : Nat) (on : Bool) : State :=
  let s := s.wr R.PCHAN.CH_CTRL_ENABLE (b2n on) ch
  if on then s.chRest ch
  else if 6 ≤ s.chState ch then s.set R.PCHAN.CH_STAT_STATE 0 ch
  else s.chRest ch

/-- CPL_POP.POP (R435): the oldest record is removed. -/
def State.popRecord (s : State) (ch : Nat) : State :=
  let s := s.mCh ch fun c => { c with cpl := c.cpl.drop 1 }
  (s.wr R.PCHAN.CH_STAT_CPL_USE (s.pch ch).cpl.length ch).tryOwed ch

/-- CH_CTRL.GO (R430). -/
def execChCtrlGo (who : Initiator) (ch : Nat) (s : State) : Host.Outcome State Fault Refusal :=
  .next (s.onChan who ch R.PCHAN.CH_CTRL_GO.off fun s => s.addToken ch)

/-- A firmware channel stops at its next burst boundary (R436): one with nothing under way is STOPPED at once. -/
def State.stopChan (s : State) (k : Nat) : State :=
  let c := s.pch k
  if 5 ≤ s.chState k then s
  else if c.desc.isNone ∧ c.prevOut = 0 then (s.wr R.PCHAN.CH_STAT_TOKENS 0 k).set R.PCHAN.CH_STAT_STATE 6 k
  else s.set R.PCHAN.CH_STAT_STATE 5 k

/-- CH_CTRL.STOP. -/
def execChCtrlStop (who : Initiator) (ch : Nat) (s : State) : Host.Outcome State Fault Refusal :=
  .next (s.onChan who ch R.PCHAN.CH_CTRL_STOP.off fun s => s.stopChan ch)

/-- The responses to a stopping channel's bursts are in (R436): the running descriptor's code 7 record, or that of
an error among them, and STOPPED with no token pending. -/
def execChannelStopComplete (ch : Nat) (s : State) : Host.Outcome State Fault Refusal :=
  .next <|
    let c := s.pch ch
    if s.chState ch ≠ 5 ∨ c.prevOut ≠ 0 ∨ c.out ≠ 0 then s
    else
      let s := match c.desc, c.owed with
        | some d, some (2, inj) => (if d.dk = 1 then s.poisonCrate (d.dst % 2 ^ 32) else s).makeRecord ch d 2 inj
        | some d, _ => s.makeRecord ch d 7 false
        | none, _ => s
      (s.wr R.PCHAN.CH_STAT_TOKENS 0 ch).set R.PCHAN.CH_STAT_STATE 6 ch

/-- CH_CTRL.ENABLE (R433, R439): 0 clears ERROR and STOPPED. -/
def execChCtrlEnable (who : Initiator) (ch : Nat) (on : Bool) (s : State) : Host.Outcome State Fault Refusal :=
  .next (s.onChan who ch R.PCHAN.CH_CTRL_ENABLE.off fun s => s.chEnable ch on)

/-- CPL_POP.POP (R439): the oldest record goes, and one that waited for room is made. -/
def execCplPop (who : Initiator) (ch : Nat) (s : State) : Host.Outcome State Fault Refusal :=
  .next (s.onChan who ch R.PCHAN.CPL_POP_POP.off fun s => s.popRecord ch)

/-! ### Resets (R436, R437) -/

/-- A CORE reset stops the channels of the policy cores and disables their timers. -/
def State.porterCoreReset (s : State) : State :=
  let s := (((List.range 56).map fun k => k + 8).filter fun k => decide (s.chOwner k = 2)).foldl (fun t k => t.stopChan k) s
  ((List.range 16).filter fun n => decide (s.rd (R.PORTER.TMR_OWNER_OWNER n) = 2)).foldl
    (fun t n => t.wr (R.PORTER.TMR_CTRL_ENABLE n) 0) s

/-- CLOSING stops every firmware channel. -/
def State.porterClosing (s : State) : State :=
  ((List.range 56).map fun k => k + 8).foldl (fun t k => t.stopChan k) s

/-- Whether a channel is active: neither IDLE nor STOPPED; a hardware channel while it has work. -/
def State.chActive (s : State) (k : Nat) : Bool :=
  if k < 4 then s.por.egress.any fun e => decide (e.ch = k)
  else if k = 4 then decide (s.por.fills ≠ [])
  else decide (s.chState k ≠ 0) && decide (s.chState k ≠ 6)

/-- The Porter's vote on DATA (R437). -/
def State.porterVote (s : State) : Bool :=
  (List.range 64).any (fun k => s.chActive k || decide ((s.pch k).prevOut ≠ 0))
    || (List.range 16).any fun n => decide (s.rd (R.PORTER.TMR_CTRL_ENABLE n) = 1)

end Sys2Proof.Machine
end

