-- ==== Sys2Proof/Machine/Memory.lean ====
section
/-! DEFINITION. Errors of the on-package memories and of DRAM, and the walks that look for them (R220, R324 to
R329, R415). -/

namespace Sys2Proof.Machine

open Sys2Proof

/-! ### The error tables (R325) -/

/-- A new address enters a full table in place of the entry of lowest COUNT, the oldest LAST first. -/
def worst : List MemEntry → Option MemEntry
  | [] => none
  | e :: t => match worst t with
    | none => some e
    | some w => if e.count < w.count ∨ (e.count = w.count ∧ e.last ≤ w.last) then some e else some w

/-- The entries of a group's table. -/
def State.memTable (s : State) (g : Nat) : List MemEntry := (s.integ.mem.get [] g).filterMap fun e => e

/-- A group's table takes an error at an address. -/
def State.tabled (s : State) (g addr syndrome : Nat) : State :=
  let l := s.memTable g
  let put := fun (s : State) (l : List MemEntry) => s.mInteg fun i => { i with mem := i.mem.set [] g (l.map some) }
  let fresh : MemEntry := { addr := addr, syndrome := syndrome, count := 1, first := s.mono, last := s.mono }
  if l.any fun e => decide (e.addr = addr) then
    put s (l.map fun e => if e.addr = addr then
      { e with count := min (e.count + 1) 0xFFFF, syndrome := syndrome, last := s.mono } else e)
  else if l.length < 32 then
    (put s (l ++ [fresh])).record 8 0x1C0 [g, addr, addr / 2 ^ 32 % 256, syndrome]
  else
    match worst l with
    | some w => (put s (l.map fun e => if e.addr = w.addr then fresh else e)).count R.MEMCHK.GRP_OVER_COUNT 0 g
    | none => s

/-- A correctable error (R325): corrected, counted, tabled. -/
def State.corrected (s : State) (g addr syndrome : Nat) : State :=
  (s.count R.MEMCHK.GRP_CE_COUNT 0 g).tabled g addr (syndrome % 256)

/-- An error that SECDED corrects in the data it returns. -/
def execCorrectableError (group addr syndrome : Nat) (s : State) : Host.Outcome State Fault Refusal :=
  .next (if 24 < group then s else s.corrected group (addr % 2 ^ 40) syndrome)

/-! ### Uncorrectable errors (R327) -/

/-- The crate a byte of the crate store lies in. -/
def crateOf (a : Nat) : Nat := let p := a / 0x1000000; poolFirst p + a % 0x1000000 / poolSize p

/-- A crate's data no longer corrects (R230, R245, R327); in a FREE crate it may be the link word that is lost. -/
def State.crateBad (s : State) (a : Nat) : State :=
  if 0x4000000 ≤ a then s
  else
    let n := crateOf a
    if (s.crate n).state = 0 then
      if a = crateBase n then s.mCr fun c => { c with badLink := c.badLink.set false n true } else s
    else s.mCr fun c => { c with eccBad := c.eccBad.set false n true }

/-- A line is lost as R179 states, its DRAM copy written with every UNC bit set (R220). -/
def State.lineLost (s : State) (line : Nat) : State :=
  match s.lineOwner line with
  | none => s
  | some (n, k) =>
    let l := (List.range 48).map fun i => k * 48 + i
    let ius := l.filter fun i => decide (i < (s.ns n).ius)
    let s := s.mLed fun x => { x with unc := ius.foldl (fun (t : Tbl Bool) i => Tbl.set false t (iuKey n i) true) x.unc }
    ((s.count R.LEDGER.LINE_CRC_COUNT).record 2 0x101 [n, k, k / 2 ^ 32, 2]).critical 2

/-- An uncorrectable error in a cached or tray line (R220). -/
def State.cacheBad (s : State) (line : Nat) : State :=
  match s.wayOf line with
  | some w =>
    match s.held (setOf line) w with
    | some c =>
      let s := s.setWay (setOf line) w none
      if c.dirty then s.lineLost line else s.count R.LCACHE.SRAM_UE_COUNT
    | none => s
  | none =>
    if s.lc.tray.contains line then
      (s.mLc fun l => { l with tray := l.tray.filter fun t => decide (t ≠ line) }).count R.LCACHE.SRAM_UE_COUNT
    else s

/-- Both copies of a tag fail (R220): the cache is cleaned and disabled, and admission stops until a MAIN reset. -/
def State.tagBad (s : State) (place : Nat) : State :=
  ((s.record 2 0x104 [place / 16, place % 16, 0, 0]).cacheDisable).mLc fun l => { l with stopped := true }

/-- Admission stops as in step 2 of R108 until a MAIN reset, CSTS.CFS reading 1 (R327). -/
def State.stopAdmission (s : State) : State := s.mPit fun p => { p with stopped := true }

/-- A row's fields do not correct (R327): of the crate index the IU is treated as in a failed line; of the
range-lock table admission stops. -/
def State.rowBad (s : State) (row : Nat) : State :=
  if row < 16384 then
    match s.cixAt row with
    | none => s
    | some r =>
      let s := (s.untake row).mLed fun l => { l with badRow := row :: l.badRow.filter fun n => decide (n ≠ row) }
      let k := r.iu / 48
      ((s.count R.LEDGER.LINE_CRC_COUNT).record 2 0x101 [r.nsid, k, k / 2 ^ 32, 1]).critical 2
  else if (s.rowAt (row - 16384)).isSome then s.stopAdmission else s

/-- A word of DRAM (R327): a ledger line fails, a block record is rebuilt by the Sweep, a FIRMWARE word answers
with a bus error. -/
def State.dramBad (s : State) (a : Nat) : State :=
  if a / 0x100000 < s.firstGran then s else s.lineBad (a / 256)

/-- A media slot's key is unreadable (R415): it is reloaded from its key record, or left empty. -/
def State.reloadSlot (s : State) (slot : Nat) : State :=
  let s := s.count R.CIPHER.ERR_SLOT_RELOAD
  match s.nv.keyRecs.get none slot with
  | some (seq, k1, k2, true) =>
    s.mCiph fun c => { c with media := c.media.set {} slot { loaded := true, bad := false, seq := seq, k1 := k1, k2 := k2 } }
  | _ => (s.mCiph fun c => { c with media := c.media.set {} slot { bad := true } }).record 4 0x180 [slot, 3, 0, 0]

/-- An uncorrectable error in the cipher engine (R415), by its memory: 0 pipe input of a media read, `addr` the
read; 1 pipe input of a write or bell unit; 2 pipe working state; 3 media slot; 4 general slot; 5 user page. -/
def State.cipherBad (s : State) (addr what : Nat) : State :=
  match what with
  | 0 =>
    match s.readOf addr with
    | some r =>
      if r.st ≠ 7 then s
      else
        let s := s.dropRead r
        match r.src with
        | .cmd uid => s.unitFailed uid r.iu
        | .merge uid => s.mergeFailed uid
        | _ => s
    | none => s
  | 1 => s.count R.CIPHER.ERR_REDO
  | 2 => s.count R.CIPHER.ERR_REDO
  | 3 => s.reloadSlot (addr % 256)
  | 4 =>
    let t := s.setGen addr none
    ((List.range 16).filter fun p => match s.ciph.jobs.get none p with
      | some j => decide (j.slot = addr)
      | none => false).foldl (fun t p => (t.setChain p none).endJob p 2) t
  | 5 =>
    if 16 ≤ addr then s
    else
      let t := s.setChain addr none
      if (s.ciph.jobs.get none addr).isSome then t.endJob addr 6 else t
  | _ => s

/-- An uncorrectable error in the Porter (R426, R435): `addr` below 64 a channel, whose descriptor ends with code 6;
from 64 up a unit in egress, which is lost. -/
def State.porterBad (s : State) (addr : Nat) : State :=
  if addr < 64 then s.endDesc addr 6 false
  else
    match s.por.egress.find? fun e => decide (e.read = addr - 64) with
    | some e =>
      let s := s.mPor fun p => { p with egress := p.egress.filter fun x => decide (x.read ≠ e.read) }
      match s.readOf e.read with
      | some r => (s.dropRead r).unitFailed e.uid r.iu
      | none => s
    | none => s

/-- A record of the circulating store is lost (R327): `slot` counts from the oldest. -/
def State.recordLost (s : State) (slot : Nat) : State :=
  if slot < s.log.ring.length then
    ((s.mLog fun l => { l with ring := l.ring.zipIdx.map fun e =>
      if e.2 = slot then { e.1 with flags := setBit e.1.flags 4 } else e.1 }).count R.LOG.DROP_LOST).record 8 0x00B [slot, 1, 0, 0]
  else s

/-- The action of R327 for a group. -/
def State.uncorrected (s : State) (g addr what : Nat) : State :=
  if g = 0 then s.crateBad addr
  else if g = 1 then if what = 1 then s.tagBad addr else s.cacheBad addr
  else if g = 2 then s.cacheBad addr
  else if g = 3 then s.rowBad addr
  else if g ≤ 5 then s.dramBad addr
  else if g ≤ 7 ∨ g = 24 then s.stopAdmission
  else if g ≤ 19 then s.loseGroup (g - 8) 4
  else if g = 20 then s.cipherBad addr what
  else if g = 21 then s.porterBad addr
  else if g = 22 then s
  else s.recordLost addr

/-- An error that does not correct (R327): counted, tabled with SYNDROME all ones, handled by its group's action.
`addr` is where it lies in its group, `what` which memory of the group it is. -/
def execUncorrectableError (group addr what : Nat) (s : State) : Host.Outcome State Fault Refusal :=
  .next <|
    if 24 < group then s
    else ((s.count R.MEMCHK.GRP_UE_COUNT 0 group).tabled group (addr % 2 ^ 40) 0xFF).uncorrected group addr what

/-! ### Walks (R326, R329) -/

/-- A background walker reads a word and writes back the corrected value of a soft error, unless another write
reached the word (R326); an armed point of R571 makes the checker's counters only. -/
def execMemoryScrubWalk (group addr : Nat) (bad : Bool) (s : State) : Host.Outcome State Fault Refusal :=
  .next <|
    if 24 < group then s
    else
      let page := pageOf R.MEMCHK.GRP_SEL_GROUP 0
      let param := (s.armedParam page group).getD 0
      let f := s.fire page group fun _ _ => true
      let s := if f.1 = false then f.2
        else if bits param 8 7 = 0x7F then f.2.count R.MEMCHK.GRP_CE_COUNT 0 group else f.2.count R.MEMCHK.GRP_UE_COUNT 0 group
      if bad then
        let v := s.fresh
        v.2.corrected group (addr % 2 ^ 40) (Config.freeValue v.1)
      else s

/-- One key row found by the walk with bad parity on one copy, which is rewritten from the other, or on both. -/
def camRow (s : State) (e : Nat × Nat) : State :=
  if 20480 ≤ e.1 ∨ e.2 = 0 then s
  else if e.2 = 1 then s.count R.MEMCHK.CAM_PAR_COUNT
  else ((s.count R.MEMCHK.GRP_UE_COUNT 0 3).tabled 3 e.1 0xFF).rowBad e.1

/-- Every 100 µs the key copies of both tables are checked (R329): `bad` names rows, the crate index's 16,384
first, with how many of their copies fail. -/
def execCamParityWalk (bad : List (Nat × Nat)) (s : State) : Host.Outcome State Fault Refusal :=
  .next <|
    let page := pageOf R.LEDGER.NS_CMD_OP 0
    let a := s.fire page 0 fun _ _ => true
    let b := a.2.fire page 1 fun _ _ => true
    let s := if a.1 then b.2.count R.MEMCHK.CAM_PAR_COUNT else b.2
    let s := if b.1 then s.count R.MEMCHK.CAM_PAR_COUNT else s
    bad.foldl camRow s

end Sys2Proof.Machine
end

