-- ==== Sys2Proof/Machine/Flash.lean ====
section
/-! DEFINITION. The code-flash array (R510 to R518): what its words hold, its operations, firmware's commands on FWDATA,
and data reads. -/

namespace Sys2Proof.Machine

open Sys2Proof

/-! ### What the array holds (R510, R511) -/

/-- An erased word. -/
def erasedWord : Nat := 2 ^ 64 - 1

/-- The first sector of a slot. -/
def slotSector (slot : Nat) : Nat := if slot = 2 then 4100 else 4

/-- The sectors of FWDATA0 and FWDATA1. -/
def inFwdata (sector : Nat) : Bool := decide (3396 ≤ sector % 4096 ∧ sector < 8192)

/-- The sectors of DEVREC. -/
def inDevrec (sector : Nat) : Bool := decide (7428 ≤ sector ∧ sector < 7492)

/-- A configuration record's header as far as its RCRC (R534). -/
def CfgRec.head (r : CfgRec) : List Nat :=
  bytesOf r.type 2 ++ bytesOf r.format 2 ++ bytesOf r.len 4 ++ bytesOf r.seq 8 ++ List.replicate 12 0

/-- A configuration record's words: the header, then the payload. -/
def CfgRec.words (r : CfgRec) : List Nat :=
  let body := r.payload.flatMap fun w => bytesOf w 8
  let head := r.head ++ bytesOf (crc32c (r.head ++ body.take r.len)) 4
  (List.range 4).map (fun k => ofBytes ((head.drop (8 * k)).take 8)) ++ r.payload

/-- The words a record takes. -/
def CfgRec.size (r : CfgRec) : Nat := 4 + r.payload.length

/-- Where a record of `n` words goes after `used` words of a half: none crosses a sector (R534). -/
def cfgStart (used n : Nat) : Nat := if used % 512 + n ≤ 512 then used else (used / 512 + 1) * 512

/-- The records of a half with their first words. -/
def cfgPlaces (used : Nat) : List CfgRec → List (Nat × CfgRec)
  | [] => []
  | r :: t => (cfgStart used r.size, r) :: cfgPlaces (cfgStart used r.size + r.size) t

/-- The words of a half in use. -/
def cfgUsed (used : Nat) : List CfgRec → Nat
  | [] => used
  | r :: t => cfgUsed (cfgStart used r.size + r.size) t

/-- The word at place `i` of a half that holds the records. -/
def cfgWordAt (l : List CfgRec) (i : Nat) : Nat :=
  match (cfgPlaces 0 l).find? fun e => decide (e.1 ≤ i ∧ i < e.1 + e.2.size) with
  | some e => e.2.words.getD (i - e.1) erasedWord
  | none => erasedWord

/-- The word at a word address, where the model holds what stands there: the layout of the slot descriptor is not
stated, so a BOOT sector has no word of its own (log entry 44). -/
def State.flashWord (s : State) (a : Nat) : Option Nat :=
  let sector := a / 512
  let k := sector % 4096
  if s.nv.undef.contains a ∨ k < 4 then none
  else if 3076 ≤ k ∧ k < 3332 then
    let i := a - (sector / 4096 * 4096 + 3076) * 512
    if i / 65536 ≠ s.nv.cfgHalf then some erasedWord
    else some (cfgWordAt (if sector < 4096 then s.nv.cfgA else s.nv.cfgB) (i % 65536))
  else if 3332 ≤ sector ∧ sector < 3396 then
    let i := a - 3332 * 512
    if s.nv.permBad.contains (i / 8) then none
    else match s.nv.perm[i / 8]? with
      | some r => some (ofBytes ((r.bytes.drop (8 * (i % 8))).take 8))
      | none => some erasedWord
  else some (s.nv.words.get erasedWord a)

/-! ### Operations (R514 to R516) -/

/-- An erase ends: the sector's words read erased. -/
def Nv.eraseSector (v : Nv) (sector : Nat) : Nv :=
  { v with words := v.words.filter fun e => decide (e.1 / 512 ≠ sector)
           undef := v.undef.filter fun a => decide (a / 512 ≠ sector) }

/-- Words are programmed from a word address on, each only while it reads erased (R514). -/
def Nv.programWords (v : Nv) : Nat → List Nat → Nv
  | _, [] => v
  | a, w :: t =>
    (if v.words.get erasedWord a = erasedWord ∧ v.undef.contains a = false then
      { v with words := v.words.set erasedWord a w } else v).programWords (a + 1) t

/-- A slot of the permanent area is programmed (R553). -/
def State.permDone (s : State) (good : Bool) : State :=
  match s.log.permQueue with
  | [] => s
  | r :: rest =>
    let s := (s.mLog fun l => { l with permQueue := rest }).mNv fun v => { v with
      perm := v.perm ++ [r], permBad := if good then v.permBad else v.permBad ++ [v.perm.length] }
    s.wr R.LOG.PERM_USE_SLOTS (s.rd R.LOG.PERM_USE_SLOTS + 1)

/-- An operation is cut short: an erase leaves its sector undefined, a program its words (R514). -/
def State.flCut (s : State) (o : FlOp) : State :=
  if o.rank = 2 then s.permDone false
  else
    let l := if o.op = 1 then (List.range 512).map fun k => o.sector * 512 + k
      else (List.range o.words.length).map fun k => o.addr + k
    s.mNv fun v => { v with undef := v.undef ++ l.filter fun a => decide (v.undef.contains a = false) }

/-- A bank stands idle. -/
def State.flIdle (s : State) (bank : Nat) : State :=
  (s.mCf fun c => { c with run := c.run.set none bank none, susp := c.susp.set none bank none }).wr
    R.CFLASH.BANK_STAT_BUSY (clrBit (s.rd R.CFLASH.BANK_STAT_BUSY) bank)

/-- A bank's operation ends unfinished. -/
def State.flStop (s : State) (bank : Nat) (perm : Bool) : State :=
  match s.cf.run.get none bank with
  | some o => if o.rank = 2 ∧ perm = false then s else (s.flCut o).flIdle bank
  | none => s

/-- At entry to CLOSING each running erase is abandoned, and only records for the permanent area are programmed from
then on (R514): every other operation goes, and with it the command or commit it serves (log entry 44). -/
def State.flAbandon (s : State) : State :=
  let s := ((s.flStop 0 false).flStop 1 false).mCf fun c => { c with wait := [], commit := none, recOpen := false, recWords := [] }
  let s := if s.rd R.CFLASH.FL_STAT_BUSY = 1 then (s.set R.CFLASH.FL_STAT_BUSY 0).set R.CFLASH.FL_STAT_CODE 6 else s
  (((s.set R.GATE.COMMIT_RES_BUSY 0).set R.GATE.REC_RES_BUSY 0).wr R.GATE.PUMP_STAT_SPACE 64).flNext 0

/-- An operation waits for its bank. -/
def State.flAsk (s : State) (o : FlOp) : State :=
  let b := sectorBank o.sector
  (s.mCf fun c => { c with wait := c.wait.set [] b (c.wait.get [] b ++ [o]) }).flNext b

/-- Whether a bank's operation is suspended (R516): reads are served for 20 µs, and it resumes. -/
def State.flSuspended (s : State) (bank : Nat) : Bool :=
  match s.cf.susp.get none bank with
  | some t => decide (s.mono < t + 2000)
  | none => false

/-- FLASH_OPERATION_SUSPEND (R516): for a read that waits, a program sequence is suspended once it has run 50 µs since
it started or last resumed, an erase once it has run 500 µs. It resumes 20 µs later (log entry 44). -/
def execFlashOperationSuspend (bank : Nat) (s : State) : Host.Outcome State Fault Refusal :=
  .next <|
    match s.cf.run.get none bank with
    | none => s
    | some o =>
      if s.flSuspended bank ∨ (o.op = 2 ∧ o.words.length < 2) ∨ s.mono < o.from_ + (if o.op = 1 then 50000 else 5000) then s
      else s.mCf fun c => { c with susp := c.susp.set none bank (some s.mono)
                                   run := c.run.set none bank (some { o with from_ := s.mono + 2000 }) }

/-! ### Commands of firmware (R517) -/

/-- The bank an initiator's instruction was fetched from, or none (R517). -/
def fetchBank : Initiator → Nat
  | .policy _ _ b => b
  | .mgmt _ b => b
  | .mi => 2
  | .bootRom => 2

/-- The code of R517 that refuses a command on the word at `a`, 0 for none; `inj` is an armed point of limit 8. -/
def State.flCode (s : State) (who : Initiator) (erase : Bool) (a : Nat) (inj : Bool) : Nat :=
  let sector := a / 512
  if inj ∨ inFwdata sector = false then 1
  else if fetchBank who = sectorBank sector then 2
  else if erase = false ∧ (s.nv.undef.contains a ∨ s.nv.words.get erasedWord a ≠ erasedWord) then 3
  else if erase ∧ 6 ≤ s.cf.dayErases.get 0 sector then 4
  else if erase ∧ 100000 ≤ s.nv.sectErases.get 0 sector then 5
  else if 6 ≤ s.dst then 6
  else 0

/-- A command of FL_CMD: dropped while one waits or runs, refused by the first check that fails, else it waits for its
bank. -/
def State.flCommand (s : State) (who : Initiator) (erase : Bool) : State :=
  let f := R.CFLASH.FL_CMD_OP
  if mayWrite f who = false then s.denyWrite who f
  else if s.rd R.CFLASH.FL_STAT_BUSY = 1 then s.count R.CFLASH.FL_STAT_DROPPED
  else
    let a := s.rd R.CFLASH.FL_ADDR_ADDR
    let i := s.limFire 8
    let s := i.2
    let code := s.flCode who erase a i.1
    if code = 0 then
      let s := (s.set R.CFLASH.FL_STAT_CODE 0).wr R.CFLASH.FL_STAT_BUSY 1
      s.flAsk { rank := 4, op := if erase then 1 else 2, sector := a / 512, addr := a
                words := if erase then [] else [s.rd64 R.CFLASH.FL_WDATA_LO_VALUE R.CFLASH.FL_WDATA_HI_VALUE], from_ := 0 }
    else
      let s := s.set R.CFLASH.FL_STAT_CODE code
      let s := s.count (if code = 2 then R.CFLASH.REFUSED_SELF_BANK else R.CFLASH.REFUSED_OTHER)
      if code = 1 then s.refuse 8 (initCode who) (initHart who) (8 * a) i.1 else s

/-- FL_CMD.OP 1 ERASE (R517). -/
def execFlCmdErase (who : Initiator) (s : State) : Host.Outcome State Fault Refusal := .next (s.flCommand who true)

/-- FL_CMD.OP 2 PROGRAM (R517). -/
def execFlCmdProgram (who : Initiator) (s : State) : Host.Outcome State Fault Refusal := .next (s.flCommand who false)

/-! ### Data reads (R512, R513) -/

/-- Whether a sector lies in an execute-only window in force. -/
def State.execOnly (s : State) (sector : Nat) : Bool :=
  (List.range 8).any fun w => decide (s.rd R.CFLASH.XWIN_VALID 0 w = 1)
    && decide (s.rd R.CFLASH.XWIN_BASE 0 w ≤ sector)
    && decide (sector < s.rd R.CFLASH.XWIN_BASE 0 w + s.rd R.CFLASH.XWIN_SECTORS 0 w)

/-- An error of the array is counted, and its address latched (R512). -/
def State.flashEcc (s : State) (a : Nat) (ue : Bool) : State :=
  (s.count (if ue then R.CFLASH.ECC_UE else R.CFLASH.ECC_CE)).wr R.CFLASH.ECC_LAST_ADDR a

/-- The initiator of a code-flash read as its record shows it, coded as LIM_LAST.INIT. -/
def State.flashNote (s : State) (code a : Nat) (who : Initiator) : State := s.record 8 code [8 * a, initCode who, 0, 0]

/-- CODE_FLASH_DATA_READ (R511 to R513): a core reads the word that holds byte `addr` of the array. DEVREC and the
execute-only windows answer zeros, are counted and recorded. An undefined word reads as a free value, with no error, a
correctable or an uncorrectable one as a free value says (log entry 3). -/
def execCodeFlashDataRead (who : Initiator) (addr : Nat) (s : State) : Host.Outcome State Fault Refusal :=
  .next <|
    let a := addr / 8
    if s.dst = 0 ∨ 4194304 ≤ a then s
    else
      let param := (s.armedParam (pageOf R.CFLASH.FL_CMD_OP 0) 0).getD 0
      let i := s.fire (pageOf R.CFLASH.FL_CMD_OP 0) 0 fun _ _ => true
      let s := if i.1 then i.2.flashEcc a (decide (bits param 8 7 ≠ 0x7F)) else i.2
      if inDevrec (a / 512) then ((s.count R.CFLASH.DEVREC_READ_COUNT).flashNote 0x2E3 a who).answer [0]
      else if s.execOnly (a / 512) then ((s.count R.CFLASH.XO_READ_COUNT).flashNote 0x2E2 a who).answer [0]
      else match s.flashWord a with
        | some w => s.answer [w]
        | none =>
          let v := s.fresh
          let k := v.2.fresh
          if a / 512 % 4096 < 4 then v.2.answer [Config.freeValue v.1 % 2 ^ 64]
          else if Config.freeValue k.1 % 3 = 2 then (k.2.flashEcc a true).busError
          else (if Config.freeValue k.1 % 3 = 1 then k.2.flashEcc a false else k.2).answer [Config.freeValue v.1 % 2 ^ 64]

end Sys2Proof.Machine
end

