-- ==== Sys2Proof/Machine/Cores.lean ====
section
/-! DEFINITION. The policy and management cores as the device sees them (R488 to R509, R522 to R526): the slot
descriptor and fall-backs, CORE reset, watchdogs, machine timers, and the admin commands firmware executes. -/

namespace Sys2Proof.Machine

open Sys2Proof

/-! ### The slot descriptor and the slot lock (R522, R524, R526) -/

/-- BOOT_INFO and BOOT_SEQ show the descriptor. -/
def State.showDesc (s : State) : State :=
  let d := s.nv.desc
  (((((s.wr R.GATE.BOOT_INFO_CURRENT d.current).wr R.GATE.BOOT_INFO_TRIAL d.trial).wr R.GATE.BOOT_INFO_NEXT d.next).wr
    R.GATE.BOOT_INFO_TRIAL_BOOTS d.boots).wr R.GATE.BOOT_INFO_FALLBACK d.fallback).wr R.GATE.BOOT_SEQ_SEQ d.seq

/-- The Gate appends a descriptor (R522). -/
def State.appendDesc (s : State) (g : SlotDesc → SlotDesc) : State :=
  (s.mNv fun v => let d := g v.desc
                  { v with desc := { d with seq := (v.desc.seq + 1) % 2 ^ 32 } }).showDesc

/-- A fall-back from a slot is appended, counted and recorded (R523, R524). -/
def State.fallBack (s : State) (slot cause : Nat) (clearTrial : Bool) : State :=
  let s := s.appendDesc fun d => { d with fallback := cause, trial := if clearTrial then 0 else d.trial
                                          boots := if clearTrial then 0 else d.boots }
  let s := s.mNv fun v => { v with fallbacks := v.fallbacks + 1 }
  (s.wr R.GATE.FALLBACKS_COUNT s.nv.fallbacks).record 8 0x2E0 [slot, cause, 0, 0]

/-- An event against the running slot clears TRIAL where it names that slot (R524). -/
def State.trialFail (s : State) (cause : Nat) : State :=
  let t := s.nv.desc.trial
  if t ≠ 0 ∧ t = s.rd R.GATE.BOOT_INFO_RUN_POLICY then s.fallBack t cause true else s

/-- A source's staging is discarded (R526). -/
def State.dropStaging (s : State) (src : Nat) : State :=
  (s.mCf fun c => { c with cover := c.cover.set [] src [] }).wr R.GATE.STG_LEN_DWORDS 0 0 src

/-- The slot lock of a holder is released and its staging discarded. -/
def State.releaseLock (s : State) (src : Nat) : State :=
  if s.rd R.GATE.LOCK_HELD = 1 ∧ s.rd R.GATE.LOCK_SRC = src then (s.wr R.GATE.LOCK_HELD 0).dropStaging src else s

/-! ### Admin commands firmware executes (R498, R501, R502, R508) -/

/-- The commands in slots, each with its slot. -/
def State.admSlots (s : State) : List (Nat × AdmSlot) :=
  s.core.adm.filterMap fun e => e.2.map fun x => (e.1, x)

/-- The oldest of a list in hand-over order. -/
def oldestAdm : List (Nat × AdmSlot) → Option (Nat × AdmSlot)
  | [] => none
  | e :: t => match oldestAdm t with
    | none => some e
    | some f => if f.2.order < e.2.order then some f else some e

/-- The oldest command awaiting firmware. -/
def State.admOldest (s : State) : Option (Nat × AdmSlot) := oldestAdm (s.admSlots.filter fun e => decide (e.2.st = 1))

/-- ADM_HAND and ADM_USE show the slots (R508). -/
def State.admShow (s : State) : State :=
  let s := s.wr R.ADMQ.ADM_USE_HELD ((s.admSlots.filter fun e => decide (e.2.st = 2)).length)
  match s.admOldest with
  | none => s.wr R.ADMQ.ADM_HAND_VALID 0
  | some (k, x) =>
    ((((s.wr R.ADMQ.ADM_HAND_SLOT k).wr R.ADMQ.ADM_HAND_OPCODE x.opcode).wr R.ADMQ.ADM_HAND_REPLAY (b2n x.replay)).wr
      R.ADMQ.ADM_HAND_PORT x.port).wr R.ADMQ.ADM_HAND_VALID 1

/-- Waiting commands take the free slots, in order. -/
def seatAdm (s : State) : List AdmSlot → State
  | [] => s
  | x :: t =>
    match firstFrom (fun k => (s.core.adm.get none k).isNone) 64 0 with
    | some k => seatAdm (s.mCore fun c => { c with adm := c.adm.set none k (some x) }) t
    | none => s.mCore fun c => { c with admWait := x :: t }

/-- Seats what waits and shows it. -/
def State.admSettle (s : State) : State :=
  let w := s.core.admWait
  (seatAdm (s.mCore fun c => { c with admWait := [] }) w).admShow

/-- The 16 dwords of a command's SQE: `dw` holds dwords 10 to 15 and then 2 to 9. -/
def Cmd.sqe (c : Cmd) : List Nat :=
  [c.opcode + c.flags % 0x100 * 0x100 + c.cid % 0x10000 * 0x10000, c.nsid]
    ++ (List.range 8).map (fun i => c.dw.getD (6 + i) 0) ++ (List.range 6).map fun i => c.dw.getD i 0

/-- Whether the data of a command go from device to host (R501). -/
def toHostOp (opcode : Nat) : Bool := decide (opcode = 0x02 ∨ opcode = 0x06 ∨ opcode = 0x0A)

/-- INTAKE hands an admin command to firmware (R138, R498): it is executing, and takes a slot or waits for one. -/
def State.handOver (s : State) (c : Cmd) : State :=
  let s := s.mCmd c.uid fun d => { d with stage := .accepted, acceptedAt := s.mono, started := true }
  let s := s.mCore fun x => { x with
    admNext := x.admNext + 1
    admWait := x.admWait ++ [{ order := x.admNext, port := c.port, cid := c.cid, uid := c.uid, opcode := c.opcode
                               sqe := c.sqe, st := 1, replay := false, ranges := c.ranges
                               toHost := toHostOp c.opcode }] }
  s.admSettle

/-- A command is no longer firmware's: its ranges cease to count (R498, R501). -/
def State.dropAdm (s : State) (uid : Nat) : State :=
  (s.mCore fun c => { c with
    adm := c.adm.filter fun e => match e.2 with
      | some x => decide (x.uid ≠ uid)
      | none => false
    admWait := c.admWait.filter fun x => decide (x.uid ≠ uid) }).admSettle

/-- Whether CORE runs: powered and not in reset. -/
def State.coreUp (s : State) : Bool := s.domOn 4 && !s.core.inReset

/-- ADM_TAKE (R508): policy firmware takes the oldest command. -/
def execAdmTake (who : Initiator) (s : State) : Host.Outcome State Fault Refusal :=
  .next <| s.access who (pageOf R.ADMQ.ADM_TAKE_TAKE 0) R.ADMQ.ADM_TAKE_TAKE.off true fun s =>
    if mayWrite R.ADMQ.ADM_TAKE_TAKE who = false then s.denyWrite who R.ADMQ.ADM_TAKE_TAKE
    else match s.admOldest with
      | none => s
      | some (k, x) => (s.mCore fun c => { c with adm := c.adm.set none k (some { x with st := 2 }) }).admShow

/-- The statuses of R144 by code type. -/
def statusListed (sct sc : Nat) : Bool :=
  match sct with
  | 0 => [0x00, 0x01, 0x02, 0x04, 0x06, 0x07, 0x08, 0x0B, 0x0C, 0x13, 0x1D, 0x20, 0x21, 0x80, 0x84].contains sc
  | 1 => [0x00, 0x01, 0x02, 0x03, 0x05, 0x06, 0x07, 0x08, 0x09, 0x0A, 0x0C, 0x0D, 0x0E, 0x12, 0x13, 0x14, 0x15, 0x16,
      0x18, 0x1A, 0x1C, 0xC0, 0xC1, 0xC2, 0xC3, 0xC4, 0xC5, 0xC6].contains sc
  | 2 => [0x81, 0x85, 0xC0].contains sc
  | _ => false

/-- The statuses only hardware posts (R502). -/
def statusReserved (sct sc : Nat) : Bool :=
  (decide (sct = 0) && [0x06, 0x07, 0x08, 0x21].contains sc)
    || (decide (sct = 1) && [0xC0, 0xC1, 0xC2, 0xC3, 0xC4].contains sc) || decide (sct = 2 ∧ sc = 0xC0)

/-- ADM_CPL.GO (R502): the completion of a held command, or the refusal of one. -/
def execAdmCplGo (who : Initiator) (value : Nat) (s : State) : Host.Outcome State Fault Refusal :=
  .next <| s.access who (pageOf R.ADMQ.ADM_CPL_GO 0) R.ADMQ.ADM_CPL_GO.off true fun s =>
    if mayWrite R.ADMQ.ADM_CPL_GO who = false then s.denyWrite who R.ADMQ.ADM_CPL_GO
    else if bit value 31 = false then s
    else
      let slot := bits value 0 6
      let sct := bits value 8 3
      let sc := bits value 16 8
      let held := match s.core.adm.get none slot with
        | some x => if x.st = 2 then s.cmdOf x.uid else none
        | none => none
      let i := s.limFire 1
      let s := i.2
      let bad := if held.isNone then 1 else if statusReserved sct sc then 2 else if statusListed sct sc = false then 3 else 0
      let refuse := fun (s : State) (code : Nat) (inj : Bool) => (s.set R.ADMQ.ADM_CPL_RES_CODE code).refuse 1 (initCode who)
        (initHart who) (regAddr who (pageOf R.ADMQ.ADM_CPL_GO 0) R.ADMQ.ADM_CPL_GO.off) inj
      if bad ≠ 0 then refuse s bad false
      else if i.1 then refuse s 1 true
      else match held with
        | none => s
        | some c =>
          ((s.set R.ADMQ.ADM_CPL_RES_CODE 0).dropAdm c.uid).complete c sct sc (bit value 24)
            (s.rd R.ADMQ.ADM_CPL_DW0_VALUE) [] (s.rd R.ADMQ.ADM_CPL_DW1_VALUE) (bit value 25)

/-! ### CORE reset (R496, R497) -/

/-- Every command handed to firmware is marked REPLAY (R498). -/
def State.markReplay (s : State) : State :=
  (s.mCore fun c => { c with adm := c.adm.map fun e => (e.1, e.2.map fun x => { x with st := 1, replay := true }) }).admShow

/-- CORE reset asserted with a cause of R496; a source that arises during a reset joins it. -/
def State.coreReset (s : State) (cause hart : Nat) : State :=
  if s.core.inReset then s
  else
    let s := s.wr R.CORESYS.CORE_LAST_CAUSE cause
    let s := if cause = 1 then s.wr R.CORESYS.CORE_LAST_HART hart else s
    let s := (s.wr64 R.CORESYS.CORE_LAST_T_LO_VALUE R.CORESYS.CORE_LAST_T_HI_VALUE s.mono).count R.CORESYS.CORE_RST_CNT_COUNT
    let s := (s.mCore fun c => { c with inReset := true, resetAt := s.mono }).mDev fun d => { d with policyUp := false }
    ((((s.reclaimLent.cipherCoreReset).porterCoreReset).set R.SWEEP.SWEEP_STAT_CORE_PAUSE 1).markReplay)

/-- What holds CORE in reset (R497, R630): board test mode, 10 µs, crates being reclaimed, policy channels stopping. -/
def State.coreHeld (s : State) : Bool :=
  s.dev.boardTest || decide (s.mono < s.core.resetAt + 1000) || s.reclaiming
    || (List.range 56).any fun k => decide (s.chOwner (k + 8) = 2) && decide (s.chState (k + 8) = 5)

/-- CORE leaves reset (R493, R494, R497): the watchdogs start from their full periods, and the boot ROM writes all
ones to the policy harts' compare registers. -/
def State.coreRelease (s : State) : State :=
  let s := s.mCore fun c => { c with inReset := false, kicked := (List.range 8).foldl (fun t h => t.set 0 h s.mono) c.kicked
                                     timers := c.timers.filter fun h => decide (8 ≤ h) }
  let s := (List.range 8).foldl (fun t h => ((t.wr (R.CORESYS.MTIMECMP_LO_VALUE h) 0xFFFFFFFF).wr
    (R.CORESYS.MTIMECMP_HI_VALUE h) 0xFFFFFFFF).wr R.CORESYS.WDOG_STAT_WARN 0 0 h) s
  (s.mDev fun d => { d with policyUp := decide (s.dst = 4 ∨ s.dst = 5) }).admShow

/-- CORE_RESET_RELEASE (R497). -/
def execCoreResetRelease (s : State) : Host.Outcome State Fault Refusal :=
  .next <| if s.core.inReset = false ∨ s.domOn 4 = false ∨ s.coreHeld then s else s.coreRelease

/-- CORE_RST.GO (R496): management firmware, or a policy hart in M-mode; one in another mode is refused under
limit 15. -/
def execCoreRstGo (who : Initiator) (s : State) : Host.Outcome State Fault Refusal :=
  .next <|
    match who with
    | .mgmt _ _ => if s.domOn 4 then s.coreReset 2 0 else s
    | .policy _ true _ => if s.domOn 4 then s.coreReset 6 0 else s
    | .bootRom => s
    | _ => s.denyWrite who R.CORESYS.CORE_RST_GO

/-! ### Watchdogs and timers (R493 to R495) -/

/-- WDOG_KICK (R494): the right key from a policy hart reloads that hart's watchdog; anything else is counted. -/
def execWdogKick (who : Initiator) (key : Nat) (s : State) : Host.Outcome State Fault Refusal :=
  .next <|
    match who with
    | .policy h _ _ =>
      if key = 0xC3A5 ∧ h < 8 then
        (s.mCore fun c => { c with kicked := c.kicked.set 0 h s.mono }).wr R.CORESYS.WDOG_STAT_WARN 0 0 h
      else s.count R.CORESYS.WDOG_STAT_BAD_KICK 0 (h % 8)
    | _ => s.count R.CORESYS.WDOG_STAT_BAD_KICK 0 (s.rd R.CORESYS.WDOG_SEL_HART)

/-- WDOG_WARNING (R494): half the period has passed. -/
def execWdogWarning (hart : Nat) (s : State) : Host.Outcome State Fault Refusal :=
  .next <| if hart < 8 ∧ s.coreUp then s.wr R.CORESYS.WDOG_STAT_WARN 1 0 hart else s

/-- A watchdog expiry: CORE is reset with cause WATCHDOG, and the third within 60 s counts against a slot on trial
(R494, R524). An injected one does not count (R570). -/
def State.wdogFire (s : State) (hart : Nat) (inj : Bool) : State :=
  let s := s.coreReset 1 hart
  if inj then s
  else
    let l := (s.core.wdResets.filter fun t => decide (s.mono < t + 6000000000)) ++ [s.mono]
    let s := s.mCore fun c => { c with wdResets := l }
    if 3 ≤ l.length then s.trialFail 5 else s

/-- WDOG_EXPIRY (R494). -/
def execWdogExpiry (hart : Nat) (s : State) : Host.Outcome State Fault Refusal :=
  .next <| if hart < 8 ∧ s.coreUp then s.wdogFire hart false else s

/-- The management harts restart (R495, R526): transactions in flight are dropped, and the third restart within 60 s
starts the other slot's image where that is valid. An injected restart does not count towards it. -/
def State.mgmtRestart (s : State) (inj : Bool) : State :=
  let l := (s.core.mRestarts.filter fun t => decide (s.mono < t + 6000000000)) ++ (if inj then [] else [s.mono])
  let other := 3 - s.rd R.GATE.BOOT_INFO_RUN_MGMT
  let swap := decide (3 ≤ l.length ∧ inj = false) && decide (s.rd R.GATE.SLOT_INFO_VALID 0 other = 1)
  let s := (s.count R.CORESYS.MGT_RESTART_COUNT).mCore fun c => { c with
    mRestarts := if swap then [] else l, mKicked := s.mono, timers := c.timers.filter fun h => decide (h < 8) }
  let s := s.record 8 0x013 [s.rd R.CORESYS.MGT_RESTART_COUNT, b2n swap, 0, 0] inj
  let s := s.releaseLock 1
  if swap then (s.wr R.GATE.BOOT_INFO_RUN_MGMT other).trialFail 6 else s

/-- MWDOG_KICK (R495). -/
def execMwdogKick (who : Initiator) (key : Nat) (s : State) : Host.Outcome State Fault Refusal :=
  .next <|
    if mayWrite R.CORESYS.MWDOG_KICK_KEY who = false then s.denyWrite who R.CORESYS.MWDOG_KICK_KEY
    else if key = 0x5AC3 then s.mCore fun c => { c with mKicked := s.mono } else s

/-- MWDOG_EXPIRY (R495). -/
def execMwdogExpiry (s : State) : Host.Outcome State Fault Refusal := .next (s.mgmtRestart false)

/-- MTIMECMP of a hart (R493). -/
def State.mtimecmp (s : State) (h : Nat) : Nat :=
  s.rd64 (R.CORESYS.MTIMECMP_LO_VALUE h) (R.CORESYS.MTIMECMP_HI_VALUE h)

/-- MACHINE_TIMER_INTERRUPT (R493): mtime has reached the hart's compare register, and its interrupt is pending. -/
def execMachineTimerInterrupt (hart : Nat) (s : State) : Host.Outcome State Fault Refusal :=
  .next <|
    if hart < 10 ∧ s.mtimecmp hart ≤ s.mono ∧ s.core.timers.contains hart = false then
      s.mCore fun c => { c with timers := c.timers ++ [hart] }
    else s

end Sys2Proof.Machine
end

