-- ==== Sys2Proof/Machine/Power.lean ====
section
/-! DEFINITION. Islands, crossings, power domains, votes, clocks and power states (R441 to R482). -/

namespace Sys2Proof.Machine

open Sys2Proof

/-! ### Crossings (R443 to R461) -/

/-- XMODE.MODE (R449, R463): double sampling in WAKE, SELF_TEST and REBUILD and while DIAGNOSE is set; LEGACY. -/
def State.xmode (s : State) : Nat := b2n (decide (1 ≤ s.dst ∧ s.dst ≤ 3) || s.mode 5) + 2 * b2n (s.mode 7)

/-- Whether an island is one of MAIN: every island but CORE and WATCH (R455). -/
def isMain (n : Nat) : Bool := decide (n ≠ 7 ∧ n ≠ 8)

/-- Whether an island's domain is on. -/
def State.islandOn (s : State) (n : Nat) : Bool := s.domOn (islandDomain n)

/-- The URGENT level: an URGENT command is accepted and not yet completed (R453). -/
def State.urgentLevel (s : State) : Bool := s.host.cmds.any fun c => decide (c.stage = .accepted) && decide (c.cls = 0)

/-- The islands R450 never gates, as things stand. -/
def State.neverGated (s : State) (n : Nat) : Bool :=
  decide (n = 8) || (decide (n = 0) && (s.host.p0.linkUp || s.host.p1.linkUp) && decide (s.eff ≤ 2))
    || (decide (n = 6) && decide (s.eff ≠ 4)) || decide (s.xmode % 2 = 1) || (isMain n && s.urgentLevel)

/-- ISLAND_GATE (R450): the island has been idle for GATE_CFG.IDLE cycles, and its clock stops where that is
permitted. -/
def execIslandGate (island : Nat) (s : State) : Host.Outcome State Fault Refusal :=
  .next <|
    if 117 ≤ island ∨ s.isl.gated.contains island ∨ s.neverGated island ∨ s.islandOn island = false
        ∨ s.rd R.XCLK.GATE_CFG_ENABLE 0 island = 0 then s
    else s.mIsl fun x => { x with gated := x.gated ++ [island] }

/-- ISLAND_WAKE (R451): a request has started the island's clock again, `ns` after it; an armed WAKE_FAIL point's
request is taken to come from WATCH. -/
def execIslandWake (island ns : Nat) (s : State) : Host.Outcome State Fault Refusal := .next (s.wakeIsland 8 island ns)

/-- What becomes of a crossing whose watchdog expires, by the table of R454, its rows in order. -/
def State.crossingLost (s : State) (src dst : Nat) : State :=
  if 21 ≤ src then s.loseChannel (src - 21) 3
  else if 21 ≤ dst then s.loseChannel (dst - 21) 3
  else if 9 ≤ src then s.loseGroup (src - 9) 4
  else if 9 ≤ dst then s.loseGroup (dst - 9) 4
  else if src = 7 ∨ dst = 7 then s
  else if src = 8 ∨ dst = 8 then s.stopAdmission.count R.TALLY.TALLY_LATE_COUNT
  else s.stopAdmission

/-- Whether two islands are the two ends of a crossing. -/
def crossing (src dst : Nat) : Bool := decide (src < 117 ∧ dst < 117 ∧ src ≠ dst)

/-- WAKE_FAILURE (R452): the destination has not restarted within 80 ns. -/
def execWakeFailure (src dst : Nat) (s : State) : Host.Outcome State Fault Refusal :=
  .next <|
    if crossing src dst = false ∨ s.isl.gated.contains dst = false then s
    else (s.xwdReport src dst true false).crossingLost src dst

/-- CROSSING_WATCHDOG_EXPIRY (R454). -/
def execCrossingWatchdogExpiry (src dst : Nat) (s : State) : Host.Outcome State Fault Refusal :=
  .next <|
    if crossing src dst = false ∨ s.islandOn src = false ∨ s.islandOn dst = false then s
    else (s.xwdReport src dst false false).crossingLost src dst

/-! ### Votes (R466, R469, R477) -/

/-- Whether a stall group is populated, as DIE_MAP shows, and not lost. -/
def State.groupIn (s : State) (g : Nat) : Bool :=
  !bit (s.rd R.DEVSTATE.DEG_INFO2_SG_LOST) g && (List.range 8).any fun i => decide (s.rd R.STALL.DIE_MAP_PRESENT (g * 8 + i) ≠ 0)

/-- The bits of the domains a test accepts. -/
def domMask (p : Nat → Bool) : Nat := ((List.range 17).map fun d => if p d then 2 ^ d else 0).sum

/-- Whether a domain is a populated stall group in service. -/
def State.sg (s : State) (d : Nat) : Bool := decide (5 ≤ d) && s.groupIn (d - 5)

/-- The Sweep's work that touches every group (R466): victims, copies, a lap while operational. -/
def State.sweepWork (s : State) : Bool :=
  decide (s.sw.victims ≠ []) || decide (s.sw.copies ≠ []) || (s.bell.lap.isSome && decide (s.eff ≤ 2)) || s.mode 3

/-- Whether a scrub read lies in a stall group. -/
def State.scrubIn (s : State) (g : Nat) : Bool :=
  s.st.reads.any fun r => match r.src with
    | .scrub _ => decide (aCh r.addr / 8 = g)
    | _ => false

/-- Whether an I/O command is staged, waiting or accepted. -/
def State.ioBusy (s : State) : Bool := s.host.cmds.any fun c => decide (c.sqid ≠ 0)

/-- The votes of a client, as VOTE_SEL numbers them (R466, R477, R486). -/
def State.votes (s : State) (client : Nat) : Nat :=
  let on := decide (s.dst = 4 ∨ s.dst = 5)
  match client with
  | 0 => domMask fun d =>
      (decide (d = 1) && on)
        || ((decide (d = 2 ∨ d = 3) || s.sg d) && on && (decide (s.eff ≤ 2) || s.ioBusy))
        || (decide (d = 4) && (decide (s.admSlots ≠ []) || decide (s.core.admWait ≠ [])))
  | 1 => domMask fun d =>
      (decide (d = 2) && s.cr.desc.any fun e => decide (e.2.state ≠ 0))
        || ((decide (d = 3) || s.sg d) && s.cr.desc.any fun e => decide (e.2.state = 1 ∧ (e.2.kind = 0 ∨ e.2.kind = 2)))
  | 2 => domMask fun d =>
      ((decide (d = 2 ∨ d = 3) || s.sg d) && s.sweepWork)
        || (decide (d = 2 ∨ d = 3) && (List.range 12).any fun g => s.scrubIn g)
        || (s.sg d && s.scrubIn (d - 5))
  | 3 => domMask fun d =>
      (decide (d = 2) && s.porterVote) || (decide (d = 3) && (List.range 56).any fun k => s.chActive (k + 8))
  | 4 => s.rd R.POWER.POL_VOTE_DOMAINS
  | 5 => s.rd R.POWER.MGT_VOTE_DOMAINS
  | 6 => domMask fun d => decide (d = 1 ∨ d = 4) && (s.cf.commit.isSome || decide (s.dst = 5))
  | 7 => domMask fun d => (decide (d = 2 ∨ d = 3) || s.sg d) && decide (s.rd R.LOG.LOG_STAT_SAVING = 1)
  | n =>
    let p := s.pitch (n - 1024)
    if n < 1024 ∨ p.state ≠ 1 then 0
    else domMask fun d => (decide (d = 2 ∨ d = 3) && decide (p.c.powerFloor ≤ 3)) || (s.sg d && decide (p.c.powerFloor ≤ 2))

/-- Whether a vote of the clients `l` is held on a domain; one on a lost stall group has no effect. -/
def State.votedBy (s : State) (l : List Nat) (d : Nat) : Bool :=
  !(decide (5 ≤ d) && bit (s.rd R.DEVSTATE.DEG_INFO2_SG_LOST) (d - 5)) && l.any fun n => bit (s.votes n) d

/-- Whether any vote is held on a domain. -/
def State.voted (s : State) (d : Nat) : Bool :=
  s.votedBy (List.range 8) d || s.votedBy (s.pit.table.map fun e => 1024 + e.1) d

/-- The domains a power state's plan keeps off (R475). -/
def planOff (ps d : Nat) : Bool := (decide (3 ≤ ps) && decide (5 ≤ d)) || (decide (ps = 4) && decide (d = 2))

/-! ### Domains on and off (R113, R221, R416, R461, R468, R602) -/

/-- The domain of the island that counts a term. -/
def termDomain (t : Nat) : Nat :=
  if t < 32 then 2 else if 184 ≤ t ∧ t ≤ 191 then 2 else if 192 ≤ t ∧ t < 288 then 5 + (t - 192) / 8
  else if t = 288 then 3 else 1

/-- Read-only fields that a chapter keeps or restores across power-off of a domain (R213, R221, R416, R479), beside
the writable ones of R602. -/
def keptFields : List Field :=
  [R.STALL.CH_STATE_STATE, R.STALL.CH_STATE_MODE, R.STALL.CH_STATE_LOST_CAUSE, R.STALL.CH_RATE_MTS, R.STALL.CH_RATE_WEIGHT,
   R.STALL.DIE_MAP_PRESENT, R.STALL.DIE_MAP_IN_SERVICE, R.STALL.DIE_INFO_DESC, R.DECODE.CW_CFG_CODE,
   R.LEDGER.DRAM_MAP_SIZE, R.LEDGER.DRAM_MAP2_SWEEP, R.LEDGER.LEDGER_REGION_GRANULES, R.LEDGER.GRAN_FREE_COUNT,
   R.LEDGER.CIX_USE_ROWS, R.LCACHE.LOCK_APPLIED_WAYS, R.LCACHE.WAY_PWR_STAT_ON, R.SWEEP.SWEEP_STAT_CORE_PAUSE,
   R.SWEEP.SWEEP_STAT_TALLY_STOP, R.CKPT.CKPT_LAP_NUM, R.CKPT.CKPT_H_LO_VALUE, R.CKPT.CKPT_H_HI_VALUE,
   R.CKPT.JOURNAL_USE_RECORDS, R.SCRUB.SCRUB_CYCLE_NUM, R.CRATEYD.POOL_RSV_FAST, R.CRATEYD.POOL_RSV_BELL,
   R.WPATH.DENSE_CFG_MODE, R.WPATH.DENSE_CFG_BITS, R.WPATH.SLC_TARGET_MIB, R.CIPHER.WRAP_STAT_READY,
   R.PCHAN.CH_OWNER_OWNER, R.PCHAN.RING_HEAD_INDEX, R.COMMON.PAGE_LOCK_BY]

/-- Whether a key of the register store names a field `f`. -/
def fieldAt (f : Field) (k : Nat) : Bool :=
  decide (f.page ≤ keyPage k ∧ keyPage k < f.page + f.insts) && decide (k / (32 * 0x10000) % 0x1000 = f.off)
    && decide (k / 0x10000 % 32 = f.lo)

/-- Whether a stored field is kept while its domain is off: every RW and RWL field, the fields above, and the owners
of timers. -/
def keptKey (k : Nat) : Bool :=
  ((R.COMMON.fields ++ R.blockFields).any fun f => fieldAt f k && decide (f.acc = .rw ∨ f.acc = .rwl))
    || keptFields.any (fun f => fieldAt f k)
    || (List.range 16).any fun n => fieldAt (R.PORTER.TMR_OWNER_OWNER n) k

/-- The messages on their way to a domain arrive: its crossings drain before it goes off (R461). -/
def State.drainMoves (s : State) (d : Nat) : State :=
  let l := s.tal.moving.filter fun m => decide (termDomain m.term = d)
  l.foldl (fun t m => t.move m.term m.delta)
    (s.mTal fun t => { t with moving := t.moving.filter fun m => decide (termDomain m.term ≠ d) })

/-- A domain is powered off: its islands' terms stay with the Tally, its fields that no rule keeps are gone, its
points are disarmed, DATA's cache is clean and disabled and CIPHER's state is in retention. -/
def State.domainOff (s : State) (d : Nat) : State :=
  if d = 0 ∨ s.domOn d = false then s
  else
    let s := if d = 2 then s.cacheOff.cipherKeep.drainMoves 2 else s.drainMoves d
    let s := if d = 4 then s.mDev fun x => { x with policyUp := false } else s
    let s := s.disarmThose (fun p => decide (islandDomain (pageIsland p) = d)) 5
    let s := s.mTal fun t =>
      let gone := t.terms.filter fun e => decide (termDomain e.1 = d)
      { t with terms := t.terms.filter fun e => decide (termDomain e.1 ≠ d)
               shadow := gone.foldl (fun u e => u.set 0 e.1 (u.get 0 e.1 + e.2)) t.shadow }
    let regs := s.regs.filter fun e => decide (islandDomain (pageIsland (keyPage e.1)) ≠ d) || keptKey e.1
    let regs := if d = 2 then (List.range 4).foldl (fun t p =>
      Tbl.set R.CRATEYD.POOL_CNT2_LOW.reset t (R.CRATEYD.POOL_CNT2_LOW.key 0 p) (poolCrates p)) regs else regs
    let s := { s with regs := regs }
    let s := s.mIsl fun x => { x with gated := x.gated.filter fun n => decide (islandDomain n ≠ d) }
    (s.wr R.POWER.DOM_STAT_ON (clrBit (s.rd R.POWER.DOM_STAT_ON) d)).driveClocks

/-- A domain is powered on and its crossings open. A lost stall group never is. -/
def State.domainOn (s : State) (d : Nat) : State :=
  if d = 0 ∨ 17 ≤ d ∨ s.domOn d ∨ (5 ≤ d ∧ bit (s.rd R.DEVSTATE.DEG_INFO2_SG_LOST) (d - 5)) then s
  else
    let s := s.wr R.POWER.DOM_STAT_ON (setBit (s.rd R.POWER.DOM_STAT_ON) d)
    let s := if d = 2 then (if s.rd R.LCACHE.CTRL_ENABLE = 1 then s.cipherRestore.cacheEnableEmpty else s.cipherRestore)
      else if d = 4 then s.coreReset 3 0 else s
    s.driveClocks

/-! ### Leaving a non-operational state (R481, R482) -/

/-- NONOP_EXIT: the device returns to the operational state it left. An entry by APST not yet made is given up. -/
def State.nonopExit (s : State) : State :=
  if 3 ≤ s.eff ∧ s.pwr.exiting = false then
    let b := s.pwr.backTo
    let s := s.mPwr fun x => { x with exiting := true, exitFrom := s.mono, entering := none, apstSel := false
                                      sel := [0, 1].foldl (fun t p => t.set 0 p b) x.sel }
    (s.wr R.POWER.PS_CUR_SELECTED s.selected).wr R.POWER.PS_CUR_TRANSITION 1
  else if s.eff ≤ 2 ∧ s.pwr.apstSel then
    let b := s.eff
    let s := s.mPwr fun x => { x with entering := none, apstSel := false, sel := [0, 1].foldl (fun t p => t.set 0 p b) x.sel }
    (s.wr R.POWER.PS_CUR_SELECTED s.selected).followPower
  else s

/-- An internal vote on a domain the state keeps off ends a state that APST entered (R481). -/
def State.heedVotes (s : State) : State :=
  if 3 ≤ s.eff ∧ s.pwr.exiting = false ∧ s.rd R.POWER.PS_CUR_AUTO = 1
      ∧ (List.range 17).any (fun d => planOff s.eff d && s.voted d) = true then
    (s.count R.POWER.INT_EXIT_COUNT).nonopExit
  else s

/-- NONOP_EXIT_COMPLETE (R482): every step of the exit is done, and acceptance resumes. A lap held in PS3 begins. -/
def execNonopExitComplete (s : State) : Host.Outcome State Fault Refusal :=
  .next <|
    if s.pwr.exiting = false ∨ s.eff ≤ 2 then s
    else
      let us := (s.mono - s.pwr.exitFrom) / 1600
      let s := (List.range 12).foldl (fun t g => if t.groupIn g then t.domainOn (5 + g) else t) (s.domainOn 2)
      let s := (s.mPwr fun x => { x with exiting := false }).peak R.POWER.POWER_WAIT_MAX_US us
      let s := (s.enterPs s.pwr.backTo).wr R.POWER.PS_CUR_AUTO 0
      let s := s.followPower.retest
      if s.bell.lapHeld then (s.mBell fun b => { b with lapHeld := false }).startLap else s

/-! ### Vote writes and domain changes -/

/-- A vote register is written by its owner; a write by another initiator is ignored, counted, and refused under limit
7 (R469, R500). -/
def State.voteWrite (s : State) (who : Initiator) (f : Field) (domains : Nat) : State :=
  let addr := regAddr who (pageOf f 0) f.off
  let i := s.limFire 7
  let s := i.2
  if mayWrite f who = false then (s.count R.POWER.VOTE_REFUSED_COUNT).refuse 7 (initCode who) (initHart who) addr
  else if i.1 then (s.count R.POWER.VOTE_REFUSED_COUNT).refuse 7 (initCode who) (initHart who) addr true
  else (s.wr f (clrBit (domains % 2 ^ 17) 0)).heedVotes

/-- POL_VOTE. -/
def execPolVoteWrite (who : Initiator) (domains : Nat) (s : State) : Host.Outcome State Fault Refusal :=
  .next (s.voteWrite who R.POWER.POL_VOTE_DOMAINS domains)

/-- MGT_VOTE. -/
def execMgtVoteWrite (who : Initiator) (domains : Nat) (s : State) : Host.Outcome State Fault Refusal :=
  .next (s.voteWrite who R.POWER.MGT_VOTE_DOMAINS domains)

/-- DOMAIN_POWER_ON (R466, R468): a voted domain, the lowest first. A vote on a domain that a non-operational state
keeps off stays pending, or ends the state (R481). -/
def execDomainPowerOn (domain : Nat) (s : State) : Host.Outcome State Fault Refusal :=
  .next <|
    if domain = 0 ∨ 17 ≤ domain ∨ (s.dst ≠ 4 ∧ s.dst ≠ 5) ∨ s.domOn domain ∨ s.voted domain = false then s
    else if planOff s.eff domain ∧ s.pwr.exiting = false then s.heedVotes
    else if (List.range domain).any (fun d => decide (d ≠ 0) && s.voted d && !s.domOn d && (s.pwr.exiting || !planOff s.eff d)) then s
    else s.domainOn domain

/-- DOMAIN_POWER_OFF (R466): the last vote on a domain is withdrawn. HOST and MEMORY go off only in CLOSING and HALT,
and DATA only in PS4 (R470, R475). -/
def execDomainPowerOff (domain : Nat) (s : State) : Host.Outcome State Fault Refusal :=
  .next <|
    if domain = 0 ∨ 17 ≤ domain ∨ domain = 1 ∨ domain = 3 ∨ (domain = 2 ∧ s.eff ≠ 4) ∨ (s.dst ≠ 4 ∧ s.dst ≠ 5)
        ∨ s.pwr.exiting ∨ s.voted domain then s
    else s.domainOff domain

/-! ### Clocks and voltage (R473) -/

/-- DVFS_REQ: each part of a request that would break the order of R472 is held; a new request takes the place of a
held one. -/
def execDvfsReq (who : Initiator) (clk vdd : Nat) (s : State) : Host.Outcome State Fault Refusal :=
  .next <|
    let f := R.POWER.DVFS_REQ_CORE_CLK
    if mayWrite f who = false then s.denyWrite who f
    else
      let i := s.limFire 7
      let s := i.2
      if i.1 then s.refuse 7 (initCode who) (initHart who) (regAddr who (pageOf f 0) f.off) true
      else
        let clkOk := decide (4 ≤ clk ∧ clk ≤ 24)
        let vddOk := decide (vdd ≤ 20)
        let s := if clkOk then s else s.rangeRecord who (pageOf f 0) f.off clk
        let s := if vddOk then s else s.rangeRecord who (pageOf f 0) f.off vdd
        let clk := if clkOk then clk else s.rd R.POWER.DVFS_REQ_CORE_CLK
        let vdd := if vddOk then vdd else s.rd R.POWER.DVFS_REQ_VDD
        let s := (s.wr R.POWER.DVFS_REQ_CORE_CLK clk).wr R.POWER.DVFS_REQ_VDD vdd
        let now := s.rd R.POWER.DVFS_STAT_VDD
        let need := coreNeed (min clk (planCore s.plan))
        let holdC := decide (now < need) || (!s.pwr.settled && decide (s.rd R.POWER.DVFS_STAT_CORE_CLK < clk))
        let holdV := decide (vdd < s.vddNeed s.pwr.mainClk (min (s.rd R.POWER.DVFS_STAT_CORE_CLK) (if holdC then 24 else clk)))
        let s := if holdC || holdV then s.count R.POWER.DVFS_HOLD_COUNT else s
        let s := s.mPwr fun x => { x with
          reqClk := if holdC then x.reqClk else clk, heldClk := if holdC then some clk else none
          reqVdd := if holdV then x.reqVdd else vdd, heldVdd := if holdV then some vdd else none }
        s.driveClocks

/-- VDD_SETTLED (R471, R472): the voltage commanded has settled, and clocks that waited for it rise. -/
def execVddSettled (s : State) : Host.Outcome State Fault Refusal :=
  .next ((s.mPwr fun x => { x with settled := true }).driveClocks)

/-! ### Entering a non-operational state (R479, R480) -/

/-- What holds an entry back: I/O commands, votes on a domain the plan turns off, armed points (R131, R479). Pitches
hold back by what they forbid (R476, R477). -/
def State.entryBlocked (s : State) (w : Nat) : Bool :=
  s.ioBusy || (s.pwr.apstSel && decide (s.host.cmds ≠ [])) || decide (s.armed ≠ []) || (List.range 17).any fun d => planOff w d && s.votedBy [1, 2, 3, 4, 5, 6, 7] d

/-- The steps of an entry: the journal and the line records are made durable, stall groups go off, and for PS4 the
cache is cleaned and DATA goes off. -/
def State.enterNonop (s : State) (w : Nat) : State :=
  let s := s.flushed s.bell.journal.length
  let s := if w = 4 ∧ s.domOn 2 then s.cacheOff else s
  let s := (s.mNv fun v => { v with ckpt := logDurable v.ckpt s.bell.lines }).mBell fun b => { b with lines := [] }
  let s := (List.range 12).foldl (fun t g => t.domainOff (5 + g)) s
  let s := if w = 4 then s.domainOff 2 else s
  let auto := s.pwr.apstSel
  let s := (s.enterPs w).mPwr fun x => { x with entering := none, waitCounted := false }
  (s.wr R.POWER.PS_CUR_AUTO (b2n auto)).retest

/-- NONOP_ENTRY: the entry is made once nothing holds it back; the wait is counted once. -/
def execNonopEntry (s : State) : Host.Outcome State Fault Refusal :=
  .next <|
    match s.pwr.entering with
    | none => s
    | some w =>
      if s.dst ≠ 4 ∨ w ≤ s.eff ∨ s.wantPs ≠ w then s
      else if s.entryBlocked w then
        if s.pwr.waitCounted then s
        else
          let s := (s.mPwr fun x => { x with waitCounted := true }).count R.POWER.NONOP_WAIT_COUNT
          if s.pwr.apstSel then s.count R.POWER.APST_BLOCKED_COUNT else s
      else s.enterNonop w

/-- The state the APST table of a port sends it to, its controller idle (R480). -/
def State.apstTarget (s : State) (p : Nat) : Option Nat :=
  let e := (s.pwr.apst.get [] p).getD (s.pwr.sel.get 0 p) 0
  if (s.port p).en ∧ bit (s.feature p 0x0C) 0 ∧ bits e 8 24 ≠ 0 ∧ s.pwr.sel.get 0 p < bits e 3 5
      ∧ (s.host.cmds.any fun c => decide (c.port = p)) = false then some (bits e 3 5)
  else none

/-- APST_ITPT_EXPIRY (R480): the idle time has passed, and the table's state is selected. A target that a pitch forbids
waits until it no longer does. -/
def execApstItptExpiry (s : State) : Host.Outcome State Fault Refusal :=
  .next <|
    if s.dst ≠ 4 then s
    else
      let t := [0, 1].filterMap fun p => (s.apstTarget p).map fun w => (p, w)
      if t = [] then s
      else
        let s := s.mPwr fun x => { x with sel := t.foldl (fun u e => u.set 0 e.1 e.2) x.sel, apstSel := true }
        let s := s.wr R.POWER.PS_CUR_SELECTED s.selected
        let s := if s.wantPs < s.selected then s.count R.POWER.APST_BLOCKED_COUNT else s
        s.followPower

end Sys2Proof.Machine
end

