-- ==== Sys2Proof/Machine/Closing.lean ====
section
/-! DEFINITION. The closing bell (R368 to R381): the device's states as they change, the hold-up comparators, entry to
CLOSING, the bell image and its units, and HALT. -/

namespace Sys2Proof.Machine

open Sys2Proof

/-! ### State transitions (R119, R121, R136, R649) -/

/-- The requester as R649 codes it. -/
def Requester.code : Requester → Nat
  | .hardware => 0
  | .policy => 1
  | .mgmt => 2
  | .mi => 3
  | .host => 5

/-- DEV_STATE as a word (R135). -/
def State.devWord (s : State) : Nat :=
  s.dst + s.rd R.DEVSTATE.DEV_STATE_PREV * 16 + s.rd R.DEVSTATE.DEV_STATE_HALT_CAUSE * 0x100
    + s.rd R.DEVSTATE.DEV_STATE_BELL_OK * 0x10000 + s.rd R.DEVSTATE.DEV_STATE_DIAG_BOOT * 0x20000
    + s.rd R.DEVSTATE.DEV_STATE_RESTARTS * 0x100000

/-- MODE_RESULT as a word. -/
def State.modeWord (s : State) : Nat := s.rd R.DEVSTATE.MODE_RESULT_CODE + s.rd R.DEVSTATE.MODE_RESULT_BITS * 0x100

/-- A transition to a device state, with its STATE record. The cause stands in the record where hardware asked. -/
def State.goState (s : State) (to_ : Nat) (who : Requester) (cause : Nat) : State :=
  let old := s.devWord
  let s := (s.wr R.DEVSTATE.DEV_STATE_PREV s.dst).set R.DEVSTATE.DEV_STATE_STATE to_
  let s := if to_ = 1 then s else s.wr R.BOOT.WAKE_STEP_STEP 0
  let s := if to_ = 3 then s else s.wr R.BELL.RB_STAT_PHASE 0
  let s := s.mDev fun d => { d with stateEntry := s.mono }
  s.recordNow 0x001 [old, s.devWord, if who = .hardware then cause * 0x100 else who.code, s.modeWord]

/-- A mode request is refused: MODE_RESULT shows the bits, and MODE_DENIED counts it (R128). -/
def State.modeRefused (s : State) (code bits_ : Nat) : State :=
  ((s.count R.DEVSTATE.MODE_DENIED_COUNT).set R.DEVSTATE.MODE_RESULT_CODE code).wr R.DEVSTATE.MODE_RESULT_BITS bits_

/-- The requests held and not yet decided are refused at entry to CLOSING or HALT, and no mode changes (R128, R129). -/
def State.refuseModes (s : State) : State :=
  let l := s.dev.heldReqs ++ s.dev.undecided.filter fun r => decide (r.who ≠ .hardware)
  l.foldl (fun t r => t.modeRefused 3 (r.set.lor r.clear)) (s.mDev fun d => { d with heldReqs := [], undecided := [] })

/-! ### Hold-up (R369, R371, R380) -/

/-- HU_LOW counts the µs at or below OK so far (R397). -/
def State.huCount (s : State) : State :=
  match s.dev.huFrom with
  | none => s
  | some t =>
    let us := (s.mono - t) / 100
    (s.mDev fun d => { d with huFrom := some (t + us * 100) }).count R.BELL.HU_LOW_US 0 0 us

/-- Whether the newest bell image is one that was cut short (R380). -/
def State.bellCut (s : State) : Bool :=
  decide (s.rd R.BELL.BELL_CNT_COUNT ≠ 0) && decide (s.rd R.BELL.BELL_LAST_COMPLETE = 0)

/-- Writes are held, and CRIT bit 4 stands, while HOLDUP_SENSE is at or below OK in SERVICE or QUIESCE (R371); a bell
cut short holds the bit as well (R380). -/
def State.holdup (s : State) : State :=
  let s := s.huCount
  let low := decide (s.dst = 4 ∨ s.dst = 5) && decide (s.rd R.BELL.HU_STAT_OK = 0)
  let s := (s.wr R.BELL.HU_STAT_WRITES_HELD (b2n low)).mDev fun d => { d with
    huFrom := if low then some (d.huFrom.getD s.mono) else none }
  if low || s.bellCut then s.critical 4
  else s.wr R.HEALTH.CRIT_BITS (clrBit (s.rd R.HEALTH.CRIT_BITS) 4)

/-- HU_STAT as a word. -/
def State.huWord (s : State) : Nat :=
  s.rd R.BELL.HU_STAT_OK + s.rd R.BELL.HU_STAT_FAIL * 2 + s.rd R.BELL.HU_STAT_WRITES_HELD * 4

/-- HOLDUP_THRESHOLD_CROSSING (R369): a comparator's output changes. OK reading above arms the FAIL comparator (R368). -/
def execHoldupThresholdCrossing (fail up : Bool) (s : State) : Host.Outcome State Fault Refusal :=
  .next <|
    if s.dst = 0 then s
    else if fail then
      if s.rd R.BELL.HU_STAT_FAIL = b2n (!up) then s
      else
        let s := s.wr R.BELL.HU_STAT_FAIL (b2n (!up))
        s.record 8 0x030 [s.huWord, 0, 0, 0]
    else if s.rd R.BELL.HU_STAT_OK = b2n up then s
    else
      let s := (s.wr R.BELL.HU_STAT_OK (b2n up)).mDev fun d => { d with failArmed := d.failArmed || up }
      let s := s.holdup
      s.record 8 0x030 [s.huWord, 0, 0, 0]

/-! ### HALT (R119, R121, R467) -/

/-- The links of both ports are down: HOST is off (R119, R467). -/
def State.linksDown (s : State) : State :=
  s.mHost fun h => { h with p0 := { h.p0 with linkUp := false, rdy := false }, p1 := { h.p1 with linkUp := false, rdy := false } }

/-- Entry to HALT with a cause of DEV_STATE.HALT_CAUSE; `code` is the cause of the STATE record. Every domain but
WATCH goes off, and the rails with them. -/
def State.enterHalt (s : State) (cause code : Nat) : State :=
  let s := (s.refuseModes.huCount.wr R.DEVSTATE.DEV_STATE_HALT_CAUSE cause).wr R.BELL.HU_STAT_WRITES_HELD 0
  let s := (s.mDev fun d => { d with huFrom := none }).goState 7 .hardware code
  let s := ((List.range 17).foldl (fun t d => t.domainOff d) s).linksDown
  (s.wr R.BOOT.RAIL_STAT_VALID 0).mDev fun d => { d with enables := 0, railStage := 0 }

/-! ### The bell image (R373 to R375) -/

/-- A row in its place among rows in row order. -/
def insertRowBy (r : CixRow) : List CixRow → List CixRow
  | [] => [r]
  | x :: t => if r.row < x.row then r :: x :: t else x :: insertRowBy r t

/-- The rows of the crate index in row order. -/
def State.bellRows (s : State) : List CixRow := s.led.cix.foldl (fun l r => insertRowBy r l) []

/-- The units of a row that hold data, lowest first. -/
def CixRow.unitList (r : CixRow) : List Nat := (List.range 16).filter fun u => bit r.units u

/-- The sectors of a unit of a row that are RESIDENT (R98). -/
def CixRow.sectorsIn (r : CixRow) (u : Nat) : Nat := popcount 8 (bits r.acc (8 * u) 8)

/-- The codewords of the image in order, each with its RESIDENT sectors: the header, host rows in row order, PARITY
crates, two copies of the directory, the journal, the Logbook, and 64 KiB of saved state. -/
def State.bellParts (s : State) : List (BellPart × Nat) :=
  let rows := s.bellRows
  let dir := List.range (ceilDiv rows.length 128)
  [(.header, 0)]
    ++ rows.zipIdx.flatMap (fun e => e.1.unitList.map fun u => (BellPart.row e.2, e.1.sectorsIn u))
    ++ (s.wp.stripes.flatMap fun q => q.crates).flatMap (fun n => List.replicate (poolSize (cratePool n) / 4096) (.parity, 0))
    ++ dir.map (fun n => (.dir 0 n, 0)) ++ dir.map (fun n => (.dir 1 n, 0))
    ++ (List.range (ceilDiv s.bell.journal.length 128)).map (fun n => (.journal n, 0))
    ++ (List.range (ceilDiv s.stored.length 64)).map (fun n => (.log n, 0))
    ++ List.replicate 16 (.saved, 0)

/-- A list cut into pieces of `n`. -/
def chunks {α : Type} (n : Nat) : Nat → List α → List (List α)
  | 0, _ => []
  | _, [] => []
  | k + 1, l => l.take n :: chunks n k (l.drop n)

/-- The data units of the image in bell stripes, each stripe with its parity unit (R235, R377). -/
def State.bellUnits (s : State) : List BellUnit :=
  let l := s.bellParts
  let data := chunks (max 1 (s.unitCws 0)) l.length l
  let w := s.widest
  let stripes := if w ≤ 1 then data.map fun u => [u] else chunks (w - 1) data.length data
  let all := stripes.zipIdx.flatMap fun e =>
    e.1.map (fun u => ((u.map Prod.fst).eraseDups, (u.map Prod.snd).sum, e.2)) ++ (if w ≤ 1 then [] else [([], 0, e.2)])
  all.zipIdx.map fun e => { id := e.2, parts := e.1.1, sectors := e.1.2.1, stripe := e.1.2.2, die := 0 }

/-- When a die's current program and the bell units given to it end, at the bounds of R379 (log entry 40). -/
def State.bellEnd (s : State) (l : List BellUnit) (k : Nat) : Nat :=
  let d := s.die k
  (if d.runKind = 1 then d.runFrom + 250000 else s.mono) + 40000 * (l.filter fun u => decide (u.die = k)).length

/-- The die in service whose current program ends first, of those with fewer than `cap` bell units (R377, R378). -/
def State.bellDie (s : State) (l : List BellUnit) (cap : Nat) : Option Nat :=
  pickMin (fun k => s.bellEnd l k) (s.diesOn.filter fun k => decide ((l.filter fun u => decide (u.die = k)).length < cap))

/-- Each unit goes to its die; a unit that finds none is missing. -/
def placeUnits (s : State) (l : List BellUnit) : List BellUnit :=
  l.foldl (fun (acc : List BellUnit) u => match s.bellDie acc 2 with
    | some k => acc ++ [{ u with die := k }]
    | none => acc ++ [{ u with die := 2 ^ 32, missing := true }]) []

/-- Whether a unit that is not good is covered by its stripe's parity: it is the only one (R238, R378). -/
def State.bellCovered (s : State) (u : BellUnit) : Bool :=
  decide (1 < (s.bell.units.filter fun v => decide (v.stripe = u.stripe)).length)
    && decide ((s.bell.units.filter fun v => decide (v.stripe = u.stripe) && !v.good).length ≤ 1)

/-- Whether something of the image cannot be read back. -/
def State.bellLost (s : State) (p : BellPart) : Bool :=
  s.bell.units.any fun u => u.parts.contains p && !u.good && !s.bellCovered u

/-- The registers of the last closing bell (R397). -/
def State.showBell (s : State) (which : Nat) (i : BellImage) : State :=
  ((((((s.wr R.BELL.BELL_LAST_IMAGE which).wr R.BELL.BELL_LAST_COMPLETE (b2n i.complete)).wr
    R.BELL.BELL_LAST_REPLAY (b2n (s.nv.imgA.replay || s.nv.imgB.replay))).wr R.BELL.BELL_LAST_UNITS i.units).wr
    R.BELL.BELL_TIME_US (min i.us 8191)).wr R.BELL.BELL_ROWS_COUNT i.carried).wr R.BELL.BELL_FAIL_PROG (min i.fails 255)
    |>.wr R.BELL.BELL_CNT_COUNT s.nv.bellSeq |>.wr R.BELL.BELL_SHORT_COUNT s.nv.bellShort

/-- What of the image can be read back, as the closing bell leaves it at its end or where it is cut (R373 to R375,
R380). The scrub, wear and temperature state and page C2h go with it, but for a bell in REBUILD, which has not
restored them yet. -/
def State.bellWrite (s : State) (complete : Bool) : State :=
  let rows := s.bellRows.zipIdx.filterMap fun e =>
    let r := e.1
    if s.bellLost (.dir 0 (e.2 / 128)) && s.bellLost (.dir 1 (e.2 / 128)) then none
    else some ({ nsid := r.nsid, iu := r.iu, units := r.units, stamp := r.stamp, prior := r.prior, priorUnc := r.priorUnc
                 data := r.unitList.map fun u => s.crateUnit r.crate u, key := s.keyNo r.nsid
                 durable := !s.bellLost (.row e.2) && !(s.crate r.crate).poison } : BellRow)
  let img : BellImage :=
    { seq := s.nv.bellSeq + 1, epoch := s.rd R.TIME.EPOCH_VALUE, mono := s.bell.closingAt, cause := s.dev.closeCause
      rows := rows, units := (s.bell.units.filter fun u => u.good).length, us := (s.mono - s.bell.closingAt) / 100
      fails := s.rd R.BELL.BELL_FAIL_PROG, carried := s.led.cix.length
      journal := (s.bell.journal.zipIdx.filter fun e => !s.bellLost (.journal (e.2 / 128))).map Prod.fst
      ring := (s.stored.zipIdx.filter fun e => !s.bellLost (.log (e.2 / 64))).map Prod.fst
      complete := complete, replay := decide (rows ≠ []) }
  let s := if s.rd R.DEVSTATE.DEV_STATE_PREV = 3 || s.bellLost .saved then s
    else s.saveState.mNv fun n => { n with deferLog := s.host.deferLog, deferTotal := s.rd R.INTAKE.DEFER_TOTAL_COUNT }
  if s.bellLost .header then
    s.mNv fun n => if s.bell.which = 0 then { n with imgA := {} } else { n with imgB := {} }
  else
    (s.mNv fun n =>
      let n := { n with bellSeq := n.bellSeq + 1, lastImage := s.bell.which }
      if s.bell.which = 0 then { n with imgA := img } else { n with imgB := img }).showBell s.bell.which img

/-- The image a closing bell writes: the one that holds no rows awaiting replay, else not the newest (R374); the first
of all is A. -/
def State.bellWhich (s : State) : Nat :=
  if s.nv.imgA.replay then 1 else if s.nv.imgB.replay then 0 else if s.nv.bellSeq = 0 then 0 else 1 - s.nv.lastImage

/-! ### Entry to CLOSING (R297, R377, R467) -/

/-- What entry to CLOSING does at a die (R297): an erase is aborted, a load not confirmed abandoned, a suspended
program resumed; a sense that runs ends. -/
def State.closeDie (s : State) (k : Nat) : State :=
  let d := s.die k
  let whole := match s.unitOf d.running with
    | some u => decide (u.cws ≤ d.loaded)
    | none => false
  if d.state = 0 ∨ 11 ≤ d.state then s
  else if d.runKind = 2 then
    (s.mDie k fun d => { d with state := 10, back := 1, runKind := 0, running := 0, erase := none, susp := 0, senses := 0
                                closed := false }).eraseEnd d.running 4
  else if d.runKind = 1 ∧ whole = false then
    s.mDie k fun d => { d with state := 10, back := 1, runKind := 0, running := 0, loaded := 0, erase := none, susp := 0, senses := 0 }
  else if d.runKind = 1 then
    s.mDie k fun d => { d with erase := none, senses := 0, state := if d.state = 2 ∨ d.state = 6 then 4 else d.state
                               runFrom := if d.state = 2 ∨ d.state = 6 then s.mono else d.runFrom }
  else s.mDie k fun d => { d with erase := none, state := if d.state = 2 then 1 else d.state }

/-- The engines stop: commands end without completions, their fetches withdrawn; reads, copies, fills and units not
confirmed go; jobs and firmware channels stop. -/
def State.stopEngines (s : State) : State :=
  let s := s.host.cmds.foldl (fun t c => match t.cmdOf c.uid with
    | some c => t.withdrawWrite c
    | none => t) s
  let s := s.mHost fun h => { h with cmds := [], rlt := [], rltWait := [], shifting := none }
  let s := (s.endJobs fun _ => true).porterClosing
  let s := (s.dropWhere fun _ => true).mPor fun p => { p with egress := [], fills := [] }
  let s := (s.mInteg fun i => { i with soft := [] }).mSw fun w => { w with victims := [], copies := [] }
  let s := s.mLed fun l => { l with takeq := [], nsCmd := none }
  let s := s.mLc fun l => { l with wanted := [], prefetching := [], op := none, disableNext := false, drainNext := 0 }
  let s := (s.mCr fun c => { c with waitq := [], closing := true }).mBell fun b => { b with lap := none, lapHeld := false }
  s.mWp fun w => { w with building := [], carry := [], fills := [] }

/-- Entry to CLOSING with a cause of DEV_STATE.HALT_CAUSE (R121, R297, R377, R467). -/
def State.enterClosing (s : State) (who : Requester) (cause : Nat) : State :=
  if s.dst < 3 ∨ 5 < s.dst then s
  else
    let s := s.refuseModes.huCount.wr R.BELL.HU_STAT_WRITES_HELD 0
    let s := s.mDev fun d => { d with closeCause := cause, huFrom := none }
    let s := if cause = 4 then s.mSw fun w => { w with thermalHalts := w.thermalHalts + 1 } else s
    let s := (s.goState 6 who cause).stopEngines
    let s := s.recordNow 0x010 [cause, (s.term 184).toNat, s.wp.stripes.length, 0]
    let s := (s.mLog fun l => { l with closed := true }).disarmThose (fun _ => true) 6
    let s := s.flAbandon.mPwr fun x => { x with entering := none, exiting := false }
    let s := (List.range 12).foldl (fun t g => if t.groupIn g then t.domainOn (5 + g) else t) (s.domainOn 2)
    let s := (s.st.dies.map Prod.fst).foldl (fun (t : State) k => t.closeDie k) ((s.domainOff 1).linksDown.domainOff 4)
    let s := s.domainOff 3
    let running := (s.st.dies.filter fun e => decide (e.2.runKind = 1)).map fun e => e.2.running
    let s := s.mWp fun w => { w with units := w.units.filter fun u => running.contains u.id }
    let n := ((s.bellRows.map fun r => (r.unitList.map fun u => r.sectorsIn u).sum).sum : Nat)
    let s := ((s.move 184 (-(n : Int))).move 185 n).wr R.BELL.BELL_FAIL_PROG 0
    s.mBell fun b => { b with which := s.bellWhich, closingAt := s.mono, units := placeUnits s s.bellUnits }

/-- POWER_FAIL_DETECT (R121, R368): power has failed by PWR_FAIL_N, or by the FAIL comparator, which acts only while it
is armed and not before REBUILD. -/
def execPowerFailDetect (comparator : Bool) (s : State) : Host.Outcome State Fault Refusal :=
  .next <|
    if comparator ∧ s.dev.failArmed = false then s
    else if s.dst = 1 ∨ s.dst = 2 then (if comparator then s else s.enterHalt 3 3)
    else s.enterClosing .hardware 1

/-- HALT_CTRL.ORDERLY (R121, R135): management firmware; ignored outside SERVICE and QUIESCE. -/
def execHaltCtrlOrderly (who : Initiator) (s : State) : Host.Outcome State Fault Refusal :=
  .next <|
    if mayWrite R.DEVSTATE.HALT_CTRL_ORDERLY who = false then s.denyUnder 13 who 0 0x12C
    else if s.dst = 4 ∨ s.dst = 5 then s.enterClosing .mgmt 5 else s

/-! ### Bell units (R377 to R380) -/

/-- The level the device drives on SGn_WP_N (R278): high from REBUILD to CLOSING, there until the group's last bell
program has returned its status. -/
def State.wpHigh (s : State) (g : Nat) : Bool :=
  decide (3 ≤ s.dst ∧ s.dst ≤ 5)
    || (decide (s.dst = 6) && s.bell.units.any fun u => !u.good && !u.missing && decide (u.die / 128 = g))

/-- A bell unit changes. -/
def State.mBellUnit (s : State) (id : Nat) (g : BellUnit → BellUnit) : State :=
  s.mBell fun b => { b with units := b.units.map fun u => if u.id = id then g u else u }

/-- The unit with a number, while it is on its way. -/
def State.bellUnit (s : State) (id : Nat) : Option BellUnit :=
  if s.dst ≠ 6 then none else s.bell.units.find? fun u => decide (u.id = id) && !u.good && !u.missing

/-- Bell durable (R99). -/
def State.bellDurable (s : State) (n : Nat) : State := (s.move 185 (-(n : Int))).move 186 n

/-- BELL_UNIT_DURABLE (R377): good status moves the unit's sectors. -/
def execBellUnitDurable (unit : Nat) (s : State) : Host.Outcome State Fault Refusal :=
  .next <|
    match s.bellUnit unit with
    | none => s
    | some u => (s.mBellUnit unit fun u => { u with good := true }).bellDurable u.sectors

/-- The block a die gives an image: of its reserve, the lowest for A and the next for B (log entry 40). -/
def State.bellBlock (s : State) (k : Nat) : Option Nat :=
  let rsv := fun n => decide ((s.block (k * 8192 + n)).state = 4)
  match firstFrom rsv 8192 0 with
  | none => none
  | some a => if s.bell.which = 0 then some (k * 8192 + a) else (firstFrom rsv (8191 - a) (a + 1)).map fun b => k * 8192 + b

/-- BELL_UNIT_FAIL (R378): the failed block is retired in the image's journal, and the unit is programmed once more on
the die that falls free next; a unit that fails twice is missing. -/
def execBellUnitFail (unit : Nat) (s : State) : Host.Outcome State Fault Refusal :=
  .next <|
    match s.bellUnit unit with
    | none => s
    | some u =>
      let s := s.count R.BELL.BELL_FAIL_PROG
      let s : State := match s.bellBlock u.die with
        | some k => (s.retireBlock k 1).mBell fun b =>
          { b with journal := b.journal ++ [⟨b.made, 7, s.mono, [k / 8192, k % 8192, 1]⟩], made := b.made + 1 }
        | none => s
      let rest := s.bell.units.filter fun v => decide (v.id ≠ unit)
      match (if u.fails = 0 then s.bellDie rest 3 else none) with
      | some k => s.mBellUnit unit fun u => { u with fails := 1, die := k }
      | none => s.mBellUnit unit fun u => { u with fails := u.fails + 1, missing := true }

/-- Whether every unit has good status or is covered by parity (R379). -/
def State.bellDone (s : State) : Bool := s.bell.units.all fun u => u.good || (u.missing && s.bellCovered u)

/-- CLOSING_BELL_COMPLETE (R379): BELL_OK is set, and the device enters HALT. -/
def execClosingBellComplete (s : State) : Host.Outcome State Fault Refusal :=
  .next <|
    if s.dst ≠ 6 ∨ s.bellDone = false then s
    else
      let n := ((s.bell.units.filter fun u => !u.good).map fun u => u.sectors).sum
      let s := (s.bellDurable n).bellWrite true
      (s.wr R.DEVSTATE.DEV_STATE_BELL_OK 1).enterHalt s.dev.closeCause 0x18

/-- CLOSING_BELL_TIMER_EXPIRY (R122, R380): the bell is cut short. -/
def execClosingBellTimerExpiry (s : State) : Host.Outcome State Fault Refusal :=
  .next <|
    if s.dst ≠ 6 then s
    else ((s.bellWrite false).wr R.DEVSTATE.DEV_STATE_BELL_OK 0).enterHalt
      (if s.dev.closeCause = 1 then 2 else s.dev.closeCause) 0x18

end Sys2Proof.Machine
end

