-- ==== Sys2Proof/Machine/Thermal.lean ====
section
/-! DEFINITION. Junction temperature (R362, R483 to R485): the sensors, the composite, the thresholds and the history. -/

namespace Sys2Proof.Machine

open Sys2Proof

/-- The domain of a sensor, as TEMP_SEL numbers them (R483): the stall groups, FRONT, LEDGER, CRATE, CIPHER, CORE,
MEMORY, WATCH, and the SRAM die, which is powered with DATA. -/
def sensorDomain (n : Nat) : Nat :=
  if n < 12 then 5 + n else if n = 12 then 1 else if n = 16 then 4 else if n = 17 then 3 else if n = 18 then 0 else 2

/-- The highest of a list of readings. -/
def hottest : List (Option Int) → Option Int
  | [] => none
  | none :: t => hottest t
  | some v :: t => some (match hottest t with
    | some w => max v w
    | none => v)

/-- The readings of sensors. -/
def State.readings (s : State) (l : List Nat) : List (Option Int) := l.map fun n => s.pwr.temps.get none n

/-- The composite temperature (R483). -/
def State.composite (s : State) : Option Int := hottest (s.readings (List.range 20))

/-- A temperature register: a signed byte. -/
def State.degrees (s : State) (f : Field) : Int :=
  let v := s.rd f
  if 128 ≤ v then (v : Int) - 256 else v

/-- The host's temperature threshold in kelvin, by TMPSEL and THSEL (0 over, 1 under). Until the host sets one, that of
the composite is WCTEMP and the others never act (log entry 41). -/
def State.hostThreshold (s : State) (sel under : Nat) : Int :=
  match s.pwr.hostThr.find? fun e => decide (e.1 = sel * 2 + under) with
  | some e => e.2
  | none => if under = 1 then 0 else if sel = 0 then s.degrees R.POWER.THERM_CFG_WCTEMP + 273 else 0xFFFF

/-- The reading TMPSEL names: the composite, and sensors 1 to 8 of the health page (R483). -/
def State.hostSensor (s : State) (sel : Nat) : Option Int :=
  if sel = 0 then s.composite
  else if sel = 1 then hottest (s.readings (List.range 12))
  else hottest (s.readings [if sel = 8 then 19 else 10 + sel])

/-- Whether a reading stands outside the host's thresholds (R484). -/
def State.hostHot (s : State) : Bool :=
  (List.range 9).any fun sel => match s.hostSensor sel with
    | some v => decide (s.hostThreshold sel 0 ≤ v + 273) || decide (v + 273 ≤ s.hostThreshold sel 1)
    | none => false

/-- The rising thresholds of R484, in order. -/
def risers : List Field :=
  [R.POWER.THERM_CFG_WCTEMP, R.POWER.THERM_CFG_CCTEMP, R.POWER.THERM_CFG_OVERRIDE, R.POWER.THERM_CFG_SHUTDOWN]

/-- Where a threshold stands after a reading: risen at or above it, left at or below 3 °C less. -/
def stands (was : Bool) (thr v : Int) : Bool := if was then decide (thr - 3 < v) else decide (thr ≤ v)

/-- A threshold's crossing, with its record and, for the override, what it does (R484, R485). -/
def State.cross (s : State) (n : Nat) (up : Bool) (v : Int) : State :=
  let c := (v % 256).toNat
  let s := s.mPwr fun x => { x with above := if up then setBit x.above n else clrBit x.above n }
  let s := s.record 8 0x031 [n, b2n up, 31, (v % (2 ^ 32 : Nat)).toNat]
  if n = 1 then s.wr R.POWER.THERM_STAT_ALERT (b2n up)
  else if n = 2 then
    let s := s.wr R.POWER.THERM_STAT_OVERRIDE (b2n up)
    let s := if up then s.count R.POWER.THERM_STAT_OVERRIDES else s
    (s.record 8 0x011 [b2n up, c, 0, 0]).driveClocks
  else s

/-- The thresholds at a composite reading; RESTART acts in HALT, below it (R125, R484). Nothing acts before the
thresholds are loaded. -/
def State.thresholds (s : State) (v : Int) : State :=
  if s.rd R.POWER.THERM_CFG_WCTEMP = 0 then s
  else
    let s := risers.zipIdx.foldl (fun (t : State) e =>
      let was := bit t.pwr.above e.2
      let now := stands was (t.degrees e.1) v
      if was = now then t else t.cross e.2 now v) s
    let was := bit s.pwr.above 4
    let now := decide (s.dst = 7) && decide (v < s.degrees R.POWER.THERM_CFG2_RESTART)
    if was = now then s else s.cross 4 now v

/-- An injected reading is held against the rising thresholds for records only; one that reports what the real reading
reports is made once, and real (R569, R571). -/
def State.injectedReading (s : State) (v real : Int) : State :=
  risers.zipIdx.foldl (fun (t : State) e =>
    let was := bit t.pwr.above (8 + e.2)
    let now := stands was (t.degrees e.1) v
    let t := t.mPwr fun x => { x with above := if now then setBit x.above (8 + e.2) else clrBit x.above (8 + e.2) }
    if was = now ∨ stands (bit s.pwr.above e.2) (s.degrees e.1) real = now then t
    else t.record 8 0x031 [e.2, b2n now, 31, (v % (2 ^ 32 : Nat)).toNat] true) s

/-- HEALTH.CRIT bit 1 stands while a host threshold or CCTEMP is passed (R484). -/
def State.thermalWarning (s : State) : State :=
  if bit s.pwr.above 1 || s.hostHot then s.critical 1
  else s.wr R.HEALTH.CRIT_BITS (clrBit (s.rd R.HEALTH.CRIT_BITS) 1)

/-- Targets whose group's sensor has moved by ZQ_CFG.TEMP_STEP since their last calibration are calibrated (R290). -/
def State.zqByTemp (s : State) (ch : Nat) : State :=
  match s.pwr.temps.get none (ch / 8) with
  | none => s
  | some v =>
    if s.rd R.STALL.CH_STATE_STATE ch ≠ 2 then s
    else (List.range 4).foldl (fun (t : State) g =>
      if bits (t.rd R.STALL.DIE_MAP_IN_SERVICE ch) (4 * g) 4 = 0 then t
      else match t.st.zqTemp.get none (ch * 4 + g) with
        | none => t.mSt fun x => { x with zqTemp := x.zqTemp.set none (ch * 4 + g) (some v) }
        | some w =>
          if (v - w).natAbs < t.rd R.STALL.ZQ_CFG_TEMP_STEP ch then t
          else (t.mSt fun x => { x with zqTemp := x.zqTemp.set none (ch * 4 + g) (some v) }).count R.STALL.ZQ_CNT_SHORT ch) s

/-- TEMPERATURE_SAMPLE (R483): each powered sensor's reading, the composite, and what the thresholds do. -/
def execTemperatureSample (readings : List Int) (s : State) : Host.Outcome State Fault Refusal :=
  .next <|
    if s.dst = 0 ∨ readings.length ≠ 20 then s
    else
      let f := s.fire (pageOf R.POWER.TEMP_SEL_SENSOR 0) 0 fun _ _ => true
      let arm := s.armed.find? fun a => decide (a.page = pageOf R.POWER.TEMP_SEL_SENSOR 0)
      let s := f.2.mPwr fun x => { x with temps := readings.zipIdx.foldl (fun t e =>
        t.set none e.2 (if sensorDomain e.2 = 0 ∨ s.domOn (sensorDomain e.2) then some e.1 else none)) ([] : Tbl (Option Int)) }
      match s.composite with
      | none => s
      | some v =>
        let s := match f.1, arm with
          | true, some a =>
            let off : Int := if 128 ≤ a.param % 256 then (a.param % 256 : Nat) - 256 else (a.param % 256 : Nat)
            let l := (List.range 20).map fun n => (s.pwr.temps.get none n).map fun r => if n = a.sub then r + off else r
            s.injectedReading ((hottest l).getD v) v
          | _, _ => s.mPwr fun x => { x with above := x.above % 256 }
        let s := (s.thresholds v).thermalWarning
        let s := (List.range 96).foldl (fun t c => t.zqByTemp c) s
        if bit s.pwr.above 3 then s.enterClosing .hardware 4 else s

/-- TEMP_HISTORY_SAMPLE (R362): one second at the composite temperature. -/
def execTempHistorySample (s : State) : Host.Outcome State Fault Refusal :=
  .next <|
    match s.composite with
    | none => s
    | some v =>
      let w16 := fun (x : Int) => (x % 65536).toNat
      let first := decide (s.sw.tempCount = 0)
      let signed := fun (x : Nat) => if 32768 ≤ x then (x : Int) - 65536 else (x : Int)
      let s := if v < -40 then s else s.count R.HEALTH.TEMP_BIN_SECONDS 0 (min 29 ((v + 40) / 5).toNat)
      let s := if first ∨ signed (s.rd R.HEALTH.TEMP_EXT_MAX) < v then
          (s.wr R.HEALTH.TEMP_EXT_MAX (w16 v)).mSw fun x => { x with tempMaxAt := s.mono } else s
      let s := if first ∨ v < signed (s.rd R.HEALTH.TEMP_EXT_MIN) then s.wr R.HEALTH.TEMP_EXT_MIN (w16 v) else s
      let s := s.mSw fun x => { x with tempSum := x.tempSum + v, tempCount := x.tempCount + 1 }
      let s := s.wr R.HEALTH.TEMP_AVG_HUNDREDTHS (w16 (s.sw.tempSum * 100 / (s.sw.tempCount : Int)))
      let s := if s.hostThreshold 0 0 ≤ v + 273 then s.count R.HEALTH.TEMP_ABOVE_HOST_SECONDS else s
      let s := if s.degrees R.POWER.THERM_CFG_WCTEMP ≤ v then s.count R.HEALTH.TEMP_ABOVE_WARN_SECONDS else s
      if s.degrees R.POWER.THERM_CFG_CCTEMP ≤ v then s.count R.HEALTH.TEMP_ABOVE_CRIT_SECONDS else s

end Sys2Proof.Machine
end

