-- ==== Sys2Proof/Machine/Modes.lean ====
section
/-! DEFINITION. The eight modes (R127 to R136): requests, the mode instant, entry actions, and IN_SERVICE. -/

namespace Sys2Proof.Machine

open Sys2Proof

/-- The mode bits a requester may name (R127, R130, R136). -/
def Requester.modes : Requester → Nat
  | .hardware => 0xFF
  | .policy => 0x17
  | .mgmt => 0x33
  | .mi => 0x33
  | .host => 0x13

/-- The READ_ONLY causes in force, as RO_CAUSE codes them. -/
def State.roCauses (s : State) : Nat :=
  s.rd R.DEVSTATE.RO_CAUSE_POLICY + s.rd R.DEVSTATE.RO_CAUSE_END_OF_LIFE * 2 + s.rd R.DEVSTATE.RO_CAUSE_OWNER * 4

/-- RO_CAUSE.POLICY takes a value, which code flash keeps (R127). -/
def State.setPolicyRo (s : State) (on : Bool) : State :=
  (s.wr R.DEVSTATE.RO_CAUSE_POLICY (b2n on)).mNv fun n =>
    { n with roCause := if on then setBit n.roCause 0 else clrBit n.roCause 0 }

/-- The entry actions of a change of MODE_CUR (R129, R131, R572): points are disarmed, READ_ONLY shows in the critical
warnings, the power state follows, and the capacity test is run again. -/
def State.modeActions (s : State) (old : Nat) : State :=
  let now := s.rd R.DEVSTATE.MODE_CUR_MODES
  let on := fun n => bit now n && !bit old n
  let off := fun n => bit old n && !bit now n
  if now = old then s
  else
    let s := if off 5 then (s.disarmThose (fun _ => true) 3).traceOff else s
    let s := if on 3 then
        s.disarmThose (fun p => decide (p = pageOf R.LEDGER.CIX_USE_ROWS 0) || decide (0x70 ≤ p)) 7 else s
    let s := if on 2 then s.critical 3
      else if off 2 then s.wr R.HEALTH.CRIT_BITS (clrBit (s.rd R.HEALTH.CRIT_BITS) 3) else s
    s.followPower.retest

/-- The part of a mask outside another. -/
def without (a b : Nat) : Nat := ((List.range 8).map fun n => if bit a n && !bit b n then 2 ^ n else 0).sum

/-- A request or hardware change is decided at its mode instant (R128, R129, R136): bits refused are left alone,
MODE_RESULT is loaded, MODE_CUR changes, and a MODE record is made. READ_ONLY follows its causes; a change made for the
owner lock names the NVMe-MI window, and carries no hardware cause. -/
def State.decideMode (s : State) (r : ModeReq) : State :=
  let old := s.rd R.DEVSTATE.MODE_CUR_MODES
  let hard := decide (r.who = .hardware)
  let both := r.set.land r.clear
  let held := (if bit r.set 5 ∧ s.dev.inService ∧ hard = false then 0x20 else 0)
    + (if bit r.clear 2 ∧ s.rd R.DEVSTATE.RO_CAUSE_OWNER = 1 ∧ hard = false then 4 else 0)
  let bad := if hard then 0 else (r.refBits.lor both).lor held
  let code := if bad = 0 then 0 else if r.refBits ≠ 0 then r.refCode else if both ≠ 0 then 5 else 4
  let set := without r.set bad
  let clear := without r.clear bad
  let s := if hard then s
    else if bit set 2 then s.setPolicyRo true else if bit clear 2 then s.setPolicyRo false else s
  let set := if s.roCauses = 0 then without set 4 else set
  let clear := if s.roCauses = 0 then clear else without clear 4
  let now := (without old clear).lor set
  let s := if hard then s
    else
      let s := if bad = 0 then s else s.count R.DEVSTATE.MODE_DENIED_COUNT
      (s.set R.DEVSTATE.MODE_RESULT_CODE code).wr R.DEVSTATE.MODE_RESULT_BITS bad
  let s := s.wr R.DEVSTATE.MODE_CUR_MODES now
  let s := s.recordNow 0x002 [old, now, if hard then (if r.cause = 0 then 3 else r.cause * 0x100) else r.who.code, s.modeWord]
  let s := s.modeActions old
  match s.cmdOf r.uid with
  | some c => if r.uid = 0 then s else if bad = 0 then s.complete c 0 0 else s.complete c 1 0x0E
  | none => s

/-- A mode request reaches WATCH (R128): refused in CLOSING and HALT, held in the states before SERVICE and in QUIESCE,
else it waits for its mode instant. The bits its requester may not name are refused. -/
def State.askMode (s : State) (who : Requester) (set clear uid : Nat) : State :=
  let set := set % 256
  let clear := clear % 256
  let bad := without (set.lor clear) who.modes
  let r : ModeReq := { who := who, cause := 0, set := set, clear := clear, refCode := if bad = 0 then 0 else 2, refBits := bad
                       uid := uid }
  if 6 ≤ s.dst then s.modeRefused 3 (set.lor clear)
  else if s.dst = 4 then s.mDev fun d => { d with undecided := d.undecided ++ [r] }
  else if without (set.lor clear) bad = 0 ∧ bad ≠ 0 then s.modeRefused 2 bad
  else
    let s := s.mDev fun d => { d with heldReqs := d.heldReqs ++ [{ r with uid := 0 }] }
    (s.set R.DEVSTATE.MODE_RESULT_CODE 1).wr R.DEVSTATE.MODE_RESULT_BITS (without (set.lor clear) bad)

/-- The requests held for SERVICE are applied in arrival order at its entry (R128). -/
def State.applyHeld (s : State) : State :=
  s.dev.heldReqs.foldl (fun t r => t.decideMode r) (s.mDev fun d => { d with heldReqs := [] })

/-- The requester an initiator stands for. -/
def requester : Initiator → Requester
  | .policy _ _ _ => .policy
  | .mgmt _ _ => .mgmt
  | .mi => .mi
  | .bootRom => .hardware

/-- MODE_REQ (R128, R136): the Inspector refuses policy firmware the bits it may not name, under limit 13. -/
def execModeReq (who : Initiator) (set clear : Nat) (s : State) : Host.Outcome State Fault Refusal :=
  .next <|
    let f := R.DEVSTATE.MODE_REQ_SET
    let q := requester who
    let i := s.limFire 13
    let s := i.2
    let bad := without ((set % 256).lor (clear % 256)) q.modes
    if i.1 then
      (s.refuse 13 (initCode who) (initHart who) (regAddr who (pageOf f 0) f.off) true).modeRefused 2
        ((set % 256).lor (clear % 256))
    else
      let s := if q = .policy ∧ bad ≠ 0 then s.refuse 13 (initCode who) (initHart who) (regAddr who (pageOf f 0) f.off) else s
      s.askMode q set clear 0

/-- MODE_INSTANT (R129): the change that waits longest is decided, those of the hardware first. -/
def execModeInstant (s : State) : Host.Outcome State Fault Refusal :=
  .next <|
    match s.dev.undecided with
    | [] => s
    | r :: rest => if s.dst = 4 ∨ s.dst = 5 then (s.mDev fun d => { d with undecided := rest }).decideMode r else s

/-- IN_SERVICE_RISE (R128): the rise disarms every point and clears DIAGNOSE, but for a boot-ROM setting. The operand
is the level WATCH sees (log entry 42). -/
def execInServiceRise (level : Bool) (s : State) : Host.Outcome State Fault Refusal :=
  .next <|
    if s.dst = 0 then s
    else
      let was := s.dev.inService
      let s := s.mDev fun d => { d with inService := level }
      if was ∨ level = false then s
      else
        let s := s.disarmThose (fun _ => true) 3
        if s.mode 5 ∧ s.rd R.DEVSTATE.DEV_STATE_DIAG_BOOT = 0 ∧ (s.dst = 4 ∨ s.dst = 5) then s.hwMode 0 0x20 0x24 else s

/-! ### Entry to SERVICE from QUIESCE and REBUILD -/

/-- What every entry to SERVICE ends with: hold-up is judged, and the held requests are applied (R128, R371). -/
def State.serve (s : State) (cause : Nat) : State := ((s.goState 4 .hardware cause).holdup).applyHeld

end Sys2Proof.Machine
end

