-- ==== Sys2Proof/Machine/Signature.lean ====
section
/-! DEFINITION. What the Gate's verifier computes of an image (R519, R521): SHA-384 of FIPS 180-4 and the verification
of an ECDSA signature over P-384 of FIPS 186-5. -/

namespace Sys2Proof.Machine

open Sys2Proof

/-! ### SHA-384 -/

/-- The round constants of SHA-512: that of round `i` stands at bits 64i + 63 to 64i. -/
def shaTable : Nat :=
  0x6C44198C4A4758175FCB6FAB3AD6FAEC597F299CFC657E2A4CC5D4BECB3E42B6431D67C49C100D4C3C9EBE0A15C9BEBC32CAAB7B40C7249328DB77F523047D841B710B35131C471B113F9804BEF90DAE0A637DC5A2C898A606F067AA72176FBAF57D4F7FEE6ED178EADA7DD6CDE0EB1ED186B8C721C0C207CA273ECEEA26619CC67178F2E372532BBEF9A3F7B2C67915A4506CEBDE82BDE990BEFFFA23631E288CC702081A6439EC84C87814A1F0AB7278A5636F43172F60748F82EE5DEFB2FC682E6FF3D6B2B8A35B9CCA4F7763E3734ED8AA4AE3418ACB391C0CB3C5C95A6334B0BCB5E19B48A82748774CDF8EEB991E376C085141AB5319A4C116B8D2D0C8106AA07032BBD1B8F40E35855771202AD69906245565A910D192E819D6EF5218C76C51A30654BE30C24B8B70D0F89791A81A664BBC423001A2BFE8A14CF1036492722C851482353B81C2C92E47EDAEE6766A0ABB3C77B2A8650A73548BAF63DE53380D139D95B3DF4D2C6DFC5AC42AED2E1B21385C26C92627B70A8546D22FFC142929670A0E6E7006CA6351E003826FD5A79147930AA725C6E00BF33DA88FC2BF597FC7BEEF0EE4B00327C898FB213FA831C66D2DB43210983E5152EE66DFAB76F988DA831153B55CB0A9DCBD41FBD44A7484AA6EA6E4832DE92C6F592B0275240CA1CC77AC9C650FC19DC68B8CD5B5EFBE4786384F25E3E49B69C19EF14AD2C19BF174CF6926949BDC06A725C7123580DEB1FE3B1696B172BE5D74F27B896F550C7DC3D5FFB4E2243185BE4EE4B28C12835B0145706FBED807AA98A3030242AB1C5ED5DA6D8118923F82A4AF194F9B59F111F1B605D0193956C25BF348B538E9B5DBA58189DBBCB5C0FBCFEC4D3B2F7137449123EF65CD428A2F98D728AE22

/-- The initial hash value of SHA-384. -/
def shaStart : List Nat :=
  [0xCBBB9D5DC1059ED8, 0x629A292A367CD507, 0x9159015A3070DD17, 0x152FECD8F70E5939,
   0x67332667FFC00B31, 0x8EB44A8768581511, 0xDB0C2E0D64F98FA7, 0x47B5481DBEFA4FA4]

/-- A 64-bit word rotated right. -/
def rot64 (n w : Nat) : Nat := w / 2 ^ n + w % 2 ^ n * 2 ^ (64 - n)

/-- The combination of three rotations or shifts. -/
def xor3 (a b c : Nat) : Nat := (a.xor b).xor c

/-- `n` rounds from round `80 - n` on; `w` holds the next 16 words of the message schedule. -/
def shaRounds : Nat → List Nat → List Nat → List Nat
  | 0, _, v => v
  | n + 1, w, v =>
    let g := fun i => v.getD i 0
    let m := fun i => w.getD i 0
    let t1 := g 7 + xor3 (rot64 14 (g 4)) (rot64 18 (g 4)) (rot64 41 (g 4))
      + ((g 4).land (g 5)).xor ((2 ^ 64 - 1 - g 4).land (g 6)) + bits shaTable (64 * (79 - n)) 64 + m 0
    let t2 := xor3 (rot64 28 (g 0)) (rot64 34 (g 0)) (rot64 39 (g 0))
      + xor3 ((g 0).land (g 1)) ((g 0).land (g 2)) ((g 1).land (g 2))
    let next := (xor3 (rot64 19 (m 14)) (rot64 61 (m 14)) (m 14 / 2 ^ 6) + m 9
      + xor3 (rot64 1 (m 1)) (rot64 8 (m 1)) (m 1 / 2 ^ 7) + m 0) % 2 ^ 64
    shaRounds n (w.drop 1 ++ [next])
      [(t1 + t2) % 2 ^ 64, g 0, g 1, g 2, (g 3 + t1) % 2 ^ 64, g 4, g 5, g 6]

/-- One 128 B block taken into the hash value. -/
def shaBlock (h : List Nat) (b : List Nat) : List Nat :=
  let v := shaRounds 80 ((List.range 16).map fun i => beNum ((b.drop (8 * i)).take 8)) h
  (h.zip v).map fun e => (e.1 + e.2) % 2 ^ 64

/-- The 384-bit digest of a byte string. -/
@[irreducible] def sha384 (bs : List Nat) : Nat :=
  let m := bs ++ 0x80 :: (List.replicate ((239 - bs.length % 128) % 128) 0 ++ beBytes (8 * bs.length) 16)
  (((pieces 128 (m.length / 128) m).foldl shaBlock shaStart).take 6).foldl (fun a w => a * 2 ^ 64 + w) 0

/-! ### The curve P-384 -/

/-- The prime of the field. -/
def curveP : Nat := 2 ^ 384 - 2 ^ 128 - 2 ^ 96 + 2 ^ 32 - 1

/-- The coefficient b; the coefficient a is -3. -/
def curveB : Nat :=
  0xB3312FA7E23EE7E4988E056BE3F82D19181D9C6EFE8141120314088F5013875AC656398D8A2ED19D2A85C8EDD3EC2AEF

/-- The order of the base point. -/
def curveN : Nat :=
  0xFFFFFFFFFFFFFFFFFFFFFFFFFFFFFFFFFFFFFFFFFFFFFFFFC7634D81F4372DDF581A0DB248B0A77AECEC196ACCC52973

/-- A point in Jacobian coordinates; Z is 0 at infinity. -/
abbrev Point := Nat × Nat × Nat

/-- The base point. -/
def curveG : Point :=
  (0xAA87CA22BE8B05378EB1C71EF320AD746E1D3B628BA79B9859F741E082542A385502F25DBF55296C3A545E3872760AB7,
   0x3617DE4A96262C6F5D9E98BF9292DC29F8F41DBD289A147CE9DA3113B5F0B8C00A60B1CE1D7E819D7A431D7C90EA0E5F, 1)

/-- Product in the field. -/
def mulP (a b : Nat) : Nat := a * b % curveP

/-- Difference in the field. -/
def subP (a b : Nat) : Nat := (a + (curveP - b % curveP)) % curveP

/-- A power modulo `m`, over the low `k` bits of the exponent from the top. -/
def powMod (m b e : Nat) : Nat → Nat
  | 0 => 1
  | k + 1 => let h := powMod m b (e / 2) k
             if e % 2 = 1 then h * h * b % m else h * h % m

/-- A point doubled. -/
def dblPoint (q : Point) : Point :=
  let (x, y, z) := q
  let d := mulP z z
  let g := mulP y y
  let be := mulP x g
  let al := mulP (3 * subP x d) (x + d)
  let x3 := subP (mulP al al) (8 * be)
  (x3, subP (mulP al (subP (4 * be) x3)) (8 * mulP g g), subP (mulP (y + z) (y + z)) (g + d))

/-- The sum of two points. -/
def addPoint (q r : Point) : Point :=
  if q.2.2 = 0 then r else if r.2.2 = 0 then q
  else
    let z1 := mulP q.2.2 q.2.2
    let z2 := mulP r.2.2 r.2.2
    let u1 := mulP q.1 z2
    let s1 := mulP q.2.1 (mulP r.2.2 z2)
    let h := subP (mulP r.1 z1) u1
    let w := subP (mulP r.2.1 (mulP q.2.2 z1)) s1
    if h = 0 then if w = 0 then dblPoint q else (1, 1, 0)
    else
      let hh := mulP h h
      let v := mulP u1 hh
      let x3 := subP (subP (mulP w w) (mulP h hh)) (2 * v)
      (x3, subP (mulP w (subP v x3)) (mulP s1 (mulP h hh)), mulP h (mulP q.2.2 r.2.2))

/-- A multiple of a point, over the low `k` bits of the number from the top. -/
def mulPoint (q : Point) (e : Nat) : Nat → Point
  | 0 => (1, 1, 0)
  | k + 1 => let h := dblPoint (mulPoint q (e / 2) k)
             if e % 2 = 1 then addPoint h q else h

/-- Whether (r, s) is a signature of a digest under the public point (x, y). -/
def ecdsaVerifies (x y r s digest : Nat) : Bool :=
  let w := powMod curveN s (curveN - 2) 384
  let q := addPoint (mulPoint curveG (digest * w % curveN) 384) (mulPoint (x, y, 1) (r * w % curveN) 384)
  let z := powMod curveP q.2.2 (curveP - 2) 384
  decide (x < curveP ∧ y < curveP) && decide (mulP y y = (mulP x (mulP x x) + 3 * (curveP - x) + curveB) % curveP)
    && decide (1 ≤ r ∧ r < curveN) && decide (1 ≤ s ∧ s < curveN) && decide (q.2.2 ≠ 0)
    && decide (mulP q.1 (mulP z z) % curveN = r)

/-- Whether the signature in an image's header is its own under the key whose hash the fuse array holds (R519, R521);
the image as its 64-bit words. -/
@[irreducible] def imageSigned (ws : List Nat) : Bool :=
  let bs := ws.flatMap fun w => bytesOf w 8
  let f := fun off n => (bs.drop off).take n
  decide (sha384 (f 3680 97) = Config.keyHash) && decide (f 3680 1 = [4])
    && ecdsaVerifies (beNum (f 3681 48)) (beNum (f 3729 48)) (beNum (f 3584 48)) (beNum (f 3632 48))
        (sha384 (bs.take 3584 ++ bs.drop 4096))

end Sys2Proof.Machine
end

