-- ==== Sys2Proof/Machine/Gate.lean ====
section
/-! DEFINITION. The Gate (R519 to R537): images and their validity, downloads, commits and activation, configuration
records and the owner lock. -/

namespace Sys2Proof.Machine

open Sys2Proof

/-! ### Images (R519 to R521) -/

/-- The bytes of a slot from byte `off` on, `8 * n` of them. -/
def State.slotBytes (s : State) (slot off n : Nat) : List Nat :=
  (List.range n).flatMap fun k => bytesOf (s.nv.words.get erasedWord (slotSector slot * 512 + off / 8 + k)) 8

/-- A slot's header. -/
def State.header (s : State) (slot : Nat) : List Nat := s.slotBytes slot 0 512

/-- A little-endian field of a header. -/
def hdr (h : List Nat) (off n : Nat) : Nat := ofBytes ((h.drop off).take n)

/-- Whether `n` bytes of a header from `off` on are zero. -/
def hdrZero (h : List Nat) (off n : Nat) : Bool := ((h.drop off).take n).all fun b => decide (b = 0)

/-- MODE of a component: 1 PRESENT, 2 REUSE. -/
def compMode (h : List Nat) (c : Nat) : Nat := hdr h (32 + 32 * c) 1

/-- The version of a PRESENT component. -/
def compVersion (h : List Nat) (c : Nat) : Nat := hdr h (32 + 32 * c + 4) 4

/-- Whether a component entry meets R520. -/
def compGood (h : List Nat) (c : Nat) : Bool :=
  let o := 32 + 32 * c
  if compMode h c = 1 then
    hdrZero h (o + 1) 3 && hdrZero h (o + 16) 16 && decide (hdr h (o + 8) 4 % 4096 = 0)
      && decide (hdr h (o + 8) 4 + hdr h (o + 12) 4 ≤ hdr h 8 4) && (decide (c ≠ 2) || decide (hdr h (o + 12) 4 ≤ 0x10000))
  else decide (compMode h c = 2) && hdrZero h (o + 1) 15

/-- Whether a header is right and its fields meet R519 and R520. -/
def headerGood (h : List Nat) : Bool :=
  decide (crc32c (h.take 4092) = hdr h 4092 4) && decide (hdr h 0 4 = 0x47543936) && decide (hdr h 4 2 = 1)
    && hdrZero h 6 2 && decide (hdr h 8 4 % 4096 = 0) && decide (8192 ≤ hdr h 8 4 ∧ hdr h 8 4 ≤ 0xC00000)
    && decide (1 ≤ hdr h 12 2 ∧ hdr h 12 2 ≤ 0xFFFE) && hdrZero h 14 2 && hdrZero h 192 3392 && hdrZero h 3777 315
    && (List.range 3).all (fun c => compGood h c)
    && (List.range 4).all fun w => decide (hdr h (128 + 16 * w + 8) 4 % 4096 = 0) && decide (hdr h (128 + 16 * w) 1 < 3)

/-- Whether a slot is valid (R521). An image with words left undefined fails its verification. -/
def State.slotValid (s : State) (slot : Nat) : Bool :=
  let h := s.header slot
  let n := hdr h 8 4 / 8
  let base := slotSector slot * 512
  headerGood h && s.nv.undef.all (fun a => decide (a < base ∨ base + n ≤ a))
    && imageSigned ((List.range n).map fun k => s.nv.words.get erasedWord (base + k))

/-- The stepping code of the part (R2). -/
def stepping : Nat := 0xA0

/-- Whether a slot is tested (R523): on this stepping, and with what it reuses. -/
def State.slotTested (s : State) (slot : Nat) : Bool :=
  let h := s.header slot
  let o := s.header (3 - slot)
  ((h.drop 24).take 8).contains stepping
    && (List.range 3).all fun c => decide (compMode h c ≠ 2) || (decide (compMode o c = 1)
        && decide (compVersion o c ≠ 0)
        && (List.range 4).any fun k => decide (hdr h (32 + 32 * c + 16 + 4 * k) 4 = compVersion o c))

/-- The slot a component of an image comes from. -/
def State.compSlot (s : State) (slot c : Nat) : Nat := if compMode (s.header slot) c = 2 then 3 - slot else slot

/-- The registers that describe a slot, `valid` as its last verification found it. -/
def State.showSlot (s : State) (slot : Nat) (valid : Bool) : State :=
  let h := s.header slot
  let ver := fun c => if valid then compVersion (s.header (s.compSlot slot c)) c else 0
  let of_ := fun n => if valid then n else 0
  let s := (s.wr R.GATE.SLOT_INFO_VALID (b2n valid) 0 slot).wr R.GATE.SLOT_INFO_TESTED (b2n (valid && s.slotTested slot)) 0 slot
  let s := (s.wr64 R.GATE.SLOT_FWREV_LO_VALUE R.GATE.SLOT_FWREV_HI_VALUE (of_ (hdr h 16 8)) 0 slot).wr
    R.GATE.SLOT_CFG_FORMAT (of_ (hdr h 12 2)) 0 slot
  ((s.wr R.GATE.SLOT_VER_POL_VERSION (ver 0) 0 slot).wr R.GATE.SLOT_VER_MGT_VERSION (ver 1) 0 slot).wr
    R.GATE.SLOT_VER_UC_VERSION (ver 2) 0 slot

/-- TESTED of both slots follows what they hold. -/
def State.showTested (s : State) : State :=
  [1, 2].foldl (fun (t : State) k => t.wr R.GATE.SLOT_INFO_TESTED
    (b2n (decide (t.rd R.GATE.SLOT_INFO_VALID 0 k = 1) && t.slotTested k)) 0 k) s

/-- One execute-only window as its slot's header declares it (R513, R519); a window in a component the image does not
carry is not loaded. -/
def State.loadWindow (s : State) (w : Nat) : State :=
  let slot := w / 4 + 1
  let h := s.header slot
  let o := 128 + 16 * (w % 4)
  let c := hdr h o 1
  if headerGood h ∧ 0 < hdr h (o + 8) 4 ∧ compMode h c = 1 then
    ((s.wr R.CFLASH.XWIN_BASE (slotSector slot + (hdr h (32 + 32 * c + 8) 4 + hdr h (o + 4) 4) / 4096) 0 w).wr
      R.CFLASH.XWIN_SECTORS (hdr h (o + 8) 4 / 4096) 0 w).wr R.CFLASH.XWIN_VALID 1 0 w
  else ((s.wr R.CFLASH.XWIN_BASE 0 0 w).wr R.CFLASH.XWIN_SECTORS 0 0 w).wr R.CFLASH.XWIN_VALID 0 0 w

/-- Whether the descriptor gives a slot a role. -/
def State.hasRole (s : State) (slot : Nat) : Bool :=
  decide (s.nv.desc.current = slot ∨ s.nv.desc.trial = slot ∨ s.nv.desc.next = slot)

/-- Whether a component runs from a slot. -/
def State.slotRuns (s : State) (slot : Nat) : Bool :=
  let p := s.rd R.GATE.BOOT_INFO_RUN_POLICY
  let m := s.rd R.GATE.BOOT_INFO_RUN_MGMT
  (decide (p ≠ 0) && decide (s.compSlot p 0 = slot)) || (decide (m ≠ 0) && decide (s.compSlot m 1 = slot))
    || decide (s.cf.microcode = slot)

/-! ### Downloads (R525 to R527) -/

/-- The first condition of R527 that refuses a source: the code of `busy` or `refused`, and DW0. -/
def State.updateBar (s : State) (src busy refused : Nat) : Option (Nat × Nat) :=
  if s.rd R.GATE.OWNER_LOCK = 1 then some (refused, 3)
  else if s.dev.inService then some (refused, 1)
  else if s.rd R.BELL.HU_STAT_OK = 0 then some (refused, 2)
  else if s.rd R.GATE.LOCK_HELD = 1 ∧ s.rd R.GATE.LOCK_SRC ≠ src then some (busy, s.rd R.GATE.LOCK_SRC)
  else none

/-- An interval in its place among disjoint ones, merged with those it touches. -/
def cover (a b : Nat) : List (Nat × Nat) → List (Nat × Nat)
  | [] => [(a, b)]
  | (c, d) :: t =>
    if b < c then (a, b) :: (c, d) :: t
    else if d < a then (c, d) :: cover a b t
    else cover (min a c) (max b d) t

/-- Whether a source's download is complete: one interval from 0 to STG_LEN (R526). -/
def State.downloaded (s : State) (src : Nat) : Bool :=
  decide (s.cf.cover.get [] src = [(0, s.rd R.GATE.STG_LEN_DWORDS 0 src)])

/-- Which initiator serves a source: policy firmware in band, management firmware NVMe-MI (R525, R540). -/
def serves (who : Initiator) (src : Nat) : Bool :=
  match who with
  | .policy _ _ _ => decide (src = 0)
  | .mgmt _ _ => decide (src = 1)
  | .mi => false
  | .bootRom => true

/-- The answer to a piece. -/
def State.pieceRes (s : State) (code reason : Nat) (complete : Bool) : State :=
  let s := ((s.set R.GATE.PIECE_RES_CODE code).wr R.GATE.PIECE_RES_REASON reason).wr R.GATE.PIECE_RES_COMPLETE (b2n complete)
  if code = 0 then s else s.count R.GATE.GATE_REFUSED_COUNT

/-- A source's piece of PIECE_OFF and PIECE_LEN is checked and merged, and a complete download takes the slot lock
(R525 to R527). -/
def State.reportPiece (s : State) (src : Nat) : State :=
  let a := s.rd R.GATE.PIECE_OFF_DWORDS
  let b := a + s.rd R.GATE.PIECE_LEN_DWORDS
  let l := s.cf.cover.get [] src
  let m := cover a b l
  match s.updateBar src 2 3 with
  | some (code, reason) => s.pieceRes code reason false
  | none =>
    if l.any fun e => decide (a < e.2 ∧ e.1 < b) then s.pieceRes 1 0 false
    else if 3145728 < b ∨ a = b ∨ 256 < m.length then s.pieceRes 4 0 false
    else
      let s := s.mCf fun c => { c with cover := c.cover.set [] src m }
      if s.downloaded src = false then s.pieceRes 0 0 false
      else if s.rd R.GATE.LOCK_HELD = 1 then s.pieceRes 0 0 true
      else
        let s := ((s.wr R.GATE.LOCK_HELD 1).wr R.GATE.LOCK_SRC src).mCf fun c => { c with lockAt := s.mono }
        (s.dropStaging (1 - src)).pieceRes 0 0 true

/-- PIECE_REPORT (R525): the firmware that serves the source of PIECE reports a piece. -/
def execPieceReport (who : Initiator) (s : State) : Host.Outcome State Fault Refusal :=
  .next <|
    let src := s.rd R.GATE.PIECE_SRC
    if serves who src = false then s.denyWrite who R.GATE.PIECE_CMD_GO else s.reportPiece src

/-- SLOT_LOCK_HOLD_EXPIRY (R526): LOCK_HOLD seconds have passed without a commit that uses the image. -/
def execSlotLockHoldExpiry (s : State) : Host.Outcome State Fault Refusal :=
  .next <| if s.rd R.GATE.LOCK_HELD = 1 ∧ s.cf.commit.isNone then s.releaseLock (s.rd R.GATE.LOCK_SRC) else s

/-! ### Commits (R528 to R530) -/

/-- A commit's status is known. A refusal is counted; a commit that uses the holder's image releases the slot lock. -/
def State.commitDone (s : State) (src code reason : Nat) (uses : Bool) : State :=
  let s := (s.mCf fun c => { c with commit := none }).wr R.GATE.PUMP_STAT_SPACE 64
  let s := ((s.set R.GATE.COMMIT_RES_CODE code).wr R.GATE.COMMIT_RES_REASON reason).set R.GATE.COMMIT_RES_BUSY 0
  let s := if code = 0 ∨ code = 7 then s else s.count R.GATE.GATE_REFUSED_COUNT
  if uses then s.releaseLock src else s

/-- The slot a commit names: 0 is a slot from which nothing runs and which holds no role (R528). -/
def State.commitSlot (s : State) (slot : Nat) : Nat :=
  if slot ≠ 0 then slot
  else if !s.slotRuns 1 && !s.hasRole 1 then 1
  else if !s.slotRuns 2 && !s.hasRole 2 then 2
  else 0

/-- The activation allowance in µs (R124). -/
def State.allowance (s : State) : Nat :=
  ((s.pit.table.filter fun e => decide (e.2.state = 1 ∨ e.2.state = 3)).map fun e => e.2.c.actPause * 1000).foldl min 20000

/-- The Gate's next act for the commit it writes (R530): the header's words go to its buffer; each further sector is
erased and programmed as its words come; the header is programmed last. -/
def State.gateGo (s : State) : State :=
  match s.cf.commit with
  | none => s
  | some c =>
    let base := slotSector c.slot
    let b := sectorBank base
    let busy := (s.cf.wait.get [] b).any (fun o => decide (o.rank = 3)) || match s.cf.run.get none b with
      | some o => decide (o.rank = 3)
      | none => false
    let n := min (512 - c.taken) c.queue.length
    let c := if c.taken < 512 then
        { c with head := c.head ++ c.queue.take n, queue := c.queue.drop n, taken := c.taken + n } else c
    let put := fun (s : State) (c : Commit) => (s.mCf fun x => { x with commit := some c }).wr R.GATE.PUMP_STAT_SPACE
      (64 - c.queue.length)
    let op := fun (s : State) k addr words =>
      s.flAsk { rank := 3, op := k, sector := addr / 512, addr := addr, words := words, from_ := 0 }
    if busy ∨ c.erased = 0 ∨ c.written ∨ c.taken < 512 then put s c
    else if c.total ≤ c.taken then op (put s c) 2 (base * 512) c.head
    else if c.erased ≤ c.taken / 512 then op (put s c) 1 (base * 512 + c.taken) []
    else
      let n := min c.queue.length (min (512 - c.taken % 512) (c.total - c.taken))
      if n = 0 then put s c
      else op (put s { c with queue := c.queue.drop n, taken := c.taken + n }) 2 (base * 512 + c.taken) (c.queue.take n)

/-- COMMIT.GO with action 000b, 001b or 011b: the checks of R529, then the slot's header sector is erased (R530). -/
def State.commitImage (s : State) (src slot action : Nat) : State :=
  if 2 < slot then s.commitDone src 1 0 false
  else match s.updateBar src 4 5 with
    | some (code, reason) => s.commitDone src code reason false
    | none =>
      if s.downloaded src = false ∨ s.rd R.GATE.LOCK_HELD = 0 then s.commitDone src 3 0 false
      else
        let t := s.commitSlot slot
        if t = 0 ∨ s.slotRuns t ∨ s.hasRole t then s.commitDone src 2 0 true
        else if action = 3 ∧ (s.allowance = 0 ∨ s.dst ≠ 4) then s.commitDone src 6 0 true
        else
          let s := ((s.wr R.GATE.COMMIT_RES_BUSY 1).wr R.GATE.PUMP_STAT_SPACE 64).wr R.GATE.PUMP_STAT_WORDS 0
          let k : Commit := { action := action, slot := t, src := src, total := s.rd R.GATE.STG_LEN_DWORDS 0 src / 2 }
          let s := s.mCf fun c => { c with commit := some k }
          s.flAsk { rank := 3, op := 1, sector := slotSector t, addr := slotSector t * 512, words := [], from_ := 0 }

/-- COMMIT.GO with action 010b (R528, R533). -/
def State.commitRole (s : State) (src slot : Nat) : State :=
  if 2 < slot then s.commitDone src 1 0 false
  else match s.updateBar src 4 5 with
    | some (code, reason) => s.commitDone src code reason false
    | none =>
      let t := s.commitSlot slot
      if t = 0 then s.commitDone src 2 0 false
      else if s.nv.desc.trial = t ∧ s.rd R.GATE.BOOT_INFO_RUN_POLICY = t then
        (s.appendDesc fun d => { d with current := t, trial := 0, boots := 0 }).commitDone src 0 0 false
      else if s.nv.desc.current = t ∧ s.rd R.GATE.BOOT_INFO_RUN_POLICY = t then s.commitDone src 0 0 false
      else if s.rd R.GATE.SLOT_INFO_VALID 0 t = 1 then
        (s.appendDesc fun d => { d with next := t }).commitDone src 0 0 false
      else s.commitDone src 2 0 false

/-- COMMIT.GO (R528, R529, R536): dropped and counted while a commit or a record write runs, and in CLOSING, where the
Gate writes nothing (R514). -/
def State.commitGo (s : State) (who : Initiator) (slot action : Nat) : State :=
  let src := s.rd R.GATE.COMMIT_SRC
  if serves who src = false then s.denyWrite who R.GATE.COMMIT_GO
  else if s.cf.commit.isSome ∨ s.cf.recOpen ∨ s.dst = 6 then s.count R.GATE.GATE_REFUSED_COUNT
  else if action = 2 then s.commitRole src slot
  else if 3 < action then s.commitDone src 8 0 false
  else s.commitImage src slot action

/-- COMMIT_ACTION_000B (R528): the downloaded image is written to the slot. -/
def execCommitAction000b (who : Initiator) (s : State) : Host.Outcome State Fault Refusal :=
  .next (s.commitGo who (s.rd R.GATE.COMMIT_SLOT) 0)

/-- COMMIT_ACTION_001B (R528). -/
def execCommitAction001b (who : Initiator) (s : State) : Host.Outcome State Fault Refusal :=
  .next (s.commitGo who (s.rd R.GATE.COMMIT_SLOT) 1)

/-- COMMIT_ACTION_010B (R528, R533). -/
def execCommitAction010b (who : Initiator) (s : State) : Host.Outcome State Fault Refusal :=
  .next (s.commitGo who (s.rd R.GATE.COMMIT_SLOT) 2)

/-- COMMIT_ACTION_011B (R528, R531). -/
def execCommitAction011b (who : Initiator) (s : State) : Host.Outcome State Fault Refusal :=
  .next (s.commitGo who (s.rd R.GATE.COMMIT_SLOT) 3)

/-- PUMP_WRITE (R530, R536): a write of PUMP_HI queues a word of the image, while the queue of 64 has room, or of the
open record. -/
def execPumpWrite (who : Initiator) (hi : Nat) (s : State) : Host.Outcome State Fault Refusal :=
  .next <|
    let w := s.rd R.GATE.PUMP_LO_VALUE + hi % 2 ^ 32 * 2 ^ 32
    let words := s.rd R.GATE.PUMP_STAT_WORDS + 1
    match s.cf.commit with
    | some c =>
      if serves who c.src = false then s.denyWrite who R.GATE.PUMP_HI_VALUE
      else if c.activating ∨ 64 ≤ c.queue.length ∨ c.total ≤ c.taken + c.queue.length then s
      else ((s.mCf fun x => { x with commit := some { c with queue := c.queue ++ [w] } }).wr R.GATE.PUMP_STAT_WORDS words).gateGo
    | none =>
      if mayWrite R.GATE.PUMP_HI_VALUE who = false then s.denyWrite who R.GATE.PUMP_HI_VALUE
      else if s.cf.recOpen then
        (s.mCf fun x => { x with recWords := x.recWords ++ [w] }).wr R.GATE.PUMP_STAT_WORDS words
      else s

/-! ### Operations that end (R514, R515) -/

/-- What the end of the Gate's operation does for its commit. -/
def State.gateStep (s : State) (o : FlOp) : State :=
  match s.cf.commit with
  | none => s
  | some c =>
    let s := s.mCf fun x => { x with commit := some (if o.op = 1 then { c with erased := c.erased + 1 }
      else if o.addr = slotSector c.slot * 512 then { c with written := true } else c) }
    let s := if o.op = 1 ∧ o.sector = slotSector c.slot then (s.showSlot c.slot false).showTested else s
    s.gateGo

/-- FLASH_OPERATION_COMPLETE (R514, R515): a bank's operation ends, and what waits there is served by rank. A bank
whose operation is suspended finishes nothing. -/
def execFlashOperationComplete (bank : Nat) (s : State) : Host.Outcome State Fault Refusal :=
  .next <|
    match s.cf.run.get none bank with
    | none => s
    | some o =>
      if s.flSuspended bank then s
      else
        let s := s.flIdle bank
        let s := if o.rank = 2 then s.permDone true
          else s.mNv fun v => if o.op = 1 then v.eraseSector o.sector else v.programWords o.addr o.words
        let s := if o.rank = 4 then s.set R.CFLASH.FL_STAT_BUSY 0 else s
        (if o.rank = 3 then s.gateStep o else s).flNext bank

/-! ### The end of a commit, and activation (R530 to R532) -/

/-- Both firmwares start from a slot's image (R531): CORE is reset with cause ACTIVATION, and the management harts
restart, uncounted. -/
def State.startImage (s : State) (policy mgmt micro : Nat) : State :=
  let s := (s.coreReset 4 0).mCore fun c => { c with
    mKicked := s.mono, timers := c.timers.filter fun h => decide (h < 8) }
  ((s.wr R.GATE.BOOT_INFO_RUN_POLICY policy).wr R.GATE.BOOT_INFO_RUN_MGMT mgmt).mCf fun c => { c with microcode := micro }

/-- Activation begins (R531): QUIESCE, the notice to the hosts, and the new image, with its stall microcode if it
carries one. -/
def State.activate (s : State) (c : Commit) : State :=
  let allow := s.allowance
  let s := s.mCf fun x => { x with
    commit := some { c with activating := true, started := s.mono, allow := allow }, prevMicro := x.microcode
    prevPolicy := s.rd R.GATE.BOOT_INFO_RUN_POLICY, prevMgmt := s.rd R.GATE.BOOT_INFO_RUN_MGMT }
  let s := ((s.wr R.DEVSTATE.QZ_LAST_ALLOW allow).wr R.DEVSTATE.QZ_LAST_ABANDONED 0).goState 5 .hardware 0x14
  let s := s.asyncEvent 9 2 1 3
  s.startImage c.slot c.slot (if compMode (s.header c.slot) 2 = 1 then c.slot else s.cf.microcode)

/-- SLOT_WRITE_COMPLETE (R529, R530, R531): the header, programmed last, is in place, and the slot is verified. The
armed point of the Gate makes this verification fail (R571). -/
def execSlotWriteComplete (s : State) : Host.Outcome State Fault Refusal :=
  .next <|
    match s.cf.commit with
    | none => s
    | some c =>
      if c.written = false ∨ c.activating then s
      else
        let i := s.fire (pageOf R.GATE.PIECE_CMD_GO 0) 0 fun _ _ => true
        let s := (i.2.showSlot c.slot (!i.1 && i.2.slotValid c.slot)).showTested
        if s.rd R.GATE.SLOT_INFO_VALID 0 c.slot = 0 then s.commitDone c.src 2 0 true
        else if c.action = 0 then s.commitDone c.src 0 0 true
        else if s.rd R.GATE.SLOT_INFO_TESTED 0 c.slot = 0 then s.commitDone c.src 2 0 true
        else if c.action = 1 then (s.appendDesc fun d => { d with next := c.slot }).commitDone c.src 0 0 true
        else match s.updateBar c.src 4 5 with
          | some (code, reason) => s.commitDone c.src code reason true
          | none => if s.allowance = 0 ∨ s.dst ≠ 4 then s.commitDone c.src 6 0 true else s.activate c

/-- ACT_READY (R531): the new policy firmware runs; QUIESCE ends, the commit succeeds, and the slot runs on trial. -/
def execActReady (who : Initiator) (s : State) : Host.Outcome State Fault Refusal :=
  .next <|
    if mayWrite R.GATE.ACT_READY_READY who = false then s.denyWrite who R.GATE.ACT_READY_READY
    else match s.cf.commit with
      | none => s
      | some c =>
        if c.activating = false ∨ s.dst ≠ 5 ∨ s.core.inReset then s
        else
          let s := s.wr R.DEVSTATE.QZ_LAST_PAUSE ((s.mono - c.started) / 100)
          ((s.serve 0x15).commitDone c.src 0 0 true).appendDesc fun d => { d with trial := c.slot, boots := 0 }

/-- ACTIVATION_ALLOWANCE_EXPIRY (R124, R532): the activation is abandoned, and the previous images restart. -/
def execActivationAllowanceExpiry (s : State) : Host.Outcome State Fault Refusal :=
  .next <|
    match s.cf.commit with
    | none => s
    | some c =>
      if c.activating = false ∨ s.dst ≠ 5 then s
      else
        let s := (s.mCore fun x => { x with inReset := false }).startImage s.cf.prevPolicy s.cf.prevMgmt s.cf.prevMicro
        let s := (s.wr R.DEVSTATE.QZ_LAST_PAUSE ((s.mono - c.started) / 100)).wr R.DEVSTATE.QZ_LAST_ABANDONED 1
        let s := s.record 8 0x2E1 [c.slot, c.allow, 0, 0]
        (s.serve 0x16).commitDone c.src 7 0 true

/-! ### Configuration records (R534 to R536) -/

/-- The winning records: of each TYPE and FORMAT the one of highest SEQ. -/
def cfgWinners (l : List CfgRec) : List CfgRec :=
  l.filter fun r => l.all fun q => decide (q.type ≠ r.type ∨ q.format ≠ r.format ∨ q.seq ≤ r.seq)

/-- The formats that the slots with a role declare (R535, R536). -/
def State.cfgFormats (s : State) : List Nat :=
  ((([1, 2] : List Nat).filter fun k => s.hasRole k).map fun k => s.rd R.GATE.SLOT_CFG_FORMAT 0 k).filter fun n => decide (n ≠ 0)

/-- An area's half that cannot take a record is compacted into the other half (R535): 128 sectors are erased, the
records copied, and the old half erased. -/
def State.cfgCompact (s : State) : State :=
  let keep := fun (l : List CfgRec) => (cfgWinners l).filter fun r => decide (r.type < 0x100) || s.cfgFormats.contains r.format
  let s := [0, 4096].foldl (fun (t : State) b =>
    (List.range 256).foldl (fun (u : State) k => u.countErase (b + 3076 + k)) t) s
  s.mNv fun v => { v with cfgA := keep v.cfgA, cfgB := keep v.cfgB, cfgHalf := 1 - v.cfgHalf }

/-- REC_CMD_BEGIN (R536). -/
def execRecCmdBegin (who : Initiator) (s : State) : Host.Outcome State Fault Refusal :=
  .next <|
    if mayWrite R.GATE.REC_CMD_OP who = false then s.denyWrite who R.GATE.REC_CMD_OP
    else if s.cf.commit.isSome ∨ s.cf.recOpen ∨ s.dst = 6 then s.count R.GATE.GATE_REFUSED_COUNT
    else
      let s := s.mCf fun c => { c with recOpen := true, recWords := [] }
      ((s.set R.GATE.REC_RES_CODE 0).wr R.GATE.REC_RES_BUSY 1).wr R.GATE.PUMP_STAT_WORDS 0

/-- A record write is over. -/
def State.recDone (s : State) (code : Nat) : State :=
  let s := (s.mCf fun c => { c with recOpen := false, recWords := [] }).set R.GATE.REC_RES_CODE code
  let s := s.set R.GATE.REC_RES_BUSY 0
  if code = 0 then s else s.count R.GATE.GATE_REFUSED_COUNT

/-- REC_CMD_END (R534 to R536): the record is checked, and written to CONFIG_A and then to CONFIG_B. -/
def execRecCmdEnd (who : Initiator) (s : State) : Host.Outcome State Fault Refusal :=
  .next <|
    if mayWrite R.GATE.REC_CMD_OP who = false then s.denyWrite who R.GATE.REC_CMD_OP
    else if s.cf.commit.isSome then s.count R.GATE.GATE_REFUSED_COUNT
    else if s.cf.recOpen = false then s
    else
      let r : CfgRec := { type := s.rd R.GATE.REC_TYPE_TYPE, format := s.rd R.GATE.REC_TYPE_FORMAT, seq := s.nv.cfgSeq + 1
                          len := s.rd R.GATE.REC_LEN_BYTES, payload := s.cf.recWords }
      if s.rd R.GATE.OWNER_LOCK = 1 then s.recDone 1
      else if 0x100 ≤ r.type ∧ s.cfgFormats.contains r.format = false then s.recDone 2
      else if r.payload.length ≠ ceilDiv r.len 8 then s.recDone 3
      else
        let full := decide (65536 < cfgStart (cfgUsed 0 s.nv.cfgA) r.size + r.size)
        let s := if full then s.cfgCompact else s
        (s.mNv fun v => { v with cfgA := v.cfgA ++ [r], cfgB := v.cfgB ++ [r], cfgSeq := r.seq }).recDone 0

/-- REC_CMD_CANCEL (R539). -/
def execRecCmdCancel (who : Initiator) (s : State) : Host.Outcome State Fault Refusal :=
  .next <|
    if mayWrite R.GATE.REC_CMD_OP who = false then s.denyWrite who R.GATE.REC_CMD_OP
    else if s.cf.commit.isSome then s.count R.GATE.GATE_REFUSED_COUNT
    else if s.cf.recOpen then s.recDone 0 else s

/-! ### The owner lock (R537) -/

/-- OWNER_LOCK_WRITE (R127, R133, R537): only the NVMe-MI window writes the lock. RO_CAUSE.OWNER and READ_ONLY follow;
a lock set during a sanitize sets the cause when the sanitize ends. -/
def execOwnerLockWrite (who : Initiator) (value : Bool) (s : State) : Host.Outcome State Fault Refusal :=
  .next <|
    if mayWrite R.GATE.OWNER_LOCK who = false then s.denyWrite who R.GATE.OWNER_LOCK
    else
      let s := (s.wr R.GATE.OWNER_LOCK (b2n value)).mNv fun v => { v with owner := value }
      if value ∧ s.mode 3 then s
      else
        let old := s.rd R.DEVSTATE.RO_CAUSE_OWNER
        let s := (s.wr R.DEVSTATE.RO_CAUSE_OWNER (b2n value)).mNv fun v => { v with
          roCause := if value then setBit v.roCause 2 else clrBit v.roCause 2 }
        if old = b2n value then s else if value then s.hwMode 4 0 0 else s.hwMode 0 4 0

end Sys2Proof.Machine
end

