-- ==== Sys2Proof/Machine/Logbook.lean ====
section
/-! DEFINITION. The Logbook and the wall time (R541 to R565): the commands that store, save, freeze,
read and stamp records. -/

namespace Sys2Proof.Machine

open Sys2Proof

/-- The LOG bank of an initiator (R557): 1 policy cores, 2 management cores, 3 NVMe-MI window, as
LOG_STAT.FREEZE_BY numbers them; the boot ROM runs on a policy hart. -/
def logBank : Initiator → Nat
  | .policy _ _ _ => 1
  | .mgmt _ _ => 2
  | .mi => 3
  | .bootRom => 1

/-- The first island at or after `from_` whose port holds a record. -/
def nextPort (ports : Tbl (List LogReq)) (from_ : Nat) : Nat → Option Nat
  | 0 => none
  | k + 1 =>
    let i := from_ % 117
    if (ports.get [] i).isEmpty then nextPort ports (i + 1) k else some i

/-- WATCH takes one record from the ports in round robin and stores it (R549). -/
def execRecordStore (s : State) : Host.Outcome State Fault Refusal :=
  .next <|
    match nextPort s.log.ports (s.log.lastPort + 1) 117 with
    | none => s
    | some i =>
      match s.log.ports.get [] i with
      | [] => s
      | q :: rest =>
        let dropped := s.log.portDrop.get false i
        (s.mLog fun l => { l with ports := l.ports.set [] i rest, lastPort := i
                                  portDrop := l.portDrop.set false i false }).store q dropped

/-- The newest records of a list, at most `n`. -/
def newest {α : Type} (n : Nat) (l : List α) : List α := l.drop (l.length - n)

/-- A save of the ring's unsaved records to RECORDS ends (R554): on success they are kept there, the
newest 65,536; on failure a LOG_LOST record is made and they stay unsaved. -/
def execRingSave (ok : Bool) (s : State) : Host.Outcome State Fault Refusal :=
  .next <|
    let s := s.set R.LOG.LOG_STAT_SAVING 0
    if ok then
      let saved := newest s.log.unsaved s.stored
      let s := (s.mNv fun v => { v with ring := newest 65536 (v.ring ++ saved) }).mLog fun l => { l with unsaved := 0 }
      match saved.getLast? with
      | some r => s.wr R.LOG.SAVED_SEQ_VALUE r.seq
      | none => s
    else s.record 8 0x00B [0, 2, 0, 0]

/-- Whether an initiator may release the fault freeze (R552, R565). -/
def mayRelease : Initiator → Bool
  | .mgmt _ _ => true
  | .mi => true
  | .policy _ _ _ => false
  | .bootRom => false

/-- LOG_CTRL.FAULT_RELEASE (R552): the held slots circulate again, and a LOG_RELEASE record is made. -/
def execFaultRelease (who : Initiator) (s : State) : Host.Outcome State Fault Refusal :=
  .next <|
    if mayRelease who = false then s.denyWrite who R.LOG.LOG_CTRL_FAULT_RELEASE
    else if s.rd R.LOG.LOG_STAT_FAULT_FROZEN = 0 then s
    else
      let held := s.log.heldRing.length
      let all := newest 65536 s.stored
      ((s.mLog fun l => { l with ring := all, heldRing := [] }).wr R.LOG.LOG_STAT_FAULT_FROZEN 0).record 8 0x00A
        [initCode who, held, 0, 0]

/-- A freeze stretch ends (R558): by the last bank's clear, or at MAX_MS, which clears every bank. -/
def endStretch (s : State) (byMax : Bool) : State :=
  let us := (s.mono - s.log.stretchFrom) / 100
  let banks := s.log.stretchBanks
  let n := s.log.stretchEvents
  let s := (s.wr R.LOG.LOG_STAT_FROZEN 0).wr R.LOG.LOG_STAT_FREEZE_BY 0
  let s := ((s.wr R.LOG.LOG_CTRL_FREEZE 0 0 1).wr R.LOG.LOG_CTRL_FREEZE 0 0 2).wr R.LOG.LOG_CTRL_FREEZE 0 0 3
  let s := s.mLog fun l => { l with stretchEnd := some s.mono, stretchEvents := 0 }
  s.record 8 0x009 [banks, n, us, b2n byMax]

/-- Whether a FREEZE write is refused: for MAX_MS after a stretch ended (R558). -/
def freezeRefused (s : State) : Bool :=
  match s.log.stretchEnd with
  | some t => decide (s.mono < t + s.rd R.LOG.FREEZE_CFG_MAX_MS * 100000)
  | none => false

/-- LOG_CTRL.FREEZE of the writer's bank (R558). -/
def execLogCtrlFreeze (who : Initiator) (on : Bool) (s : State) : Host.Outcome State Fault Refusal :=
  .next <|
    let b := logBank who
    let by_ := s.rd R.LOG.LOG_STAT_FREEZE_BY
    if on then
      if freezeRefused s then s
      else
        let fresh := decide (s.rd R.LOG.LOG_STAT_FROZEN = 0)
        let s := (s.wr R.LOG.LOG_CTRL_FREEZE 1 0 b).wr R.LOG.LOG_STAT_FREEZE_BY (setBit by_ (b - 1))
        let s := s.wr R.LOG.LOG_STAT_FROZEN 1
        s.mLog fun l =>
          if fresh then { l with stretchFrom := s.mono, stretchBanks := 2 ^ b, stretchEvents := 0 }
          else { l with stretchBanks := setBit l.stretchBanks b }
    else
      let left := clrBit by_ (b - 1)
      let s := (s.wr R.LOG.LOG_CTRL_FREEZE 0 0 b).wr R.LOG.LOG_STAT_FREEZE_BY left
      if by_ ≠ 0 ∧ left = 0 then endStretch s false else s

/-- A freeze stretch reaches MAX_MS (R558). -/
def execFreezeMaxExpiry (s : State) : Host.Outcome State Fault Refusal :=
  .next (if s.rd R.LOG.LOG_STAT_FROZEN = 1 then endStretch s true else s)

/-- FW_POST (R559): the bank's code and words leave as a firmware record. -/
def execFwPost (who : Initiator) (s : State) : Host.Outcome State Fault Refusal :=
  .next <|
    if mayWrite R.LOG.FW_POST_GO who = false then s.denyWrite who R.LOG.FW_POST_GO
    else
      let b := logBank who
      let code := s.rd R.LOG.FW_CODE_CODE 0 b
      if s.rd R.LOG.FW_RES_CODE 0 b = 4 then s.count R.LOG.FW_RES_IGNORED 0 b
      else if code < 0x380 then s.set R.LOG.FW_RES_CODE 1 0 b
      else
        let hart := if b = 1 then initHart who else 8 + initHart who
        (s.wr R.LOG.FW_RES_CODE 4 0 b).post (if b = 1 then 7 else 8)
          { code := code, inj := false, source := 0x80 + hart, at_ := s.mono, fw := true
            snaps := [s.rd (R.LOG.FW_SNAP_VALUE 0) 0 b, s.rd (R.LOG.FW_SNAP_VALUE 1) 0 b,
                      s.rd (R.LOG.FW_SNAP_VALUE 2) 0 b, s.rd (R.LOG.FW_SNAP_VALUE 3) 0 b] }

/-- The bank's cursor names a ring record by epoch and SEQ. -/
def cursorTo (s : State) (b epoch seq : Nat) : State :=
  (s.wr R.LOG.CUR_EPOCH_VALUE epoch 0 b).wr64 R.LOG.CUR_SEQ_LO_VALUE R.LOG.CUR_SEQ_HI_VALUE seq 0 b

/-- CUR_CMD.OLDEST (R557): the cursor names the oldest record of its area; in an empty ring, the
record not yet stored. -/
def execCurCmdOldest (who : Initiator) (s : State) : Host.Outcome State Fault Refusal :=
  .next <|
    let b := logBank who
    if s.rd R.LOG.CUR_AREA_AREA 0 b = 1 then
      (s.wr R.LOG.CUR_INDEX_INDEX 0 0 b).wr R.LOG.CUR_STAT_VALID (b2n (decide (0 < s.nv.perm.length))) 0 b
    else
      match s.stored.head? with
      | some r => (cursorTo s b r.epoch r.seq).wr R.LOG.CUR_STAT_VALID 1 0 b
      | none => (cursorTo s b (s.rd R.TIME.EPOCH_VALUE) s.headSeq).wr R.LOG.CUR_STAT_VALID 0 0 b

/-- CUR_CMD.NEWEST (R557). -/
def execCurCmdNewest (who : Initiator) (s : State) : Host.Outcome State Fault Refusal :=
  .next <|
    let b := logBank who
    if s.rd R.LOG.CUR_AREA_AREA 0 b = 1 then
      (s.wr R.LOG.CUR_INDEX_INDEX (s.nv.perm.length - 1) 0 b).wr R.LOG.CUR_STAT_VALID
        (b2n (decide (0 < s.nv.perm.length))) 0 b
    else
      match s.stored.getLast? with
      | some r => (cursorTo s b r.epoch r.seq).wr R.LOG.CUR_STAT_VALID 1 0 b
      | none => (cursorTo s b (s.rd R.TIME.EPOCH_VALUE) s.headSeq).wr R.LOG.CUR_STAT_VALID 0 0 b

/-- Copies 16 words into the bank's holding buffer. -/
def holdWords (s : State) (b : Nat) : Nat → List Nat → State
  | _, [] => s
  | n, w :: t => holdWords (s.wr (R.LOG.WIN_VALUE n) w 0 b) b (n + 1) t

/-- The record's words, or zeros. -/
def recWords : Option LogRec → List Nat
  | some r => words32 r.bytes
  | none => List.replicate 16 0

/-- A read of WIN0 (R557): the named record is copied whole into the bank's holding buffer. A cursor
whose record has been overwritten sets STALE and moves to the oldest record; one that names the record
not yet stored reads VALID 0 and zeros. -/
def State.win0 (s : State) (b : Nat) : State :=
  if s.rd R.LOG.CUR_AREA_AREA 0 b = 1 then
    let i := s.rd R.LOG.CUR_INDEX_INDEX 0 b
    let r := s.nv.perm[i]?
    let s := s.wr R.LOG.CUR_STAT_VALID (b2n r.isSome) 0 b
    if s.nv.permBad.contains i then
      holdWords { s with free := s.free + 16 } b 0 ((List.range 16).map fun k => Config.freeValue (s.free + k))
    else holdWords s b 0 (recWords r)
  else
    let e := s.rd R.LOG.CUR_EPOCH_VALUE 0 b
    let q := s.rd64 R.LOG.CUR_SEQ_LO_VALUE R.LOG.CUR_SEQ_HI_VALUE 0 b
    match s.stored.find? fun r => decide (r.epoch = e ∧ r.seq = q) with
    | some r => holdWords (s.wr R.LOG.CUR_STAT_VALID 1 0 b) b 0 (recWords (some r))
    | none =>
      match s.stored.head?, s.stored.getLast? with
      | some o, some n =>
        if e < n.epoch ∨ (e = n.epoch ∧ q < n.seq) then
          holdWords (((cursorTo s b o.epoch o.seq).wr R.LOG.CUR_STAT_STALE 1 0 b).wr R.LOG.CUR_STAT_VALID 1 0 b)
            b 0 (recWords (some o))
        else holdWords (s.wr R.LOG.CUR_STAT_VALID 0 0 b) b 0 (recWords none)
      | _, _ => holdWords (s.wr R.LOG.CUR_STAT_VALID 0 0 b) b 0 (recWords none)

/-- WIN0_READ (R557): the first word of the record, which the read answers. -/
def execWin0Read (who : Initiator) (s : State) : Host.Outcome State Fault Refusal :=
  let b := logBank who
  let s := s.win0 b
  .next (s.answer [s.rd (R.LOG.WIN_VALUE 0) 0 b])

/-- The record after (epoch, seq) in storage order. -/
def recAfter (l : List LogRec) (e q : Nat) : Option LogRec :=
  l.find? fun r => decide (e < r.epoch ∨ (e = r.epoch ∧ q < r.seq))

/-- A read of WIN15 (R557): the cursor advances to the next record in storage order; past the newest
it names the record not yet stored. -/
def State.win15 (s : State) (b : Nat) : State :=
  if s.rd R.LOG.CUR_AREA_AREA 0 b = 1 then
    let i := s.rd R.LOG.CUR_INDEX_INDEX 0 b + 1
    (s.wr R.LOG.CUR_INDEX_INDEX i 0 b).wr R.LOG.CUR_STAT_VALID
      (b2n (decide (i % 4096 < s.nv.perm.length))) 0 b
  else
    let e := s.rd R.LOG.CUR_EPOCH_VALUE 0 b
    let q := s.rd64 R.LOG.CUR_SEQ_LO_VALUE R.LOG.CUR_SEQ_HI_VALUE 0 b
    match recAfter s.stored e q with
    | some r => (cursorTo s b r.epoch r.seq).wr R.LOG.CUR_STAT_VALID 1 0 b
    | none => (cursorTo s b (s.rd R.TIME.EPOCH_VALUE) s.headSeq).wr R.LOG.CUR_STAT_VALID 0 0 b

/-- WIN15_READ (R557): the last word of the record is answered, and the cursor advances. -/
def execWin15Read (who : Initiator) (s : State) : Host.Outcome State Fault Refusal :=
  let b := logBank who
  .next ((s.win15 b).answer [s.rd (R.LOG.WIN_VALUE 15) 0 b])

/-- The offset of WALL is set so that WALL equals `ms` now, and the TIME_SET record is stored in the
same cycle (R562). -/
def setWall (s : State) (who : Initiator) (ms : Nat) : State :=
  let old := if s.rd R.TIME.WALL_HI_VALID = 1 then s.wallAt s.mono else s.mono / 100000 % 2 ^ 48
  let s := s.mLog fun l => { l with wallOff := (ms : Int) - (s.mono / 100000 : Nat) }
  let s := (s.wr R.TIME.WALL_HI_VALID 1).count R.TIME.TIME_SETS_COUNT
  s.recordNow 0x008 [old % 2 ^ 32, old / 2 ^ 32 + 0x10000 * initCode who, ms % 2 ^ 32, ms / 2 ^ 32]

/-- A write of WALL_SET_HI (R562), by policy or management firmware alone (R565). -/
def execWallSetHi (who : Initiator) (ms : Nat) (s : State) : Host.Outcome State Fault Refusal :=
  .next <|
    if mayWrite R.TIME.WALL_SET_HI_MS who then
      setWall s who (s.rd R.TIME.WALL_SET_LO_MS + ms % 2 ^ 16 * 2 ^ 32)
    else s.denyWrite who R.TIME.WALL_SET_HI_MS

/-- One period of 1 / RATE seconds passes: the code's bucket gains a token, up to BURST (R550). -/
def execRateBucketRefill (code : Nat) (s : State) : Host.Outcome State Fault Refusal :=
  .next (s.mLog fun l => { l with spent := l.spent.set 0 code (l.spent.get 0 code - 1) })

end Sys2Proof.Machine
end

