-- ==== Sys2Proof/Machine/Pitch.lean ====
section
/-! DEFINITION. The pitch commands of the host and of firmware, queue bindings, and the 1 µs refill
(R60 to R68, R93 to R96). -/

namespace Sys2Proof.Machine

open Sys2Proof

/-- A staged admin command of an opcode runs; any other does nothing (log entry 5). -/
def State.admin (s : State) (port cid opcode : Nat) (f : Cmd → State → State) : State :=
  match s.cmdOn port 0 cid with
  | some c => if c.opcode = opcode ∧ c.stage = .staged then f c s else s
  | none => s

/-- A contract from its words 0 to 7 (R93, R95). -/
def contractOf (w : Nat → Nat) : Contract :=
  { cls := bits (w 0) 0 2, dir := bits (w 0) 2 1, recovery := bits (w 0) 3 1, powerFloor := bits (w 0) 4 3
    actPause := bits (w 0) 8 5, byteRate := bits (w 1) 0 18, opRate := bits (w 2) 0 27
    maxSize := bits (w 3) 0 13, burstOps := bits (w 4) 0 16, burstUnits := bits (w 5) 0 16
    boundUs := bits (w 6) 0 22, amp := bits (w 7) 0 10 }

/-- The contract in the window (R95). -/
def State.window (s : State) : Contract :=
  { cls := s.rd R.INTAKE.PITCH_C0_CLASS, dir := s.rd R.INTAKE.PITCH_C0_DIR
    recovery := s.rd R.INTAKE.PITCH_C0_RECOVERY, powerFloor := s.rd R.INTAKE.PITCH_C0_POWER_FLOOR
    actPause := s.rd R.INTAKE.PITCH_C0_ACT_PAUSE, byteRate := s.rd R.INTAKE.PITCH_C1_BYTE_RATE
    opRate := s.rd R.INTAKE.PITCH_C2_OP_RATE, maxSize := s.rd R.INTAKE.PITCH_C3_MAX_SIZE
    burstOps := s.rd R.INTAKE.PITCH_C4_BURST_OPS, burstUnits := s.rd R.INTAKE.PITCH_C5_BURST_BYTES
    boundUs := s.rd R.INTAKE.PITCH_C6_BOUND_US, amp := s.rd R.INTAKE.PITCH_C7_AMP }

/-- The status code of R94 for a window code. -/
def rentStatus : Nat → Nat
  | 5 => 0xC4
  | 2 => 0xC2
  | 1 => 0xC1
  | _ => 0xC0

/-- The effect of a Pitch Rent (R62, R93, R94). -/
def rentCmd (c : Cmd) (s : State) : State :=
  let k := contractOf fun i => c.payload.getD i 0
  let test := bit (c.cdw 10) 14
  let any := bit (c.cdw 10) 15
  let want := if any then none else some (bits (c.cdw 10) 0 10)
  match s.rentCheck k want (!test) with
  | (0, _) =>
    if test then s.complete c 0 0
    else
      match (if any then s.freePitch else want) with
      | some n => (s.rentAt n 0 (if s.split then c.port else 0) k).complete c 0 0 false n
      | none => s.complete c 1 0xC1 true
  | (3, r) => s.complete c 1 0xC0 true (r * 0x10000)
  | (k, _) => s.complete c 1 (rentStatus k) true

/-- Pitch Rent of the host. -/
def execPitchRent (port cid : Nat) (s : State) : Host.Outcome State Fault Refusal :=
  .next (s.admin port cid 0xC1 rentCmd)

/-- The effect of a Pitch Return (R63, R94). -/
def returnCmd (c : Cmd) (s : State) : State :=
  let n := bits (c.cdw 10) 0 10
  let p := s.pitch n
  if p.state = 0 ∨ p.owner ≠ 0 then s.complete c 1 0xC3 true
  else (s.returnPitch n).complete c 0 0

/-- Pitch Return of the host. -/
def execPitchReturn (port cid : Nat) (s : State) : Host.Outcome State Fault Refusal :=
  .next (s.admin port cid 0xC4 returnCmd)

/-- QB_CFG of a queue takes a value of its layout (R95). -/
def State.bindQueue (s : State) (b v : Nat) : State :=
  ((((s.wr R.INTAKE.QB_CFG_PITCH (bits v 0 10) 0 b).wr R.INTAKE.QB_CFG_BOUND (bits v 10 1) 0 b).wr
    R.INTAKE.QB_CFG_MODE (bits v 11 1) 0 b).wr R.INTAKE.QB_CFG_UNPITCHED_CLASS (bits v 12 1) 0 b).wr
    R.INTAKE.QB_CFG_RETURN_WAIT (bits v 16 16) 0 b

/-- The effect of a Pitch Bind (R64, R93). -/
def bindCmd (c : Cmd) (s : State) : State :=
  let q := bits (c.cdw 10) 0 16
  let v := c.cdw 11
  let p := s.pitch (bits v 0 10)
  if q = 0 ∨ (s.sqOf c.port q).isNone then s.complete c 1 0x01 true
  else if bit v 10 ∧ (p.state ≠ 1 ∨ p.owner ≠ 0 ∨ (s.split ∧ p.port ≠ c.port)) then s.complete c 1 0xC3 true
  else (s.bindQueue (qb c.port q) v).complete c 0 0

/-- Pitch Bind of the host. -/
def execPitchBind (port cid : Nat) (s : State) : Host.Outcome State Fault Refusal :=
  .next (s.admin port cid 0xC8 bindCmd)

/-- A PITCH_CMD of firmware: refused to other initiators, ignored and counted while BUSY (R95). -/
def pitchCmd (who : Initiator) (s : State) (f : State → State) : State :=
  s.access who (pageOf R.INTAKE.PITCH_CMD_OP 0) R.INTAKE.PITCH_CMD_OP.off true fun s =>
  if mayWrite R.INTAKE.PITCH_CMD_OP who = false then s.denyWrite who R.INTAKE.PITCH_CMD_OP
  else if s.rd R.INTAKE.PITCH_CMD_BUSY = 1 then s.count R.INTAKE.PITCH_RESULT_DROPPED
  else f s

/-- PITCH_RESULT is loaded. -/
def State.pitchResult (s : State) (code res : Nat) : State :=
  (s.set R.INTAKE.PITCH_RESULT_CODE code).wr R.INTAKE.PITCH_RESULT_RESOURCE res

/-- PITCH_CMD RENT: the window's contract is rented as the pitch PITCH_SEL names. -/
def execPitchCmdRent (who : Initiator) (s : State) : Host.Outcome State Fault Refusal :=
  .next <| pitchCmd who s fun s =>
    let n := s.rd R.INTAKE.PITCH_SEL_PITCH
    match s.rentCheck s.window (some n) true with
    | (0, _) => (s.rentAt n 1 0 s.window).pitchResult 0 0
    | (k, r) => s.pitchResult k r

/-- PITCH_CMD RETURN. -/
def execPitchCmdReturn (who : Initiator) (s : State) : Host.Outcome State Fault Refusal :=
  .next <| pitchCmd who s fun s =>
    let n := s.rd R.INTAKE.PITCH_SEL_PITCH
    let p := s.pitch n
    if p.state = 0 ∨ p.owner ≠ 1 then s.pitchResult 4 0
    else (s.returnPitch n).pitchResult 0 0

/-- PITCH_CMD LOAD: the pitch's contract is loaded into the window. -/
def execPitchCmdLoad (who : Initiator) (s : State) : Host.Outcome State Fault Refusal :=
  .next <| pitchCmd who s fun s =>
    let c := (s.pitch (s.rd R.INTAKE.PITCH_SEL_PITCH)).c
    ((((((((((((s.wr R.INTAKE.PITCH_C0_CLASS c.cls).wr R.INTAKE.PITCH_C0_DIR c.dir).wr
      R.INTAKE.PITCH_C0_RECOVERY c.recovery).wr R.INTAKE.PITCH_C0_POWER_FLOOR c.powerFloor).wr
      R.INTAKE.PITCH_C0_ACT_PAUSE c.actPause).wr R.INTAKE.PITCH_C1_BYTE_RATE c.byteRate).wr
      R.INTAKE.PITCH_C2_OP_RATE c.opRate).wr R.INTAKE.PITCH_C3_MAX_SIZE c.maxSize).wr
      R.INTAKE.PITCH_C4_BURST_OPS c.burstOps).wr R.INTAKE.PITCH_C5_BURST_BYTES c.burstUnits).wr
      R.INTAKE.PITCH_C6_BOUND_US c.boundUs).wr R.INTAKE.PITCH_C7_AMP c.amp).pitchResult 0 0

/-- PITCH_CMD TEST: the window's contract is tested without renting and without a table check (R94). -/
def execPitchCmdTest (who : Initiator) (s : State) : Host.Outcome State Fault Refusal :=
  .next <| pitchCmd who s fun s =>
    let r := s.rentCheck s.window none false
    s.pitchResult r.1 r.2

/-- QB_CFG written by firmware (R64, R95, R96): CODE 6 where the queue does not exist, CODE 4 where it
is bound to a host-owned pitch or the pitch named is not a RENTED firmware-owned one. -/
def execQbCfgWrite (who : Initiator) (value : Nat) (s : State) : Host.Outcome State Fault Refusal :=
  .next <| s.access who (pageOf R.INTAKE.QB_CFG_PITCH 0) R.INTAKE.QB_CFG_PITCH.off true fun s =>
    if mayWrite R.INTAKE.QB_CFG_PITCH who = false then s.denyWrite who R.INTAKE.QB_CFG_PITCH
    else
      let port := if s.split then s.rd R.INTAKE.QB_SEL_PORT else 0
      let q := s.rd R.INTAKE.QB_SEL_SQID
      let b := qb port q
      let old := s.pitch (s.rd R.INTAKE.QB_CFG_PITCH 0 b)
      let p := s.pitch (bits value 0 10)
      if (s.sqOf port q).isNone then s.pitchResult 6 0
      else if s.rd R.INTAKE.QB_CFG_BOUND 0 b = 1 ∧ old.owner = 0 then s.pitchResult 4 0
      else if bit value 10 ∧ (p.state ≠ 1 ∨ p.owner ≠ 1) then s.pitchResult 4 0
      else (s.bindQueue b value).pitchResult 0 0

/-- The 1 µs update of one RENTED pitch: its operations, units and tax (R68, R99). -/
def State.refillPitch (s : State) (n : Nat) : State :=
  [0, 1, 2].foldl (fun s k => s.refillOne n k ((s.pitch n).c.refill k)) s

/-- The 1 µs update of every RENTED pitch (R68, R99). -/
def refillAll (s : State) (l : List Nat) : State := l.foldl (fun t n => t.refillPitch n) s

/-- 1 µs passes for INTAKE: tokens refill, meter costs leave the 10 µs window (R651), and a change to a
lower power state that waits for the meters is tried again (R478). -/
def execTokenRefill (s : State) : Host.Outcome State Fault Refusal :=
  .next <|
    let s := refillAll s ((s.pit.table.filter fun e => decide (e.2.state = 1)).map Prod.fst)
    let s := s.mPit fun x => { x with meters := x.meters.filter fun m => decide (s.mono < m.at_ + 1000) }
    if s.rd R.POWER.PS_CUR_TRANSITION = 1 then s.followPower else s

end Sys2Proof.Machine
end

