-- ==== Sys2Proof/Machine/Intake.lean ====
section
/-! DEFINITION. The intake of I/O commands: doorbells, staging, the two-level arbitration, admission under a pitch or
the meters, acceptance, and what an accepted command starts (R49 to R58, R64 to R70, R131, R139, R145 to R157, R165,
R168 to R170, R173, R196, R651). -/

namespace Sys2Proof.Machine

open Sys2Proof

/-! ### Doorbells and staging (R145, R146) -/

/-- The kind of a command by its queue and opcode (R138, R139). -/
def kindOf (sqid opcode : Nat) : Kind :=
  if sqid = 0 then .admin
  else match opcode with
    | 0x00 => .flush
    | 0x01 => .write
    | 0x02 => .read
    | 0x04 => .writeUnc
    | 0x05 => .compare
    | 0x08 => .writeZeroes
    | 0x09 => .dsm
    | 0x0C => .verify
    | _ => .badIo

/-- The page INDEX of FRONT. -/
def frontPage : Nat := 0x10

/-- A request is received at a port: its armed points of FRONT fire, and it is served as usual (R571). -/
def State.hostRequest (s : State) : State :=
  [0, 3, 4].foldl (fun (t : State) k => (t.fire frontPage k fun _ _ => true).2) s

/-- Whether a controller takes commands: enabled, in no reset, no shutdown notified (R156, R158). -/
def Port.takes (p : Port) : Bool := p.en && !p.resetting && decide (p.shn = 0)

/-- SQ_DOORBELL (R145): the host's tail. One that names no queue or no entry, or reaches a controller that ignores
doorbells, changes nothing. A doorbell of an I/O queue leaves a non-operational state (R481). -/
def execSqDoorbell (port sqid tail : Nat) (s : State) : Host.Outcome State Fault Refusal :=
  .next <|
    let s := s.hostRequest
    match s.sqOf port sqid with
    | none => s
    | some q =>
      if tail < q.size ∧ (s.port port).en = true ∧ (s.port port).resetting = false ∧ s.domOn 1 = true then
        let s := s.mSq port sqid fun q => { q with tail := tail }
        if sqid = 0 then s else s.nonopExit
      else s

/-- Whether a context is free for a queue's next command, and whether it comes from the reserve of queues bound to
URGENT and STREAM pitches (R146). -/
def State.contextFor (s : State) (port sqid : Nat) : Option Bool :=
  let fast := match s.boundPitch port sqid with
    | some p => decide ((s.pitch p).c.cls ≤ 1)
    | none => false
  let rsv := (s.host.cmds.filter fun c => c.reserve).length
  if fast && decide (rsv < 16384) then some true
  else if s.rd R.INTAKE.CTX_USE_ALL - rsv < 49152 then some false
  else none

/-- The entries of a staging ring (R145). -/
def ringSize (sqid : Nat) : Nat := if sqid = 0 then 4 else 8

/-- SQE_ARRIVAL (R145): the next entry between the fetched place and the tail is written into the staging ring and
holds a context, where the ring has room and a context is free. -/
def execSqeArrival (port sqid cid opcode flags nsid : Nat) (dw : List Nat) (ranges : List (Nat × Nat)) (payload : List Nat)
    (s : State) : Host.Outcome State Fault Refusal :=
  .next <|
    match s.sqOf port sqid, s.contextFor port sqid with
    | some q, some rsv =>
      if q.fetch ≠ q.tail ∧ q.ring.length < ringSize sqid ∧ (s.port port).takes = true ∧ (s.dst = 4 ∨ s.dst = 5) then
        let uid := s.host.nextUid
        let k := kindOf sqid opcode
        let lbas := decide (k = .read) || decide (k = .write) || decide (k = .writeUnc) || decide (k = .compare)
          || decide (k = .writeZeroes) || decide (k = .verify)
        let c : Cmd :=
          { uid := uid, port := port, sqid := sqid, cid := cid % 0x10000, kind := k, opcode := opcode % 256, nsid := nsid % 2 ^ 32
            slba := if lbas then dw.getD 0 0 % 2 ^ 32 + dw.getD 1 0 % 2 ^ 32 * 2 ^ 32 else 0
            nlb := if lbas then dw.getD 2 0 % 0x10000 + 1 else 0
            flags := flags, dw := dw.map fun w => w % 2 ^ 32, ranges := ranges, payload := payload
            arrival := s.mono, order := s.host.nextOrder, reserve := rsv }
        let s := s.mHost fun h => { h with cmds := h.cmds ++ [c], nextUid := uid + 1, nextOrder := h.nextOrder + 1 }
        (s.mSq port sqid fun q => { q with ring := q.ring ++ [uid], fetch := (q.fetch + 1) % q.size }).ctxUse
      else s
    | _, _ => s

/-! ### What a command asks for (R52, R55 to R58, R65, R66, R68 to R70, R651) -/

/-- The data length of a command (R651). -/
def Cmd.len (c : Cmd) (n : Ns) : Nat :=
  match c.kind with
  | .read => c.bytes n
  | .write => c.bytes n
  | .compare => c.bytes n
  | .verify => c.bytes n
  | _ => 0

/-- Whether a range begins and ends on multiples of a size. -/
def Cmd.aligned (c : Cmd) (n : Ns) (size : Nat) : Bool :=
  decide (c.slba * n.block % size = 0) && decide ((c.slba + c.nlb) * n.block % size = 0)

/-- A write whose first or last block does not fall on a 4 KiB boundary, or that covers an IU of more than 4 KiB in
part (R168, R173). -/
def Cmd.partialWrite (c : Cmd) (n : Ns) : Bool :=
  (decide (c.kind = .write) && !c.aligned n 4096)
    || ((decide (c.kind = .write) || decide (c.kind = .writeZeroes)) && decide (n.iu ≠ 0) && !c.aligned n n.iuBytes)

/-- Ceiling of a quotient. -/
def upDiv (a b : Nat) : Nat := (a + b - 1) / b

/-- The tax of a write of `bytes` at amplification `t` hundredths, in 2^-16 ns, rounded up (R68, R69). -/
def writeTax (bytes t : Nat) : Nat := upDiv (bytes * (max t 100 - 100) * 645161 * 65536) 100000000

/-- The fill factor F in hundredths, by the fill level the epoch latched (R69). -/
def State.fillFactor (s : State) : Nat :=
  let f := s.rd R.INTAKE.FILL_LEVEL_F
  if f ≤ 6000 then 100 else if f ≤ 8000 then 155 else if f ≤ 9000 then 210 else if f ≤ 9500 then 250 else 320

/-- The media codewords a read needs. -/
def State.mediaOf (s : State) (c : Cmd) : List Nat :=
  let n := s.ns c.nsid
  ((n.iusOf c.slba c.nlb).map fun iu => (s.sources c.nsid iu (n.unitMask c.slba c.nlb iu)).filterMap fun e =>
    match e.2 with
    | .media a u => some (s.cwPlus a u)
    | _ => none).flatten

/-- The page of a media address. -/
def aPage (a : Nat) : Nat := aBlockKey a * 2048 + bits a 2 11

/-- The senses among media addresses. -/
def senseCount (l : List Nat) : Nat := (l.map aPage).eraseDups.length

/-- Whether a read's layout meets the limit of a class (R55, R281). -/
def State.layoutFits (s : State) (cls : Nat) (l : List Nat) : Bool :=
  let dies := (l.map aDieKey).eraseDups
  let chans := (l.map aCh).eraseDups
  let onDie := fun d => l.filter fun a => decide (aDieKey a = d)
  let onCh := fun ch => l.filter fun a => decide (aCh a = ch)
  match cls with
  | 0 => decide (l.length ≤ 1)
  | 1 => (dies.all fun d => decide (senseCount (onDie d) ≤ 1)) && chans.all fun ch =>
      let k := if s.reduced ch then 1 else 2
      decide (senseCount (onCh ch) ≤ 2 * k) && decide ((onCh ch).length ≤ 8 * k)
  | 2 => (dies.all fun d => decide (senseCount (onDie d) ≤ 2)) && chans.all fun ch =>
      let k := if s.reduced ch then 1 else 2
      decide (senseCount (onCh ch) ≤ 8 * k) && decide ((onCh ch).length ≤ 32 * k)
  | _ => true

/-- The first class at or below one whose limit a layout meets (R57). -/
def State.fitClass (s : State) (cls : Nat) (l : List Nat) : Nat :=
  (firstFrom (fun k => s.layoutFits k l) (4 - cls) cls).getD 3

/-- Whether a command may be metered under a pitch of direction `dir`: a read or a write under one of its own
direction, any other command under either (R60). -/
def Cmd.fitsDir (c : Cmd) (dir : Nat) : Bool :=
  match c.kind with
  | .read => decide (dir = 0)
  | .write => decide (dir = 1)
  | _ => true

/-- Whether a pitch's class can carry a read's layout: IDLE has no limit, and a layout that meets no other limit of
R55 goes unpitched (R65). -/
def State.layoutCarried (s : State) (c : Cmd) (cls : Nat) : Bool :=
  decide (c.kind ≠ .read) || decide (cls = 3) || decide (s.fitClass cls ((s.mediaOf c).filter fun a => s.addrOn a) < 3)

/-- The RENTED pitch under which a command is metered, where its queue is bound to one that its size, direction, form
and layout fit (R52, R60, R65, R169, R173). -/
def State.contractPitch (s : State) (c : Cmd) : Option Nat :=
  let n := s.ns c.nsid
  match s.boundPitch c.port c.sqid with
  | some p =>
    let k := (s.pitch p).c
    if c.len n ≤ k.maxSize * 512 ∧ c.partialWrite n = false ∧ c.fitsDir k.dir = true ∧ s.layoutCarried c k.cls = true then some p
    else none
  | none => none

/-- The unpitched class of a queue (R66). -/
def State.unpitchedClass (s : State) (c : Cmd) : Nat := 2 + s.rd R.INTAKE.QB_CFG_UNPITCHED_CLASS 0 (qb c.port c.sqid)

/-- How a command would be admitted (R70): its pitch or none, its class, whether that is a demotion, operations, units
and tax it takes in 2^-16, the meters it loads with their costs, and the media codewords it needs slots for. -/
structure Admission where
  pitch : Option Nat
  cls : Nat
  demoted : Bool
  ops : Nat
  units : Nat
  tax : Nat
  costs : List (Nat × Nat)
  reads : List Nat

/-- The bytes a Write Zeroes writes with zeros: the units of the IUs it covers in part (R170). -/
def State.zeroBytesOf (s : State) (c : Cmd) : Nat :=
  let n := s.ns c.nsid
  ((s.crateIus c).map fun iu => popcount 16 (n.unitMask c.slba c.nlb iu)).sum * 4096

/-- The units a partial write merges that lie on media. -/
def State.mergeSenses (s : State) (c : Cmd) : Nat :=
  let n := s.ns c.nsid
  let per := iuUnits n.iu
  let u := n.unitRange c.slba c.nlb
  let need := ((if c.slba * n.block % 4096 = 0 then [] else [u.1])
    ++ (if (c.slba + c.nlb) * n.block % 4096 = 0 then [] else [u.2])).eraseDups
  (need.filter fun k => match s.unitSrc c.nsid (k / per) (k % per) with
    | .media _ _ => true
    | _ => false).length

/-- The meters a command loads, as CAP_SEL numbers them, with their costs: CHANNEL in 1e-11 channel-seconds, links in
bytes (R651). -/
def State.meterCosts (s : State) (c : Cmd) : List (Nat × Nat) :=
  let b := c.len (s.ns c.nsid)
  let rd := 72000 * sensesOf (b / 512) + b * 3125 / 100
  let wrt := fun x => x * (96774200 + (s.fillFactor - 100) * 645161) / 1000000
  match c.kind with
  | .read => [(0, rd), (1, b)]
  | .compare => [(0, rd), (2, b)]
  | .verify => [(0, rd)]
  | .write => [(0, wrt b + 72000 * s.mergeSenses c), (2, b)]
  | .writeZeroes => [(0, wrt (s.zeroBytesOf c))]
  | _ => []

/-- The class of a command whose pitch or queue gives `base`: a read by its layout, BULK where it is rebuilt from
parity; a Flush BULK under a pitch; the rest of R56 IDLE (R56 to R58). -/
def State.classOf (s : State) (c : Cmd) (base : Nat) (pitched : Bool) (l : List Nat) : Nat :=
  match c.kind with
  | .read => if s.mode 6 && l.any (fun a => !s.addrOn a) then 2 else s.fitClass base (l.filter fun a => s.addrOn a)
  | .write => base
  | .flush => if pitched then 2 else base
  | _ => 3

/-- How a command would be admitted now (R52, R65, R66, R70). While RECORD is clear no pitch and no meter counts. -/
def State.admission (s : State) (c : Cmd) : Admission :=
  let n := s.ns c.nsid
  let reads := match c.kind with
    | .read => s.mediaOf c
    | .compare => s.mediaOf c
    | .verify => s.mediaOf c
    | _ => []
  let data := decide (c.kind = .read) || decide (c.kind = .write)
  let p := if s.mode 0 then s.contractPitch c else none
  let base := match p with
    | some p => (s.pitch p).c.cls
    | none => s.unpitchedClass c
  let cls := s.classOf c base p.isSome reads
  let t := match p with
    | some p => (s.pitch p).meas
    | none => s.fillFactor
  { pitch := p, cls := cls
    demoted := decide (c.kind = .read) && (decide (cls ≠ base) || (s.mode 6 && reads.any fun a => !s.addrOn a))
    ops := 65536, units := if data then upDiv (c.len n) 4096 * 65536 else 0
    tax := if c.kind = .write then writeTax (c.len n) t else 0
    costs := if p.isSome || !s.mode 0 then [] else s.meterCosts c
    reads := reads.filter fun a => s.addrOn a }

/-- Whether the meters have room for a command (R66, R254, R485, R651): none above the warning temperature, and none
for writes at the write floor. -/
def State.roomFor (s : State) (c : Cmd) (a : Admission) : Bool :=
  let t := s.testState none
  !(bit s.pwr.above 0) && !(s.wp.floorHeld && (decide (c.kind = .write) || decide (c.kind = .writeZeroes)))
    && a.costs.all fun x => s.roomIn t x.1 c.port

/-- Whether tokens or meters cover a command (R52, R66, R70). -/
def State.mayPay (s : State) (c : Cmd) (a : Admission) : Bool :=
  if s.mode 0 = false then true
  else match a.pitch with
    | some p =>
      let x := s.pitch p
      decide (a.ops ≤ x.ops) && decide (a.units ≤ x.units) && decide (a.tax ≤ x.tax)
    | none => s.roomFor c a

/-- Whether accepting a write would take the HOST and PARITY crates past BELL_CAP (R372). -/
def State.bellFull (s : State) (c : Cmd) : Bool :=
  let held := s.cr.desc.map fun e => if e.2.state = 1 ∧ (e.2.kind = 0 ∨ e.2.kind = 2) then poolSize (cratePool e.1) else 0
  decide (s.rd R.BELL.BELL_CAP_MIB * 1048576 < held.sum + c.nlb * (s.ns c.nsid).block)

/-- Whether a command waits for SLOT (R51): a read for its die and channel slots, all or none (R76); a write that
R254, R371, R372 or a late lap (R386) holds; an act a full journal holds (R376). While RECORD is clear reads wait for no slot before
acceptance (R131). -/
def State.slotWait (s : State) (c : Cmd) (a : Admission) : Bool :=
  let w := decide (c.kind = .write) || decide (c.kind = .writeZeroes)
  ((w || decide (c.kind = .writeUnc)) && decide (s.rd R.BELL.HU_STAT_WRITES_HELD = 1)) || (w && (s.wp.halfHeld || s.bell.lapLate || s.bellFull c))
    || ((decide (c.kind = .writeZeroes) || decide (c.kind = .writeUnc) || decide (c.kind = .dsm)) && s.journalFull)
    || (s.mode 0 && a.reads.any fun x => !s.slotFree a.cls (.cmd c.uid) x)

/-- The wait of R51 that keeps a command from being accepted, if any: 1 CONTRACT, 2 LOCK, 3 SLOT, 4 ACTIVATION,
5 POWER. -/
def State.waitOf (s : State) (c : Cmd) (a : Admission) : Option Nat :=
  if s.mayPay c a = false then some 1
  else if s.lockAsked c.uid ∧ s.lockHeld c.uid = false then some 2
  else if s.slotWait c a then some 3
  else if s.dst = 5 then some 4
  else if 3 ≤ s.eff ∨ s.pwr.exiting then some 5
  else none

/-! ### Commands turned away (R142, R144, R155, R165, R131, R133) -/

/-- Whether a namespace is attached to a controller. -/
def State.attachedTo (s : State) (nsid port : Nat) : Bool := decide ((s.ns nsid).st = 2) && bit (s.ns nsid).attached port

/-- Whether a Dataset Management deallocates. -/
def Cmd.deallocates (c : Cmd) : Bool := decide (c.kind = .dsm) && bit (c.cdw 11) 2

/-- The namespace whose deferred errors a command reports: its own, for a Flush of all the lowest pending. -/
def State.pendingNs (s : State) (c : Cmd) : Option Nat :=
  let due := fun n => decide (s.rd R.INTAKE.DEFER_FLAG_PENDING 0 n = 1)
  if c.nsid = 0xFFFFFFFF then firstFrom (fun n => s.attachedTo n c.port && due n) 256 1
  else if due c.nsid then some c.nsid else none

/-- The status with which an I/O command completes unaccepted, with DNR, but for a deferred report (R144, R155). -/
def State.turnedAway (s : State) (c : Cmd) : Option (Nat × Bool) :=
  let n := s.ns c.nsid
  let all := decide (c.kind = .flush) && decide (c.nsid = 0xFFFFFFFF)
  let writes := decide (c.kind = .write) || decide (c.kind = .writeZeroes) || decide (c.kind = .writeUnc) || c.deallocates
  let tooFar := fun (r : Nat × Nat) => decide (n.nsze < r.1 + r.2)
  if c.kind = .badIo then some (0x01, true)
  else if all = false ∧ s.attachedTo c.nsid c.port = false then some (0x0B, true)
  else if n.formatting then some (0x84, false)
  else if c.kind ≠ .flush ∧ (s.pendingNs c).isSome = true then none
  else if s.mode 3 then some (0x1D, false)
  else if s.tal.realSeen || s.pit.stopped || s.lc.stopped || s.por.stopped then some (0x06, true)
  else if writes && s.mode 2 then some (0x20, true)
  else if c.kind = .writeUnc ∧ c.aligned n n.iuBytes = false then some (0x02, true)
  else if c.kind ≠ .verify ∧ 0x200000 < c.len n then some (0x02, true)
  else if tooFar (c.slba, c.nlb) || (decide (c.kind = .dsm) && (c.ranges.take 256).any tooFar) then some (0x80, true)
  else none

/-! ### Range-lock requests (R150, R151) -/

/-- The IU ranges a command asks to lock, and whether exclusively. -/
def State.locksOf (s : State) (c : Cmd) : List (Nat × Nat × Bool) :=
  let n := s.ns c.nsid
  let one := fun (x : Bool) => let r := n.iuRange c.slba c.nlb
    [(r.1, r.2, x)]
  match c.kind with
  | .read => one false
  | .compare => one false
  | .verify => one false
  | .write => one true
  | .writeUnc => one true
  | .writeZeroes => one true
  | .dsm => ((c.ranges.take 256).filter fun r => decide (0 < r.2)).map fun r =>
      let k := n.iuRange r.1 r.2
      (k.1, k.2, true)
  | _ => []

/-- A command makes its requests, once. -/
def State.askLocks (s : State) (c : Cmd) : State :=
  if s.lockAsked c.uid then s
  else (s.locksOf c).foldl (fun (t : State) r =>
    t.requestRow { row := 0, uid := c.uid, nsid := c.nsid, first := r.1, last := r.2.1, excl := r.2.2, held := false }) s

/-- RLT_BLOCK_SHIFT (R196): the rows above the free place move down one, the new row takes the place they vacate, and
the requests that waited for the shift are made. -/
def execRltBlockShift (s : State) : Host.Outcome State Fault Refusal :=
  .next <|
    match s.host.shifting with
    | none => s
    | some (f, top, r) =>
      let down := fun (x : RltRow) => if f < x.row ∧ x.row ≤ top then { x with row := x.row - 1 } else x
      let w := s.host.rltWait
      let s := s.mHost fun h => { h with rlt := h.rlt.map down, shifting := none, rltWait := [] }
      seatWaiting ((s.wr R.LEDGER.RLT_SHIFT_ACTIVE 0).putRow { r with row := top }) w

/-! ### Waiting and acceptance (R49, R51, R55, R70, R97, R99) -/

/-- A command begins to wait for a reason, or goes on waiting for it. -/
def State.beginWait (s : State) (c : Cmd) (why : Nat) : State :=
  let same := decide (c.stage = .waiting why)
  let s := s.mCmd c.uid fun c => { c with
    stage := .waiting why, waitFrom := if same then c.waitFrom else s.mono
    waits := if c.waits.contains why then c.waits else c.waits ++ [why] }
  match s.boundPitch c.port c.sqid with
  | some p =>
    if c.waits.contains why then s
    else s.pitchLog p fun l => { l with
      outOfContract := l.outOfContract + (if why = 1 then 1 else 0)
      lockWaits := l.lockWaits + (if why = 2 then 1 else 0)
      slotWaits := l.slotWaits + (if why = 3 then 1 else 0)
      actPowerWaits := l.actPowerWaits + (if 4 ≤ why ∧ c.waits.all (fun w => decide (w < 4)) then 1 else 0) }
  | none => s

/-- The bound of an accepted command in ticks (R55, R60): its class's, or its pitch's own where that is longer. -/
def State.boundOf (s : State) (c : Cmd) (a : Admission) : Nat :=
  let own := match a.pitch with
    | some p => (s.pitch p).c.boundUs
    | none => 0
  max (classBound a.cls (decide (c.kind = .write))) own * 100

/-- The Spend move of a pitched command, or the loads of an unpitched one's meters (R70, R99, R651). -/
def State.pay (s : State) (c : Cmd) (a : Admission) : State :=
  match a.pitch with
  | some p =>
    let s := s.spend p a.ops a.units a.tax
    let us := (s.mono - c.arrival) / 100
    let bytes := if c.kind = .write then c.len (s.ns c.nsid) else 0
    let s := s.pitchLog p fun l => { l with demoted := l.demoted + b2n a.demoted, maxPreWait := max l.maxPreWait us }
    s.mPit fun x => { x with table := x.table.set {} p { x.table.get {} p with hostBytes := (x.table.get {} p).hostBytes + bytes } }
  | none => s.mPit fun x => { x with meters := x.meters ++ (a.costs.map fun k =>
      { at_ := s.mono, res := k.1, port := c.port, cost := k.2 }) }

/-- The admission is committed (R49): the command is accepted, with its class and deadline; the sectors of a Write
move by Accept (R99), and its tax is earned (R349). While RECORD is clear no command carries a deadline (R54). -/
def State.accept (s : State) (c : Cmd) (a : Admission) : State :=
  let s := s.pay c a
  let n := if c.kind = .write then c.len (s.ns c.nsid) / 512 else 0
  let due := if s.mode 0 then some (s.mono + s.boundOf c a) else none
  let s := s.mCmd c.uid fun c => { c with
    stage := .accepted, pitch := a.pitch, cls := a.cls, acceptedAt := s.mono, deadline := due, sectors := n }
  let s := (s.unstage c).traceCmd 0 { c with pitch := a.pitch, cls := a.cls }
  if n = 0 then s else ((s.move 181 n).send 183 n).earnCredit a.tax

/-! ### What an accepted command starts (R154, R168, R170, R181, R227) -/

/-- The HOST crates of a write are asked for, one per IU (R227, R262). -/
def State.askHostCrates (s : State) (c : Cmd) (a : Admission) (k : Nat) : State :=
  let fast := match a.pitch with
    | some p => decide ((s.pitch p).c.cls ≤ 1) && decide ((s.pitch p).c.dir = 1)
    | none => false
  let r : CrateReq := { cls := if fast then 3 else 4, count := k, pool := poolOfUnits (iuUnits (s.ns c.nsid).iu)
                        kind := 0, owner := 0, otag := c.uid, who := c.uid }
  let x := s.askCrates r
  match x.1 with
  | some l => x.2.deliver r l
  | none => x.2

/-- A write whose crates are all granted goes on (R168, R170, R227): a Write is fetched and merged; a Write Zeroes has
its units filled and merged. -/
def State.startWrite (s : State) (c : Cmd) : State :=
  let n := s.ns c.nsid
  let s := s.mCmd c.uid fun c => { c with started := true, fetchAt := s.mono }
  if c.kind = .write then
    let s := s.mPort c.port fun p => { p with hostReads := p.hostReads ++ [c.uid] }
    if c.aligned n 4096 then s else s.startMerge c.uid
  else
    let fills := ((s.crateIus c).zip c.crates).map fun e =>
      ((List.range 16).filter fun k => bit (n.unitMask c.slba c.nlb e.1) k).map fun k => (e.2, k)
    let s := s.mPor fun p => { p with fills := p.fills ++ fills.flatten }
    (if c.aligned n 4096 then s else s.startMerge c.uid).zeroesStep c.uid

/-- The accepted writes whose crates have come and which have not started. -/
def State.startGranted (s : State) : State :=
  (s.host.cmds.filter fun c => decide (c.stage = .accepted) && !c.started
    && (decide (c.kind = .write) || decide (c.kind = .writeZeroes))
    && decide (c.crates.length = (s.crateIus c).length)).foldl (fun (t : State) c => t.startWrite c) s

/-- What a Flush covers (R154): the rows in the crate store of its namespaces that hold accepted sectors, and the
accepted writes not yet inserted. -/
def State.coverOf (s : State) (c : Cmd) : List (Nat × Nat × Nat) :=
  let on := fun n => decide (c.nsid = 0xFFFFFFFF) || decide (n = c.nsid)
  ((s.led.cix.filter fun r => on r.nsid && decide (0 < r.acc)).map fun r => (r.nsid, r.iu, r.acc))
    ++ ((s.host.cmds.filter fun d => on d.nsid && decide (d.stage = .accepted)
      && (decide (d.kind = .write) || decide (d.kind = .writeZeroes))).map fun d => (0, d.uid, 1))

/-- Whether a covered item has still to move. -/
def State.coverOpen (s : State) (e : Nat × Nat × Nat) : Bool := decide (e.1 ≠ 0) || (s.cmdOf e.2.1).isSome

/-- A Flush ends once everything it covers has moved (R154, R155): with Deferred Write Fault where a covered sector
moved by Defer and its record has not been reported. -/
def State.flushStep (s : State) (uid : Nat) : State :=
  match s.cmdOf uid with
  | none => s
  | some c =>
    if c.kind ≠ .flush ∨ c.stage ≠ .accepted ∨ c.covers.any (fun e => s.coverOpen e) then s
    else match c.coverDefer with
      | some n =>
        if s.rd R.INTAKE.DEFER_FLAG_PENDING 0 n = 1 then
          let r := s.reportDeferred c n
          r.2.complete c 2 0xC0 false r.1
        else s.complete c 0 0
      | none => s.complete c 0 0

/-- The rows a Flush covers go ahead of the others in their take queues (R154). -/
def State.flushFirst (s : State) (l : List (Nat × Nat × Nat)) : State :=
  let mine := fun n => match s.cixAt n with
    | some r => l.any fun e => decide (e.1 = r.nsid) && decide (e.2.1 = r.iu)
    | none => false
  s.mLed fun x => { x with takeq := x.takeq.map fun e => (e.1, (e.2.filter mine) ++ e.2.filter fun n => !mine n) }

/-- The IUs wholly inside a block range. -/
def Ns.wholeIus (n : Ns) (slba nlb : Nat) : List Nat := (n.iusOf slba nlb).filter fun k => n.whole slba nlb k

/-- The write prefetch of an accepted command (R217): the lines its updates will touch. -/
def State.writePrefetch (s : State) (c : Cmd) : State :=
  let n := s.ns c.nsid
  if s.rd R.LCACHE.PF_CFG_WRITE = 0 then s
  else match c.kind with
    | .write | .writeZeroes | .writeUnc => s.prefetchSpan c.nsid (n.iusOf c.slba c.nlb)
    | .dsm => if c.deallocates then ((c.ranges.take 256).filter fun r => decide (0 < r.2)).foldl
        (fun (t : State) r => t.prefetchSpan c.nsid (n.wholeIus r.1 r.2)) s else s
    | _ => s

/-- An accepted command starts. The reads of one whose slots were granted hold them from acceptance (R76). -/
def State.launch (s : State) (c : Cmd) (a : Admission) : State :=
  let n := s.ns c.nsid
  let read := fun (s : State) =>
    let t := s.startRead c.uid
    if s.mode 0 then
      t.mSt fun x => { x with reads := x.reads.map fun r => if r.src = .cmd c.uid ∧ r.st = 0 then { r with st := 1 } else r }
    else t
  match c.kind with
  | .read => read s
  | .compare => read s
  | .verify => read s
  | .write => (s.askHostCrates c a (n.iusOf c.slba c.nlb).length).startGranted
  | .writeZeroes =>
    if (s.crateIus c).isEmpty then
      (s.mCmd c.uid fun c => { c with started := true }).zeroesStep c.uid
    else (s.askHostCrates c a (s.crateIus c).length).startGranted
  | .flush =>
    let l := s.coverOf c
    let due := s.pendingNs c
    let s := (s.flushFirst l).mCmd c.uid fun c => { c with covers := l, coverDefer := due }
    (([0, 1, 2, 3] : List Nat).foldl (fun t g => t.buildHost g) s).flushStep c.uid
  | .writeUnc => ((n.iusOf c.slba c.nlb).foldl (fun (t : State) k => t.markUnc c.nsid k) s).complete { c with stage := .accepted } 0 0
  | .dsm =>
    let l := if c.deallocates then ((c.ranges.take 256).filter fun r => decide (0 < r.2)).map fun r => n.wholeIus r.1 r.2 else []
    match s.cmdOf c.uid with
    | some d => (l.flatten.eraseDups.foldl (fun (t : State) k => t.deallocIu c.nsid k) s).complete d 0 0
    | none => s
  | _ => s

/-! ### One evaluation (R70, R147, R160, R165) -/

/-- A staged or waiting I/O command is evaluated: turned away with its status, made to report a deferred error (a
Flush reports when it ends, R155), left waiting, or accepted. A write that needs its namespace's missing key ends with Internal Error (R410). -/
def State.evalIo (s : State) (c : Cmd) : State :=
  match s.turnedAway c with
  | some (sc, dnr) => s.complete c 0 sc dnr
  | none =>
    match (if c.kind = .flush then none else s.pendingNs c) with
    | some n =>
      let r := s.reportDeferred c n
      r.2.complete c 2 0xC0 false r.1
    | none =>
      if (c.kind = .write ∨ c.kind = .writeZeroes) ∧ s.keyNo c.nsid = 0 then (s.slotBad (c.nsid - 1)).complete c 0 0x06 true
      else
        let a := s.admission c
        if s.mayPay c a = false then s.beginWait c 1
        else
          let kept := match a.pitch with
            | some p => decide ((s.pitch p).c.cls ≤ 1)
            | none => false
          let s := (s.mCmd c.uid fun c => { c with keptReq := kept }).askLocks c
          match s.waitOf c a with
          | some w => s.beginWait c w
          | none =>
            let s := s.accept c a
            match s.cmdOf c.uid with
            | some d => (s.writePrefetch d).launch d a
            | none => s

/-- Whether a waiting command could now go on. -/
def State.canGo (s : State) (c : Cmd) : Bool :=
  match c.stage with
  | .staged => true
  | .waiting w => decide (s.waitOf c (s.admission c) ≠ some w)
  | .accepted => false

/-- The command of a staging ring that would be evaluated next (R148): one that waits for CONTRACT in a HOLD queue
stops those behind it; others that wait are passed over until they can go on. -/
def State.nextIn (s : State) (q : Sq) : List Nat → Option Cmd
  | [] => none
  | u :: t =>
    match s.cmdOf u with
    | none => s.nextIn q t
    | some c =>
      if c.stage = .accepted then s.nextIn q t
      else if c.stage = .waiting 1 ∧ s.rd R.INTAKE.QB_CFG_MODE 0 (qb q.port q.id) = 0 then some c
      else if s.canGo c then some c
      else s.nextIn q t

/-- The command a queue offers, while its controller takes commands. -/
def State.offer (s : State) (q : Sq) : Option Cmd := if (s.port q.port).takes then s.nextIn q q.ring else none

/-- The class in which a queue stands at level one (R147): bound to a RENTED pitch whose tokens cover its command. -/
def State.levelOne (s : State) (c : Cmd) : Option Nat :=
  if s.mode 0 = false then none
  else match s.contractPitch c with
    | some p => if s.mayPay c (s.admission c) then some (s.pitch p).c.cls else none
    | none => none

/-- The next in round robin after a queue's number. -/
def nextAfter (last : Nat) (l : List (Nat × Cmd)) : Option (Nat × Cmd) :=
  match pickMin (fun e => e.1) (l.filter fun e => decide (last < e.1)) with
  | some e => some e
  | none => pickMin (fun e => e.1) l

/-- The weighted priority of a queue: 0 High (and Urgent), 1 Medium, 2 Low (R147). -/
def State.weightClass (s : State) (key : Nat) : Nat :=
  match s.sqOf (key / 4096) (key % 4096) with
  | some q => q.prio - 1
  | none => 2

/-- The weight of a priority by the Arbitration feature, and its burst. -/
def State.weight (s : State) (port w : Nat) : Nat := bits (s.feature port 1) (24 - 8 * w) 8 + 1

/-- Level two (R147): round robin, or by weights with the burst of the Arbitration feature. Places 10 to 12 of the
arbitration hold what is left of each weight, 9 what is left of the burst, 8 the queue served last. -/
def State.levelTwo (s : State) (l : List (Nat × Cmd)) : Option (Nat × Cmd) × State :=
  let last := s.host.rr.get 0 8
  let put := fun (e : Nat × Cmd) (s : State) => s.mHost fun h => { h with rr := h.rr.set 0 8 e.1 }
  match l with
  | [] => (none, s)
  | x :: _ =>
    let port := x.1 / 4096
    if (s.port port).ams = 0 then
      match nextAfter last l with
      | some e => (some e, put e s)
      | none => (none, s)
    else
      match (if s.host.rr.get 0 9 = 0 then none else l.find? fun e => decide (e.1 = last)) with
      | some e => (some e, s.mHost fun h => { h with rr := h.rr.set 0 9 (h.rr.get 0 9 - 1) })
      | none =>
        let has := fun w => l.filter fun e => decide (s.weightClass e.1 = w)
        let spent := [0, 1, 2].all fun w => (has w).isEmpty || decide (s.host.rr.get 0 (10 + w) = 0)
        let s := if spent then s.mHost fun h => { h with
            rr := [0, 1, 2].foldl (fun (t : Tbl Nat) w => t.set 0 (10 + w) (s.weight port w)) h.rr } else s
        match [0, 1, 2].find? fun w => !(has w).isEmpty && decide (0 < s.host.rr.get 0 (10 + w)) with
        | none => (none, s)
        | some w =>
          match nextAfter last (has w) with
          | none => (none, s)
          | some e =>
            let burst := bits (s.feature port 1) 0 3
            let n := if burst = 7 then 65535 else 2 ^ burst - 1
            (some e, (put e s).mHost fun h => { h with rr := (h.rr.set 0 9 n).set 0 (10 + w) (h.rr.get 0 (10 + w) - 1) })

/-- The I/O command of an evaluation, by the two levels of R147. -/
def State.arbitrate (s : State) : Option Cmd × State :=
  let offers := (s.host.sqs.filter fun q => decide (0 < q.id)).filterMap fun q =>
    (s.offer q).map fun c => (qb q.port q.id, c)
  let one := fun k => offers.filter fun e => decide (s.levelOne e.2 = some k)
  let two := offers.filter fun e => decide (s.levelOne e.2 = none)
  let top := [0, 1, 2, 3].find? fun k => !(one k).isEmpty
  let share := s.rd R.INTAKE.ARB_CFG_LEVEL2_SHARE
  match top with
  | some k =>
    if two.isEmpty = false ∧ share ≤ s.host.sinceL2 + 1 then
      let r := s.levelTwo two
      (r.1.map fun e => e.2, r.2.mHost fun h => { h with sinceL2 := 0 })
    else match nextAfter (s.host.rr.get 0 k) (one k) with
      | some e => (some e.2, s.mHost fun h => { h with rr := h.rr.set 0 k e.1, sinceL2 := if two.isEmpty then 0 else h.sinceL2 + 1 })
      | none => (none, s)
  | none =>
    let r := s.levelTwo two
    (r.1.map fun e => e.2, r.2.mHost fun h => { h with sinceL2 := 0 })

/-- The named staged command is evaluated, where it is the one its queue offers and of the kind named. -/
def State.serveIo (s : State) (port sqid cid : Nat) (k : Kind) : State :=
  match s.sqOf port sqid with
  | none => s
  | some q =>
    match s.offer q with
    | some c => if c.cid = cid ∧ c.kind = k ∧ 0 < sqid then s.evalIo c else s
    | none => s

/-- An NVMe Read is evaluated (R30, R70). -/
def execRead (port sqid cid : Nat) (s : State) : Host.Outcome State Fault Refusal := .next (s.serveIo port sqid cid .read)

/-- An NVMe Write is evaluated (R70, R227). -/
def execWrite (port sqid cid : Nat) (s : State) : Host.Outcome State Fault Refusal := .next (s.serveIo port sqid cid .write)

/-- An NVMe Flush is evaluated (R56, R154). -/
def execFlush (port sqid cid : Nat) (s : State) : Host.Outcome State Fault Refusal := .next (s.serveIo port sqid cid .flush)

/-- FLUSH_COMPLETE (R154, R155). -/
def execFlushComplete (port sqid cid : Nat) (s : State) : Host.Outcome State Fault Refusal :=
  .next <|
    match s.cmdOn port sqid cid with
    | some c => s.flushStep c.uid
    | none => s

/-- An NVMe Write Uncorrectable is evaluated (R139, R181). -/
def execWriteUncorrectable (port sqid cid : Nat) (s : State) : Host.Outcome State Fault Refusal :=
  .next (s.serveIo port sqid cid .writeUnc)

/-- An NVMe Compare is evaluated (R56, R139). -/
def execCompare (port sqid cid : Nat) (s : State) : Host.Outcome State Fault Refusal := .next (s.serveIo port sqid cid .compare)

/-- An NVMe Write Zeroes is evaluated (R56, R170). -/
def execWriteZeroes (port sqid cid : Nat) (s : State) : Host.Outcome State Fault Refusal :=
  .next (s.serveIo port sqid cid .writeZeroes)

/-- An NVMe Dataset Management is evaluated (R56, R170). -/
def execDatasetManagement (port sqid cid : Nat) (s : State) : Host.Outcome State Fault Refusal :=
  .next (s.serveIo port sqid cid .dsm)

/-- An NVMe Verify is evaluated (R56, R139). -/
def execVerify (port sqid cid : Nat) (s : State) : Host.Outcome State Fault Refusal := .next (s.serveIo port sqid cid .verify)

/-- RETURN_WAIT_EXPIRY (R64): a command that waits for CONTRACT in a RETURN queue is returned, with DNR clear. -/
def execReturnWaitExpiry (port sqid cid : Nat) (s : State) : Host.Outcome State Fault Refusal :=
  .next <|
    match s.cmdOn port sqid cid with
    | some c =>
      if c.stage = .waiting 1 ∧ s.rd R.INTAKE.QB_CFG_MODE 0 (qb port sqid) = 1 then
        let s := match s.boundPitch port sqid with
          | some p => s.pitchLog p fun l => { l with returned := l.returned + 1 }
          | none => s
        s.complete c 0 0x21
      else s
    | none => s

/-! ### Write data (R53, R99, R227, R228) -/

/-- A device-initiated read of host memory for a command has ended: what passed 2.0 µs extends its deadline (R53). -/
def State.hostReadOver (s : State) (c : Cmd) : State :=
  let late := s.mono - (c.fetchAt + 200)
  let s := s.mPort c.port fun p => { p with hostReads := p.hostReads.filter fun u => decide (u ≠ c.uid) }
  s.mCmd c.uid fun c => { c with hostDelay := c.hostDelay + late, deadline := c.deadline.map fun d => d + late }

/-- A command's host read has failed (R144, R228): its write data is withdrawn and it ends with Data Transfer Error. -/
def State.hostReadFailed (s : State) (c : Cmd) (inj : Bool) : State :=
  let s := (s.hostReadOver c).dropReads c.uid
  match s.cmdOf c.uid with
  | some d => (s.withdrawWrite d).complete { d with injected := d.injected || inj } 0 0x04
  | none => s

/-- The command an outstanding host read belongs to, by its tag: a context number. -/
def State.readTag (s : State) (port tag : Nat) : Option Nat :=
  (s.port port).hostReads.find? fun u => decide (u % 65536 = tag % 65536)

/-- The tag of a host read whose command is gone is freed. -/
def State.freeTag (s : State) (port uid : Nat) : State :=
  s.mPort port fun p => { p with hostReads := p.hostReads.filter fun u => decide (u ≠ uid) }

/-- HOST_READ_COMPLETION (R53, R144, R228): the last completion of a host read, `ok` where it brought its data.
An armed point of FRONT makes it fail (R571). -/
def execHostReadCompletion (port tag : Nat) (ok : Bool) (s : State) : Host.Outcome State Fault Refusal :=
  .next <|
    match s.readTag port tag with
    | none => s
    | some u =>
      let f := s.fire frontPage 1 fun _ _ => true
      let g := f.2.fire frontPage 2 fun _ _ => true
      let s := g.2
      match s.cmdOf u with
      | none => s.freeTag port u
      | some c => if ok && !f.1 && !g.1 then s.hostReadOver c else s.hostReadFailed c ok

/-- COMPLETION_TIMEOUT (R144, R156): a host read has reached the Completion Timeout. -/
def execCompletionTimeout (port tag : Nat) (s : State) : Host.Outcome State Fault Refusal :=
  .next <|
    match s.readTag port tag with
    | none => s
    | some u =>
      match s.cmdOf u with
      | none => s.freeTag port u
      | some c => s.hostReadFailed c false

/-- WRITE_DATA_RESIDENCY (R99, R227): the last beat of a sector is written into its HOST crate, and FETCH and RESIDENT
move; once every sector is resident the INSERTs follow. -/
def execWriteDataResidency (port sqid cid sector data : Nat) (s : State) : Host.Outcome State Fault Refusal :=
  .next <|
    let s := s.startGranted
    match s.cmdOn port sqid cid with
    | none => s
    | some c =>
      if c.kind = .write ∧ c.stage = .accepted ∧ c.started = true ∧ sector < c.sectors ∧ c.arrived.contains sector = false then
        let n := s.ns c.nsid
        let byte := c.slba * n.block + sector * 512
        let crate := c.crates.getD (byte / n.iuBytes - (n.iuRange c.slba c.nlb).1) 0
        let s := s.crateWrite (crateBase crate + byte % n.iuBytes) (bytesOf data 512)
        let s := (s.move 183 (-1)).send 184 1
        let s := s.mCmd c.uid fun c => { c with resident := c.resident + 1, arrived := c.arrived ++ [sector] }
        let s := if c.resident + 1 = c.sectors ∧ (s.port port).hostReads.contains c.uid then
            (match s.cmdOf c.uid with
              | some d => s.hostReadOver d
              | none => s)
          else s
        s.writeStep c.uid
      else s

/-! ### Completion queues (R53) -/

/-- Held completions are posted while the queue has room; their wait is host delay (R53, R97). -/
def drainHeld (t : Nat) : Nat → Cq × List (Nat × Nat) → Cq × List (Nat × Nat)
  | 0, a => a
  | k + 1, (q, l) =>
    match q.held, q.heldFrom with
    | e :: r, f :: g =>
      if q.posted.length + 1 < q.size then
        drainHeld t k ({ q with posted := q.posted ++ [e], held := r, heldFrom := g }, l ++ [(f.2, t - f.1)])
      else (q, l)
    | _, _ => (q, l)

/-- CQ_HEAD_DOORBELL (R53): the host frees entries, and completions held for a full queue are posted. -/
def execCqHeadDoorbell (port cqid head : Nat) (s : State) : Host.Outcome State Fault Refusal :=
  .next <|
    let s := s.hostRequest
    match s.cqOf port cqid with
    | none => s
    | some q =>
      let freed := (head + q.size - q.head) % q.size
      if head < q.size ∧ freed ≤ q.posted.length ∧ (s.port port).en = true ∧ (s.port port).resetting = false then
        let r := drainHeld s.mono q.held.length ({ q with head := head, posted := q.posted.drop freed }, [])
        let s := s.mHost fun h => { h with cqs := h.cqs.map fun x => if x.port = port ∧ x.id = cqid then r.1 else x }
        (r.2.foldl (fun (t : State) d => if d.1 < 1024 then
          t.pitchLog d.1 fun l => { l with hostDelay := l.hostDelay + d.2 / 100000 } else t) s).ctxUse
      else s

end Sys2Proof.Machine
end

