-- ==== Sys2Proof/Machine/Pages.lean ====
section
/-! DEFINITION. The data structures admin commands return: Identify, and the log pages (R97, R137, R141, R165, R167,
R363 to R365, R504, R560). A page is a function from byte offset to byte. Offsets the spec does not give are those of
NVMe 2.1 (PRESUMED, log entry 45). -/

namespace Sys2Proof.Machine

open Sys2Proof

/-- A field of a page: offset, length in bytes, value. -/
abbrev PageField := Nat × Nat × Nat

/-- The byte at an offset of a page, from its fields and what the rest of the page holds. -/
def pageByte (fs : List PageField) (rest : Nat → Nat) (i : Nat) : Nat :=
  match fs.find? fun f => decide (f.1 ≤ i ∧ i < f.1 + f.2.1) with
  | some f => f.2.2 / 256 ^ (i - f.1) % 256
  | none => rest i % 256

/-- The bytes of a page from an offset on, as one number. -/
def pageSlice (page : Nat → Nat) (off len : Nat) : Nat := ofBytes ((List.range len).map fun k => page (off + k))

/-- The byte of a free page of number `n` (log entry 3). -/
def freeByte (n i : Nat) : Nat := Config.freeValue n / 256 ^ i % 256

/-! ### Identify (R137, R138, R142, R172, R504) -/

/-- The Identify Controller data: the values of R137; VID, SSVID and SN as fused (R504); what R137 does not list
is zero. -/
def State.identifyController (s : State) (port : Nat) : Nat → Nat :=
  pageByte [(0, 2, Config.identity 0), (2, 2, Config.identity 1), (4, 20, Config.identity 2),
    (76, 1, if s.split then 3 else 0), (77, 1, 9), (78, 2, port), (80, 4, 0x00020100), (256, 2, 0x000E), (258, 1, 15),
    (259, 1, 3), (260, 1, 0x14), (262, 1, 255), (270, 2, 1), (328, 4, 0x20000003), (512, 1, 0x66), (513, 1, 0x44),
    (516, 4, 256), (520, 2, 0x00CF), (525, 1, 0), (536, 4, 0)] fun _ => 0

/-- The Identify Namespace data (R137, R142, R172). -/
def Ns.identify (n : Ns) : Nat → Nat :=
  let atom := if n.block = 512 then 7 else 0
  let gran := n.iuBytes / n.block - 1
  pageByte [(0, 8, n.nsze), (8, 8, n.nsze), (16, 8, n.nsze), (25, 1, 1), (26, 1, if n.block = 512 then 1 else 0), (33, 1, 0x09),
    (34, 2, atom), (36, 2, atom), (68, 2, gran), (70, 2, gran), (128, 4, 0x000C0000), (132, 4, 0x02090000)] fun _ => 0

/-- A list of 32-bit entries. -/
def listPage (l : List Nat) (i : Nat) : Nat := l.getD (i / 4) 0 / 256 ^ (i % 4) % 256

/-- A controller list: a 16-bit count and 16-bit identifiers. -/
def ctrlList (l : List Nat) (i : Nat) : Nat := (l.length :: l).getD (i / 2) 0 / 256 ^ (i % 2) % 256

/-- The controllers there are. -/
def State.controllers (s : State) : List Nat := if s.split then [0, 1] else [0]

/-- The namespaces that satisfy a test, above a number. -/
def State.nsAbove (s : State) (k : Nat) (q : Ns → Bool) : List Nat :=
  (List.range 256).filterMap fun i => if k < i + 1 ∧ q (s.ns (i + 1)) = true then some (i + 1) else none

/-- The Identify data of a CNS value, if it is supported; what R138 leaves to firmware is free number `n`. -/
def State.identifyData (s : State) (port nsid cns n : Nat) : Option (Nat → Nat) :=
  let x := s.ns nsid
  match cns with
  | 0x00 => some (if x.st = 2 ∧ bit x.attached port then x.identify else fun _ => 0)
  | 0x01 => some (s.identifyController port)
  | 0x02 => some (listPage (s.nsAbove nsid fun x => decide (x.st = 2) && bit x.attached port))
  | 0x10 => some (listPage (s.nsAbove nsid fun x => decide (x.st = 2)))
  | 0x11 => some (if x.st = 2 then x.identify else fun _ => 0)
  | 0x12 => some (ctrlList (s.controllers.filter fun p => bit x.attached p))
  | 0x13 => some (ctrlList s.controllers)
  | 0x03 => some (freeByte n)
  | 0x05 => some (freeByte n)
  | 0x06 => some (freeByte n)
  | _ => none

/-! ### Log pages that hardware builds (R97, R167) -/

/-- Page C1h, Pitch Accounting (R97). -/
def State.pitchPage (s : State) (i : Nat) : Nat :=
  if i < 64 then
    pageByte [(0, 8, s.pit.generation), (8, 8, s.pit.updatedAt), (16, 2, s.rd R.INTAKE.FILL_LEVEL_F),
      (18, 2, s.testState none), (20, 4, min s.pit.openBroken 0xFFFFFFFF)] (fun _ => 0) i
  else
    let n := (i - 64) / 64
    let p := s.pitch n
    let sat := fun (k v : Nat) => min v (256 ^ k - 1)
    pageByte [(0, 2, n), (2, 1, p.state),
      (3, 1, p.c.cls + p.c.dir * 4 + p.c.recovery * 8 + p.owner * 16 + p.port * 32),
      (4, 8, sat 8 p.log.accepted), (12, 4, sat 4 p.log.outOfContract), (16, 4, sat 4 p.log.returned),
      (20, 4, sat 4 p.log.demoted), (24, 4, sat 4 p.log.broken), (28, 2, sat 2 p.log.brokenDataFirst),
      (30, 2, sat 2 p.log.brokenFault), (32, 4, sat 4 p.log.deadlineErrors), (36, 4, sat 4 p.log.maxPreWait),
      (40, 4, sat 4 p.log.maxLatency), (44, 4, sat 4 p.log.lockWaits), (48, 4, sat 4 p.log.slotWaits),
      (52, 4, sat 4 p.log.actPowerWaits), (56, 2, p.meas), (60, 4, sat 4 p.log.hostDelay)] (fun _ => 0) ((i - 64) % 64)

/-- Page C2h, Deferred Write Errors (R167). -/
def State.deferPage (s : State) (i : Nat) : Nat :=
  let l := s.host.deferLog
  if i < 64 then
    pageByte [(0, 8, s.host.deferGen), (8, 8, s.rd R.INTAKE.DEFER_TOTAL_COUNT), (16, 2, l.length),
      (18, 4, (l.filter fun d => !bit d.flags 0).length)] (fun _ => 0) i
  else match l.drop ((i - 64) / 64) with
    | [] => 0
    | d :: _ =>
      pageByte [(0, 8, d.seq), (8, 4, d.nsid), (12, 8, d.slba), (20, 4, d.nlb), (24, 8, d.stamp), (32, 8, d.mono),
        (40, 4, d.epoch), (44, 1, d.cause), (45, 1, d.flags), (46, 2, d.cntlid), (48, 2, d.sqid), (50, 2, d.cid)]
        (fun _ => 0) ((i - 64) % 64)

/-! ### Log pages that firmware serves (R141, R363 to R365, R560); what it is to take from elsewhere is free -/

/-- Page 01h: the Error Information entries, newest first. -/
def State.errorPage (s : State) (i : Nat) : Nat :=
  match s.host.errors.reverse.drop (i / 64) with
  | [] => 0
  | e :: t => pageByte [(0, 8, t.length + 1), (8, 2, e.sqid), (10, 2, e.cid), (12, 2, (e.sc + e.sct * 256) * 2), (16, 8, e.lba),
      (24, 4, e.nsid)] (fun _ => 0) (i % 64)

/-- 100 × a / b, rounded down, 0 where b is 0. -/
def percent (a b : Nat) : Nat := if b = 0 then 0 else 100 * a / b

/-- Page 02h, SMART / Health Information (R363, R364): FRONT ORs HEALTH.CRIT into byte 0. -/
def State.smartPage (s : State) (n i : Nat) : Nat :=
  let init := s.rd R.HEALTH.SPARE_INIT
  let kelvin := match s.composite with
    | some v => (v + 273).toNat
    | none => 0
  let unrec := (s.sw.blocks.map fun e => e.2.unrec).sum
  pageByte [(0, 1, Nat.lor (freeByte n 0) (s.rd R.HEALTH.CRIT_BITS)), (1, 2, kelvin), (3, 1, percent (s.rd R.HEALTH.SPARE_PCT) init),
    (4, 1, percent (s.rd R.HEALTH.SPARE_CFG_WARN) init), (5, 1, min 255 (s.rd R.HEALTH.WEAR_MEAN_PPM / 10000)),
    (160, 16, unrec + s.rd R.INTAKE.DEFER_TOTAL_COUNT), (192, 4, s.rd R.HEALTH.TEMP_ABOVE_WARN_SECONDS / 60),
    (196, 4, s.rd R.HEALTH.TEMP_ABOVE_CRIT_SECONDS / 60)] (freeByte n) i

/-- Page 03h, Firmware Slot Information: the slot that runs and the one that starts next; revisions are free. -/
def State.slotPage (s : State) (n i : Nat) : Nat :=
  pageByte [(0, 1, s.rd R.GATE.BOOT_INFO_RUN_POLICY + s.nv.desc.next * 16), (1, 7, 0)]
    (fun k => if k < 24 then freeByte n k else 0) i

/-- Page 81h, Sanitize Status (R141): the estimated times. -/
def State.sanitizePage (s : State) (n i : Nat) : Nat :=
  let status := if s.nv.sanitize = 0 then freeByte n 2 % 8 else if s.nv.sanitize = 3 then 3 else 2
  pageByte [(2, 2, status), (8, 4, 0xFFFFFFFF), (12, 4, 240), (16, 4, 2)] (fun k => if k < 2 then freeByte n k else 0) i

/-- A sum over the block records. -/
def State.blockSum (s : State) (f : Block → Nat) : Nat := (s.sw.blocks.map fun e => f e.2).sum

/-- Page C3h, Health Detail (R365): each field from its source; what firmware accumulates itself is free. -/
def State.healthPage (s : State) (n i : Nat) : Nat :=
  let own := [(0, 8), (248, 8), (256, 8), (320, 8), (328, 8), (336, 8), (344, 8), (352, 8), (360, 4), (364, 4), (376, 8), (384, 8)]
  let fs : List PageField :=
    [(8, 8, s.mono), (16, 4, s.rd R.TIME.EPOCH_VALUE), (20, 4, s.rd R.HEALTH.DAYS_COUNT), (64, 8, s.rd R.HEALTH.GOOD_BLOCKS_COUNT),
     (72, 8, s.rd R.HEALTH.RETIRED_COUNT), (80, 8, s.rd R.HEALTH.RETIRED_PROG_COUNT), (88, 8, s.rd R.HEALTH.RETIRED_ERASE_COUNT),
     (96, 2, s.rd R.HEALTH.SPARE_PCT), (98, 2, s.rd R.HEALTH.SPARE_INIT), (100, 2, s.rd R.HEALTH.SPARE_CFG_WARN),
     (102, 2, s.rd R.HEALTH.SPARE_CFG_EOL), (104, 2, s.rd R.HEALTH.SPARE_CFG2_FLOOR), (112, 4, s.rd R.HEALTH.WEAR_MEAN_PPM),
     (116, 4, s.rd R.HEALTH.WEAR_MAX_PPM), (120, 4, s.rd R.HEALTH.WEAR_USED_DAY_PPM), (124, 4, s.rd R.HEALTH.WEAR_BUDGET_DAY_PPM),
     (128, 4, s.rd R.HEALTH.WEAR_USED2_YEAR_PPM), (132, 4, s.rd R.HEALTH.WEAR_BUDGET2_YEAR_PPM),
     (136, 8, s.rd R.HEALTH.BUDGET_REFUSED_COUNT), (144, 8, s.blockSum fun b => b2n (decide (b.hstate = 1))),
     (152, 8, s.blockSum fun b => b2n (decide (b.hstate = 2))), (160, 8, s.rd R.HEALTH.RATE_REFUSED_COUNT), (168, 8, (s.term 288).toNat),
     (192, 8, s.blockSum fun b => b.cwRead), (200, 8, s.blockSum fun b => b.iterSum), (208, 8, s.blockSum fun b => b.softPass),
     (216, 8, s.blockSum fun b => b.retryFirst), (224, 8, s.blockSum fun b => b.retryDeep), (232, 8, s.blockSum fun b => b.parityRb),
     (240, 8, s.blockSum fun b => b.unrec), (264, 4, s.rd R.SCRUB.SCRUB_CYCLE_NUM), (268, 2, s.rd R.SCRUB.LATE_COUNT),
     (272, 8, s.rd R.INTAKE.DEFER_TOTAL_COUNT), (368, 8, s.sw.credit / 65536), (824, 2, s.rd R.HEALTH.TEMP_EXT_MAX),
     (826, 2, s.rd R.HEALTH.TEMP_EXT_MIN), (828, 8, s.sw.tempMaxAt), (836, 4, s.rd R.HEALTH.TEMP_AVG_HUNDREDTHS),
     (840, 4, s.rd R.HEALTH.TEMP_ABOVE_HOST_SECONDS), (844, 4, s.rd R.HEALTH.TEMP_ABOVE_WARN_SECONDS),
     (848, 4, s.rd R.HEALTH.TEMP_ABOVE_CRIT_SECONDS), (852, 4, s.sw.thermalHalts)]
  if 448 ≤ i ∧ i < 648 then
    let g := (i - 448) / 8
    pageByte [(0, 4, s.rd R.MEMCHK.GRP_CE_COUNT 0 g), (4, 4, s.rd R.MEMCHK.GRP_UE_COUNT 0 g)] (fun _ => 0) ((i - 448) % 8)
  else if 704 ≤ i ∧ i < 824 then s.rd R.HEALTH.TEMP_BIN_SECONDS 0 ((i - 704) / 4) / 256 ^ (i % 4) % 256
  else if own.any fun f => decide (f.1 ≤ i ∧ i < f.1 + f.2) then freeByte n i
  else pageByte fs (fun _ => 0) i

/-- Page C4h, Logbook Export (R560). -/
def State.exportPage (s : State) (i : Nat) : Nat :=
  let slot := fun (r : Option LogRec) k => match r with
    | some r => r.bytes.getD k 0
    | none => 0
  if i < 64 then
    pageByte [(0, 4, s.rd R.TIME.EPOCH_VALUE), (8, 8, s.mono), (16, 8, s.headSeq), (24, 4, s.rd R.LOG.RING_USE_RECORDS),
      (28, 2, s.rd R.LOG.PERM_USE_SLOTS), (30, 1, s.rd R.LOG.LOG_STAT_FAULT_FROZEN + s.rd R.LOG.LOG_STAT_FROZEN * 2)] (fun _ => 0) i
  else if i < 64 + 4096 * 64 then slot (s.nv.perm[(i - 64) / 64]?) ((i - 64) % 64)
  else slot (s.stored[(i - 64) / 64 - 4096]?) ((i - 64) % 64)

/-- A log page with its length, if the identifier is supported (R141). -/
def State.logPage (s : State) (lid n : Nat) : Option (Nat × (Nat → Nat)) :=
  match lid with
  | 0x01 => some (16384, s.errorPage)
  | 0x02 => some (512, s.smartPage n)
  | 0x03 => some (512, s.slotPage n)
  | 0x04 => some (4096, freeByte n)
  | 0x05 => some (4096, freeByte n)
  | 0x81 => some (512, s.sanitizePage n)
  | 0xC1 => some (65600, s.pitchPage)
  | 0xC2 => some (16448, s.deferPage)
  | 0xC3 => some (1024, s.healthPage n)
  | 0xC4 => some (4456512, s.exportPage)
  | _ => none

end Sys2Proof.Machine
end

