-- ==== Sys2Proof/Machine/Admin.lean ====
section
/-! DEFINITION. Admin commands: queues, Abort, events, log pages, Identify, features, namespaces, formats, sanitizes, and
firmware download and commit (R93, R130, R137 to R144, R157, R159 to R163, R166, R182, R407, R476, R504, R525, R528,
R561); and INTAKE's evaluation (R147). Fields of NVMe commands that the spec does not give are those of NVMe 2.1
(PRESUMED, log entry 45). -/

namespace Sys2Proof.Machine

open Sys2Proof

/-! ### Who executes (R138, R160, R498) -/

/-- Whether INTAKE and WATCH execute an admin command themselves; an opcode no one executes is turned away by them. -/
def Cmd.hardware (c : Cmd) : Bool :=
  match c.opcode with
  | 0x02 => decide (bits (c.cdw 10) 0 8 = 0xC1 ∨ bits (c.cdw 10) 0 8 = 0xC2)
  | 0x09 => decide (bits (c.cdw 10) 0 8 = 0xC0)
  | 0x0A => decide (bits (c.cdw 10) 0 8 = 0xC0)
  | 0x06 => false
  | 0x0D => false
  | 0x15 => false
  | 0x10 => false
  | 0x11 => false
  | 0x80 => false
  | 0x84 => false
  | _ => true

/-- An admin command is handed to firmware. The four that change a namespace leave a non-operational state (R481), and
CORE is voted for (R466). -/
def State.toFirmware (s : State) (c : Cmd) : State :=
  let s := (s.unstage c).handOver c
  if c.opcode = 0x80 ∨ c.opcode = 0x84 ∨ c.opcode = 0x0D ∨ c.opcode = 0x15 then s.nonopExit else s.heedVotes

/-- Firmware executes an admin command of an opcode (log entry 46): it is handed over, and while CORE runs in SERVICE,
done. -/
def State.firm (s : State) (port cid opcode : Nat) (f : Cmd → State → State) : State :=
  match s.cmdOn port 0 cid with
  | none => s
  | some c =>
    if c.opcode ≠ opcode ∨ s.dst ≠ 4 ∨ c.hardware then s
    else
      let s := if c.stage = .staged then s.toFirmware c else s
      match s.cmdOf c.uid with
      | none => s
      | some c => if s.coreUp then f c s else s

/-- A command that firmware holds ends with a status. -/
def State.finish (s : State) (c : Cmd) (sct sc : Nat) (dnr : Bool := false) (dw0 : Nat := 0) (data : List Nat := []) : State :=
  (s.dropAdm c.uid).complete c sct sc dnr dw0 data

/-- An admin command ends, whether firmware holds it or hardware executes it. -/
def State.reply (s : State) (c : Cmd) (sct sc : Nat) (dnr : Bool := false) (dw0 : Nat := 0) (data : List Nat := []) : State :=
  s.finish c sct sc dnr dw0 data

/-! ### Queues (R137, R144, R157) -/

/-- The most I/O queues, and MSI-X vectors, of a controller (R137). -/
def State.queueMax (s : State) : Nat := if s.split then 1024 else 2048

/-- Create I/O SQ: the queue is unbound, with QB_CFG at its reset values (R64). -/
def createSq (c : Cmd) (s : State) : State :=
  let q := bits (c.cdw 10) 0 16
  let cq := bits (c.cdw 11) 16 16
  if cq = 0 ∨ (s.cqOf c.port cq).isNone then s.complete c 1 0x00 true
  else if q = 0 ∨ s.queueMax < q ∨ (s.sqOf c.port q).isSome then s.complete c 1 0x01 true
  else if bits (c.cdw 10) 16 16 = 0 then s.complete c 1 0x02 true
  else if bit (c.cdw 11) 0 = false then s.complete c 0 0x02 true
  else
    let n : Sq := { port := c.port, id := q, size := bits (c.cdw 10) 16 16 + 1, cq := cq, prio := bits (c.cdw 11) 1 2 }
    ((s.mHost fun h => { h with sqs := h.sqs ++ [n] }).bindQueue (qb c.port q) (0x0271 * 0x10000)).complete c 0 0

/-- Create I/O SQ (R138). -/
def execCreateIoSq (port cid : Nat) (s : State) : Host.Outcome State Fault Refusal := .next (s.admin port cid 0x01 createSq)

/-- Create I/O CQ. -/
def createCq (c : Cmd) (s : State) : State :=
  let q := bits (c.cdw 10) 0 16
  let v := bits (c.cdw 11) 16 16
  if q = 0 ∨ s.queueMax < q ∨ (s.cqOf c.port q).isSome then s.complete c 1 0x01 true
  else if bits (c.cdw 10) 16 16 = 0 then s.complete c 1 0x02 true
  else if bit (c.cdw 11) 0 = false then s.complete c 0 0x02 true
  else if bit (c.cdw 11) 1 ∧ s.queueMax ≤ v then s.complete c 1 0x08 true
  else
    let n : Cq := { port := c.port, id := q, size := bits (c.cdw 10) 16 16 + 1, vector := v }
    (s.mHost fun h => { h with cqs := h.cqs ++ [n] }).complete c 0 0

/-- Create I/O CQ (R138). -/
def execCreateIoCq (port cid : Nat) (s : State) : Host.Outcome State Fault Refusal := .next (s.admin port cid 0x05 createCq)

/-- Delete I/O CQ: refused while a submission queue uses it. -/
def deleteCq (c : Cmd) (s : State) : State :=
  let q := bits (c.cdw 10) 0 16
  if q = 0 ∨ (s.cqOf c.port q).isNone then s.complete c 1 0x01 true
  else if s.host.sqs.any fun x => decide (x.port = c.port) && decide (x.cq = q) then s.complete c 1 0x0C true
  else (s.mHost fun h => { h with cqs := h.cqs.filter fun x => !(decide (x.port = c.port) && decide (x.id = q)) }).complete c 0 0

/-- Delete I/O CQ (R138). -/
def execDeleteIoCq (port cid : Nat) (s : State) : Host.Outcome State Fault Refusal := .next (s.admin port cid 0x04 deleteCq)

/-- An accepted I/O command stops (R156, R157, R163): its reads are dropped, its fetch withdrawn, its crates freed with
the fills owed to them. -/
def State.stopIo (s : State) (c : Cmd) : State :=
  let s := (s.dropReads c.uid).mPor fun p => { p with fills := p.fills.filter fun f => !c.crates.contains f.1 }
  match s.cmdOf c.uid with
  | some d => s.withdrawWrite d
  | none => s

/-- A command a reset or a queue's deletion lets run on: a Write whose data is wholly resident, and a Write Zeroes, which
has no data to fetch (R156, R157; DEDUCED, log entry 46). -/
def Cmd.kept (c : Cmd) : Bool :=
  decide (c.stage = .accepted) && match c.kind with
    | .write => decide (c.sectors = c.resident)
    | .writeZeroes => true
    | _ => false

/-- Delete I/O SQ (R157): its commands, but the kept ones, end with Command Aborted due to SQ Deletion; the Delete
completes when none is outstanding, in this or a later occurrence of the row. -/
def deleteSq (c : Cmd) (s : State) : State :=
  let q := bits (c.cdw 10) 0 16
  if q = 0 ∨ (s.sqOf c.port q).isNone then s.complete c 1 0x01 true
  else
    let l := s.host.cmds.filter fun d => decide (d.port = c.port) && decide (d.sqid = q) && !d.kept
    let s := l.foldl (fun (t : State) d =>
      let t := t.stopIo d
      match t.cmdOf d.uid with
      | some e => (t.complete e 0 0x08).count R.INTAKE.RESET_STAT_DISCARDED
      | none => t) s
    if s.host.cmds.any fun d => decide (d.port = c.port) && decide (d.sqid = q) then s
    else
      let s := s.wr R.INTAKE.QB_CFG_BOUND 0 0 (qb c.port q)
      (s.mHost fun h => { h with sqs := h.sqs.filter fun x => !(decide (x.port = c.port) && decide (x.id = q)) }).complete c 0 0

/-- Delete I/O SQ (R157). -/
def execDeleteIoSq (port cid : Nat) (s : State) : Host.Outcome State Fault Refusal := .next (s.admin port cid 0x00 deleteSq)

/-! ### Abort and events (R161 to R163, R166) -/

/-- Abort (R161, R163): not found, discarded while staged, or stopped after acceptance. A Dataset Management or Write
Uncorrectable has ended with its acceptance; a Write whose data is resident cannot be aborted. -/
def abortCmd (c : Cmd) (s : State) : State :=
  let sqid := bits (c.cdw 10) 0 16
  let cid := bits (c.cdw 10) 16 16
  match s.host.cmds.find? fun d => decide (d.port = c.port) && decide (d.sqid = sqid) && decide (d.cid = cid) && decide (d.uid ≠ c.uid) with
  | none => (s.count R.INTAKE.ABORT_STAT_MISSED).complete c 0 0 false 1
  | some d =>
    if d.kind = .write ∧ d.kept = true then (s.count R.INTAKE.ABORT_STAT_MISSED).complete c 0 0 false 1
    else
    let s := s.mPort d.port fun p => if d.sqid = 0 then { p with aers := p.aers.filter fun x => decide (x ≠ d.cid) } else p
    let s := if d.stage = .accepted then (s.stopIo d).dropAdm d.uid else s
    let s := match s.cmdOf d.uid with
      | some e => s.complete e 0 0x07
      | none => s
    (s.count R.INTAKE.ABORT_STAT_DONE).complete c 0 0

/-- Abort (R161). -/
def execAbort (port cid : Nat) (s : State) : Host.Outcome State Fault Refusal := .next (s.admin port cid 0x08 abortCmd)

/-- Asynchronous Event Request: up to four are outstanding (R137); an event that is owed ends it at once. -/
def eventRequest (c : Cmd) (s : State) : State :=
  if 4 ≤ (s.port c.port).aers.length then s.complete c 1 0x05 true
  else
    let s := (s.unstage c).mCmd c.uid fun d => { d with stage := .accepted, acceptedAt := s.mono }
    let s := s.mPort c.port fun p => { p with aers := p.aers ++ [c.cid] }
    match s.host.events.find? fun e => decide (e / 2 ^ 32 = c.port) with
    | none => s
    | some e => (s.mHost fun h => { h with events := h.events.erase e }).sendEvent c.port (e % 2 ^ 32)

/-- Asynchronous Event Request (R138). -/
def execAsynchronousEventRequest (port cid : Nat) (s : State) : Host.Outcome State Fault Refusal :=
  .next (s.admin port cid 0x0C eventRequest)

/-! ### Log pages and Identify (R141, R166, R504) -/

/-- Get Log Page: NUMD and LPO as NVMe gives them; page C4h takes offsets that are multiples of 64 (R560). A read with
RAE clear re-arms the page's events (R166). -/
def getLog (c : Cmd) (s : State) : State :=
  let lid := bits (c.cdw 10) 0 8
  let k := s.fresh
  match s.logPage lid k.1 with
  | none => s.reply c 1 0x09 true
  | some (len, page) =>
    let off := c.cdw 12 + c.cdw 13 * 2 ^ 32
    let n := (bits (c.cdw 10) 16 16 + bits (c.cdw 11) 0 16 * 0x10000 + 1) * 4
    if len < off ∨ off % 4 ≠ 0 ∨ (lid = 0xC4 ∧ off % 64 ≠ 0) then s.reply c 0 0x02 true
    else
      let s := if bit (c.cdw 10) 15 then k.2 else k.2.rearm c.port lid
      s.reply c 0 0 false 0 [pageSlice page off (min n (len - off))]

/-- GET_LOG_PAGE (R141): pages C1h and C2h by hardware, others by firmware. -/
def execGetLogPage (port cid : Nat) (s : State) : Host.Outcome State Fault Refusal :=
  .next <|
    match s.cmdOn port 0 cid with
    | none => s
    | some c => if c.hardware then s.admin port cid 0x02 getLog else s.firm port cid 0x02 getLog

/-- Identify, with what FRONT overwrites (R138, R504). -/
def identifyCmd (c : Cmd) (s : State) : State :=
  let k := s.fresh
  match s.identifyData c.port c.nsid (bits (c.cdw 10) 0 8) k.1 with
  | none => s.finish c 0 0x02 true
  | some page => k.2.finish c 0 0 false 0 [pageSlice page 0 4096]

/-- IDENTIFY (R504). -/
def execIdentify (port cid : Nat) (s : State) : Host.Outcome State Fault Refusal := .next (s.firm port cid 0x06 identifyCmd)

/-! ### Features (R130, R140, R143, R476, R480, R483, R561) -/

/-- The features R140 supports. -/
def featureListed (fid : Nat) : Bool := [0x01, 0x02, 0x04, 0x05, 0x07, 0x08, 0x09, 0x0A, 0x0B, 0x0C, 0x0E, 0xC0].contains fid

/-- A feature's value is kept for its controller. -/
def State.setFeature (s : State) (port fid v : Nat) : State :=
  s.mPort port fun p => { p with features := p.features.set 0 fid v }

/-- Set Features Power Management (R476): the selection is made, and the effective state follows. -/
def setPower (c : Cmd) (s : State) : State :=
  let w := bits (c.cdw 11) 0 5
  if 4 < w then s.finish c 0 0x02 true
  else
    let s := s.mPwr fun x => { x with
      sel := if s.split then x.sel.set 0 c.port w else [0, 1].foldl (fun (t : Tbl Nat) p => t.set 0 p w) x.sel, apstSel := false }
    ((s.wr R.POWER.PS_CUR_SELECTED s.selected).followPower.retest).finish c 0 0

/-- Set Features Timestamp (R561): firmware writes the ms the host gives to WALL_SET. -/
def setTimestamp (c : Cmd) (s : State) : State :=
  (setWall s (.policy 0 false 2) ((c.payload.getD 0 0 + c.payload.getD 1 0 * 2 ^ 32) % 2 ^ 48)).finish c 0 0

/-- Set Features Mode Control (R130): the bits named reach WATCH as a request, whose decision completes the command; a
held request completes at once. -/
def setModes (c : Cmd) (s : State) : State :=
  let set := bits (c.cdw 11) 0 8
  let clear := bits (c.cdw 11) 8 8
  if bit (c.cdw 10) 31 then s.complete c 1 0x0D true
  else if Nat.land (Nat.lor set clear) 0xEC ≠ 0 then s.complete c 0 0x02 true
  else if s.dst = 4 then
    let s := (s.unstage c).mCmd c.uid fun d => { d with stage := .accepted, acceptedAt := s.mono }
    s.askMode .host set clear c.uid
  else
    let t := s.askMode .host set clear 0
    if 6 ≤ s.dst then t.complete c 1 0x0E true else t.complete c 0 0

/-- The effect of a Set Features that firmware executes, by its feature: thresholds and APST tables take effect, other
values are kept. -/
def setOther (c : Cmd) (s : State) : State :=
  let fid := bits (c.cdw 10) 0 8
  let v := c.cdw 11
  if bit (c.cdw 10) 31 then s.finish c 1 0x0D true
  else if featureListed fid = false then s.finish c 0 0x02 true
  else match fid with
    | 0x02 => setPower c s
    | 0x0E => setTimestamp c s
    | 0x04 =>
      let key := bits v 16 4 * 2 + bits v 20 2
      if 8 < bits v 16 4 ∨ 1 < bits v 20 2 then s.finish c 0 0x02 true
      else ((s.mPwr fun x => { x with hostThr := x.hostThr.set 0x10000 key (bits v 0 16) }).thermalWarning).finish c 0 0
    | 0x07 =>
      let n := s.queueMax - 1
      (s.setFeature c.port 0x07 (n * 0x10001)).finish c 0 0 false (n * 0x10001)
    | 0x0C =>
      ((s.mPwr fun x => { x with apst := x.apst.set [] c.port c.payload }).setFeature c.port 0x0C v).finish c 0 0
    | _ => (s.setFeature c.port fid v).finish c 0 0

/-- SET_FEATURES (R140). -/
def execSetFeatures (port cid : Nat) (s : State) : Host.Outcome State Fault Refusal :=
  .next <|
    match s.cmdOn port 0 cid with
    | none => s
    | some c => if c.hardware then s.admin port cid 0x09 setModes else s.firm port cid 0x09 setOther

/-- A Set or Get Features of one feature. -/
def forFeature (fid : Nat) (f : Cmd → State → State) (c : Cmd) (s : State) : State :=
  if bits (c.cdw 10) 0 8 = fid then f c s else s

/-- MODE_CONTROL_SET (R130). -/
def execModeControlSet (port cid : Nat) (s : State) : Host.Outcome State Fault Refusal :=
  .next (s.admin port cid 0x09 (forFeature 0xC0 setModes))

/-- POWER_MANAGEMENT_SET (R476). -/
def execPowerManagementSet (port cid : Nat) (s : State) : Host.Outcome State Fault Refusal :=
  .next (s.firm port cid 0x09 (forFeature 0x02 setOther))

/-- TIMESTAMP_SET (R561). -/
def execTimestampSet (port cid : Nat) (s : State) : Host.Outcome State Fault Refusal :=
  .next (s.firm port cid 0x09 (forFeature 0x0E setOther))

/-- Get Features Mode Control (R130). -/
def getModes (c : Cmd) (s : State) : State :=
  s.complete c 0 0 false (s.rd R.DEVSTATE.MODE_CUR_MODES + s.roCauses * 0x100 + s.rd R.DEVSTATE.DEV_STATE_DIAG_BOOT * 0x800)

/-- The Timestamp data: WALL and its origin once set, else the ms since the WATCH reset; Synch is 0 (R561). -/
def State.timestamp (s : State) : Nat :=
  if s.rd R.TIME.WALL_HI_VALID = 1 then s.wallAt s.mono + 2 * 2 ^ 48 else s.mono / 100000 % 2 ^ 48

/-- The effect of a Get Features that firmware executes; every SEL returns the current value (R140). -/
def getOther (c : Cmd) (s : State) : State :=
  let fid := bits (c.cdw 10) 0 8
  if featureListed fid = false then s.finish c 0 0x02 true
  else match fid with
    | 0x02 => s.finish c 0 0 false (if s.split then s.pwr.sel.get 0 c.port else s.selected)
    | 0x04 =>
      let t := s.hostThreshold (bits (c.cdw 11) 16 4) (bits (c.cdw 11) 20 2)
      s.finish c 0 0 false (t.toNat % 0x10000)
    | 0x07 => s.finish c 0 0 false ((s.queueMax - 1) * 0x10001)
    | 0x0E => s.finish c 0 0 false 0 [s.timestamp]
    | 0x0C => s.finish c 0 0 false (s.feature c.port fid) (s.pwr.apst.get [] c.port)
    | _ => s.finish c 0 0 false (s.feature c.port fid)

/-- GET_FEATURES (R140). -/
def execGetFeatures (port cid : Nat) (s : State) : Host.Outcome State Fault Refusal :=
  .next <|
    match s.cmdOn port 0 cid with
    | none => s
    | some c => if c.hardware then s.admin port cid 0x0A getModes else s.firm port cid 0x0A getOther

/-- MODE_CONTROL_GET (R130). -/
def execModeControlGet (port cid : Nat) (s : State) : Host.Outcome State Fault Refusal :=
  .next (s.admin port cid 0x0A (forFeature 0xC0 getModes))

/-- TIMESTAMP_GET (R561). -/
def execTimestampGet (port cid : Nat) (s : State) : Host.Outcome State Fault Refusal :=
  .next (s.firm port cid 0x0A (forFeature 0x0E getOther))

/-! ### Namespaces (R142, R172, R175, R182, R376) -/

/-- An NS record of a namespace as it stands (R376; log entry 7 on its fields). -/
def State.nsRecord (s : State) (nsid : Nat) : State :=
  let n := s.ns nsid
  s.journal 3 [nsid, if n.deleting then 0 else 2, n.iu, n.block, n.nsze, n.attached, s.nextStamp]

/-- The namespace data of a Namespace Management Create, its words of 32 bits: size, format, and the IU size from byte
3,072, any value beyond 3 taken as 2 (R142). -/
def Cmd.newNs (c : Cmd) : Ns :=
  let block := if bits (c.payload.getD 6 0) 16 4 = 1 then 512 else 4096
  let code := bits (c.payload.getD 768 0) 0 8
  let iu := if 3 < code then 2 else code
  let nsze := c.payload.getD 0 0 + c.payload.getD 1 0 * 2 ^ 32
  { st := 1, iu := iu, block := block, nsze := nsze, ius := ceilDiv (nsze * block) (iuUnits iu * 4096) }

/-- Creates a namespace with the lowest free identifier, and INIT begins (R175, R182). -/
def createNs (c : Cmd) (s : State) : State :=
  let n := c.newNs
  if 1 < bits (c.payload.getD 6 0) 16 4 then s.finish c 1 0x0A true
  else if n.nsze = 0 then s.finish c 0 0x02 true
  else match firstFrom (fun i => decide ((s.ns i).st = 0)) 256 1 with
    | none => s.finish c 1 0x16 true
    | some id =>
      if s.rd R.LEDGER.GRAN_FREE_COUNT < n.needs then s.finish c 1 0x15 true
      else (((s.mNs id fun _ => n).nsRecord id).nsInit id).finish c 0 0 false id

/-- The namespaces a deletion names. -/
def State.nsNamed (s : State) (nsid : Nat) : List Nat :=
  if nsid = 0xFFFFFFFF then s.nsAbove 0 fun n => decide (n.st = 2) else if (s.ns nsid).st = 2 then [nsid] else []

/-- Deletes a namespace, or all: it is detached, loses its deferred records, and its IUs are deallocated and its
granules released (R166, R182). -/
def deleteNs (c : Cmd) (s : State) : State :=
  match s.nsNamed c.nsid with
  | [] => s.finish c 0 0x0B true
  | k :: t =>
    let s := (k :: t).foldl (fun (t : State) n =>
      ((t.mNs n fun x => { x with deleting := true, attached := 0 }).dropDeferred n).nsRecord n) s
    (s.nsDealloc k).finish c 0 0

/-- Namespace Management waits while NS_CMD is busy or the journal is full (R376). -/
def nsManagement (c : Cmd) (s : State) : State :=
  if s.rd R.LEDGER.NS_CMD_BUSY = 1 ∨ s.journalFull then s
  else match bits (c.cdw 10) 0 4 with
    | 0 => createNs c s
    | 1 => deleteNs c s
    | _ => s.finish c 0 0x02 true

/-- NAMESPACE_MANAGEMENT (R175, R182). -/
def execNamespaceManagement (port cid : Nat) (s : State) : Host.Outcome State Fault Refusal :=
  .next (s.firm port cid 0x0D nsManagement)

/-- The controllers of a controller list. -/
def Cmd.ctrls (c : Cmd) : List Nat :=
  (List.range (bits (c.payload.getD 0 0) 0 16)).map fun i =>
    if (i + 1) % 2 = 1 then bits (c.payload.getD ((i + 1) / 2) 0) 16 16 else bits (c.payload.getD ((i + 1) / 2) 0) 0 16

/-- Namespace Attachment: attaches to, or detaches from, the controllers listed; the others are told where they asked
to be (R140). -/
def nsAttach (c : Cmd) (s : State) : State :=
  let l := c.ctrls
  let n := s.ns c.nsid
  let on := fun p => bit n.attached p
  if s.journalFull then s
  else if n.st ≠ 2 then s.finish c 0 0x0B true
  else if 1 < bits (c.cdw 10) 0 4 then s.finish c 0 0x02 true
  else if l.isEmpty || l.any (fun p => !s.controllers.contains p) then s.finish c 1 0x1C true
  else
    let tell := fun (s : State) => (l.filter fun p => decide (p ≠ c.port)).foldl (fun (t : State) p =>
      if bit (t.feature p 0x0B) 8 then t.sendEvent p (2 + 0x40000) else t) s
    let put := fun (v : Nat) => (tell ((s.mNs c.nsid fun n => { n with attached := v }).nsRecord c.nsid)).finish c 0 0
    if bits (c.cdw 10) 0 4 = 0 then
      if l.any on then s.finish c 1 0x18 true else put (l.foldl (fun v p => setBit v p) n.attached)
    else if l.any fun p => !on p then s.finish c 1 0x1A true
    else put (l.foldl (fun v p => clrBit v p) n.attached)

/-- NAMESPACE_ATTACHMENT (R138). -/
def execNamespaceAttachment (port cid : Nat) (s : State) : Host.Outcome State Fault Refusal :=
  .next (s.firm port cid 0x15 nsAttach)

/-- Format NVM (R142): LBA formats 0 and 1, Secure Erase Settings 000b, 001b and 010b; the namespace is deallocated
(R182) and loses its deferred records, and FORMAT_COMPLETE ends it. -/
def formatCmd (c : Cmd) (s : State) : State :=
  let n := s.ns c.nsid
  let f := bits (c.cdw 10) 0 4
  let ses := bits (c.cdw 10) 9 3
  if n.formatting then s
  else if n.st ≠ 2 ∨ n.attached = 0 then s.finish c 0 0x0B true
  else if 1 < f then s.finish c 1 0x0A true
  else if 2 < ses then s.finish c 0 0x02 true
  else if s.rd R.LEDGER.NS_CMD_BUSY = 1 ∨ s.journalFull then s
  else
    let s := s.mNs c.nsid fun n => { n with formatting := true, newBlock := if f = 1 then 512 else 4096, ses := ses }
    (s.dropDeferred c.nsid).nsDealloc c.nsid

/-- FORMAT_NVM (R142). -/
def execFormatNvm (port cid : Nat) (s : State) : Host.Outcome State Fault Refusal := .next (s.firm port cid 0x80 formatCmd)

/-- FORMAT_COMPLETE (R142, R360): the deallocation is done; the namespace has its new format and the command completes.
SPARE.INIT is fixed at the first format. -/
def execFormatComplete (nsid : Nat) (s : State) : Host.Outcome State Fault Refusal :=
  .next <|
    let n := s.ns nsid
    if n.formatting = false ∨ s.led.nsCmd.isSome then s
    else
      let s := (s.mNs nsid fun n => { n with
        formatting := false, block := n.newBlock, nsze := n.nsze * n.block / n.newBlock, ses := 0 }).nsRecord nsid
      let s := if s.nv.spareInit ≠ 0 then s
        else (s.mNv fun v => { v with spareInit := s.rd R.HEALTH.SPARE_PCT }).wr R.HEALTH.SPARE_INIT (s.rd R.HEALTH.SPARE_PCT)
      match s.host.cmds.find? fun c => decide (c.opcode = 0x80) && decide (c.kind = .admin) && decide (c.nsid = nsid)
          && decide (c.stage = .accepted) with
      | some c => s.finish c 0 0
      | none => s

/-! ### Sanitize (R131, R133, R141, R407) -/

/-- The blocks in service that hold data. -/
def State.usedBlocks (s : State) : List Nat :=
  (((s.nv.media.filter fun e => e.2.isSome && s.addrOn e.1).map fun e => aBlockKey e.1)
    ++ (s.sw.bands.map fun b => b.members.filter fun k => s.dieOn (k / 131072) (k / 8192 % 16)).flatten).eraseDups

/-- Every loaded media slot has its keys drawn anew, with its key record (R407, R408). -/
def State.renewKeys (s : State) : State :=
  (List.range 256).foldl (fun (t : State) k =>
    if (t.ciph.media.get {} k).loaded then
      let d := t.drawKey
      let w := d.2.takeWrap
      let seq := w.1 % 2 ^ 32
      (w.2.mCiph fun c => { c with media := c.media.set {} k { loaded := true, seq := seq, k1 := d.1.1, k2 := d.1.2 } }).mNv
        fun n => { n with keyRecs := n.keyRecs.set none k (some (seq, d.1.1, d.1.2, true)) }
    else t) s

/-- A sanitize starts (R131, R133): SANITIZE is set; a Block Erase has the blocks erased, and with DEGRADED set renews
every key and clears the general slots; a Crypto Erase renews every key. -/
def State.startSanitize (s : State) (kind : Nat) : State :=
  let s := (s.mNv fun v => { v with sanitize := kind }).hwMode 8 0 0x22
  if kind = 2 then s.renewKeys
  else
    let s := if s.mode 6 then (s.clearGeneral).renewKeys else s
    let s := s.mSw fun w => { w with sanTodo := s.usedBlocks }
    s.diesOn.foldl (fun (t : State) k => t.sanNext k) s

/-- Whether a sanitize may start (R131): every accepted I/O command has completed and RESIDENT is 0. -/
def State.sanitizeReady (s : State) : Bool :=
  (s.host.cmds.all fun c => decide (c.kind = .admin) || decide (c.stage ≠ .accepted)) && decide (s.term 184 = 0)
    && !(s.tal.moving.any fun m => decide (m.term = 184 ∨ m.term = 183))

/-- A Sanitize of an action (R141): refused under an owner lock (R133), waits for its entry condition, and completes
once it has started. -/
def sanitizeCmd (act kind : Nat) (c : Cmd) (s : State) : State :=
  let a := bits (c.cdw 10) 0 3
  if a ≠ 1 ∧ a ≠ 2 ∧ a ≠ 4 then s.finish c 0 0x02 true
  else if a ≠ act then s
  else if s.rd R.DEVSTATE.RO_CAUSE_OWNER = 1 then s.finish c 0 0x20 true
  else if s.nv.sanitize = 1 ∨ s.nv.sanitize = 2 then s.finish c 0 0x1D
  else if s.sanitizeReady then (s.startSanitize kind).finish c 0 0
  else s

/-- SANITIZE_BLOCK_ERASE (R141). -/
def execSanitizeBlockErase (port cid : Nat) (s : State) : Host.Outcome State Fault Refusal :=
  .next (s.firm port cid 0x84 (sanitizeCmd 2 1))

/-- SANITIZE_CRYPTO_ERASE (R141). -/
def execSanitizeCryptoErase (port cid : Nat) (s : State) : Host.Outcome State Fault Refusal :=
  .next (s.firm port cid 0x84 (sanitizeCmd 4 2))

/-- Exit Failure Mode (R141): a sanitize that failed is left behind, and SANITIZE is cleared. -/
def exitFailure (c : Cmd) (s : State) : State :=
  if bits (c.cdw 10) 0 3 ≠ 1 then sanitizeCmd 8 0 c s
  else if s.nv.sanitize = 3 then ((s.mNv fun v => { v with sanitize := 0 }).hwMode 0 8 0x23).finish c 0 0
  else if s.nv.sanitize = 0 then s.finish c 0 0
  else s.finish c 0 0x1D

/-- SANITIZE_EXIT_FAILURE_MODE (R141). -/
def execSanitizeExitFailureMode (port cid : Nat) (s : State) : Host.Outcome State Fault Refusal :=
  .next (s.firm port cid 0x84 exitFailure)

/-- The owner lock's cause, set when the sanitize that held it back ends (R133). -/
def State.ownerCause (s : State) : State :=
  if s.nv.owner ∧ s.rd R.DEVSTATE.RO_CAUSE_OWNER = 0 then
    ((s.wr R.DEVSTATE.RO_CAUSE_OWNER 1).mNv fun v => { v with roCause := setBit v.roCause 2 }).hwMode 4 0 0
  else s

/-- SANITIZE_COMPLETE (R131, R141, R166): the blocks have been erased; every LBA of every namespace is deallocated and
SANITIZE is cleared. One that fails stays in force until its failure mode is left. The hosts are told. -/
def execSanitizeComplete (ok : Bool) (s : State) : Host.Outcome State Fault Refusal :=
  .next <|
    let busy := s.diesOn.any fun k => (s.die k).erase.isSome || decide ((s.die k).runKind = 2)
    if (s.nv.sanitize ≠ 1 ∧ s.nv.sanitize ≠ 2) ∨ s.mode 3 = false ∨ s.sw.sanTodo ≠ [] ∨ busy = true then s
    else
      let tell := fun (s : State) => [0, 1].foldl (fun (t : State) p => t.sendEvent p (6 + 0x100 + 0x810000)) s
      if ok then
        let s := (s.nsAbove 0 fun n => decide (n.st = 2)).foldl (fun (t : State) n => (t.deallocAll n).dropDeferred n) s
        tell (((s.mNv fun v => { v with sanitize := 0 }).hwMode 0 8 0x23).ownerCause)
      else tell (s.mNv fun v => { v with sanitize := 3 })

/-! ### Firmware images (R159, R525, R528) -/

/-- Firmware Image Download (R525): firmware stages the piece, notes IMAGE_LEN of one at offset 0, reports it to the
Gate, and completes the command with what PIECE_RES names. -/
def downloadCmd (c : Cmd) (s : State) : State :=
  let off := c.cdw 11
  let s := ((s.wr R.GATE.PIECE_SRC 0).wr R.GATE.PIECE_OFF_DWORDS off).wr R.GATE.PIECE_LEN_DWORDS (c.cdw 10 + 1)
  let s := if off = 0 then s.wr R.GATE.STG_LEN_DWORDS (c.payload.getD 2 0 / 4) 0 0 else s
  let s := s.reportPiece 0
  let why := s.rd R.GATE.PIECE_RES_REASON
  match s.rd R.GATE.PIECE_RES_CODE with
  | 0 => s.finish c 0 0
  | 1 => s.finish c 1 0x14 true
  | 2 => s.finish c 1 0xC5 false why
  | 3 => s.finish c 1 0xC6 false why
  | _ => s.finish c 0 0x02 true

/-- FIRMWARE_IMAGE_DOWNLOAD (R525). -/
def execFirmwareImageDownload (port cid : Nat) (s : State) : Host.Outcome State Fault Refusal :=
  .next (s.firm port cid 0x11 downloadCmd)

/-- A Firmware Commit ends with what COMMIT_RES names (R144, R528, R529). -/
def commitStatus (c : Cmd) (s : State) : State :=
  let why := s.rd R.GATE.COMMIT_RES_REASON
  match s.rd R.GATE.COMMIT_RES_CODE with
  | 0 => s.finish c 0 0
  | 1 => s.finish c 1 0x06 true
  | 2 => s.finish c 1 0x07 true
  | 3 => s.finish c 0 0x0C true
  | 4 => s.finish c 1 0xC5 false why
  | 5 => s.finish c 1 0xC6 false why
  | 6 => s.finish c 1 0x13
  | 7 => s.finish c 1 0x12
  | _ => s.finish c 0 0x02 true

/-- Whether firmware has begun to execute a command it was handed, or is to complete it as though it had (R498). -/
def State.begun (s : State) (uid : Nat) : Bool := s.admSlots.any fun e => decide (e.2.uid = uid) && (decide (e.2.st = 2) || e.2.replay)

/-- Firmware takes a command it was handed. -/
def State.takeAdm (s : State) (uid : Nat) : State :=
  (s.mCore fun c => { c with adm := c.adm.map fun e => match e.2 with
    | some x => if x.uid = uid then (e.1, some { x with st := 2 }) else e
    | none => e }).admShow

/-- Firmware Commit (R159): firmware passes its action to the Gate, and completes it once the Gate has answered. -/
def firmwareCommitCmd (c : Cmd) (s : State) : State :=
  let slot := bits (c.cdw 10) 0 3
  let act := bits (c.cdw 10) 3 3
  let idle := decide (s.cf.commit.isNone) && !s.cf.recOpen
  if s.begun c.uid then (if idle then commitStatus c s else s)
  else if idle = false then s
  else
    let s := ((s.takeAdm c.uid).wr R.GATE.COMMIT_SRC 0).commitGo (.policy 0 false 2) slot act
    if s.cf.commit.isNone then commitStatus c s else s

/-- FIRMWARE_COMMIT (R159, R528). -/
def execFirmwareCommit (port cid : Nat) (s : State) : Host.Outcome State Fault Refusal :=
  .next (s.firm port cid 0x10 firmwareCommitCmd)

/-! ### Evaluation (R138, R147) -/

/-- A staged admin command is evaluated: executed by hardware, handed to firmware, or turned away (R138). -/
def State.evalAdmin (s : State) (c : Cmd) : State :=
  match c.opcode with
  | 0x00 => deleteSq c s
  | 0x01 => createSq c s
  | 0x04 => deleteCq c s
  | 0x05 => createCq c s
  | 0x08 => abortCmd c s
  | 0x0C => eventRequest c s
  | 0xC1 => rentCmd c s
  | 0xC4 => returnCmd c s
  | 0xC8 => bindCmd c s
  | 0x02 => if c.hardware then getLog c s else s.toFirmware c
  | 0x09 => if c.hardware then setModes c s else s.toFirmware c
  | 0x0A => if c.hardware then getModes c s else s.toFirmware c
  | _ => if c.hardware then s.complete c 0 0x01 true else s.toFirmware c

/-- The admin command a controller offers: its oldest staged one; in QUIESCE those of firmware wait (R160). -/
def State.offerAdmin (s : State) (p : Nat) : Option Cmd :=
  match s.sqOf p 0 with
  | none => none
  | some q =>
    if (s.port p).takes = false then none
    else (q.ring.filterMap fun u => s.cmdOf u).find? fun c => decide (c.stage = .staged) && (c.hardware || decide (s.dst = 4))

/-- INTAKE_EVALUATION (R147): one I/O evaluation, and between them admin evaluations no closer than ADMIN_GAP. Writes
whose crates have come go on. -/
def execIntakeEvaluation (s : State) : Host.Outcome State Fault Refusal :=
  .next <|
    if (s.dst ≠ 4 ∧ s.dst ≠ 5) ∨ s.domOn 1 = false then s
    else
      let s := s.startGranted
      let r := s.arbitrate
      let s := match r.1 with
        | some c => r.2.evalIo c
        | none => r.2
      let s := s.mHost fun h => { h with sinceAdmin := min (h.sinceAdmin + 1) 64 }
      if s.host.sinceAdmin < s.rd R.INTAKE.ARB_CFG_ADMIN_GAP then s
      else
        let first := if s.host.rr.get 0 20 = 0 then [0, 1] else [1, 0]
        match first.filterMap fun p => s.offerAdmin p with
        | [] => s
        | c :: _ => (s.mHost fun h => { h with sinceAdmin := 0, rr := h.rr.set 0 20 (1 - c.port) }).evalAdmin c

end Sys2Proof.Machine
end

