-- ==== Sys2Proof/Machine/Resets.lean ====
section
/-! DEFINITION. The functional resets of a port and of its NVMe controller, shutdown, and the link (R67, R156, R158, R423,
R526, R585, R588 to R590, R628). -/

namespace Sys2Proof.Machine

open Sys2Proof

/-- Whether a port exists: port 1 only in split x8 mode (R580, R585). -/
def State.portIs (s : State) (p : Nat) : Bool := decide (p = 0) || (decide (p = 1) && s.split)

/-- One command of a controller under reset (R156, steps 1 to 4), counted by what becomes of it: discarded while not
accepted; withdrawn, for a Write whose data is not wholly resident; kept; dropped. -/
def State.resetCmd (s : State) (port : Nat) (c : Cmd) : State :=
  if c.stage ≠ .accepted then (s.discard c).mPort port fun p => { p with rstDiscarded := p.rstDiscarded + 1 }
  else if c.kept then
    (s.mCmd c.uid fun d => { d with stopped := true }).mPort port fun p => { p with rstKept := p.rstKept + 1 }
  else
    let s := (s.stopIo c).dropAdm c.uid
    let s := match s.cmdOf c.uid with
      | some d => s.discard d
      | none => s
    if c.kind = .write then s.mPort port fun p => { p with rstWithdrawn := p.rstWithdrawn + 1 }
    else s.mPort port fun p => { p with rstDropped := p.rstDropped + 1 }

/-- The host-granted windows of a port are cleared (R501). -/
def State.clearWindows (s : State) (port : Nat) : State :=
  (List.range 8).foldl (fun (t : State) w =>
    if t.rd R.INSPECT.HWIN_CFG_PORT 0 w ≠ port then t
    else
      ([R.INSPECT.HWIN_BASE_LO_VALUE, R.INSPECT.HWIN_BASE_HI_VALUE, R.INSPECT.HWIN_CFG_PAGES, R.INSPECT.HWIN_CFG_PORT,
        R.INSPECT.HWIN_CFG_ALLOW_RD, R.INSPECT.HWIN_CFG_ALLOW_WR, R.INSPECT.HWIN_CFG_VALID]).foldl
          (fun (u : State) f => u.wr f 0 0 w) t) s

/-- The pitches of a controller are returned and its queues are gone with their bindings (R67). -/
def State.resetPitches (s : State) (port : Nat) : State :=
  let s := s.host.sqs.foldl (fun (t : State) q =>
    if q.port = port then t.wr R.INTAKE.QB_CFG_BOUND 0 0 (qb port q.id) else t) s
  (List.range 1024).foldl (fun (t : State) n =>
    let p := t.pitch n
    if p.state ≠ 0 ∧ p.owner = 0 ∧ (s.split = false ∨ p.port = port) then t.returnPitch n else t) s

/-- The NVMe controller reset (R156): steps 1 to 4, the pitches of R67, the in-band slot lock (R526), the windows of
R501. The queues and features of the controller are gone; CSTS.RDY falls when it has completed. -/
def State.resetController (s : State) (port : Nat) : State :=
  let s := s.count R.BOOT.CTRL_RST_COUNT
  let s := s.mPort port fun p => { p with
    en := false, shn := 0, shst := 0, resetting := true, rstDiscarded := 0, rstDropped := 0, rstKept := 0,
    rstWithdrawn := 0, features := [], aers := [], masked := [] }
  let s := (s.host.cmds.filter fun c => decide (c.port = port) && !c.stopped).foldl (fun (t : State) c => t.resetCmd port c) s
  let q := s.port port
  let s := s.count R.INTAKE.RESET_STAT_DISCARDED 0 0 (q.rstDiscarded + q.rstDropped + q.rstWithdrawn)
  let s := s.resetPitches port
  let s := s.mHost fun h => { h with
    sqs := h.sqs.filter fun x => decide (x.port ≠ port)
    cqs := h.cqs.filter fun x => decide (x.port ≠ port)
    events := h.events.filter fun e => decide (e / 2 ^ 32 ≠ port) }
  ((s.clearWindows port).releaseLock 0).ctxUse

/-- A reset of R588 reaches the controller; one that arrives while a reset runs joins it (R590). -/
def State.joinReset (s : State) (port : Nat) : State :=
  if (s.port port).resetting then s else s.resetController port

/-- CC_EN_CLEAR (R156). -/
def execCcEnClear (port : Nat) (s : State) : Host.Outcome State Fault Refusal :=
  .next <|
    if s.portIs port = true ∧ (s.port port).en = true then (s.hostRequest).joinReset port else s

/-- CONTROLLER_RESET_COMPLETE (R156 step 5): the outstanding host reads have completed or timed out; CSTS.RDY reads 0
and the counts are recorded. -/
def execControllerResetComplete (port : Nat) (s : State) : Host.Outcome State Fault Refusal :=
  .next <|
    let q := s.port port
    if q.resetting = false then s
    else
      let s := s.mPort port fun p => { p with resetting := false, rdy := false, hostReads := [] }
      s.record 1 0x084 [q.rstDiscarded % 2 ^ 31 + 2 ^ 31 * port, q.rstDropped, q.rstKept, q.rstWithdrawn]

/-- The admin queues of a controller being enabled: their sizes are the host's, which no operand gives; they are taken as
the largest NVMe 2.1 allows (PRESUMED, log entry 47). -/
def State.adminQueues (s : State) (port : Nat) : State :=
  s.mHost fun h => { h with
    sqs := h.sqs ++ [({ port := port, id := 0, size := 4096, cq := 0, prio := 0 } : Sq)]
    cqs := h.cqs ++ [({ port := port, id := 0, size := 4096, vector := 0 } : Cq)] }

/-- CC_EN_SET (R119, R586): CSTS.RDY follows in SERVICE and QUIESCE. Nothing reaches a port without a link. -/
def execCcEnSet (port ams : Nat) (s : State) : Host.Outcome State Fault Refusal :=
  .next <|
    let q := s.port port
    if s.portIs port = false ∨ q.linkUp = false ∨ q.en = true ∨ q.resetting = true then s
    else
      ((s.hostRequest).mPort port fun p => { p with
        en := true, ams := ams % 8, shn := 0, shst := 0, rdy := decide (s.dst = 4 ∨ s.dst = 5) }).adminQueues port

/-- SHUTDOWN_NOTIFICATION (R158): fetching and accepting stop. -/
def execShutdownNotification (port shn : Nat) (s : State) : Host.Outcome State Fault Refusal :=
  .next <|
    if s.portIs port = true ∧ (s.port port).en = true ∧ (shn = 1 ∨ shn = 2) ∧ (s.port port).shst = 0 then
      (s.hostRequest).mPort port fun p => { p with shn := shn, shst := 1 }
    else s

/-- SHUTDOWN_COMPLETE (R158): no accepted command of the controller but its event requests is outstanding, and RESIDENT
is 0. -/
def execShutdownComplete (port : Nat) (s : State) : Host.Outcome State Fault Refusal :=
  .next <|
    let busy := s.host.cmds.any fun c =>
      decide (c.port = port) && decide (c.stage = .accepted) && !(decide (c.kind = .admin) && decide (c.opcode = 0x0C))
    if (s.port port).shst = 1 ∧ busy = false ∧ s.seen 184 = 0 then s.mPort port fun p => { p with shst := 2 } else s

/-! ### The link (R585, R588 to R590, R628) -/

/-- The credits a counter of a port holds in one term all move to another (R99, R589). -/
def State.moveCredits (s : State) (port src dst : Nat) : State :=
  (List.range 16).foldl (fun (t : State) k =>
    let c := port * 16 + k
    let n := t.term (src + c)
    (t.move (src + c) (-n)).move (dst + c) n) s

/-- A port's link and configuration space are reset: received TLPs are released (R589) and Max_Payload_Size returns to
its PCI Express reset value (PRESUMED, log entry 47). -/
def State.dropLink (s : State) (port : Nat) : State :=
  (s.mPort port fun p => { p with linkUp := false, mps := 128 }).moveCredits port 64 128

/-- A reset of R588 of a port's link; in CLOSING and HALT it only takes the link down (R590). -/
def State.resetPort (s : State) (port : Nat) (f : Field) : State :=
  let s := s.dropLink port
  if 6 ≤ s.dst then s else (s.count f).joinReset port

/-- PERST_N_ASSERT (R588, R590). -/
def execPerstNAssert (port : Nat) (s : State) : Host.Outcome State Fault Refusal :=
  .next <|
    if s.portIs port = false ∨ s.dst = 0 ∨ (s.port port).perst = false then s
    else
      (s.mPort port fun p => { p with perst := false }).resetPort port
        (if port = 0 then R.BOOT.PERST_CNT_PORT0 else R.BOOT.PERST_CNT_PORT1)

/-- PERST_N_DEASSERT (R585): the link may train. -/
def execPerstNDeassert (port : Nat) (s : State) : Host.Outcome State Fault Refusal :=
  .next (if s.portIs port = false ∨ s.dst = 0 then s else s.mPort port fun p => { p with perst := true })

/-- HOT_RESET (R588). -/
def execHotReset (port : Nat) (s : State) : Host.Outcome State Fault Refusal :=
  .next (if s.portIs port = false ∨ (s.port port).linkUp = false then s else s.resetPort port R.BOOT.PORT_RST_HOT)

/-- FLR (R588): the link and Max_Payload_Size stay. -/
def execFlr (port : Nat) (s : State) : Host.Outcome State Fault Refusal :=
  .next <|
    if s.portIs port = false ∨ (s.port port).linkUp = false ∨ 6 ≤ s.dst then s
    else (s.count R.BOOT.PORT_RST_FLR).joinReset port

/-- LINK_DOWN (R588, R589): the link goes down other than by an L1 or L2 entry. -/
def execLinkDown (port : Nat) (s : State) : Host.Outcome State Fault Refusal :=
  .next (if s.portIs port = false ∨ (s.port port).linkUp = false then s else s.resetPort port R.BOOT.PORT_RST_HOT)

/-- The rates a link trains at, in tenths of GT/s (R627). -/
def linkRates : List Nat := [25, 50, 80, 160, 320, 640, 1280]

/-- LINK_UP (R585, R589, R628): with HOST powered and PERST_N high the link trains; every PEND credit is advertised, and
the capacity test is run with the new capacities. The rate is in tenths of GT/s. -/
def execLinkUp (port width rate : Nat) (s : State) : Host.Outcome State Fault Refusal :=
  .next <|
    let wide := if s.split then [1, 2, 4, 8] else [1, 2, 4, 8, 16]
    if s.portIs port = false ∨ (s.port port).perst = false ∨ s.domOn 1 = false ∨ wide.contains width = false
        ∨ linkRates.contains rate = false ∨ 1280 / 2 ^ s.rd R.BOOT.STRAP_RATE < rate then s
    else
      ((s.mPort port fun p => { p with linkUp := true, width := width, rate := rate }).moveCredits port 128 96).retest

/-- DEVICE_CONTROL_WRITE (R423): Max_Payload_Size in bytes; the capacity test is run again. -/
def execDeviceControlWrite (port mps : Nat) (s : State) : Host.Outcome State Fault Refusal :=
  .next <|
    if s.portIs port = true ∧ (s.port port).linkUp = true ∧ [128, 256, 512, 1024, 2048, 4096].contains mps = true then
      ((s.hostRequest).mPort port fun p => { p with mps := mps }).retest
    else s

end Sys2Proof.Machine
end

