-- ==== Sys2Proof/Machine/Select.lean ====
section
/-! DEFINITION. Which fields an offset of a page names, the entry of a bank an access reaches, and the loading of
configuration records into the pages (R534, R548, R557, R595). -/

namespace Sys2Proof.Machine

open Sys2Proof

/-- The INDEX of the first page of a page's type (R596, R597). -/
def pageType (p : Nat) : Nat :=
  if 0x20 ≤ p ∧ p < 0x30 then 0x20 else if 0x30 ≤ p ∧ p < 0x70 then 0x30 else if 0x70 ≤ p ∧ p < 0x7C then 0x70
  else if 0x80 ≤ p ∧ p < 0xE0 then 0x80 else p

/-- Whether an INDEX names a page (R596). -/
def isPage (p : Nat) : Bool :=
  decide (p ≤ 0x0E) || decide (0x10 ≤ p ∧ p ≤ 0x1C) || decide (0x20 ≤ p ∧ p < 0x7C) || decide (0x80 ≤ p ∧ p < 0xE0)

/-- The fields an offset of a page names: those common to every page below 0x100 (R597), the page's own above. -/
def fieldsAt (p off : Nat) : List Field :=
  if off < 0x100 then R.COMMON.fields.filter fun f => decide (f.off = off)
  else R.blockFields.filter fun f => decide (f.page = pageType p) && decide (f.off = off)

/-- The instance by which a field of a page is kept: the page INDEX for a common field. -/
def instAt (p off : Nat) : Nat := if off < 0x100 then p else p - pageType p

/-- The entry of the bank that an access to an offset reaches: what the page's select fields name, or the initiator's
own bank of the LOG page (R557). -/
def State.bankAt (s : State) (who : Initiator) (p off : Nat) : Nat :=
  let within := fun a b => decide (a ≤ off ∧ off ≤ b)
  match pageType p with
  | 0x02 => 0
  | 0x03 =>
    if off = 0x100 ∨ within 0x120 0x17C ∨ within 0x198 0x1B0 then logBank who
    else if within 0x184 0x188 then s.rd R.LOG.RATE_SEL_CODE else 0
  | 0x05 => if off = 0x108 then s.rd R.XCLK.CLK_SEL_ISLAND else 0
  | 0x06 =>
    if off = 0x118 ∨ off = 0x120 then s.rd R.CORESYS.WDOG_SEL_HART
    else if off = 0x138 then s.rd R.CORESYS.IRQ_SEL_SOURCE else 0
  | 0x07 =>
    if within 0x104 0x110 then s.rd R.INSPECT.LIM_SEL_LIMIT
    else if within 0x118 0x120 then s.rd R.INSPECT.HWIN_SEL_WIN else 0
  | 0x09 => if within 0x108 0x110 then s.rd R.MEMCHK.GRP_SEL_GROUP else 0
  | 0x0A => if off = 0x154 then s.rd R.HEALTH.TEMP_SEL_BIN else 0
  | 0x0B => if off = 0x130 then s.rd R.BELL.RB_SEL_PHASE else 0
  | 0x0C => if off = 0x128 then s.rd R.CFLASH.XWIN_SEL_WIN else 0
  | 0x0D =>
    if within 0x118 0x11C then s.rd R.GATE.PIECE_SRC
    else if within 0x144 0x15C then s.rd R.GATE.SLOT_SEL_SLOT else 0
  | 0x11 =>
    if off = 0x164 then qb (s.rd R.INTAKE.QB_SEL_PORT) (s.rd R.INTAKE.QB_SEL_SQID)
    else if off = 0x21C then s.rd R.INTAKE.DEFER_NS_NSID else 0
  | 0x14 => if within 0x148 0x158 then s.rd R.LCACHE.LOCK_SEL_RGN else 0
  | 0x18 => if within 0x104 0x118 then s.rd R.CRATEYD.POOL_SEL_POOL else 0
  | 0x19 => if off = 0x138 then s.rd R.WPATH.WGROUP_SEL_NSID else 0
  | 0x70 => if off = 0x13C then s.rd R.DECODE.STEP_SEL_STEP (p - 0x70) else 0
  | _ => 0

/-! ### Configuration records (R534) -/

/-- The fields that are read-only to software and that their tables load from the configuration record. -/
def configFields : List Field :=
  [R.WPATH.DENSE_CFG_MODE, R.STALL.CH_STATE_MODE, R.DECODE.CW_CFG_CODE, R.HEALTH.SPARE_CFG_WARN, R.HEALTH.SPARE_CFG_EOL,
   R.HEALTH.SPARE_CFG2_FLOOR, R.HEALTH.WEAR_BUDGET_DAY_PPM, R.HEALTH.WEAR_BUDGET2_YEAR_PPM, R.HEALTH.HCFG_ITER_MEAN,
   R.HEALTH.HCFG_MIN_CW, R.HEALTH.HCFG2_SOFT_PPM, R.HEALTH.HCFG2_RETRY_PPM, R.BELL.HU_CFG_OK, R.BELL.HU_CFG_FAIL,
   R.PCHAN.CH_OWNER_OWNER, R.POWER.THERM_CFG_WCTEMP, R.POWER.THERM_CFG_CCTEMP, R.POWER.THERM_CFG_OVERRIDE,
   R.POWER.THERM_CFG_SHUTDOWN, R.POWER.THERM_CFG2_RESTART, R.LOG.RATE_CFG_RATE, R.LOG.RATE_CFG_BURST,
   R.LOG.RATE_CFG_UNLIMITED, R.LOG.RATE_CFG_SNAP_FIXED]
    ++ (List.range 16).map fun n => R.PORTER.TMR_OWNER_OWNER n

/-- Whether the boot ROM loads a field. -/
def loadable (f : Field) : Bool := decide (f.acc = .rw) || decide (f.acc = .rwl) || configFields.contains f

/-- A word of a configuration record is loaded into a register; a value outside its field's range becomes the field's
reset value, with a record. -/
def State.loadWord (s : State) (p off v : Nat) : State :=
  let b := s.bankAt .bootRom p off
  let i := instAt p off
  (fieldsAt p off).foldl (fun (t : State) f =>
    let x := v / 2 ^ f.lo % 2 ^ f.width
    if loadable f = false then t
    else if f.rmin ≤ x ∧ x ≤ f.rmax then t.wr f x i b
    else (t.wr f f.reset i b).record 8 0x2E5 [pageType p, p + off * 0x10000, x, 0]) s

/-- The winning record of a hardware type (R534); both CONFIG areas hold the same records. -/
def State.hwRecord (s : State) (type : Nat) : Option CfgRec :=
  (cfgWinners (s.nv.cfgA ++ s.nv.cfgB)).find? fun r => decide (r.type = type) && decide (r.format = 1)

/-- The words of a record as pairs of an offset and a value (log entry 7). -/
def CfgRec.pairs (r : CfgRec) : List (Nat × Nat) := r.payload.map fun w => (w % 2 ^ 32, w / 2 ^ 32)

/-- A value of a record that no register holds. -/
def State.configValue (s : State) (type off : Nat) (d : Nat) : Nat :=
  match s.hwRecord type with
  | none => d
  | some r => match r.pairs.find? fun e => decide (e.1 = off) with
    | some e => e.2
    | none => d

/-- The hardware records are loaded into their pages, each unless it is locked, and with them the geometry of the dies;
the code table's loading fills every bucket (R534, R548, R550). -/
def State.loadConfig (s : State) : State :=
  let s := (List.range 0xE0).foldl (fun (t : State) p =>
    match t.hwRecord p with
    | none => t
    | some r =>
      if isPage p = false ∨ t.rd R.COMMON.PAGE_LOCK_LOCK p = 1 then t
      else r.pairs.foldl (fun (u : State) e => if e.1 < 0xF00 then u.loadWord p e.1 e.2 else u) t) s
  let s := s.mSt fun t => { t with
    planes := s.configValue 0x80 0xF00 t.planes, blocks := s.configValue 0x80 0xF04 t.blocks, pages := s.configValue 0x80 0xF08 t.pages }
  s.mLog fun l => { l with spent := [] }

end Sys2Proof.Machine
end

