-- ==== Sys2Proof/Machine/Startup.lean ====
section
/-! DEFINITION. Power-up and restart (R119 to R125, R523, R543, R576 to R588): the WATCH and MAIN resets, WAKE with its
straps, rails, slot choice and DRAM training, and the ways to OFF and from HALT. -/

namespace Sys2Proof.Machine

open Sys2Proof

/-! ### The hardware resets (R587, R588) -/

/-- A port after a reset: only the level of its PERST ball stays. -/
def Port.fresh (p : Port) : Port := { perst := p.perst }

/-- A MAIN reset (R107, R501, R526, R588) with a cause of MAIN_LAST: every MAIN page, the terms but CAP and NEXT, and
what the MAIN islands hold; the host-granted windows and the slot lock go with it. -/
def State.mainReset (s : State) (cause : Nat) : State :=
  let s := (((s.clearWindows 0).clearWindows 1).releaseLock 0).releaseLock 1
  let s := ((s.dropStaging 0).dropStaging 1).enterPs 0
  let kept := s.regs.filter fun e => decide (keyPage e.1 < 0x10)
  let s := { s with
    regs := resetBanks.foldl (fun (t : Tbl Nat) (e : Nat × Nat) => t.set 0 e.1 e.2) kept
    tal := { s.tal with
      terms := Tbl.set 0 resetTerms 190 (s.tal.terms.get 0 190 + s.tal.shadow.get 0 190)
      moving := [], shadow := [], prev := [], events := [], mayEnd := false, realSeen := false }
    pit := {}, led := {}, lc := {}, cr := {}, wp := {}, sw := {}, ciph := {}, por := {}, isl := {}, bell := {}, dram := []
    host := { p0 := s.host.p0.fresh, p1 := s.host.p1.fresh, nextUid := s.host.nextUid }
    st := { planes := s.st.planes, blocks := s.st.blocks, pages := s.st.pages }
    integ := { mem := s.integ.mem }
    pwr := { temps := s.pwr.temps, above := s.pwr.above, psFrom := s.pwr.psFrom, psTicks := s.pwr.psTicks } }
  let s := s.mCore fun c => { c with adm := [], admWait := [] }
  let s := ((s.admShow.wr R.POWER.PS_CUR_SELECTED 0).wr R.POWER.PS_CUR_AUTO 0).wr R.POWER.PS_CUR_TRANSITION 0
  let s := ((s.set R.TALLY.TALLY_STATE_STATE 0).wr R.TALLY.TALLY_STATE_INJECTED_ONLY 0).wr R.TALLY.TALLY_STATE_STALE 0
  (s.count R.BOOT.MAIN_CNT_COUNT).wr R.BOOT.MAIN_LAST_CAUSE cause

/-! ### WAKE (R576 to R584) -/

/-- WAKE_STEP shows the step of R582 that runs; 0 outside WAKE. -/
def State.showStep (s : State) : State :=
  s.wr R.BOOT.WAKE_STEP_STEP <|
    if s.dst ≠ 1 then 0
    else if s.dev.strapped = false then (if s.rd R.BOOT.MAIN_LAST_CAUSE = 1 then 1 else 2)
    else if s.dev.railStage < 6 then 4
    else if s.cf.chosen = 0 then 5
    else if s.rd R.LEDGER.DRAM_MAP_SIZE = 0 then 7
    else 8

/-- WAKE begins (R125, R368, R409, R523, R578): what the last WAKE left is forgotten, the FAIL comparator is disarmed
unless OK reads above, and the wrap counter is advanced. -/
def State.startWake (s : State) : State :=
  let s := [R.DEVSTATE.DEG_INFO_CH_LOST, R.DEVSTATE.DEG_INFO_DIES_LOST, R.DEVSTATE.DEG_INFO2_SG_LOST,
    R.BOOT.RAIL_STAT_VALID, R.BOOT.RAIL_FAIL_RAILS, R.BOOT.RAIL_EARLY_RAILS, R.GATE.BOOT_INFO_RUN_POLICY,
    R.GATE.BOOT_INFO_RUN_MGMT].foldl (fun (t : State) f => t.wr f 0) s
  let s := if s.rd R.DEVSTATE.DEV_STATE_DIAG_BOOT = 1 then
      ((s.wr R.DEVSTATE.DEV_STATE_DIAG_BOOT 0).wr R.DEVSTATE.MODE_CUR_MODES
        (clrBit (s.rd R.DEVSTATE.MODE_CUR_MODES) 5)).traceOff
    else s
  let w := (s.nv.wrapCtr + 65536) % 2 ^ 64
  let s := s.mNv fun n => { n with wrapCtr := w }
  let s := s.mDev fun d => { d with
    railStage := 0, enables := 0, stPhase := 0, policyUp := false, mgmtUp := false, strapped := false, wrap := w
    failArmed := decide (s.rd R.BELL.HU_STAT_OK = 1), huFrom := none }
  let s := (s.mLog fun l => { l with closed := false }).mCf fun c => { c with chosen := 0, microcode := 0 }
  (s.wr R.CIPHER.WRAP_STAT_READY 1).showStep

/-- POWER_ON_RESET_RELEASE (R119, R543, R579, R582, R588, R630): the WATCH reset. Every WATCH field takes its reset
value and MONOTONIC is 0; what code flash keeps is read, the epoch record is appended, and WAKE begins, in board test
mode where TEST_EN reads high. The machine of State.reset stands before this command's effects (log entry 1). -/
def execPowerOnResetRelease (testEn : Bool) (s : State) : Host.Outcome State Fault Refusal :=
  .next <|
    if s.dst ≠ 0 ∧ (s.dst ≠ 1 ∨ s.rd R.TIME.EPOCH_VALUE ≠ 0) then s
    else
      let s : State := { State.reset with
        nv := { s.nv with epoch := (s.nv.epoch + 1) % 2 ^ 32 }, free := s.free, pending := s.pending
        host := { p0 := s.host.p0.fresh, p1 := s.host.p1.fresh, nextUid := s.host.nextUid }
        dev := { boardTest := testEn } }
      let s := s.wr R.TIME.EPOCH_VALUE s.nv.epoch
      let s := ((s.wr R.INSPECT.TRIM_FUSE_LO Config.trimLo).wr R.INSPECT.TRIM_FUSE_HI Config.trimHi).showDesc
      let s := (s.wr R.GATE.OWNER_LOCK (b2n s.nv.owner)).wr R.GATE.FALLBACKS_COUNT s.nv.fallbacks
      let s := (s.wr R.LOG.PERM_USE_SLOTS s.nv.perm.length).wr R.HEALTH.SPARE_INIT s.nv.spareInit
      let s := (s.count R.BOOT.MAIN_CNT_COUNT).wr R.BOOT.MAIN_LAST_CAUSE 1
      let s := s.startWake
      let s := s.recordNow 0x000 [s.nv.epoch, 0x000101A0, 0, 0]
      let old := s.devWord - s.dst
      s.recordNow 0x001 [old, s.devWord, 0x1000, s.modeWord]

/-- VDD_WATCH_LOSS (R121, R126, R380, R553): the device is OFF. The closing bell ends where it stands, operations on code
flash are cut, and all that does not outlive power is gone. -/
def execVddWatchLoss (s : State) : Host.Outcome State Fault Refusal :=
  .next <|
    if s.dst = 0 then s
    else
      let s := if s.dst = 6 then s.bellWrite false else s
      let s := (s.flStop 0 true).flStop 1 true
      let t : State := { nv := s.nv, free := s.free, pending := s.pending
                         host := { p0 := s.host.p0.fresh, p1 := s.host.p1.fresh, nextUid := s.host.nextUid } }
      ({ t with regs := State.reset.regs, tal := State.reset.tal }).wr R.DEVSTATE.DEV_STATE_STATE 0

/-! ### Straps (R580, R581) -/

/-- The bits of each strap, in the order of STRAP. -/
def straps : List (Nat × Nat) := [(0, 1), (1, 1), (2, 2), (4, 1), (5, 3)]

/-- The mask of the straps whose samples disagree; each bit of such a strap counts. -/
def unstable (samples : List Nat) : Nat :=
  (straps.map fun b =>
    if samples.all fun x => decide (bits x b.1 b.2 = bits (samples.headD 0) b.1 b.2) then 0
    else (2 ^ b.2 - 1) * 2 ^ b.1).sum

/-- STRAP_SAMPLE_COMPLETE (R127, R580, R581): each strap takes its value where all samples agree, else its safe value 0,
with a record. LEGACY follows its strap, and the rails begin to ramp (R582). -/
def execStrapSampleComplete (samples : List Nat) (s : State) : Host.Outcome State Fault Refusal :=
  .next <|
    if s.dst ≠ 1 ∨ s.dev.strapped then s
    else
      let u := unstable samples
      let v := without (samples.headD 0 % 256) u
      let s := (((((s.wr R.BOOT.STRAP_LEGACY v).wr R.BOOT.STRAP_SPLIT (v / 2)).wr R.BOOT.STRAP_RATE (v / 4)).wr
        R.BOOT.STRAP_MGTBUS (v / 16)).wr R.BOOT.STRAP_MIADDR (v / 32)).wr R.BOOT.STRAP_UNSTABLE u
      let s := if u = 0 then s else s.record 8 0x012 [u, 0, 0, 0]
      let old := s.rd R.DEVSTATE.MODE_CUR_MODES
      let now := if bit v 0 then setBit old 7 else clrBit old 7
      let s := if now = old then s
        else (s.wr R.DEVSTATE.MODE_CUR_MODES now).recordNow 0x002 [old, now, 0x2700, s.modeWord]
      let s := s.wr R.POWER.DVFS_STAT_VDD 10
      (s.mDev fun d => { d with strapped := true, enables := 1, railFrom := s.mono }).showStep

/-! ### Rails (R576 to R578, R621) -/

/-- The stage of a rail, numbered as R592. -/
def railStageOf (rail : Nat) : Nat := min rail 5 + 1

/-- The rails of a stage. -/
def stageRails (stage : Nat) : List Nat := (List.range 17).filter fun r => decide (railStageOf r = stage)

/-- Every populated domain is powered on, but the groups already lost, and MAIN and CORE leave reset, unless board test
mode holds them (R449, R467, R468, R582, R630). -/
def State.powerDomains (s : State) : State :=
  let on := (List.range 17).filter fun d => !(decide (5 ≤ d) && bit (s.rd R.DEVSTATE.DEG_INFO2_SG_LOST) (d - 5))
  let s := s.wr R.POWER.DOM_STAT_ON ((on.map fun d => 2 ^ d).sum)
  let s := (s.wr R.POWER.DVFS_STAT_CORE_CLK 24).wr R.POWER.DVFS_STAT_VDD 20
  let s := s.wr R.BOOT.WAKE_LAST_RAIL_MS (min ((s.mono - s.dev.railFrom) / 100000) 255)
  if s.dev.boardTest then s else s.coreRelease

/-- RAIL_STAGE_VALID (R576, R577): every rail of the stage being ramped is valid, those that failed apart; the next stage
begins, and after stage 6 the domains are powered on. `early` names the rails found in range before their enable. -/
def execRailStageValid (early : Nat) (s : State) : Host.Outcome State Fault Refusal :=
  .next <|
    if s.dst ≠ 1 ∨ s.dev.strapped = false ∨ 6 ≤ s.dev.railStage then s
    else
      let k := s.dev.railStage + 1
      let good := (stageRails k).filter fun r => !bit (s.rd R.BOOT.RAIL_FAIL_RAILS) r
      let s := good.foldl (fun (t : State) r =>
        let t := t.wr R.BOOT.RAIL_STAT_VALID (setBit (t.rd R.BOOT.RAIL_STAT_VALID) r)
        if bit early r then t.wr R.BOOT.RAIL_EARLY_RAILS (setBit (t.rd R.BOOT.RAIL_EARLY_RAILS) r) else t) s
      let s := s.mDev fun d => { d with railStage := k, enables := min (k + 1) 6 }
      (if k = 6 then s.powerDomains else s).showStep

/-- The slot chosen at this WAKE falls back where it is on trial (R524). -/
def State.wakeFall (s : State) : State :=
  let t := s.nv.desc.trial
  if t ≠ 0 ∧ t = s.cf.chosen then s.fallBack t 4 true else s

/-- RAIL_ENABLE_TIMEOUT (R301, R576, R578): a rail of the stage being ramped is not valid within 3 ms of its enable. -/
def execRailEnableTimeout (rail : Nat) (s : State) : Host.Outcome State Fault Refusal :=
  .next <|
    if s.dst ≠ 1 ∨ s.dev.strapped = false ∨ 17 ≤ rail ∨ railStageOf rail ≠ s.dev.railStage + 1
        ∨ bit (s.rd R.BOOT.RAIL_FAIL_RAILS) rail then s
    else
      let s := s.wr R.BOOT.RAIL_FAIL_RAILS (setBit (s.rd R.BOOT.RAIL_FAIL_RAILS) rail)
      if 5 ≤ rail then s.loseGroup (rail - 5) 2 else s.wakeFall.enterHalt 6 6

/-- RAIL_OUT_OF_WINDOW (R301, R621): a valid rail has left its window, as R592 numbers them. -/
def execRailOutOfWindow (rail : Nat) (s : State) : Host.Outcome State Fault Refusal :=
  .next <|
    if 17 ≤ rail ∨ bit (s.rd R.BOOT.RAIL_STAT_VALID) rail = false then s
    else
      let s := s.wr R.BOOT.RAIL_STAT_VALID (clrBit (s.rd R.BOOT.RAIL_STAT_VALID) rail)
      if 5 ≤ rail then s.loseGroup (rail - 5) 2
      else if s.dst = 1 ∨ s.dst = 2 then s.enterHalt 3 3
      else s.enterClosing .hardware 1

/-! ### The slot choice (R523, R534) -/

/-- The candidate of this WAKE, with what choosing it appends to the descriptor. -/
def State.startCandidate (s : State) : State × Nat :=
  let d := s.nv.desc
  if d.next ≠ 0 then (s.appendDesc fun d => { d with next := 0, trial := d.next, boots := 1 }, d.next)
  else if d.trial ≠ 0 then
    if d.boots < s.rd R.GATE.GATE_CFG_TRIAL_MAX then (s.appendDesc fun d => { d with boots := d.boots + 1 }, d.trial)
    else (s.fallBack d.trial 3 true, d.current)
  else (s, d.current)

/-- The first startable slot of a list; each slot passed over is a fall-back with cause 1, not valid, or 2, not tested. -/
def firstSlot (s : State) : List Nat → State × Option Nat
  | [] => (s, none)
  | k :: t =>
    if s.slotValid k && s.slotTested k then (s, some k)
    else firstSlot (s.fallBack k (if s.slotValid k then 2 else 1) (decide (s.nv.desc.trial = k))) t

/-- What fails the tested check of a slot: the stepping, or the version of a component it reuses (R523). -/
def State.untested (s : State) (slot : Nat) : Nat :=
  let h := s.header slot
  let o := s.header (3 - slot)
  if ((h.drop 24).take 8).contains stepping = false then stepping
  else
    let bad := fun c => decide (compMode h c = 2) && !(decide (compMode o c = 1) && decide (compVersion o c ≠ 0)
      && (List.range 4).any fun k => decide (hdr h (32 + 32 * c + 16 + 4 * k) 4 = compVersion o c))
    match (List.range 3).filter bad with
    | c :: _ => compVersion o c
    | [] => 0

/-- A slot is started in WAKE: its stall microcode, the windows of both slots, and what the registers show of them. -/
def State.takeSlot (s : State) (slot : Nat) : State :=
  let s := s.mCf fun c => { c with chosen := slot, microcode := s.compSlot slot 2 }
  let s := (List.range 8).foldl (fun t w => t.loadWindow w) s
  (((s.showSlot 1 (s.slotValid 1)).showSlot 2 (s.slotValid 2))).showStep

/-- The boot ROM sets DIAGNOSE for an untested image under the development override (R127, R128, R523). -/
def State.diagBoot (s : State) (slot : Nat) : State :=
  let s := s.record 8 0x2E6 [slot, s.untested slot, 0, 0]
  let old := s.rd R.DEVSTATE.MODE_CUR_MODES
  let s := (s.wr R.DEVSTATE.DEV_STATE_DIAG_BOOT 1).wr R.DEVSTATE.MODE_CUR_MODES (setBit old 5)
  s.recordNow 0x002 [old, setBit old 5, 0x2500, s.modeWord]

/-- BOOT_SLOT_CHOICE (R523, R534): the boot ROM loads the hardware configuration records, and chooses and verifies the
slot to start. With none, HALT, or under the development override a valid slot that is not tested. -/
def execBootSlotChoice (s : State) : Host.Outcome State Fault Refusal :=
  .next <|
    if s.dst ≠ 1 ∨ s.dev.strapped = false ∨ s.dev.boardTest ∨ s.cf.chosen ≠ 0 then s
    else
      let c := s.loadConfig.startCandidate
      let cur := c.1.nv.desc.current
      let r := firstSlot c.1 [c.2, cur, 3 - cur].eraseDups
      match r.2 with
      | some k => r.1.takeSlot k
      | none =>
        let k := if r.1.slotValid c.2 then c.2 else cur
        if Config.devFuse && r.1.slotValid k then (r.1.diagBoot k).takeSlot k else r.1.enterHalt 6 6

/-! ### The end of WAKE -/

/-- DDR5_TRAINING_COMPLETE (R582): MEMORY is powered; the capacity found, in GiB, the rate trained in MT/s,
and how long training took. -/
def execDdr5TrainingComplete (gib mts ms : Nat) (s : State) : Host.Outcome State Fault Refusal :=
  .next <|
    if s.dst ≠ 1 ∨ s.domOn 3 = false ∨ s.dev.boardTest then s
    else ((((s.mDev fun d => { d with ddrMts := mts })).wr R.LEDGER.DRAM_MAP_SIZE (min gib 1023)).wr R.BOOT.WAKE_LAST_DDR_MS (min ms 255)).showStep

/-- Whether every step of R582 is done. -/
def State.wakeDone (s : State) : Bool :=
  decide (s.dst = 1) && s.dev.strapped && decide (s.dev.railStage = 6) && decide (s.cf.chosen ≠ 0)
    && decide (s.rd R.LEDGER.DRAM_MAP_SIZE ≠ 0) && !s.dev.boardTest

/-- WAKE_COMPLETE (R121, R582): SELF_TEST begins, with its results of the last one cleared. -/
def execWakeComplete (s : State) : Host.Outcome State Fault Refusal :=
  .next <|
    if s.wakeDone = false then s
    else
      let s := s.wr R.BOOT.WAKE_LAST_MS (min ((s.mono - s.dev.stateEntry) / 100000) 255)
      let s := [R.MEMCHK.ST_RESULT_FAILED, R.MEMCHK.ST_RESULT_DECODER, R.INJFAB.ST_RESULT_PHASE_FAIL, R.INJFAB.ST_RESULT_PASS, R.INJFAB.ST_RESULT_HALTED, R.INJFAB.ST_SG_FAILED,
        R.INJFAB.ST_TRANSIENT_COUNT, R.INJFAB.ST_FIRED_COUNT, R.INJFAB.ST_FIRST_TEST,
        R.INJFAB.ST_FIRST_ISLAND].foldl (fun (t : State) f => t.wr f 0) s
      (s.goState 2 .hardware 0x11).mDev fun d => { d with stPhase := 1 }

/-- WAKE_TIMER_EXPIRY (R122, R524): the timer does not run in board test mode (R630). -/
def execWakeTimerExpiry (s : State) : Host.Outcome State Fault Refusal :=
  .next (if s.dst ≠ 1 ∨ s.dev.boardTest then s else s.wakeFall.enterHalt 6 6)

/-! ### Leaving HALT (R125, R135, R584) -/

/-- HALT is left for WAKE: MAIN and CORE are reset and WATCH runs on. -/
def State.restart (s : State) (who : Requester) : State :=
  ((((s.coreReset 5 0).goState 1 who 0x17).mainReset 2)).startWake

/-- The automatic restarts of the last 60 s. -/
def State.recentRestarts (s : State) : List Nat := s.dev.restarts.filter fun t => decide (s.mono < t + 6000000000)

/-- HALT_CTRL.RESTART (R125, R135): management firmware; ignored outside HALT. It opens the window of automatic restarts
anew. -/
def execHaltCtrlRestart (who : Initiator) (s : State) : Host.Outcome State Fault Refusal :=
  .next <|
    if mayWrite R.DEVSTATE.HALT_CTRL_RESTART who = false then s.denyUnder 13 who 0 0x12C
    else if s.dst ≠ 7 then s
    else ((s.mDev fun d => { d with restarts := [] }).wr R.DEVSTATE.DEV_STATE_RESTARTS 0).restart (requester who)

/-- Whether the cause of HALT lets it end by itself, as far as the state shows it (R125): a power failure, or heat with
the junction below the restart threshold. -/
def State.mayRestart (s : State) : Bool :=
  let c := s.rd R.DEVSTATE.DEV_STATE_HALT_CAUSE
  let cool := match s.composite with
    | some v => decide (v < s.degrees R.POWER.THERM_CFG2_RESTART)
    | none => true
  decide (c = 1 ∨ c = 2 ∨ c = 3) || (decide (c = 4) && cool)

/-- RESTART_DWELL_EXPIRY (R122, R125): the restart condition has held for the dwell. After three automatic restarts within
60 s the HALT is left only by HALT_CTRL.RESTART. -/
def execRestartDwellExpiry (s : State) : Host.Outcome State Fault Refusal :=
  .next <|
    let l := s.recentRestarts
    if s.dst ≠ 7 ∨ s.mayRestart = false ∨ 3 ≤ l.length then s
    else
      let l := l ++ [s.mono]
      ((s.mDev fun d => { d with restarts := l }).wr R.DEVSTATE.DEV_STATE_RESTARTS l.length).restart .hardware

/-- VR_ALERT_N (R621): the alert is logged and acts on nothing. The spec gives its record no code and no snapshots: they
are free values (log entry 3). -/
def execVrAlertN (s : State) : Host.Outcome State Fault Refusal :=
  .next <|
    if s.dst = 0 then s
    else
      let a := s.fresh
      let b := a.2.fresh
      b.2.record 8 (Config.freeValue a.1 % 0x20)
        ((List.range 4).map fun n => Config.estimate b.1 n)

end Sys2Proof.Machine
end

