-- ==== Sys2Proof/Machine/SelfTest.lean ====
section
/-! DEFINITION. The start-up self-test and channel bring-up (R279, R280, R285 to R290, R301, R410, R574), and entry to
REBUILD (R174, R372, R583). -/

namespace Sys2Proof.Machine

open Sys2Proof

/-! ### Failed tests (R574) -/

/-- A final failure of a test in an island: ST_FIRST keeps the first, its stall group is lost where it is confined to
one, and a channel that fails bring-up, test 10, is lost alone; any other ends the self-test in HALT. An island is
numbered as in R463; a memory group of a stall group stands as its DECODE island. A failure of a SECDED checker, test 2,
names its memory group as well, 128 times over the island; that and a decoder's show in MEMCHK.ST_RESULT (R330). -/
def State.stFail (s : State) (phase : Nat) (e : Nat × Nat) : State :=
  let f := (e.1, e.2 % 128)
  let s := if f.1 = 2 then s.wr R.MEMCHK.ST_RESULT_FAILED (setBit (s.rd R.MEMCHK.ST_RESULT_FAILED) (e.2 / 128 % 25))
    else if f.1 = 3 then s.wr R.MEMCHK.ST_RESULT_DECODER 1 else s
  let s := s.wr R.INJFAB.ST_RESULT_PHASE_FAIL (setBit (s.rd R.INJFAB.ST_RESULT_PHASE_FAIL) (phase - 1))
  let s := if s.rd R.INJFAB.ST_FIRST_TEST = 0 then
      (s.wr R.INJFAB.ST_FIRST_TEST f.1).wr R.INJFAB.ST_FIRST_ISLAND f.2
    else s
  let group := if f.2 < 21 then f.2 - 9 else (f.2 - 21) / 8
  if f.1 = 10 ∧ 21 ≤ f.2 then s.loseChannel (f.2 - 21) 1
  else if 9 ≤ f.2 ∧ f.2 < 117 then
    (s.wr R.INJFAB.ST_SG_FAILED (setBit (s.rd R.INJFAB.ST_SG_FAILED) group)).loseGroup group 3
  else s.wr R.INJFAB.ST_RESULT_HALTED 1

/-! ### Channel bring-up (R279, R280, R285 to R290) -/

/-- The grades of an interface mode: 0 NV-LPDDR4, 1 NV-DDR3 (R279). -/
def grades (mode : Nat) : List Nat := if mode = 0 then [3600, 3200, 2800, 2400] else [1600, 1400, 1200]

/-- A die that answers at bring-up: its number, the descriptor it matched, the cause of LOST_CAUSE it is refused for or
0, ID bytes 0 to 3 and ID byte 4. -/
def State.bringDie (s : State) (ch : Nat) (d : List Nat) : State :=
  let a := d.getD 0 0 % 16
  let cause := d.getD 2 0
  let s := s.wr R.STALL.DIE_MAP_PRESENT (setBit (s.rd R.STALL.DIE_MAP_PRESENT ch) a) ch
  if cause = 0 then
    (s.wr R.STALL.DIE_MAP_IN_SERVICE (setBit (s.rd R.STALL.DIE_MAP_IN_SERVICE ch) a) ch).mDie (ch * 16 + a) fun _ =>
      { state := 1, desc := d.getD 1 0 }
  else
    (s.mDie (ch * 16 + a) fun _ => { state := 12, desc := d.getD 1 0, lost := cause }).record (stallIsland ch) 0x200
      [a, cause, d.getD 3 0, d.getD 4 0]

/-- Lists of five numbers, one for each die. -/
def dieRows : Nat → List Nat → List (List Nat)
  | 0, _ => []
  | _, [] => []
  | k + 1, l => l.take 5 :: dieRows k (l.drop 5)

/-- Bring-up of one channel: its number, the grade trained in MT/s (0: training failed at the lowest grade), and the dies
that answer. A channel without a die stays off. -/
def State.bringChannel (s : State) (c : List Nat) : State :=
  let ch := c.getD 0 0
  let mts := c.getD 1 0
  if 96 ≤ ch ∨ s.rd R.STALL.CH_STATE_STATE ch = 3 ∨ c.length < 7 then s
  else
    let s := (dieRows 16 (c.drop 2)).foldl (fun t d => t.bringDie ch d) s
    if (grades (s.rd R.STALL.CH_STATE_MODE ch)).contains mts = false then s.stFail 3 (10, 21 + ch)
    else
      let s := ((s.wr R.STALL.CH_STATE_STATE 2 ch).wr R.STALL.CH_RATE_MTS mts ch).wr R.STALL.CH_RATE_WEIGHT
        ((mts * 1000 + 1800) / 3600) ch
      if s.rd R.STALL.DIE_MAP_IN_SERVICE ch = 0 then s.loseChannel ch 4 else s

/-- SELF_TEST_PHASE_COMPLETE (R574): the tests that passed only on their second run, the self-test firings, the final
failures as (test, island), and, of phase 3, the channels that were brought up. Phase 3 unwraps the media keys (R410). A
failure outside the stall groups leads to phase 5 at once; phase 5 makes the record, and HALT where there was one. -/
def execSelfTestPhaseComplete (transients firings : Nat) (fails : List (Nat × Nat)) (chans : List (List Nat)) (s : State) :
    Host.Outcome State Fault Refusal :=
  .next <|
    let p := s.dev.stPhase
    if s.dst ≠ 2 ∨ p = 0 ∨ 5 < p then s
    else if p = 5 then
      let fail := s.rd R.INJFAB.ST_RESULT_PHASE_FAIL
      let halt := s.rd R.INJFAB.ST_RESULT_HALTED
      let s := s.wr R.INJFAB.ST_RESULT_PASS (b2n (decide (fail = 0)))
      let s := s.record 8 0x01A [fail + s.rd R.INJFAB.ST_RESULT_PASS * 256 + halt * 512, s.rd R.INJFAB.ST_SG_FAILED,
        s.rd R.INJFAB.ST_FIRST_TEST + s.rd R.INJFAB.ST_FIRST_ISLAND * 256, (s.mono - s.dev.stateEntry) / 100]
      if halt = 1 then s.wakeFall.enterHalt 7 7 else s.mDev fun d => { d with stPhase := 6 }
    else
      let s := (s.count R.INJFAB.ST_TRANSIENT_COUNT 0 0 transients).count R.INJFAB.ST_FIRED_COUNT 0 0 firings
      let s := fails.foldl (fun t f => t.stFail p f) s
      let s := if p = 3 then (chans.foldl (fun t c => t.bringChannel c) s).loadSlots else s
      s.mDev fun d => { d with stPhase := if s.rd R.INJFAB.ST_RESULT_HALTED = 1 then 5 else p + 1 }

/-- SELF_TEST_TIMER_EXPIRY (R122). -/
def execSelfTestTimerExpiry (s : State) : Host.Outcome State Fault Refusal :=
  .next <|
    if s.dst ≠ 2 then s else ((s.wr R.INJFAB.ST_RESULT_HALTED 1).wakeFall).enterHalt 7 7

/-! ### Entry to REBUILD -/

/-- The division of DRAM (R174). -/
def State.divideDram (s : State) : State :=
  let dies := ((List.range 96).map fun c => popcount 16 (s.rd R.STALL.DIE_MAP_PRESENT c)).sum
  let s := s.wr R.LEDGER.DRAM_MAP2_SWEEP (4 * dies)
  (s.wr R.LEDGER.LEDGER_REGION_GRANULES (s.rd R.LEDGER.DRAM_MAP_SIZE * 1024 - 4096 - 4 * dies)).granFree

/-- BELL_CAP (R372). -/
def State.bellCapMib (s : State) : Nat :=
  let w := s.widest
  let room := if w = 0 then 0 else 2 * s.diesOn.length * (s.unitCws 0 * 4096) * (w - 1) / w
  min (192 * 1048576) room / 1048576 - 8

/-- The boot ROM locks every page it has loaded; policy firmware configures HEALTH no further than its tables let it, and
that page has no lockable field (R363, R583). -/
def State.lockPages (s : State) : State :=
  ((List.range 0xE0).filter fun p => isPage p && decide (p ≠ 0x0A)).foldl (fun (t : State) p =>
    (t.wr R.COMMON.PAGE_LOCK_LOCK 1 p).wr R.COMMON.PAGE_LOCK_BY 1 p) s

/-- SELF_TEST_COMPLETE (R121, R174, R235, R372, R389, R583): REBUILD begins; the regions, the channel sets and BELL_CAP
are set, the Tally is in BASELINE, the pages are locked, and the management image of the chosen slot is started. -/
def execSelfTestComplete (ms : Nat) (s : State) : Host.Outcome State Fault Refusal :=
  .next <|
    if s.dst ≠ 2 ∨ s.dev.stPhase ≠ 6 then s
    else
      let s := (s.wr R.DEVSTATE.START_LAST_SELF_TEST (min ms 511)).goState 3 .hardware 0x12
      let s := s.divideDram.mWp fun w => { w with
        rank := (List.range 96).filter fun c => decide (s.rd R.STALL.CH_STATE_STATE c = 2) }
      let s := (s.wr R.BELL.BELL_CAP_MIB s.bellCapMib).set R.TALLY.TALLY_STATE_STATE 1
      let s := [R.BELL.RB_DELTA_COPIES, R.BELL.RB_VOID_COUNT, R.BELL.RB_UNC_COUNT, R.BELL.RB_REPLAY_ROWS,
        R.BELL.RB_MISMATCH_BLOCKS].foldl (fun (t : State) f => t.wr f 0) (s.wr R.BELL.RB_STAT_PHASE 1)
      let s := (s.lockPages.mDev fun d => { d with stPhase := 0, mgmtUp := true }).mCore fun c => { c with mKicked := s.mono }
      s.wr R.GATE.BOOT_INFO_RUN_MGMT s.cf.chosen

end Sys2Proof.Machine
end

