-- ==== Sys2Proof/Machine/Rebuild.lean ====
section
/-! DEFINITION. Rebuild (R389 to R395, R556) and entry to SERVICE (R121, R127, R128, R583). -/

namespace Sys2Proof.Machine

open Sys2Proof

/-- A field of a journal record. -/
def JRec.g (r : JRec) (i : Nat) : Nat := r.f.getD i 0

/-! ### Phase 1: records, image headers, namespaces (R376, R389) -/

/-- A journal record takes its place among records in order; one already there is kept. -/
def placeRec (r : JRec) : List JRec → List JRec
  | [] => [r]
  | x :: t => if r.no < x.no then r :: x :: t else if r.no = x.no then x :: t else x :: placeRec r t

/-- The newest bell image: 0 A, 1 B, with the image. -/
def State.newestImage (s : State) : Nat × BellImage :=
  if s.nv.imgB.seq < s.nv.imgA.seq then (0, s.nv.imgA) else if s.nv.imgB.seq = 0 then (0, s.nv.imgA) else (1, s.nv.imgB)

/-- An image is changed. -/
def State.mImage (s : State) (which : Nat) (g : BellImage → BellImage) : State :=
  s.mNv fun v => if which = 0 then { v with imgA := g v.imgA } else { v with imgB := g v.imgB }

/-- The journals of both images join the records. -/
def State.mergeJournals (s : State) : State :=
  let l := (s.nv.imgA.journal ++ s.nv.imgB.journal).foldl (fun l r => placeRec r l) s.nv.records
  let s := s.mNv fun v => { v with
    records := l, imgA := { v.imgA with journal := [] }, imgB := { v.imgB with journal := [] } }
  s.mBell fun b => { b with made := (l.map fun r => r.no + 1).foldl max (max b.made s.nv.saveNo) }

/-- The registers of the newest image; one that was cut short is counted and recorded once (R380, R397). -/
def State.findBell (s : State) : State :=
  let n := s.newestImage
  if n.2.seq = 0 then s
  else
    let cut := !n.2.complete && !n.2.counted
    let s := if cut then
        let lost := n.2.carried - n.2.rows.length + (n.2.rows.filter fun r => !r.durable).length
        ((s.mImage n.1 fun i => { i with counted := true }).mNv fun v => { v with bellShort := v.bellShort + 1 }).record 8
          0x2E4 [n.2.carried - lost, lost, n.2.seq, 0]
      else s
    s.showBell n.1 n.2

/-- A Logbook record in its place by EPOCH and SEQ; one already there is kept. -/
def placeLog (r : LogRec) : List LogRec → List LogRec
  | [] => [r]
  | x :: t =>
    if r.epoch < x.epoch ∨ (r.epoch = x.epoch ∧ r.seq < x.seq) then r :: x :: t
    else if r.epoch = x.epoch ∧ r.seq = x.seq then x :: t
    else x :: placeLog r t

/-- LOGBOOK_RESTORE (R556): the newest image's Logbook and the RECORDS saves are merged ahead of this epoch's records,
unless the ring holds earlier ones already. No saved record fails its RCRC. -/
def State.restoreLog (s : State) : State :=
  let e := s.rd R.TIME.EPOCH_VALUE
  if s.stored.any fun r => decide (r.epoch < e) then s
  else
    let img := s.newestImage.2.ring
    let all := ((s.nv.ring ++ img).filter fun r => decide (r.epoch < e)).foldl (fun l r => placeLog r l) []
    let l := all.drop (all.length + s.log.ring.length - 65536)
    let s := s.mLog fun x => { x with ring := l ++ x.ring }
    let s := s.wr R.LOG.RING_USE_RECORDS (s.log.ring.length + s.log.heldRing.length)
    s.record 8 0x00C [l.length, (l.map fun r => r.epoch).foldl max 0, 0, if img = [] then 2 else 1]

/-- The namespace the newest NS record of each NSID describes; one whose deletion began is gone. -/
def State.restoreNs (s : State) : State :=
  let l := s.nv.records.filter fun r => decide (r.kind = 3)
  let s := l.foldl (fun (t : State) r =>
    let n : Ns := { st := 2, iu := r.g 2, block := r.g 3, newBlock := r.g 3, nsze := r.g 4
                    ius := ceilDiv (r.g 4 * r.g 3) (iuUnits (r.g 2) * 4096), attached := r.g 5 }
    t.mNs (r.g 0) fun _ => if r.g 1 = 0 then {} else n) s
  let s := (s.led.ns.map Prod.fst).foldl (fun (t : State) k =>
    let g := t.takeGrans (t.ns k).needs
    t.mNs k fun n => { n with grans := g }) s
  s.granFree

/-- A namespace whose key slot is empty is recorded (R410). -/
def State.missingKeys (s : State) : State :=
  (s.led.ns.map Prod.fst).foldl (fun (t : State) k =>
    let m := t.ciph.media.get {} (k - 1)
    if m.loaded || m.bad then t
    else (t.mCiph fun c => { c with media := c.media.set {} (k - 1) { m with bad := true } }).record 4 0x180 [k - 1, 1, 0, 0]) s

/-- The READ_ONLY causes and what an image or the RECORDS area saved: page C2h with the flags of its unreported records,
scrub, wear and temperature state (R127, R167, R323, R354, R362). -/
def State.restoreSaved (s : State) : State :=
  let s := ((s.wr R.DEVSTATE.RO_CAUSE_POLICY s.nv.roCause).wr R.DEVSTATE.RO_CAUSE_END_OF_LIFE (s.nv.roCause / 2)).wr
    R.DEVSTATE.RO_CAUSE_OWNER (s.nv.roCause / 4)
  let s := (s.wr R.INTAKE.DEFER_TOTAL_COUNT s.nv.deferTotal).mHost fun h => { h with deferLog := s.nv.deferLog }
  let s := s.nv.deferLog.foldl (fun (t : State) d =>
    if bit d.flags 0 ∨ t.host.deferKept.get (0, 0) d.nsid ≠ (0, 0) then t
    else (t.mHost fun h => { h with deferKept := h.deferKept.set (0, 0) d.nsid (d.seq, d.slba) }).wr
      R.INTAKE.DEFER_FLAG_PENDING 1 0 d.nsid) s
  s.restoreState

/-! ### Block records and bands (R335, R336, R376, R394) -/

/-- What a record made after the save changes in the block records and the erase counts. -/
def State.applyRec (s : State) (r : JRec) : State :=
  if r.kind = 4 then
    (r.f.drop 5).foldl (fun (t : State) k => if (t.block k).state = 5 then t
      else t.mBlock k fun b => { b with band := r.g 0, state := 1, mode := r.g 2 }) s
  else if r.kind = 5 then
    (r.f.drop 5).foldl (fun (t : State) k => t.mBlock k fun b => if b.state = 1 then { b with state := 2 } else b) s
  else if r.kind = 6 then
    let k := (r.g 0 * 16 + r.g 1) * 8192 + r.g 2
    if r.g 3 = 1 then s
    else
      let step := s.wearStep k
      let s := (s.mSw fun w => { w with erases := w.erases.set 0 k (w.erases.get 0 k + 1) }).mBlock k fun b =>
        { b with wear := (b.wear + step) % 2 ^ 32 }
      if r.g 4 ≠ 1 then s
      else
        let b := s.block k
        let pool := if b.state = 4 then b.pool else s.poolFor (k / 8192)
        s.mBlock k fun _ => { state := if b.state = 4 then 4 else 0, pool := pool, wear := b.wear, hstate := b.hstate }
  else if r.kind = 7 then s.mBlock (r.g 0 * 8192 + r.g 1) fun b => { b with state := 5 }
  else s

/-- The blocks whose last erase has a record of its beginning and none of a good end: they are erased again before
their first program (R394). -/
def State.halfErased (s : State) : List Nat :=
  s.nv.records.foldl (fun (l : List Nat) r =>
    let k := (r.g 0 * 16 + r.g 1) * 8192 + r.g 2
    if r.kind ≠ 6 then l
    else if r.g 3 = 1 then (if l.contains k then l else k :: l)
    else if r.g 4 = 1 then l.filter fun x => decide (x ≠ k)
    else l) []

/-- A codeword in its place among a block's, by position. -/
def placeCw (pos : Nat → Nat) (e : Nat × Cw) : List (Nat × Cw) → List (Nat × Cw)
  | [] => [e]
  | x :: t => if pos e.1 < pos x.1 then e :: x :: t else x :: placeCw pos e t

/-- The codewords of a block, in program order. -/
def State.blockCws (s : State) (k : Nat) : List (Nat × Cw) :=
  (s.nv.media.filterMap fun e => e.2.bind fun c => if aBlockKey e.1 = k then some (e.1, c) else none).foldl
    (fun l e => placeCw (fun a => s.cwPos a) e l) []

/-- The bands the records describe, of which a block is still programmed: all CLOSED, for no stripe or victim outlives a
MAIN reset (R361; log entry 9). -/
def State.restoreBands (s : State) : State :=
  let l := s.nv.records.filter fun r => decide (r.kind = 4 ∨ r.kind = 5)
  let nums := (l.map fun r => r.g 0).eraseDups
  let bands := nums.filterMap fun n => (l.filter fun r => decide (r.g 0 = n)).getLast?.bind fun r =>
    if (r.f.drop 5).any fun k => decide ((s.block k).band = n) && decide ((s.block k).state ≠ 0) then
      some ({ num := n, kind := r.g 1, mode := r.g 2, group := r.g 3, set := r.g 4, members := r.f.drop 5, st := 2
              closedAt := 0 } : Band)
    else none
  s.mSw fun w => { w with
    bands := bands.zipIdx.map fun e => { e.1 with closedAt := e.2 }, closedSeq := bands.length
    nextBand := (nums.map fun n => n + 1).foldl max 0 }

/-- The block records: the save and every record made after it; what a block's own codewords say of its place and its
summary. What a half-erased block holds is no data. -/
def State.restoreBlocks (s : State) : State :=
  let s := s.mSw fun w => { w with blocks := s.nv.blocks, erases := s.nv.erases }
  let s := (s.nv.records.filter fun r => decide (s.nv.saveNo ≤ r.no)).foldl (fun t r => t.applyRec r) s
  let s := s.nv.retired.foldl (fun (t : State) e => t.mBlock e.1 fun b => { b with state := 5 }) s
  let half := s.halfErased
  let s := s.mNv fun v => { v with media := v.media.filter fun e => !half.contains (aBlockKey e.1) }
  let s := (s.sw.blocks.map Prod.fst).foldl (fun (t : State) k =>
    let l := t.blockCws k
    t.mBlock k fun b => { b with
      state := if b.state = 1 ∨ b.state = 3 then 2 else b.state
      valid := 0, next := (l.map fun e => t.cwPos e.1 + 1).foldl max 0
      summary := l.filterMap fun e =>
        if e.2.nsid ≠ 0 ∧ e.2.unit = 0 then some (e.2.nsid, e.2.iu, e.2.stamp, e.1) else none }) s
  let s := ((s.wr R.HEALTH.RETIRED_COUNT s.nv.retired.length).wr R.HEALTH.RETIRED_PROG_COUNT
    (s.nv.retired.filter fun e => decide (e.2 = 1)).length).wr R.HEALTH.RETIRED_ERASE_COUNT
      (s.nv.retired.filter fun e => decide (e.2 = 2)).length
  s.restoreBands

/-- Phase 1. -/
def State.rebuild1 (s : State) : State :=
  ((((s.mergeJournals.findBell).restoreLog).restoreNs.missingKeys).restoreBlocks).restoreSaved

/-! ### Phases 2 and 3: the checkpoint and the summary headers -/

/-- The number of the record that tells a namespace's last deletion, and one more; 0 for none. -/
def State.bornAt (s : State) (nsid : Nat) : Nat :=
  ((s.nv.records.filter fun r => decide (r.kind = 3) && decide (r.g 0 = nsid) && decide (r.g 1 = 0)).map fun r => r.no + 1).foldl max 0

/-- Whether a line record is of a namespace that still is. -/
def State.lineLives (s : State) (r : LineRec) : Bool := decide ((s.ns r.nsid).st = 2) && decide (s.bornAt r.nsid ≤ r.at_)

/-- Phase 2: each line of the live log is written to DRAM. -/
def State.rebuild2 (s : State) : State :=
  (s.nv.ckpt.filter fun r => s.lineLives r).foldl (fun (t : State) r =>
    t.mLed fun l => { l with
      map := r.entries.foldl (fun m e => m.set deallocated (iuKey r.nsid (r.line * 48 + e.1)) e.2) l.map
      unc := (List.range 48).foldl (fun m i =>
        if bit r.unc i then m.set false (iuKey r.nsid (r.line * 48 + i)) true else m) l.unc }) s

/-- Phase 3: a closed block whose summary header shows a higher erase count than its record takes that value plus one
(R389, R394). -/
def State.rebuild3 (s : State) : State :=
  s.nv.headers.foldl (fun (t : State) e =>
    if t.sw.erases.get 0 e.1 < e.2 then
      (t.mSw fun w => { w with erases := w.erases.set 0 e.1 (e.2 + 1) }).count R.BELL.RB_MISMATCH_BLOCKS
    else t) s

/-! ### Phase 4: resolving the ledger (R390, R391) -/

/-- A candidate: twice its key, its rank among equals, its serial, what it is (0 a checkpoint entry, 1 a copy, 2 a row
of the image, 3 a TRIM, 4 an UNC record), and the entry it gives. -/
structure Cand where
  key : Nat
  rank : Nat
  serial : Nat
  what : Nat
  entry : Nat
  unc : Bool
  deriving DecidableEq, Repr

/-- Whether a candidate goes before another. -/
def Cand.beats (a b : Cand) : Bool :=
  decide (b.key < a.key) || (decide (a.key = b.key) && (decide (b.rank < a.rank)
    || (decide (a.rank = b.rank) && decide (b.serial ≤ a.serial))))

/-- The highest candidate. -/
def bestCand : List Cand → Option Cand
  | [] => none
  | c :: t => match bestCand t with
    | none => some c
    | some d => if c.beats d then some c else some d

/-- Whether an IU stands whole at a media address, every unit readable, off retired blocks. -/
def State.copyAt (s : State) (bad : List Nat) (nsid iu a : Nat) (stamp : Option Nat) : Bool :=
  decide ((s.block (aBlockKey a)).state ≠ 5) && (List.range (iuUnits (s.ns nsid).iu)).all fun k =>
    let b := s.cwPlus a k
    !bad.contains b && match s.cwAt b with
      | some c => decide (c.nsid = nsid) && decide (c.iu = iu) && decide (c.unit = k) && (match stamp with
        | some t => decide (c.stamp = t)
        | none => true)
      | none => false

/-- The copies of an IU on media. -/
def State.copiesOf (s : State) (bad : List Nat) (nsid iu : Nat) : List Cand :=
  s.nv.media.filterMap fun e => e.2.bind fun c =>
    if c.nsid = nsid ∧ c.iu = iu ∧ c.unit = 0 ∧ s.copyAt bad nsid iu e.1 (some c.stamp) = true then
      some { key := 2 * c.stamp, rank := 0, serial := c.serial, what := 1, entry := e.1, unc := false }
    else none

/-- The number of the first record made after H: what the newest LAP record names. -/
def State.horizon (s : State) : Nat :=
  match (s.nv.records.filter fun r => decide (r.kind = 8)).getLast? with
  | some r => r.g 3
  | none => 0

/-- The TRIM and UNC records after H that cover an IU; the deletion of its namespace acts as a TRIM. -/
def State.trimsOf (s : State) (nsid iu : Nat) : List Cand :=
  let h := s.horizon
  s.nv.records.filterMap fun r =>
    if (r.kind = 1 ∨ r.kind = 2) ∧ h ≤ r.no ∧ r.g 0 = nsid ∧ r.g 1 ≤ iu ∧ iu ≤ r.g 2 then
      some { key := 2 * r.g 3 - 1, rank := 1, serial := r.no, what := if r.kind = 1 then 3 else 4, entry := deallocated
             unc := decide (r.kind = 2) }
    else if r.kind = 3 ∧ r.g 0 = nsid ∧ r.g 1 = 0 then
      some { key := 2 * r.g 6 - 1, rank := 1, serial := r.no, what := 3, entry := deallocated, unc := false }
    else none

/-- The image that awaits replay. -/
def State.replayImage (s : State) : Option (Nat × BellImage) :=
  if s.nv.imgA.replay then some (0, s.nv.imgA) else if s.nv.imgB.replay then some (1, s.nv.imgB) else none

/-- The rows awaiting replay, of namespaces that still are. -/
def State.replayRows (s : State) : List BellRow :=
  match s.replayImage with
  | some i => i.2.rows.filter fun r => decide ((s.ns r.nsid).st = 2)
  | none => []

/-- The row of an IU. Its replay copy takes a later serial than any copy of its stamp. -/
def State.rowsOf (s : State) (nsid iu : Nat) : List Cand :=
  (s.replayRows.filter fun r => decide (r.nsid = nsid) && decide (r.iu = iu)).map fun r =>
    { key := 2 * r.stamp, rank := 1, serial := 0, what := 2, entry := inCrate, unc := false }

/-- The checkpoint entry of an IU, and whether it is void (R391). A line that no record holds stands as NS_CMD.INIT left
it: deallocated. -/
def State.entryOf (s : State) (nsid iu : Nat) : Cand × Bool :=
  match s.nv.ckpt.find? fun r => s.lineLives r && decide (r.nsid = nsid) && decide (r.line = iu / 48) with
  | none => ({ key := 0, rank := 0, serial := 0, what := 0, entry := deallocated, unc := false }, false)
  | some r =>
    let e := r.entries.get deallocated (iu % 48)
    let k := aBlockKey e
    let erased := s.nv.records.any fun x => decide (x.kind = 6) && decide (r.at_ ≤ x.no)
      && decide ((x.g 0 * 16 + x.g 1) * 8192 + x.g 2 = k)
    ({ key := 2 * r.sc - 1, rank := 0, serial := 0, what := 0, entry := e, unc := bit r.unc (iu % 48) },
      decide (e = inCrate) || (isMedia e && (erased || !s.copyAt [] nsid iu e none)))

/-- The entry of an IU is set in DRAM as rebuild writes it. -/
def State.putEntry (s : State) (nsid iu e : Nat) (u : Bool) : State :=
  s.mLed fun l => { l with map := l.map.set deallocated (iuKey nsid iu) e, unc := l.unc.set false (iuKey nsid iu) u }

/-- An IU is lost: DEALLOCATED with UNC, counted, recorded with its reason, and shown in HEALTH.CRIT (R391, R395). -/
def State.loseIu (s : State) (nsid iu reason : Nat) : State :=
  (((s.putEntry nsid iu deallocated true).count R.BELL.RB_UNC_COUNT).record 2 0x10B
    [nsid, iu, iu / 2 ^ 32, reason]).critical 2

/-- One IU is resolved. -/
def State.resolveIu (s : State) (bad : List Nat) (nsid iu : Nat) : State :=
  let e := s.entryOf nsid iu
  let s := if e.2 then s.count R.BELL.RB_VOID_COUNT else s
  let l := s.copiesOf bad nsid iu ++ s.rowsOf nsid iu ++ s.trimsOf nsid iu ++ (if e.2 then [] else [e.1])
  match bestCand l with
  | none => s.loseIu nsid iu 1
  | some c =>
    let s := s.putEntry nsid iu c.entry c.unc
    if c.what = 2 ∨ (c.what = 1 ∧ (e.2 ∨ c.entry ≠ e.1.entry)) then s.count R.BELL.RB_DELTA_COPIES else s

/-- The IUs that have a candidate other than the lines' silence. -/
def State.knownIus (s : State) : List (Nat × Nat) :=
  let media := s.nv.media.filterMap fun e => e.2.bind fun c => if c.unit = 0 ∧ (s.ns c.nsid).st = 2 then some (c.nsid, c.iu) else none
  let lines := (s.nv.ckpt.filter fun r => s.lineLives r).flatMap fun r =>
    (List.range 48).filterMap fun i =>
      if r.entries.get deallocated i ≠ deallocated ∨ bit r.unc i then some (r.nsid, r.line * 48 + i) else none
  let recs := (s.nv.records.filter fun r => decide (r.kind = 2) && decide ((s.ns (r.g 0)).st = 2)).flatMap fun r =>
    (List.range (r.g 2 + 1 - r.g 1)).map fun i => (r.g 0, r.g 1 + i)
  (media ++ lines ++ recs ++ s.replayRows.map fun r => (r.nsid, r.iu)).eraseDups

/-- Phase 4. The stripe-serial counter is restored ahead of the replay (R394). -/
def State.rebuild4 (s : State) (bad : List Nat) : State :=
  let s := s.knownIus.foldl (fun t e => t.resolveIu bad e.1 e.2) s
  s.mWp fun w => { w with nextSerial := (s.nv.media.filterMap fun e => e.2.map fun c => c.serial + 1).foldl max 0 }

/-! ### Phase 5: the replay (R393) -/

/-- The fill of a row's missing unit from PRIOR: its data and key, or that it has none, or that it cannot be read. -/
def State.fillOf (s : State) (bad : List Nat) (r : BellRow) (k : Nat) : Option (Nat × Nat) :=
  if r.priorUnc ∨ isMedia r.prior = false then some (0, 0)
  else
    let a := s.cwPlus r.prior k
    if bad.contains a then none else (s.cwAt a).map fun c => (c.data, c.key)

/-- The IU of a row as the write path takes it, with its fills. -/
def State.replayIu (s : State) (bad : List Nat) (r : BellRow) : UnitIu :=
  let n := iuUnits (s.ns r.nsid).iu
  let have_ := (List.range n).filter fun k => bit r.units k
  let miss := (List.range n).filter fun k => !bit r.units k
  let mask := (miss.map fun k => 2 ^ k).sum
  let fill := fun k => (s.fillOf bad r k).getD (0, 0)
  { nsid := r.nsid, iu := r.iu, stamp := r.stamp, crate := 0, source := 0
    data := (List.range n).map fun k => if bit r.units k then r.data.getD (have_.idxOf k) 0 else (fill k).1
    uncMask := if r.priorUnc then mask else 0, pos := 0, failedOn := [], sectors := 0
    keys := (List.range n).map fun k => if bit r.units k then r.key else (fill k).2
    enc := true, fillMask := mask, copy := 2 ^ 32 }

/-- A row is replayed: it joins what its write group builds, or its IU is lost where its units or its fills cannot be
read. -/
def State.replayRow (s : State) (bad : List Nat) (r : BellRow) : State :=
  let wins := decide (s.led.map.get deallocated (iuKey r.nsid r.iu) = inCrate)
  let n := iuUnits (s.ns r.nsid).iu
  let fails := (List.range n).any fun k => !bit r.units k && (s.fillOf bad r k).isNone
  if r.durable = false then (if wins then s.loseIu r.nsid r.iu 2 else s)
  else if fails then
    if wins then (s.putEntry r.nsid r.iu deallocated true).deferRecord r.nsid r.iu r.stamp 1 false else s
  else
    let key := buildKey 0 (s.group r.nsid)
    let u := s.replayIu bad r
    (s.mWp fun w => { w with building := w.building.set [] key (w.building.get [] key ++ [u]) }).count R.BELL.RB_REPLAY_ROWS

/-- A replay program has good status: its codewords are on media, and an IU that is whole and whose row won takes their
address. -/
def State.replayGood (s : State) (p : ProgUnit) : State :=
  let l := s.unitMedia p
  let s := s.mNv fun n => { n with media := l.foldl (fun m e => m.set none e.1 (some e.2)) n.media }
  let s := s.mWp fun w => { w with units := w.units.filter fun q => decide (q.id ≠ p.id) }
  let s := s.mStripe p.serial fun q => { q with busy := q.busy - 1 }
  let s := if p.kind = 4 then
      match s.wp.stripes.find? fun q => decide (q.serial = p.serial) with
      | some q => s.endStripe q
      | none => s
    else s
  p.ius.foldl (fun (t : State) u =>
    if t.inFlight u ∨ t.led.map.get deallocated (iuKey u.nsid u.iu) ≠ inCrate then t
    else t.putEntry u.nsid u.iu (t.cwAddr p.block u.pos) false) s

/-- Every program unit that waits ends good. -/
def State.replayDrain (s : State) : State :=
  (s.wp.units.map fun u => u.id).foldl (fun (t : State) id =>
    match t.wp.units.find? fun u => decide (u.id = id) with
    | some u => t.replayGood u
    | none => t) s

/-- Phase 5: the rows are programmed into host stripes of their write groups; the stripes close with their parity, and
the image awaits replay no more. The programs are taken to end at once and good (log entry 9). -/
def State.rebuild5 (s : State) (bad : List Nat) : State :=
  match s.replayImage with
  | none => s
  | some i =>
    let s := s.replayRows.foldl (fun t r => t.replayRow bad r) s
    let s := (List.range 4).foldl (fun (t : State) g => ((t.build 0 g false).build 0 g true).replayDrain) s
    let s := (s.wp.stripes.foldl (fun (t : State) q => t.closeShort q) s).replayDrain
    let s := s.mImage i.1 fun x => { x with replay := false }
    s.wr R.BELL.BELL_LAST_REPLAY 0

/-! ### Phase 6: the counters (R394) -/

/-- The highest stamp in any header, directory entry or record, S_c of a checkpoint unit among them. -/
def State.topStamp (s : State) : Nat :=
  let m := (s.nv.media.filterMap fun e => e.2.map fun c => c.stamp).foldl max 0
  let r := ((s.nv.imgA.rows ++ s.nv.imgB.rows).map fun r => r.stamp).foldl max m
  ((s.nv.records.filter fun r => decide (r.kind = 1 ∨ r.kind = 2)).map fun r => r.g 3).foldl max ((s.nv.ckpt.map fun r => r.sc).foldl max r)

/-- The lines rebuild has written to DRAM are logged (R386). -/
def State.logRebuilt (s : State) : State :=
  let keys := (s.led.map.map Prod.fst) ++ (s.led.unc.map Prod.fst)
  let known : List (Nat × Nat) := s.nv.ckpt.map fun r => (r.nsid, r.line)
  let lines : List (Nat × Nat) := ((keys.map fun k => (k / 2 ^ 38, k % 2 ^ 38 / 48)) ++ known).eraseDups
  let recs := (lines.filter fun e => decide ((s.ns e.1).st = 2)).map fun e =>
    let places : List (Nat × Nat) := (List.range 48).map fun i => (i, iuKey e.1 (e.2 * 48 + i))
    ({ nsid := e.1, line := e.2, sc := (s.term 190).toNat, at_ := s.bell.made
       entries := places.foldl (fun t p => t.set deallocated p.1 (s.led.map.get deallocated p.2)) []
       unc := (places.map fun p => if s.led.unc.get false p.2 then 2 ^ p.1 else 0).sum } : LineRec)
  s.mNv fun v => { v with ckpt := logDurable v.ckpt recs }

/-- Phase 6: NEXT and the erase counts are restored without Stamp issue or Erase moves, and the Tally may leave
BASELINE (R107). -/
def State.rebuild6 (s : State) : State :=
  let top := s.topStamp
  let n := (s.sw.erases.map fun e => e.2).sum
  let s := s.mTal fun t => { t with
    terms := (t.terms.set 0 190 (top : Nat)).set 0 288 (n : Nat), lastStamp := top, mayEnd := true }
  s.logRebuilt

/-- REBUILD_PHASE_COMPLETE (R389): the phase that runs ends with what it has done, `ms` after it began; `bad` are the
media addresses whose codewords fail decode beyond recovery in it. -/
def execRebuildPhaseComplete (ms : Nat) (bad : List Nat) (s : State) : Host.Outcome State Fault Refusal :=
  .next <|
    let p := s.rd R.BELL.RB_STAT_PHASE
    if s.dst ≠ 3 ∨ p = 0 ∨ 6 < p then s
    else
      let s := if p = 1 then s.rebuild1 else if p = 2 then s.rebuild2 else if p = 3 then s.rebuild3
        else if p = 4 then s.rebuild4 bad else if p = 5 then s.rebuild5 bad else s.rebuild6
      (s.wr R.BELL.RB_TIME_MS (min ms 65535) 0 p).wr R.BELL.RB_STAT_PHASE (if p = 6 then 0 else p + 1)

/-- REBUILD_TIMER_EXPIRY (R122, R395, R524); it stands as well for records that cannot be read. -/
def execRebuildTimerExpiry (s : State) : Host.Outcome State Fault Refusal :=
  .next (if s.dst ≠ 3 then s else s.wakeFall.enterHalt 8 8)

/-! ### Entry to SERVICE -/

/-- Whether a populated channel, die or group is out of service (R127, R288). -/
def State.anyLost (s : State) : Bool :=
  decide (s.rd R.DEVSTATE.DEG_INFO2_SG_LOST ≠ 0) || (List.range 96).any fun c =>
    decide (s.rd R.STALL.CH_STATE_STATE c = 3)
      || decide (s.rd R.STALL.DIE_MAP_PRESENT c ≠ s.rd R.STALL.DIE_MAP_IN_SERVICE c)

/-- The modes of R127 at SERVICE entry: RECORD and ARCHIVE from the MODE_BOOT record, READ_ONLY from its causes, SANITIZE
from the sanitize that has not ended, DIAGNOSE only as the boot ROM set it, DEGRADED recomputed, LEGACY kept. -/
def State.bootModes (s : State) : State :=
  let m := s.configValue 0x0F 0 1
  let old := s.rd R.DEVSTATE.MODE_CUR_MODES
  let now := m % 4 + (if s.roCauses = 0 then 0 else 4) + (if s.rd R.DEVSTATE.DEV_STATE_DIAG_BOOT = 1 then 0x20 else 0)
    + (if s.anyLost then 0x40 else 0) + old / 128 * 128
  let s := (s.wr R.DEVSTATE.MODE_CUR_MODES now).mDev fun d => { d with undecided := [] }
  let s := if now = old then s else s.recordNow 0x002 [old, now, 0x2600, s.modeWord]
  s.modeActions old

/-- REBUILD_COMPLETE (R107, R121, R127, R128, R394, R466, R583, R586): SERVICE begins. The policy image starts with its
CORE vote, the modes are taken, held requests are applied, CSTS.RDY follows CC.EN, the walk for VALID runs, and a
sanitize that had not ended starts again. -/
def execRebuildComplete (s : State) : Host.Outcome State Fault Refusal :=
  .next <|
    if s.dst ≠ 3 ∨ s.rd R.BELL.RB_STAT_PHASE ≠ 0 then s
    else
      let s := s.wr R.DEVSTATE.START_LAST_REBUILD (min ((s.mono - s.dev.stateEntry) / 100000) 8191)
      let s := (s.wr R.POWER.POL_VOTE_DOMAINS (setBit (s.rd R.POWER.POL_VOTE_DOMAINS) 4)).wr R.GATE.BOOT_INFO_RUN_POLICY s.cf.chosen
      let s := s.mDev fun d => { d with policyUp := true }
      let s := (s.bootModes.serve 0x13).reckonWear.reckonSpare
      let s := [0, 1].foldl (fun (t : State) p => t.mPort p fun q => { q with rdy := q.en && !q.resetting }) s
      let s := (s.mInteg fun i => { i with scrubFrom := s.mono }).mPit fun x => { x with updatedAt := s.mono }
      let s := (s.mBell fun b => { b with validWalk := true }).wr R.BELL.VALID_WALK_ACTIVE 1
      let s := s.retest.setReserve.followFloor
      if s.nv.sanitize = 1 ∨ s.nv.sanitize = 2 then s.startSanitize s.nv.sanitize else s

/-- VALID_WALK_COMPLETE (R337, R394): the walk has counted the units of every entry and PRIOR that names each block. -/
def execValidWalkComplete (s : State) : Host.Outcome State Fault Refusal :=
  .next <|
    if s.bell.validWalk = false then s
    else
      let named := (s.led.map.map fun e => (e.1 / 2 ^ 38, e.2)) ++ s.led.cix.map fun r => (r.nsid, r.prior)
      let s := s.mSw fun w => { w with blocks := w.blocks.map fun e => (e.1, { e.2 with valid := 0 }) }
      let s := (named.filter fun e => isMedia e.2).foldl (fun (t : State) e =>
        t.mBlock (aBlockKey e.2) fun b => { b with valid := b.valid + iuUnits (t.ns e.1).iu }) s
      (s.mBell fun b => { b with validWalk := false }).wr R.BELL.VALID_WALK_ACTIVE 0

end Sys2Proof.Machine
end

