-- ==== Sys2Proof/Machine/Injection.lean ====
section
/-! DEFINITION. Arming and disarming injection points (R566 to R575). -/

namespace Sys2Proof.Machine

open Sys2Proof

/-- A PARAM that names one or two bits of a 72-bit word (R571). -/
def bitPair (param : Nat) : Bool :=
  decide (bits param 0 7 < 72) && (decide (bits param 8 7 < 72) || decide (bits param 8 7 = 0x7F))
    && bit param 7 = false && bit param 15 = false

/-- A point that takes neither SUB nor PARAM. -/
def plain (sub param : Nat) : Bool := decide (sub = 0 ∧ param = 0)

/-- How many points a page has (R571). -/
def pointCount (p : Nat) : Nat :=
  match pageType p with
  | 0x80 => 3 | 0x70 => 4 | 0x09 => 25 | 0x0C => 1 | 0x08 => 11 | 0x07 => 17 | 0x05 => 2 | 0x13 => 4 | 0x14 => 1
  | 0x11 => 1 | 0x10 => 5 | 0x1C => 4 | 0x18 => 1 | 0x1B => 2 | 0x04 => 1 | 0x0B => 2 | 0x0D => 1 | 0x06 => 2
  | _ => 0

/-- Whether a point is of class H (R569, R571). -/
def pointH (p point : Nat) : Bool :=
  match pageType p with
  | 0x80 | 0x70 | 0x07 | 0x1C | 0x18 | 0x1B | 0x0D | 0x06 => true
  | 0x13 => decide (point = 3)
  | 0x10 => decide (point ≤ 2)
  | _ => false

/-- Whether POINT, SUB and PARAM name a point of a page and one of its selections (R114, R571). -/
def State.pointOk (s : State) (p point sub param : Nat) : Bool :=
  decide (point < pointCount p) &&
  match pageType p with
  | 0x80 => decide (sub < 16 ∧ 1 ≤ param ∧ param ≤ if point = 0 then 3 else if point = 1 then 6 else 4)
  | 0x70 => decide (sub = 0 ∧
      if point = 0 then param ≤ 1 else if point = 2 then 1 ≤ param ∧ param ≤ 12 else param = 0)
  | 0x09 => decide (sub = 0 ∨ sub = point) && bitPair param
  | 0x0C => decide (sub = 0) && bitPair param
  | 0x08 =>
    (match point with
      | 0 | 1 => decide (sub < 4)
      | 2 => s.counters.contains sub
      | 3 => decide (sub < 3)
      | 10 => decide (sub < 96)
      | _ => decide (sub = 0)) && decide (param < if point = 5 then 1024 else 1)
  | 0x07 => decide ((sub = 0 ∨ sub = point) ∧ param = 0)
  | 0x05 => decide (sub < 117 ∧ param < if point = 0 then 117 else 1)
  | 0x11 => decide (sub = 0 ∧ param ≤ 1024)
  | 0x1C => decide (sub = 0 ∧ 8 ≤ param ∧ param < 64)
  | 0x18 => decide (sub < 4 ∧ param = 0)
  | 0x1B => decide ((point = 0 ∨ sub < 16) ∧ param = 0)
  | 0x04 => decide (sub < 20)
  | 0x06 => decide ((if point = 0 then sub < 8 else sub = 0) ∧ param = 0)
  | _ => plain sub param

/-- The checks of an arming with a MODE and a COUNT, in the order of the RESULT codes (R567). -/
def State.armCheck (s : State) (p mode count : Nat) : Nat :=
  let point := s.rd R.COMMON.INJ_SEL_POINT p
  let d := islandDomain (pageIsland p)
  if s.mode 5 = false then 1
  else if s.dev.inService then 3
  else if s.domOn d = false ∨ (5 ≤ d ∧ bit (s.rd R.DEVSTATE.DEG_INFO2_SG_LOST) (d - 5)) ∨ 2 < s.eff then 4
  else if s.mode 3 ∧ (0x70 ≤ p ∨ p = 0x13) then 5
  else if s.pointOk p point (s.rd R.COMMON.INJ_SEL_SUB p) (s.rd R.COMMON.INJ_SEL_PARAM p) = false
      ∨ mode = 3 ∨ count = 0 then 6
  else if 16 ≤ s.armed.length then 7
  else if mode = 2 ∧ pointH p point then 8
  else 0

/-- A point fires and acts, up to `n` times, while it is armed for the selection. -/
def State.fireUp (s : State) (p point sub : Nat) (act : State → State) : Nat → State
  | 0 => s
  | n + 1 =>
    let i := s.fire p point fun a _ => decide (a = sub)
    if i.1 then (act i.2).fireUp p point sub act n else i.2

/-- The points whose detectors are evaluated at once: the deferred-error report in every LEDGER cycle (R571), the
hold-up comparators, and the watchdogs (log entry 13). -/
def State.evalNow (s : State) (p : Nat) : State :=
  let point := s.rd R.COMMON.INJ_SEL_POINT p
  let sub := s.rd R.COMMON.INJ_SEL_SUB p
  let n := match s.armed.find? fun a => decide (a.page = p) with
    | some a => if a.mode = 2 then 1 else a.left
    | none => 0
  match pageType p with
  | 0x13 =>
    if point = 3 then
      let nsid := s.rd R.LEDGER.CIX_PROBE_NS_NSID
      let iu := s.rd64 R.LEDGER.CIX_PROBE_IU_LO_VALUE R.LEDGER.CIX_PROBE_IU_HI_VALUE
      s.fireUp p 3 0 (fun t => t.deferRecord nsid iu 0 1 true) n
    else s
  | 0x0B => s.fireUp p point 0 (fun t => t.record 8 0x030 [t.huWord, 0, 0, 0] true) n
  | 0x06 =>
    if point = 0 then if s.coreUp then s.fireUp p 0 sub (fun t => t.wdogFire sub true) 1 else s
    else s.fireUp p 1 0 (fun t => t.mgmtRestart true) n
  | _ => s

/-- A value is offered to a field of INJ_CTRL outside an arming: one outside its range is ignored and recorded
(R567, R648). -/
def State.injField (s : State) (who : Initiator) (p : Nat) (f : Field) (v : Nat) : State :=
  if v = s.rd f p then s
  else if f.rmin ≤ v ∧ v ≤ f.rmax then s.wr f v p
  else s.rangeRecord who p f.off v

/-- A write that sets ARM of a page (R567): the arming is decided and recorded; MODE and COUNT are stored unless check
6 refuses them. One of a page whose point is armed already only stores them. -/
def State.injArm (s : State) (who : Initiator) (p mode count : Nat) : State :=
  if s.armed.any fun a => decide (a.page = p) then
    (s.injField who p R.COMMON.INJ_CTRL_MODE mode).injField who p R.COMMON.INJ_CTRL_COUNT count
  else
    let code := s.armCheck p mode count
    let s := s.set R.COMMON.INJ_CTRL_RESULT code p
    let s := if code = 6 ∨ mode = 3 ∨ count = 0 then s
      else (s.wr R.COMMON.INJ_CTRL_MODE mode p).wr R.COMMON.INJ_CTRL_COUNT count p
    let snap := fun (t : State) => t.record 8 0x018 [p, t.injSel p, t.injCtrl p, initCode who]
    if code ≠ 0 then snap ((s.count R.COMMON.INJ_COUNT_REFUSED p).count R.INJFAB.REFUSED_COUNT)
    else
      let left := if mode = 2 then 0xFF else if mode = 1 then count else 1
      let a : Armed :=
        { page := p, point := s.rd R.COMMON.INJ_SEL_POINT p, sub := s.rd R.COMMON.INJ_SEL_SUB p,
          param := s.rd R.COMMON.INJ_SEL_PARAM p, mode := mode, left := left }
      let s := (s.mArmed fun l => l ++ [a]).wr R.INJFAB.ARMED_COUNT (s.armed.length + 1)
      let s := (s.wr R.COMMON.INJ_CTRL_ARM 1 p).wr R.COMMON.INJ_CTRL_LEFT left p
      (snap s).evalNow p

/-- A write of an injection register of page `p`: pages without points ignore it, policy firmware is refused under
limit 13, and an armed point of that limit refuses it (R566, R571). -/
def State.injAccess (s : State) (who : Initiator) (p off : Nat) (f : State → State) : State :=
  s.access who p off true fun s =>
    if pointCount p = 0 then s
    else
      let i := s.limFire 13
      let s := i.2
      if initCode who = 1 ∨ i.1 then s.refuse 13 (initCode who) (initHart who) (regAddr who p off) (decide (initCode who ≠ 1))
      else f s

/-- INJ_ARM (R567): INJ_CTRL of a page is written with ARM 1. -/
def execInjArm (who : Initiator) (page mode count : Nat) (s : State) : Host.Outcome State Fault Refusal :=
  .next (if isPage page then s.injAccess who page 0x024 fun s => s.injArm who page (mode % 4) (count % 256) else s)

/-- INJ_DISARM (R572): INJ_CTRL.ARM of a page is written 0. -/
def execInjDisarm (who : Initiator) (page : Nat) (s : State) : Host.Outcome State Fault Refusal :=
  .next (if isPage page then s.injAccess who page 0x024 fun s => s.disarm page 1 else s)

/-- DISARM_ALL (R572): INJFAB.DISARM.ALL is written 1. -/
def execDisarmAll (who : Initiator) (s : State) : Host.Outcome State Fault Refusal :=
  .next <|
    if mayWrite R.INJFAB.DISARM_ALL who = false then s.denyWrite who R.INJFAB.DISARM_ALL
    else s.disarmThose (fun _ => true) 9

end Sys2Proof.Machine
end

