-- ==== Sys2Proof/Machine/Jtag.lean ====
section
/-! DEFINITION. The test access port and the Korern trace port (R591, R629 to R634). -/

namespace Sys2Proof.Machine

open Sys2Proof

/-- IDCODE (R629). -/
def idcode : Nat := 0xA9624A7B

/-- The access port acts while VDD_WATCH is present. -/
def State.tap (s : State) (g : JtagSt → JtagSt) : Host.Outcome State Fault Refusal :=
  .next (if s.dst = 0 then s else s.mJtag g)

/-- An instruction that selects the bypass register, which captures 0; no boundary cell touches a ball. -/
def bypassed (j : JtagSt) (code : Nat) : JtagSt := { j with ir := code % 256, shift := 0, driven := [] }

/-- EXTEST (R629, R630): in board test mode the cells shifted in, or those preloaded where none are, drive the balls. -/
def execExtest (cells : List Nat) (s : State) : Host.Outcome State Fault Refusal :=
  s.tap fun j =>
    if s.dev.boardTest then { j with ir := 0x00, driven := if cells = [] then j.preload else cells } else bypassed j 0x00

/-- SAMPLE/PRELOAD (R629, R630): in board test mode the balls' levels are captured and the cells preloaded. -/
def execSamplePreload (captured preload : List Nat) (s : State) : Host.Outcome State Fault Refusal :=
  s.tap fun j =>
    if s.dev.boardTest then { j with ir := 0x01, captured := captured, preload := preload, driven := [] }
    else bypassed j 0x01

/-- IDCODE (R629). -/
def execIdcode (s : State) : Host.Outcome State Fault Refusal :=
  s.tap fun j => { j with ir := 0x02, shift := idcode, driven := [] }

/-- BYPASS (R629): 0xFF and every code that names no other instruction. -/
def execBypass (code : Nat) (s : State) : Host.Outcome State Fault Refusal := s.tap fun j => bypassed j code

/-- A SYNC packet (R632). -/
def State.sync (s : State) : State :=
  s.mJtag fun j => { pushPacket j ((0x1000 + j.syncs % 4096) :: words16 s.mono 4) with syncs := j.syncs + 1 }

/-- KTR_CFG at Update-DR (R632, R633): a value that sets ENABLE is applied while DIAGNOSE is set or the development
override fuse is blown, clears KTR_STAT and is followed by a SYNC packet; otherwise it is discarded. -/
def execKtrCfg (value : Nat) (s : State) : Host.Outcome State Fault Refusal :=
  .next <|
    if s.dst = 0 then s
    else
      let v := value % 2 ^ 20
      let s := s.mJtag fun j => { j with ir := 0x20, shift := value % 2 ^ 32, driven := [] }
      if bit v 0 = false then s.mJtag fun j => { j with ktrCfg := v }
      else if s.mode 5 = false ∧ Config.devFuse = false then s.mJtag fun j => { j with ktrStat := setBit j.ktrStat 18 }
      else
        (s.mJtag fun j => { j with ktrCfg := v, ktrStat := 0 }).sync

/-- KTR_STAT as a word (R633). -/
def ktrWord (j : JtagSt) : Nat := j.ktrStat % 2 ^ 17 + b2n (bit j.ktrCfg 0) * 2 ^ 17 + b2n (bit j.ktrStat 18) * 2 ^ 18

/-- KTR_STAT (R633): the status is captured. -/
def execKtrStat (s : State) : Host.Outcome State Fault Refusal :=
  s.tap fun j => { j with ir := 0x21, shift := ktrWord j, driven := [] }

/-- TRST_N (R591, R629): test-logic reset, which selects IDCODE; no island is touched. -/
def execTrstNAssert (s : State) : Host.Outcome State Fault Refusal :=
  s.tap fun j => { j with ir := 0x02, shift := idcode, driven := [] }

/-- KTR_TRIG_IN has been high for 20 ns (R634): a record of code 0x01B, sent as a LOG packet when it is stored. -/
def execKtrTrigIn (s : State) : Host.Outcome State Fault Refusal :=
  .next (if s.dst = 0 then s else s.record 8 0x01B [0, 0, 0, 0])

/-- 65,536 words have been sent since the last SYNC (R632). -/
def execKtrSync (s : State) : Host.Outcome State Fault Refusal :=
  .next (if s.dst = 0 ∨ bit s.jtag.ktrCfg 0 = false then s else s.sync)

end Sys2Proof.Machine
end

