-- ==== Sys2Proof/Machine/RegRead.lean ====
section
/-! DEFINITION. What a read of a register returns (R12, R13, R460, R604, R607). A field that shows state the machine holds
elsewhere is computed from it; every other field returns what the register store holds. -/

namespace Sys2Proof.Machine

open Sys2Proof

/-- The 32-bit two's complement image of a whole number. -/
def int32 (v : Int) : Nat := (v % (2 ^ 32 : Nat)).toNat

/-- The word at an offset of a pair of words: the low one at `lo`. -/
def wordOf (v lo off : Nat) : Nat := if off = lo then v % 2 ^ 32 else v / 2 ^ 32

/-- INTAKE: the window on a pitch, the capacities in CAP_LIMIT's units, those of port 0 in split x8 mode (R72, R95). -/
def State.showIntake (s : State) (f : Field) : Option Nat :=
  let p := s.pitch (s.rd R.INTAKE.PITCH_SEL_PITCH)
  let r := s.rd R.INTAKE.CAP_SEL_RESOURCE
  match f.off with
  | 0x130 => some (if f.lo = 0 then p.state else if f.lo = 4 then p.owner else p.port)
  | 0x134 => some p.ops
  | 0x138 => some p.units
  | 0x13C => some (p.tax / 65536)
  | 0x140 => some p.meas
  | 0x154 =>
    let v := s.capTimes r (s.testState none) 0 / capDiv r
    some (if r = 0 then v / 100000000 else if 4 ≤ r ∧ r ≤ 6 then v * 4 else v)
  | 0x158 =>
    let v := s.capSum r 0
    some (if r = 0 then v / 100000000 else if 4 ≤ r ∧ r ≤ 6 then v * 4 else v)
  | _ => none

/-- The terms of an invariant at a sub-index, in the order of R98. -/
def termsOf (inv sub : Nat) : List Nat :=
  match inv with
  | 0 | 1 => [sub, 8 + sub, 16 + sub]
  | 2 => [32 + sub, 64 + sub, 96 + sub, 128 + sub]
  | 3 => [160 + sub, 164 + sub, 168 + sub, 172 + sub, 176 + sub]
  | 4 => [164, 180]
  | 6 => [181, 182, 183, 184, 185, 186, 187, 188, 189]
  | 7 | 9 => [190, 191]
  | 8 => (List.range 96).map (fun n => 192 + n) ++ [288]
  | 10 => [192 + sub, 288]
  | _ => []

/-- TALLY_SNAP (R117): the selected term of the faulting invariant as frozen, the sum over the stalls standing for
ERASES_DONE of invariant 8; then the TRANSIT terms of those that receive messages. -/
def State.tallySnap (s : State) : Int :=
  let inv := s.rd R.TALLY.TALLY_FAULT_INV
  let l := termsOf inv (s.rd R.TALLY.TALLY_FAULT_SUB)
  let old := decide (s.rd R.TALLY.TALLY_SNAP_SEL_ROUND = 1)
  let snap := if old then s.tal.snapPrev else s.tal.snapFault
  let tr := if old then s.tal.snapPrevTransit else s.tal.snapTransit
  let own := fun t => termBase t + snap.get 0 t - tr.get 0 t
  let vals : List Int := if inv = 8 then [((List.range 96).map fun n => own (192 + n)).sum, own 288] else l.map own
  let late := (l.filter fun t => decide (t = 183 ∨ t = 184 ∨ t = 288)).map fun t => tr.get 0 t
  (vals ++ late).getD (s.rd R.TALLY.TALLY_SNAP_SEL_TERM) 0

/-- LEDGER: the selected namespace. -/
def State.showLedger (s : State) (f : Field) : Option Nat :=
  let n := s.ns (s.rd R.LEDGER.NS_SEL_NSID)
  match f.off with
  | 0x124 => some (if f.lo = 0 then n.st else n.iu)
  | 0x128 | 0x12C => some (wordOf n.ius 0x128 f.off)
  | 0x130 => some n.grans.length
  | _ => none

/-- The lines of an applied lock region held in locked ways of a third of the sets (R207). -/
def State.lockedIn (s : State) (third : Nat) : Nat :=
  (s.lc.ways.filter fun e => match e.2 with
    | some c => s.wayLocked (e.1 % 16) && s.regionOf c.n && decide (e.1 / 16 / 4096 = third)
    | none => false).length

/-- LCACHE. -/
def State.showLcache (s : State) (f : Field) : Option Nat :=
  match f.off with
  | 0x160 => some (s.lockedIn (f.lo / 16))
  | 0x164 => some (s.lockedIn 2)
  | 0x198 => some s.dirtyLines
  | 0x19C => some s.lc.tray.length
  | _ => none

/-- CRATEYD: the selected pool, and the crate PROBE names; a PROBE that names none reads free values. -/
def State.showYard (s : State) (f : Field) : Option Nat :=
  let p := s.rd R.CRATEYD.POOL_SEL_POOL
  let free : Nat := Config.freeValue s.free / 2 ^ f.lo % 2 ^ f.width
  let on := fun (g : Crate → Nat) => match crateAt (s.rd R.CRATEYD.PROBE_ADDR) with
    | some n => g (s.crate n)
    | none => free
  match f.off with
  | 0x104 => some (s.term (if f.lo = 0 then p else 8 + p)).toNat
  | 0x108 => if f.lo = 0 then some (s.term (16 + p)).toNat else none
  | 0x114 => some (s.cr.waitq.filter fun q => decide (q.pool = p)).length
  | 0x174 => some (on fun c => match f.lo with
      | 0 => c.state
      | 2 => c.kind
      | 4 => c.owner
      | 7 => b2n c.rel
      | 8 => b2n c.poison
      | _ => c.gen)
  | 0x178 => some (on fun c => c.refs)
  | _ => none

/-- The PARITY crates held in the pools a test accepts. -/
def State.parityIn (s : State) (q : Nat → Bool) : Nat :=
  (s.cr.desc.filter fun e => decide (e.2.state = 1 ∧ e.2.kind = 2) && q (cratePool e.1)).length

/-- WPATH. -/
def State.showWpath (s : State) (f : Field) : Option Nat :=
  match f.off with
  | 0x104 => some (match f.lo with
      | 0 => s.sets.length
      | 8 => s.chanSets
      | 16 => s.widest
      | _ => (((List.range (s.chanSets * 16)).map fun t => (s.setMembers t).length).filter fun n => decide (n = 1)).length)
  | 0x124 => some s.slcAlloc
  | 0x128 => some s.slcHeld
  | 0x12C => some s.slcFree
  | 0x130 => some (s.slcMib (s.diesOn.length * s.rsvBlocks * s.slcCws))
  | 0x140 => some (s.openStripes (f.lo / 8)).length
  | 0x144 => some (s.parityIn fun p => if f.lo = 0 then decide (p ≤ 2) else decide (p = 3))
  | _ => none

/-- A candidate's field of the SWEEP page. -/
def State.candShow (s : State) (g : Band → Nat) (d : Nat) : Nat :=
  match s.candidate (s.rd R.SWEEP.CAND_SEL_KIND) with
  | some b => g b
  | none => d

/-- SWEEP. -/
def State.showSweep (s : State) (f : Field) : Option Nat :=
  match f.off with
  | 0x104 =>
    match f.lo with
    | 2 => some (b2n (s.sw.victims.any fun v => v.hard))
    | 3 => some (b2n s.foldHeld)
    | 4 => some (b2n s.belowFloor)
    | 8 => some s.sw.victims.length
    | _ => none
  | 0x10C => some (s.candShow (fun b => b.num) 0xFFFFFFFF)
  | 0x110 => some (s.candShow (fun b => match f.lo with
      | 0 => s.bandValid b * 1000 / max 1 (s.bandUnits b)
      | 10 => b.set
      | _ => b.group) 0)
  | 0x134 => some s.freeMin
  | _ => none

/-- STALLn: the selected die, the channel's erases, and its use in the last 1 ms, a time the model does not count. -/
def State.showStall (s : State) (f : Field) (i : Nat) : Option Nat :=
  let d := s.die (i * 16 + s.rd R.STALL.DIE_SEL_DIE i)
  let use : Nat := Config.freeValue s.free % 1001
  match f.off with
  | 0x110 => some (match f.lo with
      | 0 => d.desc
      | 8 => if d.state = 0 then 0 else s.st.planes
      | 12 => d.state
      | 16 => d.susp
      | _ => d.lost)
  | 0x140 => some (s.term (192 + i)).toNat
  | 0x164 => some (if f.lo = 0 then use else Config.freeValue (s.free + 1) % (use + 1))
  | _ => none

/-- MEMCHK: the selected entry of a group's table (R325). -/
def State.showMemchk (s : State) (f : Field) : Option Nat :=
  let e : Option MemEntry := ((s.integ.mem.get [] (s.rd R.MEMCHK.GRP_SEL_GROUP)).getD (s.rd R.MEMCHK.ENT_SEL_ENTRY) none)
  let of_ := fun (g : MemEntry → Nat) => some (match e with
    | some x => g x
    | none => 0)
  match f.off with
  | 0x114 | 0x118 => of_ fun x => wordOf x.addr 0x114 f.off
  | 0x11C => of_ fun x => if f.lo = 0 then 1 else if f.lo = 8 then x.syndrome else x.count
  | 0x120 | 0x124 => of_ fun x => wordOf x.first 0x120 f.off
  | 0x128 | 0x12C => of_ fun x => wordOf x.last 0x128 f.off
  | _ => none

/-- The good blocks of the dies in service of an HSTATE. -/
def State.inHstate (s : State) (h : Nat) : Nat := s.countAll fun b => decide (b.state ≠ 5 ∧ b.hstate = h)

/-- SCRUB: the share of the cycle's codewords read, and its counted time (R320). -/
def State.showScrub (s : State) (f : Field) : Option Nat :=
  match f.off with
  | 0x108 => some (s.integ.scrubDone * 1000 / max 1 (s.integ.scrubDone + s.scrubLeft))
  | 0x10C => some ((s.scrubTime).integ.scrubCounted / 360000000000)
  | 0x11C => if f.lo = 0 then some s.integ.cands.length else none
  | _ => none

/-- LOG_USE (R251, R385): 15 lines to a 4 KiB unit, against the reserve less BELL and RECORDS. -/
def State.logUse (s : State) : Nat :=
  let area := (s.slcMib (s.diesOn.length * s.rsvBlocks * s.slcCws) - 1408) * 256
  ceilDiv s.nv.ckpt.length 15 * 1000 / max 1 area

/-- CIPHER: the selected media slot; how many pipes are busy is a moment the model does not count. -/
def State.showCipher (s : State) (f : Field) : Option Nat :=
  let slot := s.rd R.CIPHER.KEY_SEL_SLOT
  let m : MSlot := s.ciph.media.get {} slot
  match f.off with
  | 0x110 => some (if f.lo = 0 then b2n m.loaded else b2n m.bad)
  | 0x114 => some (s.slotUse slot)
  | 0x118 => some m.seq
  | 0x130 => some (Config.freeValue (s.free + f.lo) % 33)
  | 0x140 | 0x144 => some (wordOf s.dev.wrap 0x140 f.off)
  | _ => none

/-- PCHANn: the oldest completion record (R435). -/
def State.showChan (s : State) (f : Field) (i : Nat) : Option Nat :=
  let r := (s.pch i).cpl.head?
  let of_ := fun (g : PCpl → Nat) => some (match r with
    | some x => g x
    | none => 0)
  match f.off with
  | 0x120 => of_ fun x => match f.lo with
      | 0 => x.tag
      | 16 => x.code
      | 20 => b2n x.late
      | 21 => b2n x.inj
      | _ => 1
  | 0x124 => of_ fun x => x.bytes
  | _ => none

/-- The clock of FRONT at a link rate in tenths of GT/s (R441, R627). -/
def frontMhz (rate : Nat) : Nat := if 1280 ≤ rate then 2000 else if 640 ≤ rate then 1000 else if 320 ≤ rate then 500 else 250

/-- The present clock of an island in MHz (R441, R463). -/
def State.islandMhz (s : State) (n : Nat) : Nat :=
  if n < 117 ∧ s.islandOn n then
    if n = 0 then frontMhz (max s.host.p0.rate s.host.p1.rate)
    else if n ≤ 5 then s.pwr.mainClk * 100
    else if n = 6 then s.dev.ddrMts / 8
    else if n = 7 then s.rd R.POWER.DVFS_STAT_CORE_CLK * 100
    else if n = 8 then 100
    else if n ≤ 20 then 1400
    else 1200
  else 0

/-- XCLK: the selected island, and the sampling in force. -/
def State.showXclk (s : State) (f : Field) : Option Nat :=
  let n := s.rd R.XCLK.CLK_SEL_ISLAND
  match f.off with
  | 0x104 => some (match f.lo with
      | 0 => s.islandMhz n
      | 16 => b2n (s.isl.gated.contains n)
      | _ => b2n (decide (n < 117) && s.islandOn n))
  | 0x10C => some s.xmode
  | _ => none

/-- A temperature as a signed byte; 0x80 for none. -/
def tempByte : Option Int → Nat
  | some v => (v % 256).toNat
  | none => 0x80

/-- POWER: the selected client's votes, the time in the selected state, the selected sensor. -/
def State.showPower (s : State) (f : Field) : Option Nat :=
  match f.off with
  | 0x10C => some (s.votes (s.rd R.POWER.VOTE_SEL_CLIENT))
  | 0x138 =>
    let n := s.rd R.POWER.PS_TIME_SEL_STATE
    some (min ((s.pwr.psTicks.get 0 n + if n = s.eff then s.mono - s.pwr.psFrom else 0) / 100000000) 0xFFFFFFFF)
  | 0x14C =>
    let n := s.rd R.POWER.TEMP_SEL_SENSOR
    some (tempByte (if f.lo = 0 then (if s.domOn (sensorDomain n) then s.pwr.temps.get none n else none) else s.composite))
  | _ => none

/-- What is left of a watchdog's period in ms. -/
def State.leftMs (s : State) (period from_ : Nat) : Nat := period - (s.mono - from_) / 100000

/-- CORESYS: the selected watchdog, and mtime (R493). -/
def State.showCore (s : State) (f : Field) : Option Nat :=
  let h := s.rd R.CORESYS.WDOG_SEL_HART
  match f.off with
  | 0x120 =>
    if f.lo = 0 then
      some (if h ≤ 7 then
          let period := s.rd R.CORESYS.WDOG_CFG_PERIOD_MS 0 h
          if s.core.inReset then period else s.leftMs period (s.core.kicked.get 0 h)
        else s.leftMs (s.rd R.CORESYS.MWDOG_CFG_PERIOD_MS) s.core.mKicked)
    else none
  | 0x190 | 0x194 => some (wordOf s.mono 0x190 f.off)
  | _ => none

/-- ADMQ: the SQE of the selected slot. -/
def State.showAdmq (s : State) (f : Field) : Option Nat :=
  if 0x110 ≤ f.off ∧ f.off < 0x150 then
    some (match s.core.adm.get none (s.rd R.ADMQ.ADM_SEL_SLOT) with
      | some x => x.sqe.getD ((f.off - 0x110) / 4) 0
      | none => 0)
  else none

/-- CFLASH: suspended banks and the selected sector. -/
def State.showFlash (s : State) (f : Field) : Option Nat :=
  let k := s.rd R.CFLASH.SECT_SEL_SECTOR
  match f.off with
  | 0x114 => if f.lo = 0 then none else some (b2n (s.flSuspended 0) + b2n (s.flSuspended 1) * 2)
  | 0x130 => some (if f.lo = 0 then s.nv.sectErases.get 0 k else 6 - s.cf.dayErases.get 0 k)
  | _ => none

/-- GATE: the age of the slot lock, and the coverage of a source's staging area. -/
def State.showGate (s : State) (f : Field) : Option Nat :=
  match f.off with
  | 0x100 =>
    if f.lo = 16 then some (if s.rd R.GATE.LOCK_HELD = 1 then (s.mono - s.cf.lockAt) / 100000000 else 0) else none
  | 0x11C => some ((s.cf.cover.get [] (s.rd R.GATE.PIECE_SRC)).map fun e => e.2 - e.1).sum
  | _ => none

/-- TIME (R563). -/
def State.showTime (s : State) (f : Field) : Option Nat :=
  match f.off with
  | 0x100 | 0x104 => some (wordOf s.mono 0x100 f.off)
  | 0x10C => some (s.wallAt s.mono % 2 ^ 32)
  | 0x110 => if f.lo = 0 then some (s.wallAt s.mono / 2 ^ 32) else none
  | _ => none

/-- LOG: the rate table of the selected code, where the configuration record has loaded none (R547, R550). -/
def State.showLog (s : State) (f : Field) (b : Nat) : Option Nat :=
  if f.off = 0x184 then
    match f.lo with
    | 0 => some (let v := s.rd R.LOG.RATE_CFG_RATE 0 b; if v = 0 then 16 else v)
    | 8 => some (s.burst b)
    | 16 => some (b2n (unlimited b))
    | _ => none
  else none

/-- INJFAB: the selected entry of the armed list. -/
def State.showInj (s : State) (f : Field) : Option Nat :=
  if f.off = 0x10C then
    some (match s.armed[s.rd R.INJFAB.ARM_SEL_ENTRY]? with
      | some a => if f.lo = 0 then a.page else if f.lo = 8 then a.point else 1
      | none => 0)
  else none

/-- The page that holds TMO_CFG of its island: the lowest (R462). -/
def holdsTmo (p : Nat) : Bool :=
  decide (p = 0 ∨ p = 0x10 ∨ p = 0x11 ∨ p = 0x13 ∨ p = 0x18 ∨ p = 0x1A ∨ p = 0x1B ∨ p = 0x1C ∨ 0x70 ≤ p)

/-- Whether a BUSY, ACTIVE or DRAINING field of a page reads other than zero. -/
def State.pageBusy (s : State) (p : Nat) : Bool :=
  R.blockFields.any fun f => decide (f.cls = 4 ∧ f.page = pageType p) && decide (s.rd f (p - pageType p) ≠ 0)

/-- The vote register an initiator's PAGE_CTRL.VOTE acts on (R600). -/
def voteField : Initiator → Field
  | .policy _ _ _ => R.POWER.POL_VOTE_DOMAINS
  | _ => R.POWER.MGT_VOTE_DOMAINS

/-- The common registers (R597); `woke` says whether the access had to wake the island. -/
def State.showCommon (s : State) (who : Initiator) (woke : Bool) (f : Field) (p : Nat) : Option Nat :=
  match f.off with
  | 0x000 => some (match f.lo with
      | 0 => pageType p
      | 8 => p - pageType p
      | 16 => pageIsland p
      | _ => p)
  | 0x008 => if f.lo = 8 then
      some (let d := islandDomain (pageIsland p); if d = 0 then 0 else b2n (bit (s.rd (voteField who)) d))
    else none
  | 0x00C => some (match f.lo with
      | 0 => b2n (s.pageBusy p)
      | 1 => b2n (!woke)
      | 2 => b2n (bit (s.rd R.COMMON.EVT_RAW_EVENTS p) 2)
      | _ => s.rd R.COMMON.PAGE_LOCK_LOCK p)
  | 0x018 => some ((s.rd R.COMMON.EVT_RAW_EVENTS p).land (255 - s.rd R.COMMON.EVT_MASK_MASK p))
  | 0x020 | 0x024 | 0x028 => if pointCount p = 0 then some 0 else none
  | 0x030 => if holdsTmo p then none else some 0
  | _ => none

/-- A computed field of page `p`. -/
def State.computed (s : State) (who : Initiator) (woke : Bool) (f : Field) (p b : Nat) : Option Nat :=
  if f.off < 0x100 then s.showCommon who woke f p
  else
    let i := p - f.page
    match f.page with
    | 0x02 => s.showTime f
    | 0x03 => s.showLog f b
    | 0x04 => s.showPower f
    | 0x05 => s.showXclk f
    | 0x06 => s.showCore f
    | 0x08 => if f.off = 0x134 ∨ f.off = 0x138 then some (wordOf (int64 s.tallySnap) 0x134 f.off) else none
    | 0x09 => s.showMemchk f
    | 0x0A => if f.off = 0x140 then some (s.inHstate 1) else if f.off = 0x144 then some (s.inHstate 2) else none
    | 0x0C => s.showFlash f
    | 0x0D => s.showGate f
    | 0x0E => s.showInj f
    | 0x11 => s.showIntake f
    | 0x12 => s.showAdmq f
    | 0x13 => s.showLedger f
    | 0x14 => s.showLcache f
    | 0x15 => s.showScrub f
    | 0x16 => s.showSweep f
    | 0x17 => if f.off = 0x118 then some s.logUse else none
    | 0x18 => s.showYard f
    | 0x19 => s.showWpath f
    | 0x1B => s.showCipher f
    | 0x1C => if f.off = 0x104 then
        some (if f.lo = 0 then ((List.range 64).filter fun k => s.chActive k).length else b2n s.porterVote)
      else none
    | 0x30 => s.showChan f i
    | 0x70 => if f.off = 0x134 then some (s.soft i).length else none
    | 0x80 => s.showStall f i
    | _ => none

/-- What a read returns of a field of page `p` (R12): zero of one that is write-only. -/
def State.view (s : State) (who : Initiator) (woke : Bool) (f : Field) (p b : Nat) : Nat :=
  if f.acc = .wo then 0
  else (s.computed who woke f p b).getD (s.rd f (instAt p f.off) b) % 2 ^ f.width

/-- The word a read of an offset returns. -/
def State.viewWord (s : State) (who : Initiator) (woke : Bool) (p off : Nat) : Nat :=
  let b := s.bankAt who p off
  ((fieldsAt p off).map fun f => s.view who woke f p b * 2 ^ f.lo).sum

end Sys2Proof.Machine
end

