-- ==== Sys2Proof/Machine/Registers.lean ====
section
/-! DEFINITION. Accesses to registers: the address map (R594, R595), reads and the latches of word pairs (R13, R604), writes
with their rights, locks and ranges (R12, R14, R601, R650), the common registers (R597 to R601), and the NVMe-MI window
(R606, R607). A register that has rows of its own is written by their meanings. -/

namespace Sys2Proof.Machine

open Sys2Proof

/-- The page INDEX and the offset an address names to an initiator (R490, R491, R594). -/
def regOf (who : Initiator) (addr : Nat) : Option (Nat × Nat) :=
  let base := regAddr who 0 0
  if base ≤ addr ∧ addr < base + 0x1000000 then some ((addr - base) / 0x1000, (addr - base) % 0x1000) else none

/-- An access of the wrong width or alignment, or to an unassigned index (R594, R595): refused with a bus error or, a write
to a page, dropped; recorded by the page's island, or where there is none by the initiator's. -/
def State.pageFault (s : State) (who : Initiator) (p off width : Nat) (write : Bool) : State :=
  let snaps := [p, off, width, initCode who]
  if isPage p = false then (s.record (initIsland who) 0x022 snaps).busError
  else
    let s := s.access who p off write fun s => s.record (pageIsland p) 0x022 snaps
    if write then s else s.busError

/-- Whether the page's owner turns an access away: CUSER and firmware PCHAN pages answer their owner only (R411, R440);
with the state after the refusal. -/
def State.ownCheck (s : State) (who : Initiator) (p off : Nat) : Bool × State :=
  if 0x20 ≤ p ∧ p < 0x30 then
    let i := s.limFire 16
    if s.mayUser who (p - 0x20) = false then (true, i.2.isoRefuse who (p - 0x20) off)
    else if i.1 then (true, i.2.isoRefuse who (p - 0x20) off true)
    else (false, i.2)
  else if 0x38 ≤ p ∧ p < 0x70 then
    let i := s.limFire 16
    if isOwner who (s.chOwner (p - 0x30)) = false then (true, i.2.porterIso who p off)
    else if i.1 then (true, i.2.porterIso who p off true)
    else (false, i.2)
  else (false, s)

/-! ### Reads -/

/-- The offsets of the lower words of the pairs of words (R604). -/
def lowWords : Nat → List Nat
  | 0x02 => [0x100, 0x10C]
  | 0x03 => [0x110, 0x128]
  | 0x06 => [0x108, 0x140, 0x148, 0x150, 0x158, 0x160, 0x168, 0x170, 0x178, 0x180, 0x188, 0x190]
  | 0x07 => [0x10C, 0x118]
  | 0x08 => [0x108, 0x110, 0x118, 0x134]
  | 0x09 => [0x114, 0x120, 0x128]
  | 0x0C => [0x108]
  | 0x0D => [0x148]
  | 0x13 => [0x128, 0x178]
  | 0x14 => [0x10C, 0x114, 0x14C, 0x154]
  | 0x16 => [0x120]
  | 0x17 => [0x104]
  | 0x1B => [0x140]
  | 0x20 => [0x124, 0x130]
  | 0x30 => [0x10C]
  | _ => []

/-- The latch of an initiator for an upper word; the banked pair of the LOG page has one per bank (R557, R604). -/
def latchKey (who : Initiator) (p off : Nat) : Nat :=
  let id := if p = 3 ∧ off = 0x12C then logBank who * 16 + 15 else initCode who * 16 + initHart who
  (id * 256 + p) * 4096 + off

/-- What a read of an RC field clears it to: its reset value, the pool's size for POOL_CNT2.LOW (R275). -/
def clearsTo (f : Field) (b : Nat) : Nat := if f = R.CRATEYD.POOL_CNT2_LOW then poolCrates b else f.reset

/-- A read clears the RC fields of its word (R12, R13), but not through the NVMe-MI window (R607). -/
def State.readClears (s : State) (who : Initiator) (p off : Nat) : State :=
  if who = .mi then s
  else
    let b := s.bankAt who p off
    (fieldsAt p off).foldl (fun (t : State) f => if f.acc = .rc then t.wr f (clearsTo f b) (instAt p off) b else t) s

/-- A read that its page answers: the word, latched where it is the upper one of a pair, and what the read does. -/
def State.readWord (s : State) (who : Initiator) (woke : Bool) (p off : Nat) : Nat × State :=
  let s := if p = 3 ∧ off = 0x140 then s.win0 (logBank who) else s
  let k := latchKey who p off
  let held := s.bus.latch.get 0 k
  let v := if held = 0 then s.viewWord who woke p off else held - 1
  let s := if held = 0 then s else s.mBus fun b => { b with latch := b.latch.set 0 k 0 }
  let s := if (lowWords (pageType p)).contains off then
      s.mBus fun b => { b with latch := b.latch.set 0 (latchKey who p (off + 4)) (s.viewWord who woke p (off + 4) + 1) }
    else s
  let s := s.readClears who p off
  let s := if p = 3 ∧ off = 0x17C then s.win15 (logBank who) else s
  (v, { s with free := s.free + 32 })

/-- The pages in the NVMe-MI window (R596, R607): 0 not in it, 1 coded I, 2 coded R. -/
def miWindow (p : Nat) : Nat :=
  if p ≤ 0x0E then 2
  else if p = 0x10 ∨ p = 0x11 ∨ p = 0x13 ∨ p = 0x14 ∨ p = 0x18 ∨ (0x80 ≤ p ∧ p < 0xE0) then 1
  else if p = 0x16 ∨ p = 0x17 ∨ p = 0x19 ∨ p = 0x1B ∨ p = 0x1C ∨ (0x30 ≤ p ∧ p < 0x38) ∨ (0x70 ≤ p ∧ p < 0x7C) then 2
  else 0

/-- Whether the window reads an offset of a page. -/
def miReads (p off : Nat) : Bool :=
  decide (miWindow p = 2) || decide (miWindow p = 1 ∧ (off ≤ 4 ∨ (0x020 ≤ off ∧ off ≤ 0x028)))

/-- What came of a register read: the word, whether it was 0 answered, 1 refused or 2 met a bus error, and the state. -/
structure ReadResult where
  word : Nat
  outcome : Nat
  st : State
  deriving DecidableEq, Repr

/-- One aligned 32-bit read of a register (R460, R595). -/
def State.readReg (s : State) (who : Initiator) (p off : Nat) : ReadResult :=
  if isPage p = false ∨ off % 4 ≠ 0 then ⟨0, 2, s.pageFault who p off 4 false⟩
  else if who = .mi ∧ miReads p off = false then ⟨0, 1, s⟩
  else if s.answers p = false then ⟨0x0FF00FF0, 2, s.offAccess who p off false⟩
  else
    let woke := s.isl.gated.contains (pageIsland p)
    let o := (s.crossTo (initIsland who) p).ownCheck who p off
    if o.1 then ⟨0, 1, o.2⟩
    else if p = 0x18 ∧ off = 0x15C then
      let t := o.2.winAccess who false 0
      ⟨t.bus.data.getD 0 0, 0, t⟩
    else
      let r := o.2.readWord who woke p off
      ⟨r.1, 0, r.2⟩

/-- The answer to a hart: a refused read returns zero, a bus error is an access fault; the window gets the word. -/
def ReadResult.toBus (r : ReadResult) (who : Initiator) : State :=
  if r.outcome = 2 ∧ who ≠ .mi then r.st.busError else r.st.answer [r.word]

/-- RC_FIELD_READ (R13): a read of a register with fields that a read clears. -/
def execRcFieldRead (who : Initiator) (addr : Nat) (s : State) : Host.Outcome State Fault Refusal :=
  .next <| match regOf who addr with
    | some (p, off) => (s.readReg who p off).toBus who
    | none => s

/-- LO_WORD_READ (R604): a read of a lower word, which latches the upper one for the initiator; and of any other register
that has no row of its own. -/
def execLoWordRead (who : Initiator) (addr : Nat) (s : State) : Host.Outcome State Fault Refusal :=
  .next <| match regOf who addr with
    | some (p, off) => (s.readReg who p off).toBus who
    | none => s

/-- REGISTER_READ_REFUSED (R411, R440, R460, R499): a read by one that does not own the page, or of a domain that is off. A
read that none of these refuses is no such command. -/
def execRegisterReadRefused (who : Initiator) (addr : Nat) (s : State) : Host.Outcome State Fault Refusal :=
  .next <| match regOf who addr with
    | some (p, off) =>
      let r := s.readReg who p off
      if r.outcome = 0 then s else r.toBus who
    | none => s

/-- PAGE_ACCESS_FAULT (R595): an access of the wrong width, alignment or index. -/
def execPageAccessFault (who : Initiator) (addr width : Nat) (write : Bool) (s : State) : Host.Outcome State Fault Refusal :=
  .next <| match regOf who addr with
    | some (p, off) =>
      if width = 4 ∧ off % 4 = 0 ∧ isPage p = true then s else s.pageFault who p off width write
    | none => s

/-! ### Writes -/

/-- Whether an initiator may write a field of page `p`: policy firmware has no write path to the TALLY page (R118). -/
def mayTouch (who : Initiator) (p : Nat) (f : Field) : Bool := mayWrite f who && !(decide (p = 8) && decide (initCode who = 1))

/-- A write that its initiator may not make (R500, limits 11 and 15). -/
def State.deny (s : State) (who : Initiator) (p off : Nat) : State := s.denyUnder (if p = 8 then 11 else 15) who p off

/-- A write of an RWL field is ignored under the lock of its page (R12, R601). -/
def State.lockedWrite (s : State) (who : Initiator) (p off value : Nat) : State :=
  ((s.count R.COMMON.PAGE_LOCK_IGNORED p).raise p 4).record (pageIsland p) 0x021 [p, off, value, initCode who]

/-- The value a word carries for a field. -/
def carried (f : Field) (word : Nat) : Nat := word / 2 ^ f.lo % 2 ^ f.width

/-- Whether a field counts as written by a word (R650). -/
def State.written (s : State) (who : Initiator) (p : Nat) (f : Field) (word : Nat) : Bool :=
  match f.acc with
  | .ro | .rc => false
  | .wo | .w1c => decide (carried f word ≠ 0)
  | _ => decide (carried f word ≠ s.view who false f p (s.bankAt who p f.off))

/-- Whether a value is in the range of its field, where that depends on another field or on an instance (R255, R273, R275,
R331, R366). -/
def State.valueOk (s : State) (f : Field) (b x : Nat) : Bool :=
  decide (f.rmin ≤ x ∧ x ≤ f.rmax) &&
  (if f = R.WPATH.SLC_CFG_MIN then decide (x ≤ s.rd R.WPATH.SLC_CFG_MAX)
  else if f = R.SWEEP.FREE_CFG_CRIT then decide (x ≤ s.rd R.SWEEP.FREE_CFG_LOW)
  else if f = R.CRATEYD.LEND_MAX_CRATES then decide (x ≤ poolCrates b)
  else if f = R.DECODE.LLR_MAG_VALUE then (List.range 4).all fun k => decide (bits x (4 * k) 4 ≠ 0)
  else if f = R.CRATEYD.WIN_OFF_OFFSET then decide (x % 4 = 0)
  else true)

/-- The low bits of a field that are reserved and read as zero (R14, R439, R507). -/
def lowZeros (f : Field) : Nat :=
  if f = R.PCHAN.RING_BASE_LO_VALUE then 32 else if f = R.INSPECT.HWIN_BASE_LO_VALUE then 4096 else 1

/-- One field of a register write, with nothing of its own to do (R12, R601, R650). -/
def State.putField (s : State) (who : Initiator) (p word : Nat) (f : Field) : State :=
  let x := carried f word - carried f word % lowZeros f
  let b := s.bankAt who p f.off
  if s.written who p f word = false then
    if f.acc = .wo ∧ mayTouch who p f = true then s.wr f x (instAt p f.off) b else s
  else if f.acc = .rwl ∧ s.rd R.COMMON.PAGE_LOCK_LOCK p = 1 then s.lockedWrite who p f.off (carried f word)
  else if mayTouch who p f = false then s.deny who p f.off
  else if s.valueOk f b x = false then s.rangeRecord who p f.off (carried f word)
  else s.wr f x (instAt p f.off) b

/-- The fields of a word, lowest first. -/
def State.putWord (s : State) (who : Initiator) (p off word : Nat) : State :=
  (fieldsAt p off).foldl (fun (t : State) f => t.putField who p word f) s

/-- Whether a word changes a field of its register. -/
def State.wordChanges (s : State) (who : Initiator) (p off word : Nat) : Bool :=
  (fieldsAt p off).any fun f => s.written who p f word

/-! ### The common registers (R597 to R601) -/

/-- PAGE_CTRL.SOFT_CLEAR. -/
def State.softClear (s : State) (who : Initiator) (p : Nat) : State :=
  if mayTouch who p R.COMMON.PAGE_CTRL_SOFT_CLEAR = false then s.deny who p 0x008
  else (s.wr R.COMMON.EVT_RAW_EVENTS 0 p).wr R.COMMON.CNT_VAL_COUNT 0 p

/-- EVT_PEND: each 1 clears its bit of EVT_RAW. -/
def State.pendClear (s : State) (who : Initiator) (p mask : Nat) : State :=
  if mayTouch who p R.COMMON.EVT_PEND_PEND = false then s.deny who p 0x018
  else s.wr R.COMMON.EVT_RAW_EVENTS (without (s.rd R.COMMON.EVT_RAW_EVENTS p) mask) p

/-- EVT_FORCE: each 1 sets its bit of EVT_RAW, together with FORCED. -/
def State.forceEvents (s : State) (who : Initiator) (p mask : Nat) : State :=
  if mayTouch who p R.COMMON.EVT_FORCE_FORCE = false then s.deny who p 0x01C
  else if mask % 256 = 0 then s
  else ((List.range 7).foldl (fun (t : State) e => if bit mask e then t.raise p e else t) s).raise p 7

/-- Whether an initiator may lock a page: one that may write a register of its own (R601). -/
def mayLock (who : Initiator) (p : Nat) : Bool :=
  decide (who = .bootRom) || R.blockFields.any fun f => decide (f.page = pageType p) && mayTouch who p f

/-- PAGE_LOCK.BY of an initiator. -/
def lockCode : Initiator → Nat
  | .policy _ _ _ => 2
  | .mgmt _ _ => 3
  | _ => 1

/-- PAGE_LOCK.LOCK written 1: the page's RWL fields are locked; the HEALTH page never is (R367, R601). -/
def State.lockPage (s : State) (who : Initiator) (p : Nat) : State :=
  if p = 0x0A ∨ s.rd R.COMMON.PAGE_LOCK_LOCK p = 1 then s
  else if mayLock who p = false then s.deny who p 0x02C
  else (s.wr R.COMMON.PAGE_LOCK_LOCK 1 p).wr R.COMMON.PAGE_LOCK_BY (lockCode who) p

/-- CNT_SEL: the event is selected and CNT_VAL starts from 0. -/
def State.selectEvent (s : State) (who : Initiator) (p event : Nat) : State :=
  if mayTouch who p R.COMMON.CNT_SEL_EVENT = false then s.deny who p 0x040
  else (s.wr R.COMMON.CNT_SEL_EVENT (event % 8) p).wr R.COMMON.CNT_VAL_COUNT 0 p

/-- PAGE_CTRL.VOTE: the page's domain in the writer's own vote register; WATCH pages ignore it (R600). -/
def State.pageVote (s : State) (who : Initiator) (p : Nat) (vote : Bool) : State :=
  let d := islandDomain (pageIsland p)
  let f := voteField who
  let old := s.rd f
  if d = 0 ∨ bit old d = vote then s
  else if mayTouch who p R.COMMON.PAGE_CTRL_VOTE = false then s.deny who p 0x008
  else s.voteWrite who f (if vote then setBit old d else clrBit old d)

/-- A write that reaches a page by its owner: hardware channels ignore every write (R439), and a CUSER page drops what
comes while it is busy (R418). -/
def State.onOwned (s : State) (who : Initiator) (p off : Nat) (f : State → State) : State :=
  if 0x30 ≤ p ∧ p < 0x38 then s
  else
    let o := s.ownCheck who p off
    if o.1 then o.2
    else if 0x20 ≤ p ∧ p < 0x30 ∧ o.2.rd R.CUSER.JOB_STAT_BUSY (p - 0x20) = 1 then o.2.count R.CUSER.JOB_STAT_DROPPED (p - 0x20)
    else f o.2

/-- A write to a common register of a page, from its crossing on. -/
def State.onCommon (s : State) (who : Initiator) (p off : Nat) (f : State → State) : State :=
  if isPage p = false then s.pageFault who p off 4 true
  else s.access who p off true fun s => s.onOwned who p off f

/-- SOFT_CLEAR (R597). -/
def execSoftClear (who : Initiator) (page : Nat) (s : State) : Host.Outcome State Fault Refusal :=
  .next (s.onCommon who page 0x008 fun s => s.softClear who page)

/-- EVT_PEND_CLEAR (R599). -/
def execEvtPendClear (who : Initiator) (page mask : Nat) (s : State) : Host.Outcome State Fault Refusal :=
  .next (s.onCommon who page 0x018 fun s => s.pendClear who page mask)

/-- EVT_FORCE (R598). -/
def execEvtForce (who : Initiator) (page mask : Nat) (s : State) : Host.Outcome State Fault Refusal :=
  .next (s.onCommon who page 0x01C fun s => s.forceEvents who page mask)

/-- PAGE_LOCK (R601). -/
def execPageLock (who : Initiator) (page : Nat) (s : State) : Host.Outcome State Fault Refusal :=
  .next (s.onCommon who page 0x02C fun s => s.lockPage who page)

/-- CNT_SEL_WRITE (R597). -/
def execCntSelWrite (who : Initiator) (page event : Nat) (s : State) : Host.Outcome State Fault Refusal :=
  .next (s.onCommon who page 0x040 fun s => s.selectEvent who page event)

/-- PAGE_CTRL_VOTE (R600). -/
def execPageCtrlVote (who : Initiator) (page : Nat) (vote : Bool) (s : State) : Host.Outcome State Fault Refusal :=
  .next (s.onCommon who page 0x008 fun s => s.pageVote who page vote)

/-- A word offered to a common register. -/
def State.commonWrite (s : State) (who : Initiator) (p off v : Nat) : State :=
  match off with
  | 0x008 =>
    let s := s.putField who p v R.COMMON.PAGE_CTRL_ENABLE
    let s := if bit v 1 then s.softClear who p else s
    s.pageVote who p (bit v 8)
  | 0x018 => if v % 256 = 0 then s else s.pendClear who p v
  | 0x01C => if v % 256 = 0 then s else s.forceEvents who p v
  | 0x02C =>
    if p = 0x0A ∨ bit v 0 = decide (s.rd R.COMMON.PAGE_LOCK_LOCK p = 1) then s
    else if bit v 0 then s.lockPage who p else s.lockedWrite who p off 0
  | 0x030 => if holdsTmo p then s.putWord who p off v else s
  | 0x040 =>
    if mayTouch who p R.COMMON.CNT_SEL_EVENT || s.written who p R.COMMON.CNT_SEL_EVENT v then s.selectEvent who p (v % 8) else s
  | _ => s.putWord who p off v

/-- A write of INJ_SEL: ignored and counted while the page's point is armed (R566); of the TALLY page, management firmware
makes it in DIAGNOSE only (R118). -/
def State.injSelect (s : State) (who : Initiator) (p v : Nat) : State :=
  if s.wordChanges who p 0x020 v = false then s
  else if p = 8 ∧ initCode who = 2 ∧ s.mode 5 = false then s.deny who p 0x020
  else if s.rd R.COMMON.INJ_CTRL_ARM p = 1 then (s.count R.COMMON.INJ_COUNT_REFUSED p).count R.INJFAB.REFUSED_COUNT
  else s.putWord who p 0x020 v

/-- A write of INJ_CTRL (R566, R567). -/
def State.injControl (s : State) (who : Initiator) (p v : Nat) : State :=
  if bit v 0 then s.injArm who p (bits v 1 2) (bits v 8 8)
  else ((s.disarm p 1).injField who p R.COMMON.INJ_CTRL_MODE (bits v 1 2)).injField who p R.COMMON.INJ_CTRL_COUNT (bits v 8 8)

/-! ### Registers with rules of their own -/

/-- The window of a pitch: one that the host owns is not written (R96). -/
def State.windowWrite (s : State) (who : Initiator) (off v : Nat) : State :=
  let p := s.pitch (s.rd R.INTAKE.PITCH_SEL_PITCH)
  if s.wordChanges who 0x11 off v ∧ mayWrite R.INTAKE.PITCH_C0_CLASS who = true ∧ p.state ≠ 0 ∧ p.owner = 0 then s.pitchResult 4 0
  else s.putWord who 0x11 off v

/-- OPEN_CFG: a value that would let open stripes hold more than 48 pool-3 PARITY crates is ignored (R255). -/
def State.openWrite (s : State) (who : Initiator) (v : Nat) : State :=
  let l := [R.WPATH.OPEN_CFG_HOST, R.WPATH.OPEN_CFG_FOLD, R.WPATH.OPEN_CFG_RELOC]
  let t := s.putWord who 0x19 0x108 v
  let need := fun (mode n : Nat) => let q := s.parityNeed mode; if q.1 = 3 then q.2 * n else 0
  if need 0 (t.openLimit 0) + need s.dense (t.openLimit 1) + need s.dense (t.openLimit 2) ≤ 48
      ∨ l.all (fun f => decide (t.rd f = s.rd f)) = true then t
  else (l.filter fun f => decide (t.rd f ≠ s.rd f)).foldl (fun (u : State) f => u.rangeRecord who 0x19 0x108 (carried f v)) s

/-- Whether a start source names a timer or a channel of the channel's owner (R430). -/
def State.sourceOk (s : State) (k kind idx : Nat) : Bool :=
  decide (kind = 0) || (decide (kind = 1 ∧ idx < 16) && decide (s.rd (R.PORTER.TMR_OWNER_OWNER idx) = s.chOwner k))
    || (decide (kind = 2 ∧ 8 ≤ idx) && decide (s.chOwner idx = s.chOwner k))

/-- Whether a channel may bind a CUSER page: the Porter's own, that no other channel binds (R411, R439). -/
def State.bindOk (s : State) (k page : Nat) : Bool :=
  decide (s.pageOwner page = 3) && (List.range 64).all fun j =>
    decide (j = k) || decide (s.rd R.PCHAN.CH_CFG_CUSER_EN j = 0) || decide (s.rd R.PCHAN.CH_CFG_CUSER j ≠ page)

/-- CH_CFG (R411, R430, R439). -/
def State.chConfig (s : State) (who : Initiator) (p v : Nat) : State :=
  let k := p - 0x30
  let kind := carried R.PCHAN.CH_CFG_START_KIND v
  let idx := carried R.PCHAN.CH_CFG_START_IDX v
  let en := carried R.PCHAN.CH_CFG_CUSER_EN v
  let page := carried R.PCHAN.CH_CFG_CUSER v
  let s := s.putField who p v R.PCHAN.CH_CFG_PRIO
  let s := if kind = s.rd R.PCHAN.CH_CFG_START_KIND k ∧ idx = s.rd R.PCHAN.CH_CFG_START_IDX k then s
    else if kind = 3 then s.rangeRecord who p 0x108 kind
    else if s.sourceOk k kind idx then (s.wr R.PCHAN.CH_CFG_START_KIND kind k).wr R.PCHAN.CH_CFG_START_IDX idx k
    else s.porterIso who p 0x108
  let s := if en = s.rd R.PCHAN.CH_CFG_CUSER_EN k ∧ page = s.rd R.PCHAN.CH_CFG_CUSER k then s
    else if en = 0 ∨ s.bindOk k page = true then (s.wr R.PCHAN.CH_CFG_CUSER_EN en k).wr R.PCHAN.CH_CFG_CUSER page k
    else s.porterIso who p 0x108
  s.chRest k

/-- A write to a firmware channel's page by its owner (R430, R435, R436, R439). -/
def State.chanWrite (s : State) (who : Initiator) (p off v : Nat) : State :=
  let k := p - 0x30
  match off with
  | 0x104 =>
    let s := if bit v 0 = decide (s.rd R.PCHAN.CH_CTRL_ENABLE k = 1) then s else s.chEnable k (bit v 0)
    let s := if bit v 1 then s.addToken k else s
    if bit v 2 then s.stopChan k else s
  | 0x128 => if bit v 0 then s.popRecord k else s
  | _ =>
    if s.wordChanges who p off v = false then s
    else if 2 ≤ s.chState k ∧ s.chState k ≤ 4 then s.porterIso who p off
    else if off = 0x108 then s.chConfig who p v
    else (s.putWord who p off v).chRest k

/-- A timer's registers: written by its owner only; one enabled runs from the write (R431). -/
def State.timerWrite (s : State) (who : Initiator) (off v : Nat) : State :=
  let n := (off - 0x200) / 16
  if s.wordChanges who 0x1C off v = false then s
  else if isOwner who (s.rd (R.PORTER.TMR_OWNER_OWNER n)) = false then s.porterIso who 0x1C off
  else
    let t := s.putWord who 0x1C off v
    if s.rd (R.PORTER.TMR_CTRL_ENABLE n) = 0 ∧ t.rd (R.PORTER.TMR_CTRL_ENABLE n) = 1 then
      t.mPor fun x => { x with timers := x.timers.set (0, 0) n (t.mono, 0) }
    else t

/-- MTIMECMPh: written by its own hart; one above mtime leaves no interrupt pending (R493, R506). -/
def State.compareWrite (s : State) (who : Initiator) (off v : Nat) : State :=
  let h := (off - 0x140) / 8
  let own := match who with
    | .policy n _ _ => decide (n = h)
    | .mgmt n _ => decide (8 + n = h)
    | .mi => false
    | .bootRom => true
  if s.wordChanges who 6 off v = false then s
  else if own = false then s.deny who 6 off
  else
    let s := s.putWord who 6 off v
    if s.mono < s.mtimecmp h then s.mCore fun c => { c with timers := c.timers.filter fun n => decide (n ≠ h) } else s

/-- A register write that its page takes. An armed point of limit 15 refuses it (R571). -/
def State.plainWrite (s : State) (who : Initiator) (p off v : Nat) : State :=
  let i := s.limFire 15
  let s := i.2
  if i.1 then s.refuse 15 (initCode who) (initHart who) (regAddr who p off) true
  else if off < 0x100 then s.commonWrite who p off v
  else if 0x30 ≤ p ∧ p < 0x70 then s.chanWrite who p off v
  else if p = 0x11 ∧ 0x110 ≤ off ∧ off ≤ 0x12C then s.windowWrite who off v
  else if p = 0x19 ∧ off = 0x108 then s.openWrite who v
  else if p = 0x1C ∧ 0x200 ≤ off then s.timerWrite who off v
  else if p = 6 ∧ 0x140 ≤ off ∧ off < 0x190 then s.compareWrite who off v
  else s.putWord who p off v

/-! ### Registers with rows of their own -/

/-- The state a meaning answers. -/
def after (s : State) : Host.Outcome State Fault Refusal → State
  | .next t => t
  | _ => s

/-- A write to COMMIT: the fields, then GO; a slot that no slot has is refused by the Gate (R528, R539). -/
def State.commitWrite (s : State) (who : Initiator) (v : Nat) : State :=
  let go := bit v 31
  let slot := bits v 0 2
  let s := if go ∧ slot = 3 then s else s.putField who 0x0D v R.GATE.COMMIT_SLOT
  let s := (s.putField who 0x0D v R.GATE.COMMIT_ACTION).putField who 0x0D v R.GATE.COMMIT_SRC
  if go = false then s
  else if slot = 3 then s.commitGo who 3 (s.rd R.GATE.COMMIT_ACTION)
  else match s.rd R.GATE.COMMIT_ACTION with
    | 0 => after s (execCommitAction000b who s)
    | 1 => after s (execCommitAction001b who s)
    | 2 => after s (execCommitAction010b who s)
    | 3 => after s (execCommitAction011b who s)
    | a => s.commitGo who (s.rd R.GATE.COMMIT_SLOT) a

/-- WAY_PWR.OFF: each bit that changes, lowest first. -/
def State.wayWrite (s : State) (who : Initiator) (v : Nat) : State :=
  let old := s.rd R.LCACHE.WAY_PWR_OFF
  (List.range 16).foldl (fun (t : State) w =>
    if bit v w = bit old w then t
    else if bit v w then after t (execWayPowerOff who w t) else after t (execWayPowerOn who w t)) s

/-- A word written to a register that rows of the table act through, where it asks for one of them. -/
def State.rowWrite (s : State) (who : Initiator) (p off v : Nat) : Option State :=
  let run := fun (c : Bool) (o : Host.Outcome State Fault Refusal) => if c then some (after s o) else none
  let two := fun (a b : Bool) (f g : State → Host.Outcome State Fault Refusal) =>
    let t := if a then after s (f s) else s
    if a || b then some (if b then after t (g t) else t) else none
  let on := fun (f : Field) => mayWrite f who || decide (carried f v ≠ 0)
  let key := fun (f : Field) (old : Nat) => decide (carried f v ≠ old)
  if off = 0x020 then
    if pointCount p = 0 then none
    else if s.wordChanges who p off v then some (s.injAccess who p off fun t => t.injSelect who p v) else none
  else if off = 0x024 then
    if pointCount p = 0 then none
    else if s.wordChanges who p off v ∨ initCode who ≠ 1 then some (s.injAccess who p off fun t => t.injControl who p v) else none
  else match p, off with
  | 0x00, 0x108 => run (decide (v % 65536 ≠ 0)) (execModeReq who (v % 256) (v / 256 % 256) s)
  | 0x00, 0x12C => two (bit v 0) (bit v 8) (execHaltCtrlOrderly who) (execHaltCtrlRestart who)
  | 0x02, 0x118 => run (on R.TIME.WALL_SET_HI_MS) (execWallSetHi who v s)
  | 0x03, 0x100 =>
    two (key R.LOG.LOG_CTRL_FREEZE (s.rd R.LOG.LOG_CTRL_FREEZE 0 (logBank who))) (bit v 8)
      (execLogCtrlFreeze who (bit v 0)) (execFaultRelease who)
  | 0x03, 0x134 => two (bit v 0) (bit v 1) (execCurCmdOldest who) (execCurCmdNewest who)
  | 0x03, 0x1AC => run (bit v 0) (execFwPost who s)
  | 0x04, 0x110 => if clrBit (v % 2 ^ 17) 0 = s.rd R.POWER.POL_VOTE_DOMAINS then some s else run true (execPolVoteWrite who v s)
  | 0x04, 0x114 => if clrBit (v % 2 ^ 17) 0 = s.rd R.POWER.MGT_VOTE_DOMAINS then some s else run true (execMgtVoteWrite who v s)
  | 0x04, 0x118 => run (s.wordChanges who p off v) (execDvfsReq who (bits v 0 5) (bits v 8 5) s)
  | 0x06, 0x100 => run (bit v 0) (execCoreRstGo who s)
  | 0x06, 0x11C => run (on R.CORESYS.WDOG_KICK_KEY) (execWdogKick who (v % 65536) s)
  | 0x06, 0x128 => run (on R.CORESYS.MWDOG_KICK_KEY) (execMwdogKick who (v % 65536) s)
  | 0x08, 0x120 => run (bit v 0) (execTallyClr who s)
  | 0x0C, 0x100 => if v % 4 = 1 then run true (execFlCmdErase who s) else run (decide (v % 4 = 2)) (execFlCmdProgram who s)
  | 0x0D, 0x110 => run (bit v 0) (execPieceReport who s)
  | 0x0D, 0x120 => some (s.commitWrite who v)
  | 0x0D, 0x12C => run (on R.GATE.PUMP_HI_VALUE) (execPumpWrite who v s)
  | 0x0D, 0x134 => run (bit v 0) (execActReady who s)
  | 0x0D, 0x160 => run (key R.GATE.OWNER_LOCK (s.rd R.GATE.OWNER_LOCK)) (execOwnerLockWrite who (bit v 0) s)
  | 0x0D, 0x170 =>
    if v % 4 = 1 then run true (execRecCmdBegin who s)
    else if v % 4 = 2 then run true (execRecCmdEnd who s) else run (decide (v % 4 = 3)) (execRecCmdCancel who s)
  | 0x0E, 0x104 => run (bit v 0) (execDisarmAll who s)
  | 0x11, 0x104 =>
    match v % 8 with
    | 1 => run true (execPitchCmdRent who s)
    | 2 => run true (execPitchCmdReturn who s)
    | 3 => run true (execPitchCmdLoad who s)
    | 4 => run true (execPitchCmdTest who s)
    | _ => none
  | 0x11, 0x164 => run (s.wordChanges who p off v) (execQbCfgWrite who v s)
  | 0x12, 0x104 => run (bit v 0) (execAdmTake who s)
  | 0x12, 0x158 => run (bit v 31) (execAdmCplGo who v s)
  | 0x13, 0x134 =>
    match v % 4 with
    | 1 => run true (execNsCmdInit who s)
    | 2 => run true (execNsCmdRelease who s)
    | 3 => run true (execNsCmdDeallocAll who s)
    | _ => none
  | 0x13, 0x180 => run (bit v 0) (execCixProbeGo who s)
  | 0x14, 0x100 =>
    if key R.LCACHE.CTRL_ENABLE (s.rd R.LCACHE.CTRL_ENABLE) then
      run true (if bit v 0 then execCacheEnable who s else execCacheDisable who s)
    else none
  | 0x14, 0x11C =>
    match v % 8 with
    | 1 => run true (execRangeClean who (bit v 4) (bit v 5) s)
    | 2 => run true (execRangeInvalidate who (bit v 4) (bit v 5) s)
    | 3 => run true (execRangeCleanInvalidate who (bit v 4) (bit v 5) s)
    | 4 => run true (execRangePrefetch who (bit v 5) s)
    | _ => none
  | 0x14, 0x15C => run (bit v 0) (execLockApply who s)
  | 0x14, 0x170 => if v % 65536 = s.rd R.LCACHE.WAY_PWR_OFF then none else some (s.wayWrite who v)
  | 0x16, 0x100 => run (bit v 0) (execSweepCtrlResume who s)
  | 0x16, 0x118 =>
    if bit v 4 then
      let t := if s.answers p && mayWrite R.SWEEP.VICTIM_CMD_KIND who then s.wr R.SWEEP.VICTIM_CMD_KIND (v % 8) else s
      some (after t (execVictimName who t))
    else none
  | 0x18, 0x140 => run (bit v 4) (execLendGo who (v % 4) s)
  | 0x18, 0x14C => run (on R.CRATEYD.RETURN_HANDLE) (execReturnHandle who (v % 2 ^ 32) s)
  | 0x18, 0x15C => run true (execWinDataAccess who true v s)
  | 0x1B, 0x108 => run (decide (v % 8 = 1)) (execMediaKeyGenerate who s)
  | _, _ =>
    if 0x20 ≤ p ∧ p < 0x30 ∧ off = 0x138 then
      if bit v 4 then run true (execJobAbort who (p - 0x20) s)
      else if bit v 0 then run true (execJobGo who (p - 0x20) v s)
      else if bit v 8 then run true (execJobSave who (p - 0x20) s)
      else run (bit v 9) (execJobRestore who (p - 0x20) s)
    else if 0x20 ≤ p ∧ p < 0x30 ∧ off = 0x1A0 then
      match v % 8 with
      | 1 => run true (execLoadPlain who (p - 0x20) (bits v 8 9) s)
      | 2 => run true (execGenerate who (p - 0x20) (bits v 8 9) s)
      | 3 => run true (execLoadWrapped who (p - 0x20) (bits v 8 9) s)
      | 4 => run true (execClear who (p - 0x20) (bits v 8 9) s)
      | _ => none
    else none

/-- One 32-bit write of a register (R595, R650). -/
def State.writeReg (s : State) (who : Initiator) (p off v : Nat) : State :=
  if isPage p = false ∨ off % 4 ≠ 0 then s.pageFault who p off 4 true
  else match s.rowWrite who p off v with
    | some t => t
    | none => s.access who p off true fun s => s.onOwned who p off fun s => s.plainWrite who p off v

/-- REGISTER_WRITE (R650): a write to a register; one that rows of their own act through does what they do. -/
def execRegisterWrite (who : Initiator) (addr value : Nat) (s : State) : Host.Outcome State Fault Refusal :=
  .next <| match regOf who addr with
    | some (p, off) => s.writeReg who p off (value % 2 ^ 32)
    | none => s

/-! ### The NVMe-MI window (R606, R607) -/

/-- The response to an NVMe-MI command. -/
def State.miAnswer (s : State) (status refused : Nat) (data : List Nat) : State :=
  (s.answer data).mBus fun b => { b with miStatus := status, miRefused := refused }

/-- Whether a Register Read or Register Write names dwords of the window; what it names: INDEX, first dword, COUNT. -/
def miSpan (nmd0 nmd1 : Nat) : Option (Nat × Nat × Nat) :=
  let p := bits nmd0 0 8
  let first := bits nmd0 8 10
  let n := bits nmd1 0 7
  if isPage p = true ∧ miWindow p ≠ 0 ∧ 1 ≤ n ∧ n ≤ 64 ∧ first + n ≤ 1024 then some (p, first, n) else none

/-- `n` dwords are read in ascending order: the words, how many were refused or met an error, the state. -/
def State.miReadDwords (s : State) (p first : Nat) : Nat → List Nat × Nat × State
  | 0 => ([], 0, s)
  | n + 1 =>
    let r := s.readReg .mi p (4 * first)
    let t := r.st.miReadDwords p (first + 1) n
    (r.word :: t.1, t.2.1 + (if r.outcome = 0 then 0 else 1), t.2.2)

/-- MI_REGISTER_READ (R606); the endpoint answers in every state but OFF. -/
def execMiRegisterRead (nmd0 nmd1 : Nat) (s : State) : Host.Outcome State Fault Refusal :=
  .next <|
    if s.dst = 0 then s
    else match miSpan nmd0 nmd1 with
      | none => s.miAnswer 4 0 []
      | some (p, first, n) =>
        let r := s.miReadDwords p first n
        r.2.2.miAnswer 0 r.2.1 r.1

/-- The refusals of the Inspector so far. -/
def State.refusals (s : State) : Nat := ((List.range 17).map fun n => s.rd R.INSPECT.LIM_REFUSED_COUNT 0 n).sum

/-- Whether a dword written through the window is refused or dropped: in any field it would change, or whole. -/
def State.miDrops (s : State) (p off v : Nat) : Bool :=
  !s.answers p || ((fieldsAt p off).any fun f => s.written .mi p f v && !mayWrite f .mi)
    || (decide (off = 0x020) && decide (s.rd R.COMMON.INJ_CTRL_ARM p = 1) && s.wordChanges .mi p off v)
    || (decide (p = 3 ∧ off = 0x100) && bit v 0 && decide (s.rd R.LOG.LOG_CTRL_FREEZE 0 3 = 0) && freezeRefused s)

/-- Dwords are written in ascending order: how many were refused or dropped, and the state. -/
def State.miWriteDwords (s : State) (p first : Nat) : List Nat → Nat × State
  | [] => (0, s)
  | v :: l =>
    let t := s.writeReg .mi p (4 * first) (v % 2 ^ 32)
    let n := if s.miDrops p (4 * first) (v % 2 ^ 32) || decide (t.refusals ≠ s.refusals) then 1 else 0
    let r := t.miWriteDwords p (first + 1) l
    (n + r.1, r.2)

/-- MI_REGISTER_WRITE (R606). -/
def execMiRegisterWrite (nmd0 nmd1 : Nat) (data : List Nat) (s : State) : Host.Outcome State Fault Refusal :=
  .next <|
    if s.dst = 0 then s
    else match miSpan nmd0 nmd1 with
      | none => s.miAnswer 4 0 []
      | some (p, first, n) =>
        if data.length ≠ n then s.miAnswer 4 0 []
        else
          let r := s.miWriteDwords p first data
          r.2.miAnswer 0 r.1 []

/-- MI_OTHER_COMMAND (R606): passed to management firmware; before its image has started the endpoint answers Internal
Error, response status 02h (PRESUMED, log entry 48). -/
def execMiOtherCommand (opcode : Nat) (s : State) : Host.Outcome State Fault Refusal :=
  .next <|
    if s.dst = 0 ∨ opcode = 0xC0 ∨ opcode = 0xC1 then s
    else if s.dev.mgmtUp then s.mBus fun b => { b with miPassed := b.miPassed ++ [opcode] }
    else s.miAnswer 2 0 []

end Sys2Proof.Machine
end

