-- ==== Sys2Proof/Machine/Dispatch.lean ====
section
/-! DEFINITION. One arm per command, each one direct call of its meaning. -/

namespace Sys2Proof.Machine

open Sys2Proof

def exec (i : Instr) (s : State) : Host.Outcome State Fault Refusal :=
  match i with
  | .powerOnResetRelease testEn => Sys2Proof.Machine.execPowerOnResetRelease testEn s
  | .vddWatchLoss => Sys2Proof.Machine.execVddWatchLoss s
  | .strapSampleComplete samples => Sys2Proof.Machine.execStrapSampleComplete samples s
  | .railStageValid early => Sys2Proof.Machine.execRailStageValid early s
  | .railEnableTimeout rail => Sys2Proof.Machine.execRailEnableTimeout rail s
  | .railOutOfWindow rail => Sys2Proof.Machine.execRailOutOfWindow rail s
  | .bootSlotChoice => Sys2Proof.Machine.execBootSlotChoice s
  | .ddr5TrainingComplete gib mts ms => Sys2Proof.Machine.execDdr5TrainingComplete gib mts ms s
  | .wakeComplete => Sys2Proof.Machine.execWakeComplete s
  | .wakeTimerExpiry => Sys2Proof.Machine.execWakeTimerExpiry s
  | .selfTestPhaseComplete transients firings fails chans => Sys2Proof.Machine.execSelfTestPhaseComplete transients firings fails chans s
  | .selfTestComplete ms => Sys2Proof.Machine.execSelfTestComplete ms s
  | .selfTestTimerExpiry => Sys2Proof.Machine.execSelfTestTimerExpiry s
  | .rebuildPhaseComplete ms bad => Sys2Proof.Machine.execRebuildPhaseComplete ms bad s
  | .rebuildComplete => Sys2Proof.Machine.execRebuildComplete s
  | .rebuildTimerExpiry => Sys2Proof.Machine.execRebuildTimerExpiry s
  | .validWalkComplete => Sys2Proof.Machine.execValidWalkComplete s
  | .powerFailDetect comparator => Sys2Proof.Machine.execPowerFailDetect comparator s
  | .holdupThresholdCrossing fail up => Sys2Proof.Machine.execHoldupThresholdCrossing fail up s
  | .bellUnitDurable unit => Sys2Proof.Machine.execBellUnitDurable unit s
  | .bellUnitFail unit => Sys2Proof.Machine.execBellUnitFail unit s
  | .closingBellComplete => Sys2Proof.Machine.execClosingBellComplete s
  | .closingBellTimerExpiry => Sys2Proof.Machine.execClosingBellTimerExpiry s
  | .haltCtrlOrderly who => Sys2Proof.Machine.execHaltCtrlOrderly who s
  | .haltCtrlRestart who => Sys2Proof.Machine.execHaltCtrlRestart who s
  | .restartDwellExpiry => Sys2Proof.Machine.execRestartDwellExpiry s
  | .modeReq who set clear => Sys2Proof.Machine.execModeReq who set clear s
  | .modeInstant => Sys2Proof.Machine.execModeInstant s
  | .inServiceRise level => Sys2Proof.Machine.execInServiceRise level s
  | .sqDoorbell port sqid tail => Sys2Proof.Machine.execSqDoorbell port sqid tail s
  | .sqeArrival port sqid cid opcode flags nsid dw ranges payload => Sys2Proof.Machine.execSqeArrival port sqid cid opcode flags nsid dw ranges payload s
  | .intakeEvaluation => Sys2Proof.Machine.execIntakeEvaluation s
  | .returnWaitExpiry port sqid cid => Sys2Proof.Machine.execReturnWaitExpiry port sqid cid s
  | .tokenRefill => Sys2Proof.Machine.execTokenRefill s
  | .rltBlockShift => Sys2Proof.Machine.execRltBlockShift s
  | .deadlineFirstExpiry port sqid cid => Sys2Proof.Machine.execDeadlineFirstExpiry port sqid cid s
  | .read port sqid cid => Sys2Proof.Machine.execRead port sqid cid s
  | .write port sqid cid => Sys2Proof.Machine.execWrite port sqid cid s
  | .flush port sqid cid => Sys2Proof.Machine.execFlush port sqid cid s
  | .flushComplete port sqid cid => Sys2Proof.Machine.execFlushComplete port sqid cid s
  | .writeUncorrectable port sqid cid => Sys2Proof.Machine.execWriteUncorrectable port sqid cid s
  | .compare port sqid cid => Sys2Proof.Machine.execCompare port sqid cid s
  | .writeZeroes port sqid cid => Sys2Proof.Machine.execWriteZeroes port sqid cid s
  | .datasetManagement port sqid cid => Sys2Proof.Machine.execDatasetManagement port sqid cid s
  | .verify port sqid cid => Sys2Proof.Machine.execVerify port sqid cid s
  | .createIoSq port cid => Sys2Proof.Machine.execCreateIoSq port cid s
  | .deleteIoSq port cid => Sys2Proof.Machine.execDeleteIoSq port cid s
  | .createIoCq port cid => Sys2Proof.Machine.execCreateIoCq port cid s
  | .deleteIoCq port cid => Sys2Proof.Machine.execDeleteIoCq port cid s
  | .getLogPage port cid => Sys2Proof.Machine.execGetLogPage port cid s
  | .identify port cid => Sys2Proof.Machine.execIdentify port cid s
  | .abort port cid => Sys2Proof.Machine.execAbort port cid s
  | .setFeatures port cid => Sys2Proof.Machine.execSetFeatures port cid s
  | .getFeatures port cid => Sys2Proof.Machine.execGetFeatures port cid s
  | .modeControlSet port cid => Sys2Proof.Machine.execModeControlSet port cid s
  | .modeControlGet port cid => Sys2Proof.Machine.execModeControlGet port cid s
  | .powerManagementSet port cid => Sys2Proof.Machine.execPowerManagementSet port cid s
  | .timestampSet port cid => Sys2Proof.Machine.execTimestampSet port cid s
  | .timestampGet port cid => Sys2Proof.Machine.execTimestampGet port cid s
  | .asynchronousEventRequest port cid => Sys2Proof.Machine.execAsynchronousEventRequest port cid s
  | .namespaceManagement port cid => Sys2Proof.Machine.execNamespaceManagement port cid s
  | .namespaceAttachment port cid => Sys2Proof.Machine.execNamespaceAttachment port cid s
  | .formatNvm port cid => Sys2Proof.Machine.execFormatNvm port cid s
  | .formatComplete nsid => Sys2Proof.Machine.execFormatComplete nsid s
  | .sanitizeBlockErase port cid => Sys2Proof.Machine.execSanitizeBlockErase port cid s
  | .sanitizeCryptoErase port cid => Sys2Proof.Machine.execSanitizeCryptoErase port cid s
  | .sanitizeExitFailureMode port cid => Sys2Proof.Machine.execSanitizeExitFailureMode port cid s
  | .sanitizeComplete ok => Sys2Proof.Machine.execSanitizeComplete ok s
  | .firmwareImageDownload port cid => Sys2Proof.Machine.execFirmwareImageDownload port cid s
  | .firmwareCommit port cid => Sys2Proof.Machine.execFirmwareCommit port cid s
  | .pitchRent port cid => Sys2Proof.Machine.execPitchRent port cid s
  | .pitchReturn port cid => Sys2Proof.Machine.execPitchReturn port cid s
  | .pitchBind port cid => Sys2Proof.Machine.execPitchBind port cid s
  | .pitchCmdRent who => Sys2Proof.Machine.execPitchCmdRent who s
  | .pitchCmdReturn who => Sys2Proof.Machine.execPitchCmdReturn who s
  | .pitchCmdLoad who => Sys2Proof.Machine.execPitchCmdLoad who s
  | .pitchCmdTest who => Sys2Proof.Machine.execPitchCmdTest who s
  | .qbCfgWrite who value => Sys2Proof.Machine.execQbCfgWrite who value s
  | .ccEnClear port => Sys2Proof.Machine.execCcEnClear port s
  | .controllerResetComplete port => Sys2Proof.Machine.execControllerResetComplete port s
  | .ccEnSet port ams => Sys2Proof.Machine.execCcEnSet port ams s
  | .shutdownNotification port shn => Sys2Proof.Machine.execShutdownNotification port shn s
  | .shutdownComplete port => Sys2Proof.Machine.execShutdownComplete port s
  | .perstNAssert port => Sys2Proof.Machine.execPerstNAssert port s
  | .perstNDeassert port => Sys2Proof.Machine.execPerstNDeassert port s
  | .hotReset port => Sys2Proof.Machine.execHotReset port s
  | .flr port => Sys2Proof.Machine.execFlr port s
  | .linkDown port => Sys2Proof.Machine.execLinkDown port s
  | .linkUp port width rate => Sys2Proof.Machine.execLinkUp port width rate s
  | .deviceControlWrite port mps => Sys2Proof.Machine.execDeviceControlWrite port mps s
  | .creditReceive counter n => Sys2Proof.Machine.execCreditReceive counter n s
  | .creditRelease counter n => Sys2Proof.Machine.execCreditRelease counter n s
  | .creditAdvertise counter n => Sys2Proof.Machine.execCreditAdvertise counter n s
  | .hostReadCompletion port tag ok => Sys2Proof.Machine.execHostReadCompletion port tag ok s
  | .writeDataResidency port sqid cid sector data => Sys2Proof.Machine.execWriteDataResidency port sqid cid sector data s
  | .halfMoveReceipt index => Sys2Proof.Machine.execHalfMoveReceipt index s
  | .lcacheFill line crcOk => Sys2Proof.Machine.execLcacheFill line crcOk s
  | .prefetchArrival line crcOk => Sys2Proof.Machine.execPrefetchArrival line crcOk s
  | .cixRebalance group => Sys2Proof.Machine.execCixRebalance group s
  | .nsCmdInit who => Sys2Proof.Machine.execNsCmdInit who s
  | .nsCmdRelease who => Sys2Proof.Machine.execNsCmdRelease who s
  | .nsCmdDeallocAll who => Sys2Proof.Machine.execNsCmdDeallocAll who s
  | .nsCmdComplete => Sys2Proof.Machine.execNsCmdComplete s
  | .cixProbeGo who => Sys2Proof.Machine.execCixProbeGo who s
  | .dramWriteRefused who addr => Sys2Proof.Machine.execDramWriteRefused who addr s
  | .rangeClean who force all => Sys2Proof.Machine.execRangeClean who force all s
  | .rangeInvalidate who force all => Sys2Proof.Machine.execRangeInvalidate who force all s
  | .rangeCleanInvalidate who force all => Sys2Proof.Machine.execRangeCleanInvalidate who force all s
  | .rangePrefetch who all => Sys2Proof.Machine.execRangePrefetch who all s
  | .rangeOpComplete => Sys2Proof.Machine.execRangeOpComplete s
  | .lockApply who => Sys2Proof.Machine.execLockApply who s
  | .lockSyncComplete => Sys2Proof.Machine.execLockSyncComplete s
  | .cacheDisable who => Sys2Proof.Machine.execCacheDisable who s
  | .cacheDisableComplete => Sys2Proof.Machine.execCacheDisableComplete s
  | .cacheEnable who => Sys2Proof.Machine.execCacheEnable who s
  | .wayPowerOff who way => Sys2Proof.Machine.execWayPowerOff who way s
  | .wayDrainComplete way => Sys2Proof.Machine.execWayDrainComplete way s
  | .wayPowerOn who way => Sys2Proof.Machine.execWayPowerOn who way s
  | .rowTake group => Sys2Proof.Machine.execRowTake group s
  | .padWaitExpiry group => Sys2Proof.Machine.execPadWaitExpiry group s
  | .stripeWaitExpiry serial => Sys2Proof.Machine.execStripeWaitExpiry serial s
  | .crateGrantRequest cls count pool kind owner otag who => Sys2Proof.Machine.execCrateGrantRequest cls count pool kind owner otag who s
  | .crateFree handle owner => Sys2Proof.Machine.execCrateFree handle owner s
  | .crateReferenceRelease handle owner => Sys2Proof.Machine.execCrateReferenceRelease handle owner s
  | .lendGo who pool => Sys2Proof.Machine.execLendGo who pool s
  | .returnHandle who handle => Sys2Proof.Machine.execReturnHandle who handle s
  | .winDataAccess who write value => Sys2Proof.Machine.execWinDataAccess who write value s
  | .senseStart ch die => Sys2Proof.Machine.execSenseStart ch die s
  | .channelBurst ch => Sys2Proof.Machine.execChannelBurst ch s
  | .statusPoll ch die status => Sys2Proof.Machine.execStatusPoll ch die status s
  | .programSuspend ch die => Sys2Proof.Machine.execProgramSuspend ch die s
  | .eraseSuspend ch die => Sys2Proof.Machine.execEraseSuspend ch die s
  | .loadAbandon ch die => Sys2Proof.Machine.execLoadAbandon ch die s
  | .eraseStart ch die => Sys2Proof.Machine.execEraseStart ch die s
  | .erasePendingClose ch die => Sys2Proof.Machine.execErasePendingClose ch die s
  | .readTimeout ch die => Sys2Proof.Machine.execReadTimeout ch die s
  | .programTimeout ch die => Sys2Proof.Machine.execProgramTimeout ch die s
  | .eraseTimeout ch die => Sys2Proof.Machine.execEraseTimeout ch die s
  | .suspendTimeout ch die => Sys2Proof.Machine.execSuspendTimeout ch die s
  | .resetTimeout ch die target => Sys2Proof.Machine.execResetTimeout ch die target s
  | .featureTimeout ch die => Sys2Proof.Machine.execFeatureTimeout ch die s
  | .zqIntervalExpiry ch die ok => Sys2Proof.Machine.execZqIntervalExpiry ch die ok s
  | .identityCheck ch die ok => Sys2Proof.Machine.execIdentityCheck ch die ok s
  | .vccqFlOutOfRange group => Sys2Proof.Machine.execVccqFlOutOfRange group s
  | .hardDecodeComplete read iters ok headerOk => Sys2Proof.Machine.execHardDecodeComplete read iters ok headerOk s
  | .softPassComplete read ok => Sys2Proof.Machine.execSoftPassComplete read ok s
  | .fullSoftDecodeComplete read ok => Sys2Proof.Machine.execFullSoftDecodeComplete read ok s
  | .softWaitExpiry read => Sys2Proof.Machine.execSoftWaitExpiry read s
  | .scrubPace => Sys2Proof.Machine.execScrubPace s
  | .scrubCycleEnd => Sys2Proof.Machine.execScrubCycleEnd s
  | .scrubStateSave => Sys2Proof.Machine.execScrubStateSave s
  | .correctableError group addr syndrome => Sys2Proof.Machine.execCorrectableError group addr syndrome s
  | .uncorrectableError group addr what => Sys2Proof.Machine.execUncorrectableError group addr what s
  | .memoryScrubWalk group addr bad => Sys2Proof.Machine.execMemoryScrubWalk group addr bad s
  | .camParityWalk bad => Sys2Proof.Machine.execCamParityWalk bad s
  | .victimName who => Sys2Proof.Machine.execVictimName who s
  | .hardwareVictimNaming kind => Sys2Proof.Machine.execHardwareVictimNaming kind s
  | .victimWalkTimeout band => Sys2Proof.Machine.execVictimWalkTimeout band s
  | .sweepCopyStart band => Sys2Proof.Machine.execSweepCopyStart band s
  | .victimErase block => Sys2Proof.Machine.execVictimErase block s
  | .sweepCtrlResume who => Sys2Proof.Machine.execSweepCtrlResume who s
  | .sweepEpoch => Sys2Proof.Machine.execSweepEpoch s
  | .lapComplete => Sys2Proof.Machine.execLapComplete s
  | .lapLate => Sys2Proof.Machine.execLapLate s
  | .rollingWalk => Sys2Proof.Machine.execRollingWalk s
  | .journalFlush => Sys2Proof.Machine.execJournalFlush s
  | .recordsSave => Sys2Proof.Machine.execRecordsSave s
  | .cipherUnitComplete encipher id => Sys2Proof.Machine.execCipherUnitComplete encipher id s
  | .mediaKeyGenerate who => Sys2Proof.Machine.execMediaKeyGenerate who s
  | .keyRecordWritten ok => Sys2Proof.Machine.execKeyRecordWritten ok s
  | .jobGo who page flags => Sys2Proof.Machine.execJobGo who page flags s
  | .jobComplete page => Sys2Proof.Machine.execJobComplete page s
  | .jobAbort who page => Sys2Proof.Machine.execJobAbort who page s
  | .jobSave who page => Sys2Proof.Machine.execJobSave who page s
  | .jobRestore who page => Sys2Proof.Machine.execJobRestore who page s
  | .loadPlain who page slot => Sys2Proof.Machine.execLoadPlain who page slot s
  | .generate who page slot => Sys2Proof.Machine.execGenerate who page slot s
  | .loadWrapped who page slot => Sys2Proof.Machine.execLoadWrapped who page slot s
  | .clear who page slot => Sys2Proof.Machine.execClear who page slot s
  | .porterBurst prt => Sys2Proof.Machine.execPorterBurst prt s
  | .descriptorStart ch => Sys2Proof.Machine.execDescriptorStart ch s
  | .writeResponseError ch => Sys2Proof.Machine.execWriteResponseError ch s
  | .porterTimerExpiry timer => Sys2Proof.Machine.execPorterTimerExpiry timer s
  | .chCtrlGo who ch => Sys2Proof.Machine.execChCtrlGo who ch s
  | .chCtrlStop who ch => Sys2Proof.Machine.execChCtrlStop who ch s
  | .channelStopComplete ch => Sys2Proof.Machine.execChannelStopComplete ch s
  | .chCtrlEnable who ch on => Sys2Proof.Machine.execChCtrlEnable who ch on s
  | .cplPop who ch => Sys2Proof.Machine.execCplPop who ch s
  | .islandGate island => Sys2Proof.Machine.execIslandGate island s
  | .islandWake island ns => Sys2Proof.Machine.execIslandWake island ns s
  | .wakeFailure src dst => Sys2Proof.Machine.execWakeFailure src dst s
  | .crossingWatchdogExpiry src dst => Sys2Proof.Machine.execCrossingWatchdogExpiry src dst s
  | .polVoteWrite who domains => Sys2Proof.Machine.execPolVoteWrite who domains s
  | .mgtVoteWrite who domains => Sys2Proof.Machine.execMgtVoteWrite who domains s
  | .domainPowerOn domain => Sys2Proof.Machine.execDomainPowerOn domain s
  | .domainPowerOff domain => Sys2Proof.Machine.execDomainPowerOff domain s
  | .dvfsReq who clk vdd => Sys2Proof.Machine.execDvfsReq who clk vdd s
  | .vddSettled => Sys2Proof.Machine.execVddSettled s
  | .nonopEntry => Sys2Proof.Machine.execNonopEntry s
  | .apstItptExpiry => Sys2Proof.Machine.execApstItptExpiry s
  | .nonopExitComplete => Sys2Proof.Machine.execNonopExitComplete s
  | .temperatureSample readings => Sys2Proof.Machine.execTemperatureSample readings s
  | .tempHistorySample => Sys2Proof.Machine.execTempHistorySample s
  | .wdogKick who key => Sys2Proof.Machine.execWdogKick who key s
  | .wdogWarning hart => Sys2Proof.Machine.execWdogWarning hart s
  | .wdogExpiry hart => Sys2Proof.Machine.execWdogExpiry hart s
  | .mwdogKick who key => Sys2Proof.Machine.execMwdogKick who key s
  | .mwdogExpiry => Sys2Proof.Machine.execMwdogExpiry s
  | .coreRstGo who => Sys2Proof.Machine.execCoreRstGo who s
  | .coreResetRelease => Sys2Proof.Machine.execCoreResetRelease s
  | .machineTimerInterrupt hart => Sys2Proof.Machine.execMachineTimerInterrupt hart s
  | .admTake who => Sys2Proof.Machine.execAdmTake who s
  | .admCplGo who value => Sys2Proof.Machine.execAdmCplGo who value s
  | .flCmdErase who => Sys2Proof.Machine.execFlCmdErase who s
  | .flCmdProgram who => Sys2Proof.Machine.execFlCmdProgram who s
  | .flashOperationComplete bank => Sys2Proof.Machine.execFlashOperationComplete bank s
  | .flashOperationSuspend bank => Sys2Proof.Machine.execFlashOperationSuspend bank s
  | .pieceReport who => Sys2Proof.Machine.execPieceReport who s
  | .slotLockHoldExpiry => Sys2Proof.Machine.execSlotLockHoldExpiry s
  | .commitAction000b who => Sys2Proof.Machine.execCommitAction000b who s
  | .commitAction001b who => Sys2Proof.Machine.execCommitAction001b who s
  | .commitAction010b who => Sys2Proof.Machine.execCommitAction010b who s
  | .commitAction011b who => Sys2Proof.Machine.execCommitAction011b who s
  | .pumpWrite who hi => Sys2Proof.Machine.execPumpWrite who hi s
  | .slotWriteComplete => Sys2Proof.Machine.execSlotWriteComplete s
  | .actReady who => Sys2Proof.Machine.execActReady who s
  | .activationAllowanceExpiry => Sys2Proof.Machine.execActivationAllowanceExpiry s
  | .recCmdBegin who => Sys2Proof.Machine.execRecCmdBegin who s
  | .recCmdEnd who => Sys2Proof.Machine.execRecCmdEnd who s
  | .recCmdCancel who => Sys2Proof.Machine.execRecCmdCancel who s
  | .ownerLockWrite who value => Sys2Proof.Machine.execOwnerLockWrite who value s
  | .recordStore => Sys2Proof.Machine.execRecordStore s
  | .ringSave ok => Sys2Proof.Machine.execRingSave ok s
  | .faultRelease who => Sys2Proof.Machine.execFaultRelease who s
  | .logCtrlFreeze who on => Sys2Proof.Machine.execLogCtrlFreeze who on s
  | .freezeMaxExpiry => Sys2Proof.Machine.execFreezeMaxExpiry s
  | .fwPost who => Sys2Proof.Machine.execFwPost who s
  | .curCmdOldest who => Sys2Proof.Machine.execCurCmdOldest who s
  | .curCmdNewest who => Sys2Proof.Machine.execCurCmdNewest who s
  | .win0Read who => Sys2Proof.Machine.execWin0Read who s
  | .win15Read who => Sys2Proof.Machine.execWin15Read who s
  | .wallSetHi who ms => Sys2Proof.Machine.execWallSetHi who ms s
  | .rateBucketRefill code => Sys2Proof.Machine.execRateBucketRefill code s
  | .tallyRound => Sys2Proof.Machine.execTallyRound s
  | .tallyClr who => Sys2Proof.Machine.execTallyClr who s
  | .injArm who page mode count => Sys2Proof.Machine.execInjArm who page mode count s
  | .injDisarm who page => Sys2Proof.Machine.execInjDisarm who page s
  | .disarmAll who => Sys2Proof.Machine.execDisarmAll who s
  | .miRegisterRead nmd0 nmd1 => Sys2Proof.Machine.execMiRegisterRead nmd0 nmd1 s
  | .miRegisterWrite nmd0 nmd1 data => Sys2Proof.Machine.execMiRegisterWrite nmd0 nmd1 data s
  | .miOtherCommand opcode => Sys2Proof.Machine.execMiOtherCommand opcode s
  | .registerWrite who addr value => Sys2Proof.Machine.execRegisterWrite who addr value s
  | .rcFieldRead who addr => Sys2Proof.Machine.execRcFieldRead who addr s
  | .loWordRead who addr => Sys2Proof.Machine.execLoWordRead who addr s
  | .pageAccessFault who addr width write => Sys2Proof.Machine.execPageAccessFault who addr width write s
  | .softClear who page => Sys2Proof.Machine.execSoftClear who page s
  | .evtPendClear who page mask => Sys2Proof.Machine.execEvtPendClear who page mask s
  | .evtForce who page mask => Sys2Proof.Machine.execEvtForce who page mask s
  | .pageLock who page => Sys2Proof.Machine.execPageLock who page s
  | .cntSelWrite who page event => Sys2Proof.Machine.execCntSelWrite who page event s
  | .pageCtrlVote who page vote => Sys2Proof.Machine.execPageCtrlVote who page vote s
  | .extest cells => Sys2Proof.Machine.execExtest cells s
  | .samplePreload captured preload => Sys2Proof.Machine.execSamplePreload captured preload s
  | .idcode => Sys2Proof.Machine.execIdcode s
  | .bypass code => Sys2Proof.Machine.execBypass code s
  | .ktrCfg value => Sys2Proof.Machine.execKtrCfg value s
  | .ktrStat => Sys2Proof.Machine.execKtrStat s
  | .trstNAssert => Sys2Proof.Machine.execTrstNAssert s
  | .ktrTrigIn => Sys2Proof.Machine.execKtrTrigIn s
  | .ktrSync => Sys2Proof.Machine.execKtrSync s
  | .cqHeadDoorbell port cqid head => Sys2Proof.Machine.execCqHeadDoorbell port cqid head s
  | .completionTimeout port tag => Sys2Proof.Machine.execCompletionTimeout port tag s
  | .vrAlertN => Sys2Proof.Machine.execVrAlertN s
  | .porterWriteResponse ch => Sys2Proof.Machine.execPorterWriteResponse ch s
  | .codeFlashDataRead who addr => Sys2Proof.Machine.execCodeFlashDataRead who addr s
  | .registerReadRefused who addr => Sys2Proof.Machine.execRegisterReadRefused who addr s

end Sys2Proof.Machine
end

