-- ==== Sys2Proof/Machine/Tick.lean ====
section
/-! DEFINITION. What happens when no command waits. -/

namespace Sys2Proof.Machine

/-- `n` words leave a queue of packets. -/
def dropWords (n : Nat) : List (List Nat) → List (List Nat)
  | [] => []
  | p :: rest => if p.length ≤ n then dropWords (n - p.length) rest else p.drop n :: rest

/-- One tick of the trace port (R631, R634): while it is enabled, four words are presented, and packets dropped for want
of room are told of once room returns. -/
def traceTick (j : JtagSt) : JtagSt :=
  if bit j.ktrCfg 0 = false then j
  else
    let q := dropWords 4 j.fifo
    if j.dropped = 0 ∨ 4096 ≤ fifoWords q then { j with fifo := q }
    else { j with fifo := q ++ [[0xE000 + min j.dropped 0xFFF]], dropped := 0 }

/-- One 10 ns tick of MONOTONIC (R541), which counts in every device state but OFF (R119). -/
def tick (s : State) : State :=
  if s.dst = 0 then s else { s with mono := s.mono + 1, jtag := traceTick s.jtag }

end Sys2Proof.Machine
end

