-- ==== Sys2Proof/Safety.lean ====
section
/-! DEFINITION. What counts as a safe run of the block, and when a command is in its place: the conditions the statements
name more than once. -/

namespace Sys2Proof.Safety

open Sys2Proof Sys2Proof.Machine

/-- Every table of the state that has a canonical form is in it: the register store has rising keys, and the memories have
rising addresses and list no byte that an unlisted address reads as. -/
abbrev Canonical (s : State) : Prop :=
  Tbl.sorted s.regs = true ∧ Tbl.wf (0 : BitVec 8) s.cr.mem = true ∧ Tbl.wf (0 : BitVec 8) s.dram = true

/-- An initiator that may write field `f` reaches its page, whose domain is on: the access takes its effect in `u`, the
state after the crossing (R451, R460, R500). -/
abbrev Reaches (s : State) (who : Initiator) (f : Field) (i : Nat) (u : State) : Prop :=
  s.answers (pageOf f i) = true ∧ mayWrite f who = true ∧ u = s.crossTo (initIsland who) (pageOf f i)

/-- A user page of the Cipher serves an initiator that may use it, with no job running there (R400, R416); `u` is the
state in which the command takes its effect. -/
abbrev ReachesUser (s : State) (who : Initiator) (p : Nat) (u : State) : Prop :=
  p < 16 ∧ s.answers (pageOf R.CUSER.JOB_MODE_MODE p) = true
    ∧ ((s.crossTo (initIsland who) (pageOf R.CUSER.JOB_MODE_MODE p)).limFire 16).1 = false
    ∧ u = ((s.crossTo (initIsland who) (pageOf R.CUSER.JOB_MODE_MODE p)).limFire 16).2
    ∧ u.mayUser who p = true ∧ u.rd R.CUSER.JOB_STAT_BUSY p = 0

/-- A firmware channel of the Porter serves its owner; `u` is the state in which the command takes its effect (R434). -/
abbrev ReachesChan (s : State) (who : Initiator) (k : Nat) (u : State) : Prop :=
  8 ≤ k ∧ k < 64 ∧ s.answers (pageOf R.PCHAN.CH_CTRL_GO k) = true
    ∧ ((s.crossTo (initIsland who) (pageOf R.PCHAN.CH_CTRL_GO k)).limFire 16).1 = false
    ∧ u = ((s.crossTo (initIsland who) (pageOf R.PCHAN.CH_CTRL_GO k)).limFire 16).2
    ∧ isOwner who (u.chOwner k) = true

/-- INTAKE admits the I/O command `c` of a queue (R49, R70): it is the one the queue offers, nothing turns it away, no
deferred error is to be reported on it, its namespace has its key where it writes, what it costs can be paid and it has
nothing to wait for. `u` is the state after the acceptance and its write prefetch, `d` the command as accepted. -/
abbrev Admits (s : State) (port sqid cid : Nat) (k : Kind) (q : Sq) (c d : Cmd) (a : Admission) (u : State) : Prop :=
  s.sqOf port sqid = some q ∧ s.offer q = some c ∧ c.cid = cid ∧ c.kind = k ∧ 0 < sqid
    ∧ s.turnedAway c = none ∧ s.pendingNs c = none ∧ ((k = .write ∨ k = .writeZeroes) → s.keyNo c.nsid ≠ 0)
    ∧ a = s.admission c ∧ s.mayPay c a = true ∧ (s.askLocks c).waitOf c a = none
    ∧ ((s.askLocks c).accept c a).cmdOf c.uid = some d ∧ d.kind = k
    ∧ u = ((s.askLocks c).accept c a).writePrefetch d

/-- The staged admin command `c` has the opcode its row executes. -/
abbrev HasAdmin (s : State) (port cid opcode : Nat) (c : Cmd) : Prop :=
  s.cmdOn port 0 cid = some c ∧ c.opcode = opcode ∧ c.stage = .staged

/-- Policy firmware executes the admin command `c`, as `d`, in SERVICE with CORE running (R138, log entry 46); `u` is the
state after it is handed over. -/
abbrev FirmRuns (s : State) (port cid opcode : Nat) (c d : Cmd) (u : State) : Prop :=
  s.cmdOn port 0 cid = some c ∧ c.opcode = opcode ∧ s.dst = 4 ∧ c.hardware = false
    ∧ u = (if c.stage = .staged then s.toFirmware c else s) ∧ u.cmdOf c.uid = some d ∧ u.coreUp = true

/-- A write of the register at `off` of page `p` reaches the page: the index is a page's, its domain answers, its owner lets the
write in, it is no hardware channel of the Porter and no busy user page (R418, R439, R460, R594); `u` is the state in which
the write takes its effect. -/
abbrev Opens (s : State) (who : Initiator) (p off : Nat) (u : State) : Prop :=
  isPage p = true ∧ s.answers p = true ∧ ¬(0x30 ≤ p ∧ p < 0x38)
    ∧ ((s.crossTo (initIsland who) p).ownCheck who p off).1 = false
    ∧ u = ((s.crossTo (initIsland who) p).ownCheck who p off).2
    ∧ ¬(0x20 ≤ p ∧ p < 0x30 ∧ u.rd R.CUSER.JOB_STAT_BUSY (p - 0x20) = 1)

/-- A read of the register at `off` of page `p` is answered by the page (R460, R594, R607); `u` is the state in which the read
takes its effect. -/
abbrev Shows (s : State) (who : Initiator) (p off : Nat) (u : State) : Prop :=
  isPage p = true ∧ off % 4 = 0 ∧ (who = .mi → miReads p off = true) ∧ s.answers p = true
    ∧ ((s.crossTo (initIsland who) p).ownCheck who p off).1 = false
    ∧ u = ((s.crossTo (initIsland who) p).ownCheck who p off).2

/-- An initiator may act on the injection registers of page `p` (R566, R571); `u` is the state in which its write takes its
effect. -/
abbrev MayInject (s : State) (who : Initiator) (p : Nat) (u : State) : Prop :=
  isPage p = true ∧ s.answers p = true ∧ pointCount p ≠ 0
    ∧ ((s.crossTo (initIsland who) p).limFire 13).1 = false ∧ initCode who ≠ 1
    ∧ u = ((s.crossTo (initIsland who) p).limFire 13).2

/-- The commands that set the time base and advance the epoch: the release of the power-on reset and the loss of VDD_WATCH
(R541, R543, R579). -/
def setsTimeBase : Instr → Bool
  | .powerOnResetRelease .. | .vddWatchLoss => true
  | _ => false

/-- The commands whose effect may store to crate memory or to the FIRMWARE region: those that move data, link a freed crate into
its free list, or reset the islands that hold the memory. -/
def storesBytes : Instr → Bool
  | .powerOnResetRelease .. | .vddWatchLoss .. | .railEnableTimeout .. | .railOutOfWindow ..
  | .selfTestPhaseComplete .. | .rebuildPhaseComplete .. | .powerFailDetect .. | .haltCtrlOrderly ..
  | .haltCtrlRestart .. | .restartDwellExpiry .. | .intakeEvaluation .. | .deadlineFirstExpiry .. | .read ..
  | .write .. | .flush .. | .writeUncorrectable .. | .compare .. | .writeZeroes .. | .datasetManagement ..
  | .verify .. | .deleteIoSq .. | .abort .. | .sanitizeComplete .. | .ccEnClear .. | .perstNAssert .. | .hotReset ..
  | .flr .. | .linkDown .. | .hostReadCompletion .. | .writeDataResidency .. | .nsCmdComplete .. | .rowTake ..
  | .padWaitExpiry .. | .stripeWaitExpiry .. | .crateFree .. | .crateReferenceRelease .. | .lendGo ..
  | .returnHandle .. | .winDataAccess .. | .channelBurst .. | .statusPoll .. | .readTimeout .. | .programTimeout ..
  | .eraseTimeout .. | .resetTimeout .. | .featureTimeout .. | .zqIntervalExpiry .. | .identityCheck ..
  | .vccqFlOutOfRange .. | .hardDecodeComplete .. | .softPassComplete .. | .fullSoftDecodeComplete ..
  | .softWaitExpiry .. | .uncorrectableError .. | .sweepCopyStart .. | .cipherUnitComplete .. | .jobComplete ..
  | .jobAbort .. | .jobSave .. | .generate .. | .porterBurst .. | .descriptorStart .. | .writeResponseError ..
  | .channelStopComplete .. | .cplPop .. | .wakeFailure .. | .crossingWatchdogExpiry .. | .domainPowerOn ..
  | .nonopExitComplete .. | .temperatureSample .. | .wdogExpiry .. | .coreRstGo .. | .slotWriteComplete ..
  | .activationAllowanceExpiry .. | .injArm .. | .miRegisterWrite .. | .registerWrite .. | .completionTimeout ..
  | .porterWriteResponse .. => true
  | _ => false

/-- The commands whose effect may change what code flash and the media keep without power. -/
def writesKept : Instr → Bool
  | .powerOnResetRelease .. | .vddWatchLoss .. | .strapSampleComplete .. | .railEnableTimeout ..
  | .railOutOfWindow .. | .bootSlotChoice .. | .wakeComplete .. | .wakeTimerExpiry .. | .selfTestPhaseComplete ..
  | .selfTestComplete .. | .selfTestTimerExpiry .. | .rebuildPhaseComplete .. | .rebuildComplete ..
  | .rebuildTimerExpiry .. | .powerFailDetect .. | .bellUnitFail .. | .closingBellComplete ..
  | .closingBellTimerExpiry .. | .haltCtrlOrderly .. | .haltCtrlRestart .. | .restartDwellExpiry .. | .modeInstant ..
  | .setFeatures .. | .powerManagementSet .. | .timestampSet .. | .formatComplete .. | .sanitizeBlockErase ..
  | .sanitizeCryptoErase .. | .sanitizeExitFailureMode .. | .sanitizeComplete .. | .firmwareCommit ..
  | .statusPoll .. | .readTimeout .. | .programTimeout .. | .eraseTimeout .. | .resetTimeout .. | .featureTimeout ..
  | .zqIntervalExpiry .. | .identityCheck .. | .vccqFlOutOfRange .. | .scrubStateSave .. | .uncorrectableError ..
  | .sweepEpoch .. | .lapComplete .. | .journalFlush .. | .recordsSave .. | .keyRecordWritten .. | .jobComplete ..
  | .jobAbort .. | .jobSave .. | .generate .. | .porterBurst .. | .wakeFailure .. | .crossingWatchdogExpiry ..
  | .domainPowerOn .. | .nonopEntry .. | .nonopExitComplete .. | .temperatureSample .. | .wdogExpiry ..
  | .mwdogExpiry .. | .coreRstGo .. | .flCmdErase .. | .flCmdProgram .. | .flashOperationComplete ..
  | .commitAction000b .. | .commitAction001b .. | .commitAction010b .. | .commitAction011b .. | .pumpWrite ..
  | .slotWriteComplete .. | .actReady .. | .activationAllowanceExpiry .. | .recCmdEnd .. | .ownerLockWrite ..
  | .recordStore .. | .ringSave .. | .wallSetHi .. | .injArm .. | .miRegisterWrite .. | .registerWrite .. => true
  | _ => false

/-- A command that a write of a register in another domain gives, with the field that carries it; `a`, `b`, `x` and `y`
stand for their operands. -/
abbrev CrossingWrite (who : Initiator) (a b : Nat) (x y : Bool) (e : Instr × Field) : Prop :=
  e ∈ [(.pitchCmdRent who, R.INTAKE.PITCH_CMD_OP), (.pitchCmdReturn who, R.INTAKE.PITCH_CMD_OP),
   (.pitchCmdLoad who, R.INTAKE.PITCH_CMD_OP), (.pitchCmdTest who, R.INTAKE.PITCH_CMD_OP),
   (.qbCfgWrite who a, R.INTAKE.QB_CFG_PITCH), (.nsCmdInit who, R.LEDGER.NS_CMD_OP), (.nsCmdRelease who, R.LEDGER.NS_CMD_OP),
   (.nsCmdDeallocAll who, R.LEDGER.NS_CMD_OP), (.cixProbeGo who, R.LEDGER.CIX_PROBE_CMD_GO),
   (.rangeClean who x y, R.LCACHE.RANGE_CMD_OP), (.rangeInvalidate who x y, R.LCACHE.RANGE_CMD_OP),
   (.rangeCleanInvalidate who x y, R.LCACHE.RANGE_CMD_OP), (.rangePrefetch who x, R.LCACHE.RANGE_CMD_OP),
   (.lockApply who, R.LCACHE.LOCK_CMD_APPLY), (.cacheEnable who, R.LCACHE.CTRL_ENABLE),
   (.wayPowerOff who a, R.LCACHE.WAY_PWR_OFF), (.wayPowerOn who a, R.LCACHE.WAY_PWR_OFF),
   (.lendGo who a, R.CRATEYD.LEND_GO), (.returnHandle who b, R.CRATEYD.RETURN_HANDLE),
   (.winDataAccess who true b, R.CRATEYD.WIN_DATA_DATA), (.victimName who, R.SWEEP.VICTIM_CMD_GO),
   (.sweepCtrlResume who, R.SWEEP.SWEEP_CTRL_RESUME), (.mediaKeyGenerate who, R.CIPHER.KEY_CMD_OP),
   (.admTake who, R.ADMQ.ADM_TAKE_TAKE), (.admCplGo who a, R.ADMQ.ADM_CPL_GO)]

/-- A command that a write of a register of WATCH gives, with the field that carries it. -/
abbrev WatchWrite (who : Initiator) (a b : Nat) (x : Bool) (e : Instr × Field) : Prop :=
  e ∈ [(.wallSetHi who a, R.TIME.WALL_SET_HI_MS), (.fwPost who, R.LOG.FW_POST_GO), (.dvfsReq who a b, R.POWER.DVFS_REQ_CORE_CLK),
   (.mwdogKick who a, R.CORESYS.MWDOG_KICK_KEY), (.flCmdErase who, R.CFLASH.FL_CMD_OP), (.flCmdProgram who, R.CFLASH.FL_CMD_OP),
   (.actReady who, R.GATE.ACT_READY_READY), (.recCmdBegin who, R.GATE.REC_CMD_OP), (.recCmdEnd who, R.GATE.REC_CMD_OP),
   (.recCmdCancel who, R.GATE.REC_CMD_OP), (.ownerLockWrite who x, R.GATE.OWNER_LOCK), (.disarmAll who, R.INJFAB.DISARM_ALL)]

/-- A command of a device that has power: in OFF it finds nothing to act on. -/
abbrev OffIdle (a b : Nat) (l : List Nat) (c : Instr) : Prop :=
  c ∈ [.strapSampleComplete l, .railStageValid a, .railEnableTimeout a, .bootSlotChoice, .ddr5TrainingComplete a b a, .wakeComplete,
   .wakeTimerExpiry, .selfTestComplete a, .selfTestTimerExpiry, .rebuildPhaseComplete a l, .rebuildComplete,
   .rebuildTimerExpiry, .closingBellComplete, .closingBellTimerExpiry, .restartDwellExpiry, .vddWatchLoss, .vrAlertN,
   .extest l, .samplePreload l l, .idcode, .bypass a, .ktrCfg a, .ktrStat, .trstNAssert, .ktrTrigIn, .ktrSync,
   .miRegisterRead a b, .miRegisterWrite a b l, .miOtherCommand a, .codeFlashDataRead .bootRom a, .domainPowerOn a,
   .domainPowerOff a, .nonopEntry, .apstItptExpiry, .actReady .bootRom, .activationAllowanceExpiry, .rollingWalk, .recordsSave,
   .journalFlush, .scrubStateSave]

end Sys2Proof.Safety
end

