-- ==== Sys2Proof/Certificates/Slice0/Obligations.lean ====
section
/-! DEFINITION. The statements for the provers: the block's step and queue, its invariants and frames, the shared
operations on registers and memory, and for every command where it completes and with what state. A statement over a
command says the whole next state, so that it is the command's frame too. -/

section Slice0

open Sys2Proof Sys2Proof.Machine Sys2Proof.Safety

/-- A step runs the command at the front of the queue. For every command c and state s, one step of s with c put at the
front of its queue answers what exec of c answers on s, whose queue is the rest. -/
def Obligations.StepRunsTheCommandInFront : Prop :=
  ∀ (c : Instr) (s : State), step { s with pending := c :: s.pending } = exec c s

/-- On an empty queue a step is one tick of the time base. The model's own choice (log entry 4): with no command waiting,
a step of a device that is not OFF adds one to MONOTONIC and moves the trace port on, and changes nothing else; an OFF
device does not move. -/
def Obligations.AnEmptyQueueTicks : Prop :=
  (∀ s : State, s.pending = [] → s.dst ≠ 0 → step s = .next { s with mono := s.mono + 1, jtag := traceTick s.jtag })
  ∧ (∀ s : State, s.pending = [] → s.dst = 0 → step s = .next s)

/-- The commands of the block have no words. The opcode table gives its rows no bits, so no word decodes to a command, and
placing a word changes no state. -/
def Obligations.NoWordSpellsACommand : Prop :=
  ∀ (nbits w : Nat) (s : State), decodeTableWord nbits w = none ∧ s.withFetchWord nbits w = s

/-- No command ends in a fault or a refusal. Every command in every state is answered with a next state: the block refuses
an access by its own registers and records, never by stopping. -/
def Obligations.EveryCommandIsAnswered : Prop :=
  ∀ (c : Instr) (s : State), ∃ t, exec c s = .next t

/-- The state at reset is canonical, its queue empty, the device at the start of WAKE. At State.reset the register store
is in order, crate memory and the FIRMWARE region list nothing, no command waits, MONOTONIC is 0 and the device is in
WAKE, where the power-on reset leaves it (log entry 1). -/
def Obligations.ResetIsCanonical : Prop :=
  Sys2Proof.Safety.Canonical State.reset ∧ State.reset.pending = [] ∧ State.reset.mono = 0 ∧ State.reset.cr.mem = []
  ∧ State.reset.dram = [] ∧ State.reset.dst = 1

/-- Every step keeps the register store and the memories canonical. Invariant of the model: from every state whose
register store has rising keys and whose crate memory and FIRMWARE region have rising addresses and no listed zero,
every step that answers a next state answers one of that form. Equal contents are therefore equal data, and a register
or byte has one value. -/
def Obligations.EveryStepKeepsTheCanonicalForms : Prop :=
  ∀ s t : State, Sys2Proof.Safety.Canonical s → step s = .next t → Sys2Proof.Safety.Canonical t

/-- A step takes the front command and leaves the rest of the queue as it was. From every canonical state with a command
waiting, the step leaves exactly the rest of the queue, in order: no command adds to the queue, drops from it or
reorders it. -/
def Obligations.AStepTakesOneCommandFromTheQueue : Prop :=
  ∀ (s t : State) (c : Instr) (rest : List Instr), Sys2Proof.Safety.Canonical s → s.pending = c :: rest → step s = .next t →
    t.pending = rest

/-- No command but the power-on reset and the loss of VDD_WATCH moves MONOTONIC. From every canonical state, every command
but POWER_ON_RESET_RELEASE and VDD_WATCH_LOSS leaves MONOTONIC where it is: a MAIN reset, a restart, a controller
reset, firmware and the host cannot move the time base. (The clock itself ticks on an empty queue, log entry 4.) -/
def Obligations.OnlyThePowerSupplyResetsMonotonic : Prop :=
  ∀ (c : Instr) (s t : State), Sys2Proof.Safety.Canonical s → Sys2Proof.Safety.setsTimeBase c = false → exec c s = .next t →
    t.mono = s.mono

/-- The epoch kept in code flash changes on a power-on alone. From every canonical state, every command but
POWER_ON_RESET_RELEASE and VDD_WATCH_LOSS leaves the epoch record as it is; VDD_WATCH_LOSS leaves it too;
POWER_ON_RESET_RELEASE from OFF adds one to it, modulo 2^32. -/
def Obligations.OnlyAPowerOnAdvancesTheEpoch : Prop :=
  (∀ (c : Instr) (s t : State), Sys2Proof.Safety.Canonical s → Sys2Proof.Safety.setsTimeBase c = false → exec c s = .next t →
    t.nv.epoch = s.nv.epoch)
  ∧ (∀ s t : State, Sys2Proof.Safety.Canonical s → exec .vddWatchLoss s = .next t → t.nv.epoch = s.nv.epoch)
  ∧ (∀ (testEn : Bool) (s t : State), Sys2Proof.Safety.Canonical s → s.dst = 0 → exec (.powerOnResetRelease testEn) s = .next t →
    t.nv.epoch = (s.nv.epoch + 1) % 2 ^ 32)

/-- No step takes a record out of the permanent Logbook area. From every canonical state, every step leaves the records of
the permanent area in place and in order: what the area held before is a prefix of what it holds after. No command of
the host, of firmware or of a debug port erases or rewrites it. -/
def Obligations.ThePermanentAreaOnlyGrows : Prop :=
  ∀ s t : State, Sys2Proof.Safety.Canonical s → step s = .next t → s.nv.perm <+: t.nv.perm

/-- Every byte of crate memory and of the FIRMWARE region is left by every command that stores nothing. From every
canonical state, every command that Safety.storesBytes does not list leaves every byte of crate memory and of the
FIRMWARE region as it was. The list names the commands whose effect can store: they move data, link a freed crate into
its free list, or reset the islands that hold the memory. -/
def Obligations.OnlyStoringCommandsChangeMemory : Prop :=
  ∀ (c : Instr) (s t : State), Sys2Proof.Safety.Canonical s → Sys2Proof.Safety.storesBytes c = false → exec c s = .next t →
    (∀ a : Nat, byteAt t.cr.mem a = byteAt s.cr.mem a) ∧ (∀ a : Nat, byteAt t.dram a = byteAt s.dram a)

/-- What code flash and the media keep without power is left by every command that writes neither. From every canonical
state, every command that Safety.writesKept does not list leaves the whole of the state kept without power as it was:
the media with their block records, the code-flash areas, the stored Logbook, the key records and the boot
descriptors. -/
def Obligations.OnlyWritingCommandsChangeWhatIsKept : Prop :=
  ∀ (c : Instr) (s t : State), Sys2Proof.Safety.Canonical s → Sys2Proof.Safety.writesKept c = false → exec c s = .next t →
    t.nv = s.nv

/-- A loaded field reads what was loaded; every other field of every page reads as before. For every state in order and
any two fields within the layout of the register pages: after a load, the field reads the value modulo its width, and
a field of another page, offset, bit position, or bank entry reads as before; nothing outside the register store
changes. -/
def Obligations.ARegisterWriteChangesItsFieldAlone : Prop :=
  ∀ (s : State) (f g : Field) (v i b j d : Nat), Tbl.sorted s.regs = true → f.off < 0x1000 → g.off < 0x1000 → f.lo < 32 → g.lo < 32 →
    b < 0x10000 → d < 0x10000 →
    (s.wr f v i b).rd f i b = v % 2 ^ f.width
    ∧ ((f.page + i, f.off, f.lo, b) ≠ (g.page + j, g.off, g.lo, d) → (s.wr f v i b).rd g j d = s.rd g j d)
    ∧ s.wr f v i b = { s with regs := (s.wr f v i b).regs }

/-- A counter adds, and stops at its top or wraps as its table says. For every counter field that stands above a page's
common registers, adding n to it leaves it at the sum, held at its highest value where its table makes it saturate and
taken modulo its width where not (the model's reading, log entry 6); memory and every other part of the state stay. -/
def Obligations.CountersSaturateOrWrap : Prop :=
  ∀ (s : State) (f : Field) (i b n : Nat), Tbl.sorted s.regs = true → 0x100 ≤ f.off → f.off < 0x1000 → f.lo < 32 → b < 0x10000 →
    s.rd f i b < 2 ^ f.width →
    (s.count f i b n).rd f i b = (if f.sat then min (s.rd f i b + n) (2 ^ f.width - 1) else (s.rd f i b + n) % 2 ^ f.width)
    ∧ s.count f i b n = { s with regs := (s.count f i b n).regs }

/-- Bytes stored in a memory read back, and every other byte reads as before. In every canonical memory, after a list of
bytes is stored from an address up, each address of the range reads its byte and every other address reads as before;
clearing a range makes exactly that range read zero. -/
def Obligations.StoredBytesReadBack : Prop :=
  (∀ (m : List Host.Cell) (a x : Nat) (l : List Nat), Tbl.wf (0 : BitVec 8) m = true →
      byteAt (putBytes m a l) x = if a ≤ x ∧ x < a + l.length then l.getD (x - a) 0 % 256 else byteAt m x)
  ∧ (∀ (m : List Host.Cell) (a n x : Nat), Tbl.wf (0 : BitVec 8) m = true →
      byteAt (zeroBytes m a n) x = if a ≤ x ∧ x < a + n then 0 else byteAt m x)

/-- Power-on, the loss of WATCH power, straps and slot choice complete. POWER_ON_RESET_RELEASE in OFF, or right after
reset: MONOTONIC is 0, the epoch in code flash goes up by one modulo 2^32, TEST_EN is taken, memory is empty and the
media stay. VDD_WATCH_LOSS outside CLOSING: what outlives power stays, as the cut code-flash operations leave it, and
all else is as at reset. STRAP_SAMPLE_COMPLETE in WAKE, where all samples agree, the LEGACY strap is 0 and LEGACY
stands so: each strap field takes its bits and the first rail stage is enabled. BOOT_SLOT_CHOICE in WAKE after the
straps: the hardware configuration is loaded, the candidate found, and the first startable slot is taken; HALT with
cause 6 where no slot is startable and the override does not serve. -/
def Obligations.PowerOnAndStraps : Prop :=
  (∀ (s : State) (testEn : Bool),
      (s.dst = 0 ∨ (s.dst = 1 ∧ s.rd R.TIME.EPOCH_VALUE = 0)) →
      ∃ t, exec (.powerOnResetRelease testEn) s = .next t ∧ t.mono = 0 ∧ t.nv.epoch = (s.nv.epoch + 1) % 2 ^ 32 ∧ t.dev.boardTest = testEn ∧ t.cr.mem = [] ∧ t.dram = [] ∧ t.pending = s.pending ∧ t.nv.media = s.nv.media)
  ∧ (∀ (s u : State),
      s.dst ≠ 0 →
      s.dst ≠ 6 →
      u = (s.flStop 0 true).flStop 1 true →
      exec (.vddWatchLoss) s = .next (({ nv := u.nv, free := u.free, pending := u.pending, regs := State.reset.regs, tal := State.reset.tal, host := { p0 := u.host.p0.fresh, p1 := u.host.p1.fresh, nextUid := u.host.nextUid } } : State).wr R.DEVSTATE.DEV_STATE_STATE 0))
  ∧ (∀ (s : State) (samples : List Nat) (y : Nat),
      s.dst = 1 →
      s.dev.strapped = false →
      unstable samples = 0 →
      y = samples.headD 0 % 256 →
      bit y 0 = false →
      s.mode 7 = false →
      Tbl.sorted s.regs = true →
      ∃ t, exec (.strapSampleComplete samples) s = .next t ∧ t.dev.strapped = true ∧ t.dev.enables = 1 ∧ t.rd R.BOOT.STRAP_LEGACY = 0 ∧ t.rd R.BOOT.STRAP_SPLIT = bits y 1 1 ∧ t.rd R.BOOT.STRAP_RATE = bits y 2 2
        ∧ t.rd R.BOOT.STRAP_MGTBUS = bits y 4 1 ∧ t.rd R.BOOT.STRAP_MIADDR = bits y 5 3 ∧ t.rd R.BOOT.STRAP_UNSTABLE = 0)
  ∧ (∀ (s u v : State),
      s.dst = 1 →
      s.dev.strapped = true →
      s.dev.boardTest = false →
      s.cf.chosen = 0 →
      u = s.loadConfig.startCandidate.1 →
      v = (firstSlot u [s.loadConfig.startCandidate.2, u.nv.desc.current, 3 - u.nv.desc.current].eraseDups).1 →
      exec (.bootSlotChoice) s = .next (match (firstSlot u [s.loadConfig.startCandidate.2, u.nv.desc.current, 3 - u.nv.desc.current].eraseDups).2 with
        | some k => v.takeSlot k
        | none =>
          let k := if v.slotValid s.loadConfig.startCandidate.2 then s.loadConfig.startCandidate.2 else u.nv.desc.current
          if Config.devFuse && v.slotValid k then (v.diagBoot k).takeSlot k else v.enterHalt 6 6))

/-- Rails, DRAM training and the end of WAKE complete. A rail stage that is valid makes its rails that have not failed
valid and begins the next, and the sixth powers the domains; a rail that fails its enable, or leaves its window, loses
its stall group or the device; DRAM training shows what it found; WAKE ends in SELF_TEST, or in HALT at its timer. -/
def Obligations.RailsAndWake : Prop :=
  (∀ (s u : State) (early : Nat),
      s.dst = 1 →
      s.dev.strapped = true →
      s.dev.railStage < 5 →
      (u = ((stageRails (s.dev.railStage + 1)).filter fun r => !bit (s.rd R.BOOT.RAIL_FAIL_RAILS) r).foldl (fun (t : State) r => if bit early r then (t.wr R.BOOT.RAIL_STAT_VALID (setBit (t.rd R.BOOT.RAIL_STAT_VALID) r)).wr R.BOOT.RAIL_EARLY_RAILS (setBit ((t.wr R.BOOT.RAIL_STAT_VALID (setBit (t.rd R.BOOT.RAIL_STAT_VALID) r)).rd R.BOOT.RAIL_EARLY_RAILS) r) else t.wr R.BOOT.RAIL_STAT_VALID (setBit (t.rd R.BOOT.RAIL_STAT_VALID) r)) s) →
      exec (.railStageValid early) s = .next ((u.mDev fun d => { d with railStage := s.dev.railStage + 1, enables := min (s.dev.railStage + 2) 6 }).showStep))
  ∧ (∀ (s u : State) (rail : Nat),
      s.dst = 1 →
      s.dev.strapped = true →
      rail < 17 →
      railStageOf rail = s.dev.railStage + 1 →
      bit (s.rd R.BOOT.RAIL_FAIL_RAILS) rail = false →
      u = s.wr R.BOOT.RAIL_FAIL_RAILS (setBit (s.rd R.BOOT.RAIL_FAIL_RAILS) rail) →
      exec (.railEnableTimeout rail) s = .next (if 5 ≤ rail then u.loseGroup (rail - 5) 2 else u.wakeFall.enterHalt 6 6))
  ∧ (∀ (s u : State) (rail : Nat),
      rail < 17 →
      bit (s.rd R.BOOT.RAIL_STAT_VALID) rail = true →
      u = s.wr R.BOOT.RAIL_STAT_VALID (clrBit (s.rd R.BOOT.RAIL_STAT_VALID) rail) →
      exec (.railOutOfWindow rail) s = .next (if 5 ≤ rail then u.loseGroup (rail - 5) 2 else if u.dst = 1 ∨ u.dst = 2 then u.enterHalt 3 3 else u.enterClosing .hardware 1))
  ∧ (∀ (s : State) (gib mts ms : Nat),
      s.dst = 1 →
      s.domOn 3 = true →
      s.dev.boardTest = false →
      exec (.ddr5TrainingComplete gib mts ms) s = .next ((((s.mDev fun d => { d with ddrMts := mts }).wr R.LEDGER.DRAM_MAP_SIZE (min gib 1023)).wr R.BOOT.WAKE_LAST_DDR_MS (min ms 255)).showStep))
  ∧ (∀ (s u : State),
      s.wakeDone = true →
      (u = ([R.MEMCHK.ST_RESULT_FAILED, R.MEMCHK.ST_RESULT_DECODER, R.INJFAB.ST_RESULT_PHASE_FAIL, R.INJFAB.ST_RESULT_PASS, R.INJFAB.ST_RESULT_HALTED, R.INJFAB.ST_SG_FAILED, R.INJFAB.ST_TRANSIENT_COUNT, R.INJFAB.ST_FIRED_COUNT, R.INJFAB.ST_FIRST_TEST, R.INJFAB.ST_FIRST_ISLAND] : List Field).foldl (fun (t : State) f => t.wr f 0) (s.wr R.BOOT.WAKE_LAST_MS (min ((s.mono - s.dev.stateEntry) / 100000) 255))) →
      exec (.wakeComplete) s = .next ((u.goState 2 .hardware 0x11).mDev fun d => { d with stPhase := 1 }))
  ∧ (∀ (s : State),
      s.dst = 1 →
      s.dev.boardTest = false →
      exec (.wakeTimerExpiry) s = .next (s.wakeFall.enterHalt 6 6))
  ∧ (∀ (s u : State),
      s.dst ≠ 0 →
      u = s.fresh.2.fresh.2 →
      exec (.vrAlertN) s = .next (u.record 8 (Config.freeValue s.free % 0x20) ((List.range 4).map fun n => Config.estimate (s.free + 1) n)))

/-- The self-test and rebuild complete. A phase of the self-test adds its counts, takes its failures and, in phase 3,
brings the channels up, and the next phase follows, phase 5 after a global failure; SELF_TEST ends in REBUILD, or in
HALT at its timer; each phase of rebuild runs, is timed, and the next follows; REBUILD ends in SERVICE, or in HALT at
its timer; the walk for VALID ends. -/
def Obligations.SelfTestAndRebuild : Prop :=
  (∀ (s u v : State) (transients firings : Nat) (fails : List (Nat × Nat)) (chans : List (List Nat)),
      s.dst = 2 →
      1 ≤ s.dev.stPhase →
      s.dev.stPhase < 5 →
      (u = fails.foldl (fun t f => t.stFail s.dev.stPhase f) ((s.count R.INJFAB.ST_TRANSIENT_COUNT 0 0 transients).count R.INJFAB.ST_FIRED_COUNT 0 0 firings)) →
      (v = if s.dev.stPhase = 3 then (chans.foldl (fun t c => t.bringChannel c) u).loadSlots else u) →
      exec (.selfTestPhaseComplete transients firings fails chans) s = .next (v.mDev fun d => { d with stPhase := if v.rd R.INJFAB.ST_RESULT_HALTED = 1 then 5 else s.dev.stPhase + 1 }))
  ∧ (∀ (s u v w x : State) (ms : Nat),
      s.dst = 2 →
      s.dev.stPhase = 6 →
      u = ((s.wr R.DEVSTATE.START_LAST_SELF_TEST (min ms 511)).goState 3 .hardware 0x12) →
      (v = u.divideDram.mWp fun w => { w with rank := (List.range 96).filter fun c => decide (u.rd R.STALL.CH_STATE_STATE c = 2) }) →
      (w = ([R.BELL.RB_DELTA_COPIES, R.BELL.RB_VOID_COUNT, R.BELL.RB_UNC_COUNT, R.BELL.RB_REPLAY_ROWS, R.BELL.RB_MISMATCH_BLOCKS] : List Field).foldl (fun (t : State) f => t.wr f 0) (((v.wr R.BELL.BELL_CAP_MIB v.bellCapMib).set R.TALLY.TALLY_STATE_STATE 1).wr R.BELL.RB_STAT_PHASE 1)) →
      (x = (w.lockPages.mDev fun d => { d with stPhase := 0, mgmtUp := true })) →
      exec (.selfTestComplete ms) s = .next ((x.mCore fun c => { c with mKicked := w.mono }).wr R.GATE.BOOT_INFO_RUN_MGMT x.cf.chosen))
  ∧ (∀ (s : State),
      s.dst = 2 →
      exec (.selfTestTimerExpiry) s = .next (((s.wr R.INJFAB.ST_RESULT_HALTED 1).wakeFall).enterHalt 7 7))
  ∧ (∀ (s u : State) (ms : Nat) (bad : List Nat) (p : Nat),
      s.dst = 3 →
      p = s.rd R.BELL.RB_STAT_PHASE →
      1 ≤ p →
      p ≤ 6 →
      (u = if p = 1 then s.rebuild1 else if p = 2 then s.rebuild2 else if p = 3 then s.rebuild3 else if p = 4 then s.rebuild4 bad else if p = 5 then s.rebuild5 bad else s.rebuild6) →
      exec (.rebuildPhaseComplete ms bad) s = .next ((u.wr R.BELL.RB_TIME_MS (min ms 65535) 0 p).wr R.BELL.RB_STAT_PHASE (if p = 6 then 0 else p + 1)))
  ∧ (∀ (s : State),
      s.dst = 3 →
      s.rd R.BELL.RB_STAT_PHASE = 0 →
      s.nv.sanitize = 0 →
      ∃ t, exec (.rebuildComplete) s = .next t ∧ t.dev.policyUp = true ∧ t.bell.validWalk = true ∧ t.integ.scrubFrom = s.mono ∧ t.pit.updatedAt = s.mono)
  ∧ (∀ (s : State),
      s.dst = 3 →
      exec (.rebuildTimerExpiry) s = .next (s.wakeFall.enterHalt 8 8))
  ∧ (∀ (s u v : State),
      s.bell.validWalk = true →
      (u = s.mSw fun w => { w with blocks := w.blocks.map fun e => (e.1, { e.2 with valid := 0 }) }) →
      (v = (((((s.led.map.map fun e => (e.1 / 2 ^ 38, e.2)) ++ s.led.cix.map fun r => (r.nsid, r.prior)) : List (Nat × Nat)).filter fun e => isMedia e.2).foldl (fun (t : State) e => t.mBlock (aBlockKey e.2) fun b => { b with valid := b.valid + iuUnits (t.ns e.1).iu }) u)) →
      exec (.validWalkComplete) s = .next ((v.mBell fun b => { b with validWalk := false }).wr R.BELL.VALID_WALK_ACTIVE 0))

/-- Power fail, the closing bell, HALT and its ends complete. A power fail enters CLOSING from REBUILD, SERVICE and
QUIESCE, and HALT from WAKE and SELF_TEST; the hold-up comparators show and are recorded; units of the bell image
become durable or fail; the bell ends, complete or at its timer, in HALT; firmware orders a halt and a restart, and a
restart follows by itself where the cause allows one. -/
def Obligations.ClosingAndHalt : Prop :=
  (∀ (s : State),
      s.dev.failArmed = true →
      s.dst ≠ 1 →
      s.dst ≠ 2 →
      exec (.powerFailDetect true) s = .next (s.enterClosing .hardware 1))
  ∧ (∀ (s : State),
      exec (.powerFailDetect false) s = .next (if s.dst = 1 ∨ s.dst = 2 then s.enterHalt 3 3 else s.enterClosing .hardware 1))
  ∧ (∀ (s u : State),
      s.dst ≠ 0 →
      s.rd R.BELL.HU_STAT_OK = 0 →
      (u = ((s.wr R.BELL.HU_STAT_OK 1).mDev fun d => { d with failArmed := true }).holdup) →
      exec (.holdupThresholdCrossing false true) s = .next (u.record 8 0x030 [u.huWord, 0, 0, 0]))
  ∧ (∀ (s u : State) (up : Bool),
      s.dst ≠ 0 →
      s.rd R.BELL.HU_STAT_FAIL ≠ b2n (!up) →
      u = s.wr R.BELL.HU_STAT_FAIL (b2n (!up)) →
      exec (.holdupThresholdCrossing true up) s = .next (u.record 8 0x030 [u.huWord, 0, 0, 0]))
  ∧ (∀ (s : State) (unit : Nat) (n : BellUnit),
      s.bellUnit unit = some n →
      exec (.bellUnitDurable unit) s = .next ((s.mBellUnit unit fun a => { a with good := true }).bellDurable n.sectors))
  ∧ (∀ (s u v : State) (unit : Nat) (n : BellUnit),
      s.bellUnit unit = some n →
      n.fails = 1 →
      u = s.count R.BELL.BELL_FAIL_PROG →
      (v = (match u.bellBlock n.die with | some k => (u.retireBlock k 1).mBell fun b => { b with journal := b.journal ++ [⟨b.made, 7, u.mono, [k / 8192, k % 8192, 1]⟩], made := b.made + 1 } | none => u)) →
      exec (.bellUnitFail unit) s = .next (v.mBellUnit unit fun a => { a with fails := a.fails + 1, missing := true }))
  ∧ (∀ (s u : State),
      s.dst = 6 →
      s.bellDone = true →
      (u = (s.bellDurable ((s.bell.units.filter fun a => !a.good).map fun a => a.sectors).sum).bellWrite true) →
      exec (.closingBellComplete) s = .next ((u.wr R.DEVSTATE.DEV_STATE_BELL_OK 1).enterHalt u.dev.closeCause 0x18))
  ∧ (∀ (s u : State),
      s.dst = 6 →
      u = (s.bellWrite false).wr R.DEVSTATE.DEV_STATE_BELL_OK 0 →
      exec (.closingBellTimerExpiry) s = .next (u.enterHalt (if s.dev.closeCause = 1 then 2 else s.dev.closeCause) 0x18))
  ∧ (∀ (s : State) (who : Initiator),
      mayWrite R.DEVSTATE.HALT_CTRL_ORDERLY who = true →
      (s.dst = 4 ∨ s.dst = 5) →
      exec (.haltCtrlOrderly who) s = .next (s.enterClosing .mgmt 5))
  ∧ (∀ (s : State) (who : Initiator),
      mayWrite R.DEVSTATE.HALT_CTRL_RESTART who = true →
      s.dst = 7 →
      exec (.haltCtrlRestart who) s = .next (((s.mDev fun d => { d with restarts := [] }).wr R.DEVSTATE.DEV_STATE_RESTARTS 0).restart (requester who)))
  ∧ (∀ (s : State),
      s.dst = 7 →
      s.mayRestart = true →
      s.recentRestarts.length < 3 →
      exec (.restartDwellExpiry) s = .next (((s.mDev fun d => { d with restarts := s.recentRestarts ++ [s.mono] }).wr R.DEVSTATE.DEV_STATE_RESTARTS (s.recentRestarts.length + 1)).restart .hardware))

/-- Mode requests, the IN_SERVICE line and temperature samples complete. In SERVICE a mode request with nothing armed
joins the changes to be decided, with the bits its requester may not name refused, and a refused policy request
counted under limit 13; a mode instant decides the change that waits longest; a rise of IN_SERVICE disarms every
point; a sample stores the readings of the sensors that are powered and drives the thresholds; the history takes the
composite temperature. -/
def Obligations.ModesAndHeat : Prop :=
  (∀ (s : State) (who : Initiator) (set clear bad : Nat),
      s.armed = [] →
      s.dst = 4 →
      requester who ≠ .policy →
      bad = without ((set % 256).lor (clear % 256)) (requester who).modes →
      exec (.modeReq who set clear) s = .next (s.mDev fun d => { d with undecided := d.undecided ++ [{ who := requester who, cause := 0, set := set % 256, clear := clear % 256, refCode := if bad = 0 then 0 else 2, refBits := bad, uid := 0 }] }))
  ∧ (∀ (s : State) (r : ModeReq) (rest : List ModeReq),
      s.dev.undecided = r :: rest →
      (s.dst = 4 ∨ s.dst = 5) →
      exec (.modeInstant) s = .next ((s.mDev fun d => { d with undecided := rest }).decideMode r))
  ∧ (∀ (s : State) (level : Bool),
      s.dst ≠ 0 →
      (s.dev.inService = true ∨ level = false) →
      exec (.inServiceRise level) s = .next (s.mDev fun d => { d with inService := level }))
  ∧ (∀ (s u : State),
      s.dst ≠ 0 →
      s.dev.inService = false →
      (u = (s.mDev fun d => { d with inService := true }).disarmThose (fun _ => true) 3) →
      u.mode 5 = false →
      exec (.inServiceRise true) s = .next (u))
  ∧ (∀ (s u v : State) (readings : List Int) (y : Int),
      s.dst ≠ 0 →
      readings.length = 20 →
      s.armed = [] →
      (u = s.mPwr fun x => { x with temps := readings.zipIdx.foldl (fun t e => t.set none e.2 (if sensorDomain e.2 = 0 ∨ s.domOn (sensorDomain e.2) then some e.1 else none)) ([] : Tbl (Option Int)) }) →
      u.composite = some y →
      (v = (List.range 96).foldl (fun t c => t.zqByTemp c) (((u.mPwr fun x => { x with above := x.above % 256 }).thresholds y).thermalWarning)) →
      exec (.temperatureSample readings) s = .next (if bit v.pwr.above 3 then v.enterClosing .hardware 4 else v))
  ∧ (∀ (s u v w : State) (y : Int),
      s.composite = some y →
      s.sw.tempCount ≠ 0 →
      (u = if y < -40 then s else s.count R.HEALTH.TEMP_BIN_SECONDS 0 (min 29 ((y + 40) / 5).toNat)) →
      ((if 32768 ≤ u.rd R.HEALTH.TEMP_EXT_MAX then (u.rd R.HEALTH.TEMP_EXT_MAX : Int) - 65536 else (u.rd R.HEALTH.TEMP_EXT_MAX : Int)) ≥ y) →
      ((if 32768 ≤ u.rd R.HEALTH.TEMP_EXT_MIN then (u.rd R.HEALTH.TEMP_EXT_MIN : Int) - 65536 else (u.rd R.HEALTH.TEMP_EXT_MIN : Int)) ≤ y) →
      (v = (fun (t : State) => if t.hostThreshold 0 0 ≤ y + 273 then t.count R.HEALTH.TEMP_ABOVE_HOST_SECONDS else t) ((u.mSw fun x => { x with tempSum := x.tempSum + y, tempCount := x.tempCount + 1 }).wr R.HEALTH.TEMP_AVG_HUNDREDTHS (((u.sw.tempSum + y) * 100 / ((u.sw.tempCount + 1 : Nat) : Int)) % 65536).toNat)) →
      (w = if v.degrees R.POWER.THERM_CFG_WCTEMP ≤ y then v.count R.HEALTH.TEMP_ABOVE_WARN_SECONDS else v) →
      exec (.tempHistorySample) s = .next (if w.degrees R.POWER.THERM_CFG_CCTEMP ≤ y then w.count R.HEALTH.TEMP_ABOVE_CRIT_SECONDS else w))

/-- Doorbells, arrivals, evaluations and queue waits complete. A tail doorbell of an enabled controller moves the tail,
and one of an I/O queue leaves a non-operational power state; a fetched entry enters its staging ring with the lowest
unused identity; an evaluation serves the I/O command the two levels choose, and between evaluations of admin commands
keeps the gap; a block of range-lock rows shifts down by one; a RETURN queue returns its waiting command; a head
doorbell frees entries and posts what was held. -/
def Obligations.HostQueuesComplete : Prop :=
  (∀ (s u v : State) (port sqid tail : Nat) (q : Sq),
      u = s.hostRequest →
      u.sqOf port sqid = some q →
      tail < q.size →
      (u.port port).en = true →
      (u.port port).resetting = false →
      u.domOn 1 = true →
      (v = u.mSq port sqid fun q => { q with tail := tail }) →
      exec (.sqDoorbell port sqid tail) s = .next (if sqid = 0 then v else v.nonopExit))
  ∧ (∀ (s u : State) (port sqid cid opcode flags nsid : Nat) (dw : List Nat) (ranges : List (Nat × Nat)) (payload : List Nat) (q : Sq) (rsv : Bool),
      s.sqOf port sqid = some q →
      s.contextFor port sqid = some rsv →
      q.fetch ≠ q.tail →
      q.ring.length < ringSize sqid →
      (s.port port).takes = true →
      (s.dst = 4 ∨ s.dst = 5) →
      (kindOf sqid opcode = .admin ∨ kindOf sqid opcode = .flush ∨ kindOf sqid opcode = .dsm) →
      (u = s.mHost fun h => { h with nextUid := s.host.nextUid + 1, nextOrder := h.nextOrder + 1, cmds := h.cmds ++ [{ uid := s.host.nextUid, port := port, sqid := sqid, cid := cid % 0x10000, kind := kindOf sqid opcode, opcode := opcode % 256, nsid := nsid % 2 ^ 32, slba := 0, nlb := 0, flags := flags, dw := dw.map fun w => w % 2 ^ 32, ranges := ranges, payload := payload, arrival := s.mono, order := s.host.nextOrder, reserve := rsv }] }) →
      exec (.sqeArrival port sqid cid opcode flags nsid dw ranges payload) s = .next ((u.mSq port sqid fun q => { q with ring := q.ring ++ [s.host.nextUid], fetch := (q.fetch + 1) % q.size }).ctxUse))
  ∧ (∀ (s u : State) (port sqid cid opcode flags nsid : Nat) (dw : List Nat) (ranges : List (Nat × Nat)) (payload : List Nat) (q : Sq) (rsv : Bool),
      s.sqOf port sqid = some q →
      s.contextFor port sqid = some rsv →
      q.fetch ≠ q.tail →
      q.ring.length < ringSize sqid →
      (s.port port).takes = true →
      (s.dst = 4 ∨ s.dst = 5) →
      (kindOf sqid opcode = .read ∨ kindOf sqid opcode = .write ∨ kindOf sqid opcode = .writeUnc ∨ kindOf sqid opcode = .compare ∨ kindOf sqid opcode = .writeZeroes ∨ kindOf sqid opcode = .verify) →
      (u = s.mHost fun h => { h with nextUid := s.host.nextUid + 1, nextOrder := h.nextOrder + 1, cmds := h.cmds ++ [{ uid := s.host.nextUid, port := port, sqid := sqid, cid := cid % 0x10000, kind := kindOf sqid opcode, opcode := opcode % 256, nsid := nsid % 2 ^ 32, slba := dw.getD 0 0 % 2 ^ 32 + dw.getD 1 0 % 2 ^ 32 * 2 ^ 32, nlb := dw.getD 2 0 % 0x10000 + 1, flags := flags, dw := dw.map fun w => w % 2 ^ 32, ranges := ranges, payload := payload, arrival := s.mono, order := s.host.nextOrder, reserve := rsv }] }) →
      exec (.sqeArrival port sqid cid opcode flags nsid dw ranges payload) s = .next ((u.mSq port sqid fun q => { q with ring := q.ring ++ [s.host.nextUid], fetch := (q.fetch + 1) % q.size }).ctxUse))
  ∧ (∀ (s u : State) (e : Cmd),
      (s.dst = 4 ∨ s.dst = 5) →
      s.domOn 1 = true →
      s.startGranted.arbitrate.1 = some e →
      (u = (s.startGranted.arbitrate.2.evalIo e).mHost fun h => { h with sinceAdmin := min (h.sinceAdmin + 1) 64 }) →
      u.host.sinceAdmin < u.rd R.INTAKE.ARB_CFG_ADMIN_GAP →
      exec (.intakeEvaluation) s = .next (u))
  ∧ (∀ (s u : State) (e : Cmd),
      (s.dst = 4 ∨ s.dst = 5) →
      s.domOn 1 = true →
      s.startGranted.arbitrate.1 = none →
      (u = s.startGranted.arbitrate.2.mHost fun h => { h with sinceAdmin := min (h.sinceAdmin + 1) 64 }) →
      u.rd R.INTAKE.ARB_CFG_ADMIN_GAP ≤ u.host.sinceAdmin →
      (((if u.host.rr.get 0 20 = 0 then [0, 1] else [1, 0]).filterMap fun p => u.offerAdmin p).head? = some e) →
      exec (.intakeEvaluation) s = .next ((u.mHost fun h => { h with sinceAdmin := 0, rr := h.rr.set 0 20 (1 - e.port) }).evalAdmin e))
  ∧ (∀ (s u : State) (f top : Nat) (r : RltRow),
      s.host.shifting = some (f, top, r) →
      (u = s.mHost fun h => { h with rlt := h.rlt.map fun y => (if f < y.row ∧ y.row ≤ top then { y with row := y.row - 1 } else y), shifting := none, rltWait := [] }) →
      exec (.rltBlockShift) s = .next (seatWaiting ((u.wr R.LEDGER.RLT_SHIFT_ACTIVE 0).putRow { r with row := top }) s.host.rltWait))
  ∧ (∀ (s : State) (port sqid cid : Nat) (e : Cmd),
      s.cmdOn port sqid cid = some e →
      e.stage = .waiting 1 →
      s.rd R.INTAKE.QB_CFG_MODE 0 (qb port sqid) = 1 →
      s.boundPitch port sqid = none →
      exec (.returnWaitExpiry port sqid cid) s = .next (s.complete e 0 0x21))
  ∧ (∀ (s : State) (port sqid cid p : Nat) (e : Cmd),
      s.cmdOn port sqid cid = some e →
      e.stage = .waiting 1 →
      s.rd R.INTAKE.QB_CFG_MODE 0 (qb port sqid) = 1 →
      s.boundPitch port sqid = some p →
      exec (.returnWaitExpiry port sqid cid) s = .next ((s.pitchLog p fun l => { l with returned := l.returned + 1 }).complete e 0 0x21))
  ∧ (∀ (s u : State) (port cqid head : Nat) (q : Cq),
      u = s.hostRequest →
      u.cqOf port cqid = some q →
      head < q.size →
      (head + q.size - q.head) % q.size ≤ q.posted.length →
      (u.port port).en = true →
      (u.port port).resetting = false →
      q.held = [] →
      exec (.cqHeadDoorbell port cqid head) s = .next ((u.mHost fun h => { h with cqs := h.cqs.map fun y => if y.port = port ∧ y.id = cqid then { q with head := head, posted := q.posted.drop ((head + q.size - q.head) % q.size) } else y }).ctxUse))

/-- The nine I/O commands complete once INTAKE admits them. An admitted Read, Compare or Verify starts its reads, and with
RECORD set they hold their slots; a Write or a Write Zeroes that covers units in part asks for its host crates and
goes on where they are granted; a Write Zeroes of whole units writes its zeros at once; a Flush takes what it covers
ahead; a Write Uncorrectable marks its IUs; a Dataset Management deallocates the whole IUs of its ranges; and a Flush
ends once what it covers has moved. -/
def Obligations.IoCommandsComplete : Prop :=
  (∀ (s u : State) (port sqid cid : Nat) (q : Sq) (e d : Cmd) (a : Admission),
      Admits s port sqid cid .read q e d a u →
      exec (.read port sqid cid) s = .next (if u.mode 0 then (u.startRead d.uid).mSt fun y => { y with reads := y.reads.map fun r => if r.src = .cmd d.uid ∧ r.st = 0 then { r with st := 1 } else r } else u.startRead d.uid))
  ∧ (∀ (s u : State) (port sqid cid : Nat) (q : Sq) (e d : Cmd) (a : Admission),
      Admits s port sqid cid .compare q e d a u →
      exec (.compare port sqid cid) s = .next (if u.mode 0 then (u.startRead d.uid).mSt fun y => { y with reads := y.reads.map fun r => if r.src = .cmd d.uid ∧ r.st = 0 then { r with st := 1 } else r } else u.startRead d.uid))
  ∧ (∀ (s u : State) (port sqid cid : Nat) (q : Sq) (e d : Cmd) (a : Admission),
      Admits s port sqid cid .verify q e d a u →
      exec (.verify port sqid cid) s = .next (if u.mode 0 then (u.startRead d.uid).mSt fun y => { y with reads := y.reads.map fun r => if r.src = .cmd d.uid ∧ r.st = 0 then { r with st := 1 } else r } else u.startRead d.uid))
  ∧ (∀ (s u : State) (port sqid cid : Nat) (q : Sq) (e d : Cmd) (a : Admission),
      Admits s port sqid cid .write q e d a u →
      exec (.write port sqid cid) s = .next ((u.askHostCrates d a ((u.ns d.nsid).iusOf d.slba d.nlb).length).startGranted))
  ∧ (∀ (s u : State) (port sqid cid : Nat) (q : Sq) (e d : Cmd) (a : Admission),
      Admits s port sqid cid .writeZeroes q e d a u →
      exec (.writeZeroes port sqid cid) s = .next (if (u.crateIus d).isEmpty then (u.mCmd d.uid fun y => { y with started := true }).zeroesStep d.uid else (u.askHostCrates d a (u.crateIus d).length).startGranted))
  ∧ (∀ (s u : State) (port sqid cid : Nat) (q : Sq) (e d : Cmd) (a : Admission),
      Admits s port sqid cid .flush q e d a u →
      exec (.flush port sqid cid) s = .next (((u.flushFirst (u.coverOf d)).mCmd d.uid fun y => { y with covers := u.coverOf d }).flushStep d.uid))
  ∧ (∀ (s u : State) (port sqid cid : Nat) (q : Sq) (e d : Cmd) (a : Admission),
      Admits s port sqid cid .writeUnc q e d a u →
      exec (.writeUncorrectable port sqid cid) s = .next ((((u.ns d.nsid).iusOf d.slba d.nlb).foldl (fun (t : State) k => t.markUnc d.nsid k) u).complete { d with stage := .accepted } 0 0))
  ∧ (∀ (s u : State) (port sqid cid : Nat) (q : Sq) (e d : Cmd) (a : Admission) (b : Cmd),
      Admits s port sqid cid .dsm q e d a u →
      u.cmdOf d.uid = some b →
      exec (.datasetManagement port sqid cid) s = .next (((if d.deallocates then ((d.ranges.take 256).filter fun r => decide (0 < r.2)).map fun r => (u.ns d.nsid).wholeIus r.1 r.2 else []).flatten.eraseDups.foldl (fun (t : State) k => t.deallocIu d.nsid k) u).complete b 0 0))
  ∧ (∀ (s : State) (port sqid cid : Nat) (e : Cmd),
      s.cmdOn port sqid cid = some e →
      s.cmdOf e.uid = some e →
      e.kind = .flush →
      e.stage = .accepted →
      ((e.covers.any fun y => s.coverOpen y) = false) →
      e.coverDefer = none →
      exec (.flushComplete port sqid cid) s = .next (s.complete e 0 0))

/-- Host reads, write data and early deadlines complete. A host read that ends extends the deadline of its command by what
passed 2 µs; one that fails or reaches its Completion Timeout withdraws the write and ends the command with Data
Transfer Error; the last beat of a sector enters its host crate and moves it from FETCH to RESIDENT; a command that
reaches its first deadline on the retry ladder ends with an unrecovered read error. -/
def Obligations.HostReadsAndDeadlinesComplete : Prop :=
  (∀ (s : State) (port tag n : Nat) (ok : Bool) (e : Cmd),
      s.armed = [] →
      s.readTag port tag = some n →
      s.cmdOf n = some e →
      exec (.hostReadCompletion port tag ok) s = .next (if ok then s.hostReadOver e else s.hostReadFailed e false))
  ∧ (∀ (s : State) (port tag n : Nat) (e : Cmd),
      s.readTag port tag = some n →
      s.cmdOf n = some e →
      exec (.completionTimeout port tag) s = .next (s.hostReadFailed e false))
  ∧ (∀ (s u v : State) (port sqid cid sector data : Nat) (e : Cmd),
      u = s.startGranted →
      u.cmdOn port sqid cid = some e →
      e.kind = .write →
      e.stage = .accepted →
      e.started = true →
      sector < e.sectors →
      e.arrived.contains sector = false →
      e.resident + 1 ≠ e.sectors →
      v = u.crateWrite (crateBase (e.crates.getD ((e.slba * (u.ns e.nsid).block + sector * 512) / (u.ns e.nsid).iuBytes - ((u.ns e.nsid).iuRange e.slba e.nlb).1) 0) + (e.slba * (u.ns e.nsid).block + sector * 512) % (u.ns e.nsid).iuBytes) (bytesOf data 512) →
      exec (.writeDataResidency port sqid cid sector data) s = .next ((((v.move 183 (-1)).send 184 1).mCmd e.uid fun y => { y with resident := y.resident + 1, arrived := y.arrived ++ [sector] }).writeStep e.uid))
  ∧ (∀ (s u v : State) (port sqid cid : Nat) (e : Cmd),
      s.cmdOn port sqid cid = some e →
      e.stage = .accepted →
      s.isDataFirst e = false →
      ((s.st.reads.filter fun r => decide (r.src = .cmd e.uid) && decide (0 < r.step)) ≠ []) →
      (u = ((s.st.reads.filter fun r => decide (r.src = .cmd e.uid) && decide (0 < r.step)).filter fun r => !r.injected).foldl (fun t r => t.addCand (aBlockKey r.addr) 1 true) s) →
      (v = (match e.pitch with | some p => u.pitchLog p fun l => { l with deadlineErrors := l.deadlineErrors + 1 } | none => u)) →
      exec (.deadlineFirstExpiry port sqid cid) s = .next ((v.dropReads e.uid).complete e 2 0x81))

/-- The admin commands of INTAKE and WATCH complete. Creating a queue that is free and well-formed adds it, a submission
queue with QB_CFG at its reset values; deleting a completion queue no submission queue uses removes it, and deleting
an empty submission queue removes it with its binding; Abort of a command it does not find counts a miss; an event
request becomes outstanding; the hardware log pages are returned; Mode Control asks for its change and reads the
modes; the pitch commands rent, return and bind. -/
def Obligations.HardwareAdminCommandsComplete : Prop :=
  (∀ (s : State) (port cid : Nat) (e : Cmd),
      HasAdmin s port cid 0x01 e →
      bits (e.cdw 11) 16 16 ≠ 0 →
      (s.cqOf e.port (bits (e.cdw 11) 16 16)).isSome = true →
      bits (e.cdw 10) 0 16 ≠ 0 →
      bits (e.cdw 10) 0 16 ≤ s.queueMax →
      s.sqOf e.port (bits (e.cdw 10) 0 16) = none →
      bits (e.cdw 10) 16 16 ≠ 0 →
      bit (e.cdw 11) 0 = true →
      exec (.createIoSq port cid) s = .next (((s.mHost fun h => { h with sqs := h.sqs ++ [{ port := e.port, id := bits (e.cdw 10) 0 16, size := bits (e.cdw 10) 16 16 + 1, cq := bits (e.cdw 11) 16 16, prio := bits (e.cdw 11) 1 2 }] }).bindQueue (qb e.port (bits (e.cdw 10) 0 16)) (0x0271 * 0x10000)).complete e 0 0))
  ∧ (∀ (s : State) (port cid : Nat) (e : Cmd),
      HasAdmin s port cid 0x05 e →
      bits (e.cdw 10) 0 16 ≠ 0 →
      bits (e.cdw 10) 0 16 ≤ s.queueMax →
      s.cqOf e.port (bits (e.cdw 10) 0 16) = none →
      bits (e.cdw 10) 16 16 ≠ 0 →
      bit (e.cdw 11) 0 = true →
      (bit (e.cdw 11) 1 = true → bits (e.cdw 11) 16 16 < s.queueMax) →
      exec (.createIoCq port cid) s = .next ((s.mHost fun h => { h with cqs := h.cqs ++ [{ port := e.port, id := bits (e.cdw 10) 0 16, size := bits (e.cdw 10) 16 16 + 1, vector := bits (e.cdw 11) 16 16 }] }).complete e 0 0))
  ∧ (∀ (s : State) (port cid : Nat) (e : Cmd),
      HasAdmin s port cid 0x04 e →
      bits (e.cdw 10) 0 16 ≠ 0 →
      (s.cqOf e.port (bits (e.cdw 10) 0 16)).isSome = true →
      ((s.host.sqs.any fun x => decide (x.port = e.port) && decide (x.cq = bits (e.cdw 10) 0 16)) = false) →
      exec (.deleteIoCq port cid) s = .next ((s.mHost fun h => { h with cqs := h.cqs.filter fun x => !(decide (x.port = e.port) && decide (x.id = bits (e.cdw 10) 0 16)) }).complete e 0 0))
  ∧ (∀ (s : State) (port cid : Nat) (e : Cmd),
      HasAdmin s port cid 0x00 e →
      bits (e.cdw 10) 0 16 ≠ 0 →
      (s.sqOf e.port (bits (e.cdw 10) 0 16)).isSome = true →
      ((s.host.cmds.any fun d => decide (d.port = e.port) && decide (d.sqid = bits (e.cdw 10) 0 16)) = false) →
      exec (.deleteIoSq port cid) s = .next (((s.wr R.INTAKE.QB_CFG_BOUND 0 0 (qb e.port (bits (e.cdw 10) 0 16))).mHost fun h => { h with sqs := h.sqs.filter fun x => !(decide (x.port = e.port) && decide (x.id = bits (e.cdw 10) 0 16)) }).complete e 0 0))
  ∧ (∀ (s : State) (port cid : Nat) (e : Cmd),
      HasAdmin s port cid 0x08 e →
      ((s.host.cmds.find? fun d => decide (d.port = e.port) && decide (d.sqid = bits (e.cdw 10) 0 16) && decide (d.cid = bits (e.cdw 10) 16 16) && decide (d.uid ≠ e.uid)) = none) →
      exec (.abort port cid) s = .next ((s.count R.INTAKE.ABORT_STAT_MISSED).complete e 0 0 false 1))
  ∧ (∀ (s : State) (port cid : Nat) (e : Cmd),
      HasAdmin s port cid 0x0C e →
      (s.port e.port).aers.length < 4 →
      ((s.host.events.find? fun y => decide (y / 2 ^ 32 = e.port)) = none) →
      ((((s.unstage e).mCmd e.uid fun d => { d with stage := .accepted, acceptedAt := s.mono }).mPort e.port fun p => { p with aers := p.aers ++ [e.cid] }).host.events = s.host.events) →
      exec (.asynchronousEventRequest port cid) s = .next (((s.unstage e).mCmd e.uid fun d => { d with stage := .accepted, acceptedAt := s.mono }).mPort e.port fun p => { p with aers := p.aers ++ [e.cid] }))
  ∧ (∀ (s : State) (port cid : Nat) (e : Cmd) (len n : Nat) (pg : Nat → Nat),
      HasAdmin s port cid 0x02 e →
      (bits (e.cdw 10) 0 8 = 0xC1 ∨ bits (e.cdw 10) 0 8 = 0xC2) →
      s.logPage (bits (e.cdw 10) 0 8) s.free = some (len, pg) →
      e.cdw 12 + e.cdw 13 * 2 ^ 32 ≤ len →
      e.cdw 12 % 4 = 0 →
      n = (bits (e.cdw 10) 16 16 + bits (e.cdw 11) 0 16 * 0x10000 + 1) * 4 →
      bit (e.cdw 10) 15 = true →
      exec (.getLogPage port cid) s = .next (s.fresh.2.reply e 0 0 false 0 [pageSlice pg (e.cdw 12 + e.cdw 13 * 2 ^ 32) (min n (len - (e.cdw 12 + e.cdw 13 * 2 ^ 32)))]))
  ∧ (∀ (s u : State) (port cid : Nat) (e : Cmd),
      HasAdmin s port cid 0x09 e →
      bits (e.cdw 10) 0 8 = 0xC0 →
      bit (e.cdw 10) 31 = false →
      Nat.land (Nat.lor (bits (e.cdw 11) 0 8) (bits (e.cdw 11) 8 8)) 0xEC = 0 →
      s.dst = 4 →
      (u = (s.unstage e).mCmd e.uid fun d => { d with stage := .accepted, acceptedAt := s.mono }) →
      exec (.modeControlSet port cid) s = .next (u.askMode .host (bits (e.cdw 11) 0 8) (bits (e.cdw 11) 8 8) e.uid))
  ∧ (∀ (s u : State) (port cid : Nat) (e : Cmd),
      HasAdmin s port cid 0x09 e →
      bits (e.cdw 10) 0 8 = 0xC0 →
      bit (e.cdw 10) 31 = false →
      Nat.land (Nat.lor (bits (e.cdw 11) 0 8) (bits (e.cdw 11) 8 8)) 0xEC = 0 →
      s.dst = 4 →
      (u = (s.unstage e).mCmd e.uid fun d => { d with stage := .accepted, acceptedAt := s.mono }) →
      exec (.setFeatures port cid) s = .next (u.askMode .host (bits (e.cdw 11) 0 8) (bits (e.cdw 11) 8 8) e.uid))
  ∧ (∀ (s : State) (port cid : Nat) (e : Cmd),
      HasAdmin s port cid 0x0A e →
      bits (e.cdw 10) 0 8 = 0xC0 →
      exec (.modeControlGet port cid) s = .next (s.complete e 0 0 false (s.rd R.DEVSTATE.MODE_CUR_MODES + s.roCauses * 0x100 + s.rd R.DEVSTATE.DEV_STATE_DIAG_BOOT * 0x800)))
  ∧ (∀ (s : State) (port cid : Nat) (e : Cmd),
      HasAdmin s port cid 0x0A e →
      bits (e.cdw 10) 0 8 = 0xC0 →
      exec (.getFeatures port cid) s = .next (s.complete e 0 0 false (s.rd R.DEVSTATE.MODE_CUR_MODES + s.roCauses * 0x100 + s.rd R.DEVSTATE.DEV_STATE_DIAG_BOOT * 0x800)))
  ∧ (∀ (s : State) (port cid : Nat) (e : Cmd),
      HasAdmin s port cid 0xC1 e →
      bit (e.cdw 10) 14 = false →
      bit (e.cdw 10) 15 = false →
      ((s.rentCheck (contractOf fun i => e.payload.getD i 0) (some (bits (e.cdw 10) 0 10)) true).1 = 0) →
      exec (.pitchRent port cid) s = .next ((s.rentAt (bits (e.cdw 10) 0 10) 0 (if s.split then e.port else 0) (contractOf fun i => e.payload.getD i 0)).complete e 0 0 false (bits (e.cdw 10) 0 10)))
  ∧ (∀ (s : State) (port cid : Nat) (e : Cmd),
      HasAdmin s port cid 0xC4 e →
      (s.pitch (bits (e.cdw 10) 0 10)).state ≠ 0 →
      (s.pitch (bits (e.cdw 10) 0 10)).owner = 0 →
      exec (.pitchReturn port cid) s = .next ((s.returnPitch (bits (e.cdw 10) 0 10)).complete e 0 0))
  ∧ (∀ (s : State) (port cid : Nat) (e : Cmd),
      HasAdmin s port cid 0xC8 e →
      bits (e.cdw 10) 0 16 ≠ 0 →
      (s.sqOf e.port (bits (e.cdw 10) 0 16)).isSome = true →
      bit (e.cdw 11) 10 = false →
      exec (.pitchBind port cid) s = .next ((s.bindQueue (qb e.port (bits (e.cdw 10) 0 16)) (e.cdw 11)).complete e 0 0))
  ∧ (∀ (s : State) (port cid : Nat) (e : Cmd),
      HasAdmin s port cid 0xC8 e →
      bits (e.cdw 10) 0 16 ≠ 0 →
      (s.sqOf e.port (bits (e.cdw 10) 0 16)).isSome = true →
      bit (e.cdw 11) 10 = true →
      (s.pitch (bits (e.cdw 11) 0 10)).state = 1 →
      (s.pitch (bits (e.cdw 11) 0 10)).owner = 0 →
      s.split = false →
      exec (.pitchBind port cid) s = .next ((s.bindQueue (qb e.port (bits (e.cdw 10) 0 16)) (e.cdw 11)).complete e 0 0))

/-- The admin commands of policy firmware complete. With CORE running in SERVICE, a command firmware executes (log entry
46: firmware's execution is the row's) ends as its rule says: log pages and Identify data are returned, features are
set and read, a namespace is created with the lowest free identifier, attached, or formatted, a sanitize starts once
its entry condition holds, its failure mode is left, an image piece is reported to the Gate, and a commit action is
passed to it. -/
def Obligations.FirmwareAdminCommandsComplete : Prop :=
  (∀ (s u : State) (port cid : Nat) (e d : Cmd) (len n : Nat) (pg : Nat → Nat),
      FirmRuns s port cid 0x02 e d u →
      u.logPage (bits (d.cdw 10) 0 8) u.free = some (len, pg) →
      d.cdw 12 + d.cdw 13 * 2 ^ 32 ≤ len →
      d.cdw 12 % 64 = 0 →
      n = (bits (d.cdw 10) 16 16 + bits (d.cdw 11) 0 16 * 0x10000 + 1) * 4 →
      bit (d.cdw 10) 15 = true →
      exec (.getLogPage port cid) s = .next (u.fresh.2.reply d 0 0 false 0 [pageSlice pg (d.cdw 12 + d.cdw 13 * 2 ^ 32) (min n (len - (d.cdw 12 + d.cdw 13 * 2 ^ 32)))]))
  ∧ (∀ (s u : State) (port cid : Nat) (e d : Cmd) (pg : Nat → Nat),
      FirmRuns s port cid 0x06 e d u →
      u.identifyData d.port d.nsid (bits (d.cdw 10) 0 8) u.free = some pg →
      exec (.identify port cid) s = .next (u.fresh.2.finish d 0 0 false 0 [pageSlice pg 0 4096]))
  ∧ (∀ (s u v : State) (port cid : Nat) (e d : Cmd),
      FirmRuns s port cid 0x09 e d u →
      bits (d.cdw 10) 0 8 = 0x02 →
      bit (d.cdw 10) 31 = false →
      bits (d.cdw 11) 0 5 ≤ 4 →
      (v = u.mPwr fun x => { x with sel := if u.split then x.sel.set 0 d.port (bits (d.cdw 11) 0 5) else [0, 1].foldl (fun (t : Tbl Nat) p => t.set 0 p (bits (d.cdw 11) 0 5)) x.sel, apstSel := false }) →
      exec (.powerManagementSet port cid) s = .next (((v.wr R.POWER.PS_CUR_SELECTED v.selected).followPower.retest).finish d 0 0))
  ∧ (∀ (s u : State) (port cid : Nat) (e d : Cmd),
      FirmRuns s port cid 0x09 e d u →
      bits (d.cdw 10) 0 8 = 0x0E →
      bit (d.cdw 10) 31 = false →
      exec (.timestampSet port cid) s = .next ((setWall u (.policy 0 false 2) ((d.payload.getD 0 0 + d.payload.getD 1 0 * 2 ^ 32) % 2 ^ 48)).finish d 0 0))
  ∧ (∀ (s u : State) (port cid : Nat) (e d : Cmd),
      FirmRuns s port cid 0x0A e d u →
      bits (d.cdw 10) 0 8 = 0x0E →
      exec (.timestampGet port cid) s = .next (u.finish d 0 0 false 0 [u.timestamp]))
  ∧ (∀ (s u : State) (port cid : Nat) (e d : Cmd) (id : Nat),
      FirmRuns s port cid 0x0D e d u →
      u.rd R.LEDGER.NS_CMD_BUSY = 0 →
      u.journalFull = false →
      bits (d.cdw 10) 0 4 = 0 →
      bits (d.payload.getD 6 0) 16 4 ≤ 1 →
      d.newNs.nsze ≠ 0 →
      (firstFrom (fun i => decide ((u.ns i).st = 0)) 256 1 = some id) →
      d.newNs.needs ≤ u.rd R.LEDGER.GRAN_FREE_COUNT →
      exec (.namespaceManagement port cid) s = .next ((((u.mNs id fun _ => d.newNs).nsRecord id).nsInit id).finish d 0 0 false id))
  ∧ (∀ (s u : State) (port cid : Nat) (e d : Cmd),
      FirmRuns s port cid 0x15 e d u →
      u.journalFull = false →
      (u.ns d.nsid).st = 2 →
      bits (d.cdw 10) 0 4 = 0 →
      d.ctrls = [d.port] →
      u.controllers.contains d.port = true →
      bit (u.ns d.nsid).attached d.port = false →
      exec (.namespaceAttachment port cid) s = .next (((u.mNs d.nsid fun n => { n with attached := setBit (u.ns d.nsid).attached d.port }).nsRecord d.nsid).finish d 0 0))
  ∧ (∀ (s u v : State) (port cid : Nat) (e d : Cmd),
      FirmRuns s port cid 0x80 e d u →
      (u.ns d.nsid).formatting = false →
      (u.ns d.nsid).st = 2 →
      (u.ns d.nsid).attached ≠ 0 →
      bits (d.cdw 10) 0 4 ≤ 1 →
      bits (d.cdw 10) 9 3 ≤ 2 →
      u.rd R.LEDGER.NS_CMD_BUSY = 0 →
      u.journalFull = false →
      (v = u.mNs d.nsid fun n => { n with formatting := true, newBlock := if bits (d.cdw 10) 0 4 = 1 then 512 else 4096, ses := bits (d.cdw 10) 9 3 }) →
      exec (.formatNvm port cid) s = .next ((v.dropDeferred d.nsid).nsDealloc d.nsid))
  ∧ (∀ (s u : State) (nsid : Nat) (e : Cmd),
      (s.ns nsid).formatting = true →
      s.led.nsCmd = none →
      s.nv.spareInit ≠ 0 →
      (u = (s.mNs nsid fun n => { n with formatting := false, block := n.newBlock, nsze := n.nsze * n.block / n.newBlock, ses := 0 }).nsRecord nsid) →
      u.nv.spareInit = s.nv.spareInit →
      ((u.host.cmds.find? fun y => decide (y.opcode = 0x80) && decide (y.kind = .admin) && decide (y.nsid = nsid) && decide (y.stage = .accepted)) = some e) →
      exec (.formatComplete nsid) s = .next (u.finish e 0 0))
  ∧ (∀ (s u : State) (port cid : Nat) (e d : Cmd),
      FirmRuns s port cid 0x84 e d u →
      bits (d.cdw 10) 0 3 = 2 →
      u.rd R.DEVSTATE.RO_CAUSE_OWNER = 0 →
      u.nv.sanitize ≠ 1 →
      u.nv.sanitize ≠ 2 →
      u.sanitizeReady = true →
      exec (.sanitizeBlockErase port cid) s = .next ((u.startSanitize 1).finish d 0 0))
  ∧ (∀ (s u : State) (port cid : Nat) (e d : Cmd),
      FirmRuns s port cid 0x84 e d u →
      bits (d.cdw 10) 0 3 = 4 →
      u.rd R.DEVSTATE.RO_CAUSE_OWNER = 0 →
      u.nv.sanitize ≠ 1 →
      u.nv.sanitize ≠ 2 →
      u.sanitizeReady = true →
      exec (.sanitizeCryptoErase port cid) s = .next ((u.startSanitize 2).finish d 0 0))
  ∧ (∀ (s u : State) (port cid : Nat) (e d : Cmd),
      FirmRuns s port cid 0x84 e d u →
      bits (d.cdw 10) 0 3 = 1 →
      u.nv.sanitize = 3 →
      exec (.sanitizeExitFailureMode port cid) s = .next (((u.mNv fun v => { v with sanitize := 0 }).hwMode 0 8 0x23).finish d 0 0))
  ∧ (∀ (s : State),
      (s.nv.sanitize = 1 ∨ s.nv.sanitize = 2) →
      s.mode 3 = true →
      s.sw.sanTodo = [] →
      ((s.diesOn.any fun k => (s.die k).erase.isSome || decide ((s.die k).runKind = 2)) = false) →
      exec (.sanitizeComplete false) s = .next ([0, 1].foldl (fun (t : State) p => t.sendEvent p (6 + 0x100 + 0x810000)) (s.mNv fun v => { v with sanitize := 3 })))
  ∧ (∀ (s u : State),
      (s.nv.sanitize = 1 ∨ s.nv.sanitize = 2) →
      s.mode 3 = true →
      s.sw.sanTodo = [] →
      ((s.diesOn.any fun k => (s.die k).erase.isSome || decide ((s.die k).runKind = 2)) = false) →
      (u = (s.nsAbove 0 fun n => decide (n.st = 2)).foldl (fun (t : State) n => (t.deallocAll n).dropDeferred n) s) →
      exec (.sanitizeComplete true) s = .next ([0, 1].foldl (fun (t : State) p => t.sendEvent p (6 + 0x100 + 0x810000)) (((u.mNv fun v => { v with sanitize := 0 }).hwMode 0 8 0x23).ownerCause)))
  ∧ (∀ (s u v : State) (port cid : Nat) (e d : Cmd),
      FirmRuns s port cid 0x11 e d u →
      d.cdw 11 ≠ 0 →
      v = (((u.wr R.GATE.PIECE_SRC 0).wr R.GATE.PIECE_OFF_DWORDS (d.cdw 11)).wr R.GATE.PIECE_LEN_DWORDS (d.cdw 10 + 1)).reportPiece 0 →
      v.rd R.GATE.PIECE_RES_CODE = 0 →
      exec (.firmwareImageDownload port cid) s = .next (v.finish d 0 0))
  ∧ (∀ (s u v : State) (port cid : Nat) (e d : Cmd),
      FirmRuns s port cid 0x10 e d u →
      u.begun d.uid = false →
      u.cf.commit = none →
      u.cf.recOpen = false →
      v = ((u.takeAdm d.uid).wr R.GATE.COMMIT_SRC 0).commitGo (.policy 0 false 2) (bits (d.cdw 10) 0 3) (bits (d.cdw 10) 3 3) →
      exec (.firmwareCommit port cid) s = .next (if v.cf.commit.isNone then commitStatus d v else v))

/-- The pitch commands of firmware, QB_CFG and the token update complete. PITCH_CMD rents the window under the pitch
selected where the checks pass, returns a firmware-owned pitch, loads a contract into the window, and tests the
window; PITCH_RESULT shows the outcome. QB_CFG takes its value for a queue that exists and is not bound to a host-
owned pitch. Each microsecond every rented pitch takes its tokens and the meters drop what is 10 µs old. -/
def Obligations.FirmwarePitchCommandsComplete : Prop :=
  (∀ (s u : State) (who : Initiator),
      Reaches s who R.INTAKE.PITCH_CMD_OP 0 u →
      u.rd R.INTAKE.PITCH_CMD_BUSY = 0 →
      (u.rentCheck u.window (some (u.rd R.INTAKE.PITCH_SEL_PITCH)) true).1 = 0 →
      exec (.pitchCmdRent who) s = .next ((u.rentAt (u.rd R.INTAKE.PITCH_SEL_PITCH) 1 0 u.window).pitchResult 0 0))
  ∧ (∀ (s u : State) (who : Initiator),
      Reaches s who R.INTAKE.PITCH_CMD_OP 0 u →
      u.rd R.INTAKE.PITCH_CMD_BUSY = 0 →
      (u.rentCheck u.window (some (u.rd R.INTAKE.PITCH_SEL_PITCH)) true).1 ≠ 0 →
      exec (.pitchCmdRent who) s = .next (u.pitchResult (u.rentCheck u.window (some (u.rd R.INTAKE.PITCH_SEL_PITCH)) true).1 (u.rentCheck u.window (some (u.rd R.INTAKE.PITCH_SEL_PITCH)) true).2))
  ∧ (∀ (s u : State) (who : Initiator),
      Reaches s who R.INTAKE.PITCH_CMD_OP 0 u →
      u.rd R.INTAKE.PITCH_CMD_BUSY = 0 →
      (u.pitch (u.rd R.INTAKE.PITCH_SEL_PITCH)).state ≠ 0 →
      (u.pitch (u.rd R.INTAKE.PITCH_SEL_PITCH)).owner = 1 →
      exec (.pitchCmdReturn who) s = .next ((u.returnPitch (u.rd R.INTAKE.PITCH_SEL_PITCH)).pitchResult 0 0))
  ∧ (∀ (s u : State) (who : Initiator) (k : Contract),
      Reaches s who R.INTAKE.PITCH_CMD_OP 0 u →
      u.rd R.INTAKE.PITCH_CMD_BUSY = 0 →
      k = (u.pitch (u.rd R.INTAKE.PITCH_SEL_PITCH)).c →
      exec (.pitchCmdLoad who) s = .next (((((((((((((u.wr R.INTAKE.PITCH_C0_CLASS k.cls).wr R.INTAKE.PITCH_C0_DIR k.dir).wr R.INTAKE.PITCH_C0_RECOVERY k.recovery).wr R.INTAKE.PITCH_C0_POWER_FLOOR k.powerFloor).wr
        R.INTAKE.PITCH_C0_ACT_PAUSE k.actPause).wr R.INTAKE.PITCH_C1_BYTE_RATE k.byteRate).wr R.INTAKE.PITCH_C2_OP_RATE k.opRate).wr R.INTAKE.PITCH_C3_MAX_SIZE k.maxSize).wr
        R.INTAKE.PITCH_C4_BURST_OPS k.burstOps).wr R.INTAKE.PITCH_C5_BURST_BYTES k.burstUnits).wr R.INTAKE.PITCH_C6_BOUND_US k.boundUs).wr R.INTAKE.PITCH_C7_AMP k.amp).pitchResult 0 0))
  ∧ (∀ (s u : State) (who : Initiator),
      Reaches s who R.INTAKE.PITCH_CMD_OP 0 u →
      u.rd R.INTAKE.PITCH_CMD_BUSY = 0 →
      exec (.pitchCmdTest who) s = .next (u.pitchResult (u.rentCheck u.window none false).1 (u.rentCheck u.window none false).2))
  ∧ (∀ (s u : State) (who : Initiator) (value port : Nat),
      Reaches s who R.INTAKE.QB_CFG_PITCH 0 u →
      (port = if u.split then u.rd R.INTAKE.QB_SEL_PORT else 0) →
      (u.sqOf port (u.rd R.INTAKE.QB_SEL_SQID)).isSome = true →
      u.rd R.INTAKE.QB_CFG_BOUND 0 (qb port (u.rd R.INTAKE.QB_SEL_SQID)) = 0 →
      (bit value 10 = true → (u.pitch (bits value 0 10)).state = 1 ∧ (u.pitch (bits value 0 10)).owner = 1) →
      exec (.qbCfgWrite who value) s = .next ((u.bindQueue (qb port (u.rd R.INTAKE.QB_SEL_SQID)) value).pitchResult 0 0))
  ∧ (∀ (s u v : State),
      (u = (((s.pit.table.filter fun e => decide (e.2.state = 1)).map Prod.fst).foldl (fun (t : State) n => t.refillPitch n) s)) →
      (v = u.mPit fun x => { x with meters := x.meters.filter fun m => decide (u.mono < m.at_ + 1000) }) →
      exec (.tokenRefill) s = .next (if v.rd R.POWER.PS_CUR_TRANSITION = 1 then v.followPower else v))

/-- Controller enable, resets, shutdown and the link complete. Enabling a controller whose link is up gives it its admin
queues, with CSTS.RDY at once in SERVICE and QUIESCE; clearing CC.EN, a function-level reset, a hot reset, PERST_N and
a link loss reset it, the last three with the link, received credits released and Max_Payload_Size back at its reset
value; the reset ends with its counts in a record; a shutdown is noted and completes with nothing outstanding; the
link trains with its credits advertised. -/
def Obligations.PortResetsComplete : Prop :=
  (∀ (s : State) (port ams : Nat),
      s.portIs port = true →
      (s.port port).linkUp = true →
      (s.port port).en = false →
      (s.port port).resetting = false →
      exec (.ccEnSet port ams) s = .next ((s.hostRequest.mPort port fun p => { p with en := true, ams := ams % 8, shn := 0, shst := 0, rdy := decide (s.dst = 4 ∨ s.dst = 5) }).adminQueues port))
  ∧ (∀ (s : State) (port : Nat),
      s.portIs port = true →
      (s.port port).en = true →
      exec (.ccEnClear port) s = .next (s.hostRequest.joinReset port))
  ∧ (∀ (s : State) (port : Nat) (q : Port),
      q = s.port port →
      q.resetting = true →
      exec (.controllerResetComplete port) s = .next ((s.mPort port fun p => { p with resetting := false, rdy := false, hostReads := [] }).record 1 0x084 [q.rstDiscarded % 2 ^ 31 + 2 ^ 31 * port, q.rstDropped, q.rstKept, q.rstWithdrawn]))
  ∧ (∀ (s : State) (port shn : Nat),
      s.portIs port = true →
      (s.port port).en = true →
      (shn = 1 ∨ shn = 2) →
      (s.port port).shst = 0 →
      exec (.shutdownNotification port shn) s = .next (s.hostRequest.mPort port fun p => { p with shn := shn, shst := 1 }))
  ∧ (∀ (s : State) (port : Nat),
      (s.port port).shst = 1 →
      ((s.host.cmds.any fun e => decide (e.port = port) && decide (e.stage = .accepted) && !(decide (e.kind = .admin) && decide (e.opcode = 0x0C))) = false) →
      s.seen 184 = 0 →
      exec (.shutdownComplete port) s = .next (s.mPort port fun p => { p with shst := 2 }))
  ∧ (∀ (s : State) (port : Nat),
      s.portIs port = true →
      s.dst ≠ 0 →
      (s.port port).perst = true →
      exec (.perstNAssert port) s = .next ((s.mPort port fun p => { p with perst := false }).resetPort port (if port = 0 then R.BOOT.PERST_CNT_PORT0 else R.BOOT.PERST_CNT_PORT1)))
  ∧ (∀ (s : State) (port : Nat),
      s.portIs port = true →
      s.dst ≠ 0 →
      exec (.perstNDeassert port) s = .next (s.mPort port fun p => { p with perst := true }))
  ∧ (∀ (s : State) (port : Nat),
      s.portIs port = true →
      (s.port port).linkUp = true →
      exec (.hotReset port) s = .next (if 6 ≤ (s.dropLink port).dst then s.dropLink port else ((s.dropLink port).count R.BOOT.PORT_RST_HOT).joinReset port))
  ∧ (∀ (s : State) (port : Nat),
      s.portIs port = true →
      (s.port port).linkUp = true →
      exec (.linkDown port) s = .next (if 6 ≤ (s.dropLink port).dst then s.dropLink port else ((s.dropLink port).count R.BOOT.PORT_RST_HOT).joinReset port))
  ∧ (∀ (s : State) (port : Nat),
      s.portIs port = true →
      (s.port port).linkUp = true →
      s.dst < 6 →
      exec (.flr port) s = .next ((s.count R.BOOT.PORT_RST_FLR).joinReset port))
  ∧ (∀ (s : State) (port width rate : Nat),
      s.portIs port = true →
      (s.port port).perst = true →
      s.domOn 1 = true →
      ((if s.split then [1, 2, 4, 8] else [1, 2, 4, 8, 16]).contains width = true) →
      linkRates.contains rate = true →
      rate ≤ 1280 / 2 ^ s.rd R.BOOT.STRAP_RATE →
      exec (.linkUp port width rate) s = .next (((s.mPort port fun p => { p with linkUp := true, width := width, rate := rate }).moveCredits port 128 96).retest))
  ∧ (∀ (s : State) (port mps : Nat),
      s.portIs port = true →
      (s.port port).linkUp = true →
      [128, 256, 512, 1024, 2048, 4096].contains mps = true →
      exec (.deviceControlWrite port mps) s = .next ((s.hostRequest.mPort port fun p => { p with mps := mps }).retest))

/-- Credit moves, second halves, rounds and the clear of the Tally complete. A credit received moves from ADV to OCC, one
released from OCC to PEND, one advertised from PEND to ADV, where the first term holds it; the receiving island takes
its half of a move out of TRANSIT; with the Tally IDLE a round only toggles the parity, and in any state it leaves no
event, the latched terms as the previous ones and the rotation one further; TALLY_CLR by management firmware with
DIAGNOSE set returns a Tally whose violations are all injected to BASELINE. -/
def Obligations.TallyMovesAndRounds : Prop :=
  (∀ (s : State) (counter n : Nat),
      counter < 32 →
      (n : Int) ≤ s.term (96 + counter) →
      exec (.creditReceive counter n) s = .next ((s.move (96 + counter) (-(n : Int))).move (64 + counter) n))
  ∧ (∀ (s : State) (counter n : Nat),
      counter < 32 →
      (n : Int) ≤ s.term (64 + counter) →
      exec (.creditRelease counter n) s = .next ((s.move (64 + counter) (-(n : Int))).move (128 + counter) n))
  ∧ (∀ (s : State) (counter n : Nat),
      counter < 32 →
      (n : Int) ≤ s.term (128 + counter) →
      exec (.creditAdvertise counter n) s = .next ((s.move (128 + counter) (-(n : Int))).move (96 + counter) n))
  ∧ (∀ (s : State) (index : Nat) (m : HalfMove),
      s.tal.moving[index]? = some m →
      exec (.halfMoveReceipt index) s = .next ((s.mTal fun x => { x with moving := x.moving.take index ++ x.moving.drop (index + 1) }).move m.term m.delta))
  ∧ (∀ (s : State),
      s.rd R.TALLY.TALLY_STATE_STATE = 0 →
      exec (.tallyRound) s = .next (s.mTal fun x => { x with parity := !x.parity }))
  ∧ (∀ (s : State),
      s.rd R.TALLY.TALLY_STATE_STATE ≠ 0 →
      ∃ t, exec (.tallyRound) s = .next t ∧ t.tal.events = [] ∧ t.tal.prev = (s.mTal fun x => { x with parity := !x.parity }).latched)
  ∧ (∀ (s : State) (who : Initiator),
      mayWrite R.TALLY.TALLY_CLR_CLEAR who = true →
      s.mode 5 = true →
      s.rd R.TALLY.TALLY_STATE_STATE = 3 →
      s.tal.realSeen = false →
      exec (.tallyClr who) s = .next ((s.set R.TALLY.TALLY_STATE_STATE 1).mTal fun x => { x with mayEnd := true }))

/-- Fills, prefetches and range operations of the line cache complete. A fill that was asked for leaves the list of wanted
lines and takes a way while the cache is on and holds no copy, or has its line rebuilt where its CRC fails; a
prefetched line goes to the tray, or is wasted; a range operation that finds the engine free and its range good clears
the results and starts; it ends with the ways walked, the tray emptied of what it dropped, and the engine free. -/
def Obligations.CacheFillsAndRangesComplete : Prop :=
  (∀ (s u : State) (line : Nat) (ok : Bool),
      s.armed = [] →
      s.lc.wanted.contains line = true →
      (u = s.mLc fun l => { l with wanted := l.wanted.filter fun t => decide (t ≠ line) }) →
      exec (.lcacheFill line ok) s = .next (if ok = false then u.lineBad line else if u.cacheOn ∧ (u.wayOf line).isNone then u.allocate line false else u))
  ∧ (∀ (s : State) (line : Nat),
      (s.lc.prefetching.take 16).contains line = true →
      exec (.prefetchArrival line false) s = .next ((s.mLc fun l => { l with prefetching := l.prefetching.erase line }).count R.LCACHE.PF_WASTED_COUNT))
  ∧ (∀ (s u : State) (line : Nat),
      (s.lc.prefetching.take 16).contains line = true →
      (u = s.mLc fun l => { l with prefetching := l.prefetching.erase line }) →
      u.writeThrough = false →
      u.wayOf line = none →
      u.lc.wanted.contains line = false →
      u.lc.tray.length < 256 →
      exec (.prefetchArrival line true) s = .next (u.mLc fun l => { l with tray := l.tray ++ [line] }))
  ∧ (∀ (s u : State) (who : Initiator) (force all : Bool),
      Reaches s who R.LCACHE.RANGE_CMD_OP 0 u →
      u.rd R.LCACHE.STAT_BUSY = 0 →
      (all = true ∨ u.badRange = false) →
      exec (.rangeClean who force all) s = .next (((((((u.wr R.LCACHE.RANGE_RES_BAD_RANGE 0).wr R.LCACHE.RANGE_RES_LINES 0).wr R.LCACHE.RANGE_SKIP_LOCKED 0).wr R.LCACHE.RANGE_SKIP2_DIRTY 0).wr R.LCACHE.RANGE_WB_LINES 0).startOp { op := 1, lines := [], force := force, all := all, ways := 0 })))
  ∧ (∀ (s u : State) (who : Initiator) (force all : Bool),
      Reaches s who R.LCACHE.RANGE_CMD_OP 0 u →
      u.rd R.LCACHE.STAT_BUSY = 0 →
      (all = true ∨ u.badRange = false) →
      exec (.rangeInvalidate who force all) s = .next (((((((u.wr R.LCACHE.RANGE_RES_BAD_RANGE 0).wr R.LCACHE.RANGE_RES_LINES 0).wr R.LCACHE.RANGE_SKIP_LOCKED 0).wr R.LCACHE.RANGE_SKIP2_DIRTY 0).wr R.LCACHE.RANGE_WB_LINES 0).startOp { op := 2, lines := [], force := force, all := all, ways := 0 })))
  ∧ (∀ (s u : State) (who : Initiator) (force all : Bool),
      Reaches s who R.LCACHE.RANGE_CMD_OP 0 u →
      u.rd R.LCACHE.STAT_BUSY = 0 →
      (all = true ∨ u.badRange = false) →
      exec (.rangeCleanInvalidate who force all) s = .next (((((((u.wr R.LCACHE.RANGE_RES_BAD_RANGE 0).wr R.LCACHE.RANGE_RES_LINES 0).wr R.LCACHE.RANGE_SKIP_LOCKED 0).wr R.LCACHE.RANGE_SKIP2_DIRTY 0).wr R.LCACHE.RANGE_WB_LINES 0).startOp { op := 3, lines := [], force := force, all := all, ways := 0 })))
  ∧ (∀ (s u v : State) (who : Initiator) (all : Bool),
      Reaches s who R.LCACHE.RANGE_CMD_OP 0 u →
      u.rd R.LCACHE.STAT_BUSY = 0 →
      (all = true ∨ u.badRange = false) →
      v = ((((((u.wr R.LCACHE.RANGE_RES_BAD_RANGE 0).wr R.LCACHE.RANGE_RES_LINES 0).wr R.LCACHE.RANGE_SKIP_LOCKED 0).wr R.LCACHE.RANGE_SKIP2_DIRTY 0).wr R.LCACHE.RANGE_WB_LINES 0).startOp { op := 4, lines := [], force := false, all := all, ways := 0 }) →
      exec (.rangePrefetch who all) s = .next (((v.prefetchLines all).foldl (fun (t : State) a => t.prefetch a) v).wr R.LCACHE.RANGE_RES_LINES (v.prefetchLines all).length))
  ∧ (∀ (s u v : State) (o : RangeOp),
      s.lc.op = some o →
      1 ≤ o.op →
      o.op ≤ 3 →
      u = (s.lc.ways.map Prod.fst).foldl (walkLine o) s →
      (v = u.mLc fun l => { l with tray := l.tray.filter fun t => !(if o.op = 1 then [] else u.lc.tray.filter fun t => u.inRange o.all t).contains t }) →
      exec (.rangeOpComplete) s = .next ((v.wr R.LCACHE.RANGE_RES_LINES (v.rd R.LCACHE.RANGE_RES_LINES + (if o.op = 1 then [] else u.lc.tray.filter fun t => u.inRange o.all t).length)).nextOp))

/-- Locks, the ways and the enable of the line cache complete. A lock configuration that is valid is applied and a lock
sync starts, which ends with its lines loaded; writing ENABLE 0 starts clean-then-disable once the engine is free,
which ends with the cache empty and off; writing ENABLE 1 cancels a disable or enables the cache empty; a way powers
off through a drain and on again. -/
def Obligations.CacheLocksAndWaysComplete : Prop :=
  (∀ (s u v : State) (who : Initiator),
      Reaches s who R.LCACHE.LOCK_CMD_APPLY 0 u →
      u.rd R.LCACHE.STAT_BUSY = 0 →
      u.lockFail = none →
      v = (u.set R.LCACHE.LOCK_RESULT_CODE 0).wr R.LCACHE.LOCK_APPLIED_WAYS ((u.set R.LCACHE.LOCK_RESULT_CODE 0).rd R.LCACHE.LOCK_CFG_WAYS) →
      exec (.lockApply who) s = .next ((v.mLc fun l => { l with regions := (List.range 16).map fun i => v.stagedRegion i }).startSync))
  ∧ (∀ (s u : State) (o : RangeOp) (l : List Nat),
      s.lc.op = some o →
      o.op = 5 →
      u = (s.lc.ways.map Prod.fst).foldl syncOut s →
      (l = (u.lc.regions.map fun r => match r with | some r => u.regionLines r | none => []).flatten) →
      u.cacheOn = true →
      exec (.lockSyncComplete) s = .next (((l.foldl syncLine (u, 0)).1.wr R.LCACHE.LOCK_OVERFLOW_LINES (l.foldl syncLine (u, 0)).2).nextOp))
  ∧ (∀ (s u : State) (o : RangeOp),
      s.lc.op = some o →
      o.op = 5 →
      u = (s.lc.ways.map Prod.fst).foldl syncOut s →
      u.cacheOn = false →
      exec (.lockSyncComplete) s = .next ((u.wr R.LCACHE.LOCK_OVERFLOW_LINES 0).nextOp))
  ∧ (∀ (s u v : State) (who : Initiator),
      Reaches s who R.LCACHE.CTRL_ENABLE 0 u →
      u.rd R.LCACHE.CTRL_ENABLE = 1 →
      (u.wr R.LCACHE.CTRL_ENABLE 0).cacheOn = true →
      (v = ((u.wr R.LCACHE.CTRL_ENABLE 0).wr R.LCACHE.STAT_DISABLE_PENDING 1).mLc fun l => { l with disableNext := true }) →
      exec (.cacheDisable who) s = .next (if v.lc.op.isNone then v.nextOp else v))
  ∧ (∀ (s u : State) (o : RangeOp),
      s.lc.op = some o →
      o.op = 7 →
      (u = (s.lc.ways.foldl (fun t e => match e.2 with | some c => t.writeBack c | none => t) s).mLc fun l => { l with ways := [], tray := [], prefetching := [], wanted := [] }) →
      exec (.cacheDisableComplete) s = .next (((u.wr R.LCACHE.STAT_ENABLED 0).wr R.LCACHE.STAT_DISABLE_PENDING 0).nextOp))
  ∧ (∀ (s u v : State) (who : Initiator),
      Reaches s who R.LCACHE.CTRL_ENABLE 0 u →
      v = u.wr R.LCACHE.CTRL_ENABLE 1 →
      v.rd R.LCACHE.STAT_DISABLE_PENDING = 0 →
      exec (.cacheEnable who) s = .next (if v.cacheOn then v else v.cacheEnableEmpty))
  ∧ (∀ (s u v : State) (who : Initiator) (way : Nat),
      Reaches s who R.LCACHE.WAY_PWR_OFF 0 u →
      way < 16 →
      bit (u.rd R.LCACHE.WAY_PWR_OFF) way = false →
      u.wayLocked way = false →
      u.rd R.LCACHE.CTRL_ENABLE = 0 →
      (v = ((u.wr R.LCACHE.WAY_PWR_OFF (setBit (u.rd R.LCACHE.WAY_PWR_OFF) way)).wr R.LCACHE.WAY_PWR_STAT_DRAINING (setBit ((u.wr R.LCACHE.WAY_PWR_OFF (setBit (u.rd R.LCACHE.WAY_PWR_OFF) way)).rd R.LCACHE.WAY_PWR_STAT_DRAINING) way)).mLc fun l => { l with drainNext := setBit l.drainNext way }) →
      exec (.wayPowerOff who way) s = .next (if v.lc.op.isNone then v.nextOp else v))
  ∧ (∀ (s u : State) (way : Nat) (o : RangeOp),
      s.lc.op = some o →
      o.op = 6 →
      bit o.ways way = true →
      (u = (s.lc.ways.map Prod.fst).foldl (fun t k => if k % 16 = way then t.evict (k / 16) way else t) s) →
      exec (.wayDrainComplete way) s = .next (((u.wr R.LCACHE.WAY_PWR_STAT_ON (clrBit (u.rd R.LCACHE.WAY_PWR_STAT_ON) way)).wr R.LCACHE.WAY_PWR_STAT_DRAINING (clrBit (u.rd R.LCACHE.WAY_PWR_STAT_DRAINING) way)).nextOp))
  ∧ (∀ (s u : State) (who : Initiator) (way : Nat),
      Reaches s who R.LCACHE.WAY_PWR_OFF 0 u →
      way < 16 →
      bit (u.rd R.LCACHE.WAY_PWR_OFF) way = true →
      u.lc.op = none →
      exec (.wayPowerOn who way) s = .next ((((u.wr R.LCACHE.WAY_PWR_OFF (clrBit (u.rd R.LCACHE.WAY_PWR_OFF) way)).wr R.LCACHE.WAY_PWR_STAT_ON (setBit (u.rd R.LCACHE.WAY_PWR_STAT_ON) way)).wr R.LCACHE.WAY_PWR_STAT_DRAINING (clrBit (u.rd R.LCACHE.WAY_PWR_STAT_DRAINING) way)).mLc fun l => { l with drainNext := clrBit l.drainNext way }))

/-- Crate-index rebalance and probe, namespace commands and refused DRAM writes complete. A full group of the crate index
takes a free row from the nearest group that has two; a probe shows the row found, or that none is; a namespace
command that finds NS_CMD idle starts INIT with granules taken, RELEASE with its lock regions gone, or DEALLOC_ALL
with its lock requested, and each ends with code 0; a write of FIRMWARE beyond its window is counted, recorded and
counted under limit 10. -/
def Obligations.LedgerCommandsComplete : Prop :=
  (∀ (s : State) (group d : Nat) (up_ : Bool),
      group < 1024 →
      s.groupFree group = 0 →
      s.nearGroup group = some (d, up_) →
      exec (.cixRebalance group) s = .next ((shiftGroups up_ d group s).count R.LEDGER.CIX_REBAL_COUNT))
  ∧ (∀ (s u : State) (who : Initiator) (r : CixRow),
      Reaches s who R.LEDGER.CIX_PROBE_CMD_GO 0 u →
      u.cixRow (u.rd R.LEDGER.CIX_PROBE_NS_NSID) (u.rd64 R.LEDGER.CIX_PROBE_IU_LO_VALUE R.LEDGER.CIX_PROBE_IU_HI_VALUE) = some r →
      exec (.cixProbeGo who) s = .next ((((u.wr R.LEDGER.CIX_PROBE_RES_HIT 1).wr R.LEDGER.CIX_PROBE_RES_ROW r.row).wr R.LEDGER.CIX_PROBE_RES_STATE r.st).wr R.LEDGER.CIX_PROBE_RES_UNITS r.units))
  ∧ (∀ (s u : State) (who : Initiator),
      Reaches s who R.LEDGER.CIX_PROBE_CMD_GO 0 u →
      u.cixRow (u.rd R.LEDGER.CIX_PROBE_NS_NSID) (u.rd64 R.LEDGER.CIX_PROBE_IU_LO_VALUE R.LEDGER.CIX_PROBE_IU_HI_VALUE) = none →
      exec (.cixProbeGo who) s = .next ((((u.wr R.LEDGER.CIX_PROBE_RES_HIT 0).wr R.LEDGER.CIX_PROBE_RES_ROW 0).wr R.LEDGER.CIX_PROBE_RES_STATE 0).wr R.LEDGER.CIX_PROBE_RES_UNITS 0))
  ∧ (∀ (s : State) (who : Initiator) (addr : Nat),
      2 ^ 32 ≤ addr →
      exec (.dramWriteRefused who addr) s = .next (((s.count R.LEDGER.DRAM_REFUSED_COUNT).record 6 0x100 [initIsland who, addr, addr / 2 ^ 32 % 256, 0]).refuse 10 (initCode who) (initHart who) addr))
  ∧ (∀ (s u : State) (who : Initiator) (n : Nat),
      Reaches s who R.LEDGER.NS_CMD_OP 0 u →
      u.rd R.LEDGER.NS_CMD_BUSY = 0 →
      n = u.rd R.LEDGER.NS_SEL_NSID →
      (u.ns n).st = 1 →
      (u.ns n).attached = 0 →
      (u.ns n).needs ≤ u.rd R.LEDGER.GRAN_FREE_COUNT →
      exec (.nsCmdInit who) s = .next (((u.mNs n fun y => { y with grans := u.takeGrans (u.ns n).needs }).granFree).nsStart 1 n))
  ∧ (∀ (s u : State) (who : Initiator) (n : Nat),
      Reaches s who R.LEDGER.NS_CMD_OP 0 u →
      u.rd R.LEDGER.NS_CMD_BUSY = 0 →
      n = u.rd R.LEDGER.NS_SEL_NSID →
      (u.ns n).st = 2 →
      (u.ns n).attached = 0 →
      u.lc.regions = [] →
      ((List.range 16).all (fun i => decide (u.rd R.LCACHE.LOCK_RGN_NS_NSID 0 i ≠ n)) = true) →
      exec (.nsCmdRelease who) s = .next (((u.mLc fun l => { l with regions := [] }).mNs n fun y => { y with st := 3 }).nsStart 2 n))
  ∧ (∀ (s u : State) (who : Initiator) (n : Nat),
      Reaches s who R.LEDGER.NS_CMD_OP 0 u →
      u.rd R.LEDGER.NS_CMD_BUSY = 0 →
      n = u.rd R.LEDGER.NS_SEL_NSID →
      (u.ns n).st = 2 →
      exec (.nsCmdDeallocAll who) s = .next ((u.requestRow { row := 0, uid := internalUid n, nsid := n, first := 0, last := (u.ns n).ius - 1, excl := true, held := false }).nsStart 3 n))
  ∧ (∀ (s : State) (n : Nat),
      s.led.nsCmd = some (1, n) →
      exec (.nsCmdComplete) s = .next ((s.mNs n fun y => { y with st := 2 }).nsEnd 0))
  ∧ (∀ (s u : State) (n : Nat),
      s.led.nsCmd = some (3, n) →
      s.lockHeld (internalUid n) = true →
      u = ((s.deallocAll n).releaseRows (internalUid n)).nsEnd 0 →
      exec (.nsCmdComplete) s = .next (if (u.ns n).deleting then u.nsRelease n else u))

/-- Rows taken, waits passed, and the crate yard complete. The row at the head of a take queue, pending and with no fill
outstanding, is taken with a reference on its crate, and its IU joins what its group builds; PAD_WAIT places what the
kinds of a group hold; STRIPE_WAIT closes its stripe short; a grant delivers its crates or waits; a free and a
reference release free a crate nothing holds; a lend clears the crate lent and shows its handle; a return frees it;
WIN_DATA moves 4 bytes of a crate lent and advances the window. -/
def Obligations.WritePathAndYardComplete : Prop :=
  (∀ (s u v : State) (group row : Nat) (rest : List Nat) (r : CixRow),
      s.led.takeq.get [] group = row :: rest →
      s.cixAt row = some r →
      r.st = 0 →
      s.dst < 6 →
      ((s.por.fills.any fun f => decide (f.1 = r.crate)) = false) →
      (u = ((s.untake row).mRow row fun r => { r with st := 1 }).takeRef r.crate) →
      (u.crate r.crate).poison = false →
      u.cr.eccBad.get false r.crate = false →
      v = (u.takeIu r).build 0 ((u.takeIu r).group r.nsid) false →
      exec (.rowTake group) s = .next (if v.oldHeld (v.group r.nsid) then v.build 0 (v.group r.nsid) true else v))
  ∧ (∀ (s : State) (group : Nat),
      exec (.padWaitExpiry group) s = .next (((s.build 0 (group % 4) true).build 1 (group % 4) true).build 2 (group % 4) true))
  ∧ (∀ (s : State) (serial : Nat) (q : Stripe),
      ((s.wp.stripes.find? fun q => decide (q.serial = serial)) = some q) →
      q.parityIssued = false →
      q.filled ≠ [] →
      s.freePlaces q ≠ [] →
      exec (.stripeWaitExpiry serial) s = .next (tidy 3 ((s.mStripe q.serial fun y => { y with released := y.released ++ s.freePlaces q }).count R.WPATH.SHORT_STRIPE_COUNT)))
  ∧ (∀ (s : State) (cls count pool kind owner otag who : Nat) (l : List Nat),
      1 ≤ cls →
      cls ≤ 5 →
      pool ≤ 3 →
      count ≠ 0 →
      (s.askCrates { cls := cls, count := count, pool := pool, kind := kind % 4, owner := owner % 8, otag := otag, who := who }).1 = some l →
      exec (.crateGrantRequest cls count pool kind owner otag who) s = .next ((s.askCrates { cls := cls, count := count, pool := pool, kind := kind % 4, owner := owner % 8, otag := otag, who := who }).2.deliver { cls := cls, count := count, pool := pool, kind := kind % 4, owner := owner % 8, otag := otag, who := who } l))
  ∧ (∀ (s : State) (handle owner n : Nat),
      s.crateCheck handle 0 (owner % 8) (owner / 8) = .inr n →
      exec (.crateFree handle owner) s = .next (if (s.crate n).refs = 0 then s.freeCrate n else s.mCrate n fun d => { d with rel := true }))
  ∧ (∀ (s u : State) (handle owner n : Nat),
      s.crateCheck handle 1 (owner % 8) (owner / 8) = .inr n →
      (u = s.mCrate n fun d => { d with refs := d.refs - 1 }) →
      exec (.crateReferenceRelease handle owner) s = .next (if (u.crate n).refs = 0 ∧ (u.crate n).rel = true then u.freeCrate n else u))
  ∧ (∀ (s u v : State) (who : Initiator) (pool n : Nat) (l : List Nat),
      Reaches s who R.CRATEYD.LEND_GO 0 u →
      u.rd R.CRATEYD.LEND_BUSY = 0 →
      u.reclaiming = false →
      u.lentCount (pool % 4) < u.rd R.CRATEYD.LEND_MAX_CRATES 0 (pool % 4) →
      (u.askCrates { cls := 6, count := 1, pool := pool % 4, kind := 3, owner := 5, otag := 0, who := 0 }).1 = some (n :: l) →
      (v = (u.askCrates { cls := 6, count := 1, pool := pool % 4, kind := 3, owner := 5, otag := 0, who := 0 }).2.mCr fun c => { c with mem := zeroBytes c.mem (crateBase n) (poolSize (pool % 4)) }) →
      exec (.lendGo who pool) s = .next ((v.wr R.CRATEYD.LEND_RES_HANDLE (v.handle n)).set R.CRATEYD.LEND_RES2_CODE 0))
  ∧ (∀ (s u : State) (who : Initiator) (handle n : Nat),
      Reaches s who R.CRATEYD.RETURN_HANDLE 0 u →
      u.armed = [] →
      u.crateCheck handle 2 5 0 = .inr n →
      exec (.returnHandle who handle) s = .next ((u.ownerFree n).set R.CRATEYD.RETURN_RES_CODE 0))
  ∧ (∀ (s u : State) (who : Initiator) (value n : Nat),
      Reaches s who R.CRATEYD.WIN_DATA_DATA 0 u →
      u.armed = [] →
      u.winCrate = some n →
      exec (.winDataAccess who true value) s = .next ((u.crateWrite (crateBase n + u.rd R.CRATEYD.WIN_OFF_OFFSET) (bytesOf (value % 2 ^ 32) 4)).wr R.CRATEYD.WIN_OFF_OFFSET (u.rd R.CRATEYD.WIN_OFF_OFFSET + 4)))
  ∧ (∀ (s u : State) (who : Initiator) (value n y : Nat),
      Reaches s who R.CRATEYD.WIN_DATA_DATA 0 u →
      u.armed = [] →
      u.winCrate = some n →
      y = ofBytes (bytesAt u.cr.mem (crateBase n + u.rd R.CRATEYD.WIN_OFF_OFFSET) 4) →
      exec (.winDataAccess who false value) s = .next ((((u.wr R.CRATEYD.WIN_DATA_DATA y).wr R.CRATEYD.WIN_RES_POISON (b2n ((u.crate n).poison || u.cr.eccBad.get false n))).answer [y]).wr R.CRATEYD.WIN_OFF_OFFSET (u.rd R.CRATEYD.WIN_OFF_OFFSET + 4)))

/-- Senses, bursts, status, suspends and erases of a die complete. An idle die senses the read it serves next, with every
other read of the same page and step; a channel sends the read it picks, or the load; good status ends a program or an
erase; a program or erase that has run its least time is suspended for a waiting read, and a load is abandoned for
one; a pending erase starts on an idle die nothing waits for, and closes the die to new slots when it is pending too
long. -/
def Obligations.StallOperationsComplete : Prop :=
  (∀ (s u v w : State) (ch die : Nat) (r : MRead),
      s.dieOn ch die = true →
      u = s.grantSlots (ch * 16 + die) →
      u.dieOn ch die = true →
      (u.die (ch * 16 + die)).state = 1 →
      (u.die (ch * 16 + die)).senses < 4 →
      pickSense (u.die (ch * 16 + die)) (u.waitingAt (ch * 16 + die)) = some r →
      (v = ((u.mSt fun t => { t with reads := t.reads.map fun x => (if (decide (x.st = 1) && decide (x.src = r.src) && decide (aBlockKey x.addr = aBlockKey r.addr) && decide (bits x.addr 2 11 = bits r.addr 2 11) && decide (x.step = r.step)) then { x with st := 2 } else x) }).passSense (ch * 16 + die) r.cls)) →
      (w = (v.mDie (ch * 16 + die) fun d => { d with back := 1, state := 2, senses := d.senses + 1, lastUrgent := decide (r.cls = 0), lastAged := if r.cls = 0 then d.lastAged else decide (r.cls = 2) && decide (4 ≤ r.passed) }).count R.STALL.SENSES_COUNT ch) →
      (v.die (ch * 16 + die)).state = 1 →
      exec (.senseStart ch die) s = .next (if r.step = 0 then w else w.count R.STALL.RETRY_STEPS ch))
  ∧ (∀ (s : State) (ch : Nat) (r : MRead) (aged : Bool),
      s.armed = [] →
      s.rd R.STALL.CH_STATE_STATE ch = 2 →
      s.pickBurst ch = some (.inl r, aged) →
      exec (.channelBurst ch) s = .next ((s.sendRead ch r).mSt fun t => { t with lastAged := t.lastAged.set false ch aged }))
  ∧ (∀ (s : State) (ch k : Nat) (n : ProgUnit) (aged : Bool),
      s.rd R.STALL.CH_STATE_STATE ch = 2 →
      s.pickBurst ch = some (.inr k, aged) →
      s.loadAt k = some n →
      exec (.channelBurst ch) s = .next ((s.sendLoad k n).mSt fun t => { t with lastAged := t.lastAged.set false ch aged }))
  ∧ (∀ (s : State) (ch die status : Nat),
      s.dieOn ch die = true →
      status ≠ 0 →
      s.armed = [] →
      exec (.statusPoll ch die status) s = .next (s.pollReal ch die status))
  ∧ (∀ (s u : State) (ch die : Nat),
      s.dieOn ch die = true →
      s.armed = [] →
      (s.die (ch * 16 + die)).state = 4 →
      (u = s.mDie (ch * 16 + die) fun d => { d with oddStatus := 0 }) →
      (u.die (ch * 16 + die)).state = 4 →
      exec (.statusPoll ch die 1) s = .next ((u.mDie (ch * 16 + die) fun d => { d with opTimeouts := 0 }).programOver (ch * 16 + die) true true))
  ∧ (∀ (s u : State) (ch die : Nat),
      u = s.grantSlots (ch * 16 + die) →
      (u.die (ch * 16 + die)).state = 4 →
      (u.die (ch * 16 + die)).susp < 6 →
      (u.die (ch * 16 + die)).noSusp = false →
      u.waitingAt (ch * 16 + die) ≠ [] →
      (u.die (ch * 16 + die)).runFrom + 6000 ≤ u.mono →
      exec (.programSuspend ch die) s = .next (u.mDie (ch * 16 + die) fun d => { d with state := 5 }))
  ∧ (∀ (s u : State) (ch die : Nat),
      u = s.grantSlots (ch * 16 + die) →
      (u.die (ch * 16 + die)).state = 7 →
      (u.die (ch * 16 + die)).susp < 6 →
      (u.die (ch * 16 + die)).noSusp = false →
      u.waitingAt (ch * 16 + die) ≠ [] →
      (u.die (ch * 16 + die)).runFrom + 30000 ≤ u.mono →
      exec (.eraseSuspend ch die) s = .next (u.mDie (ch * 16 + die) fun d => { d with state := 8 }))
  ∧ (∀ (s u v : State) (ch die : Nat),
      u = s.grantSlots (ch * 16 + die) →
      (u.die (ch * 16 + die)).state = 3 →
      (u.die (ch * 16 + die)).susp < 6 →
      u.waitingAt (ch * 16 + die) ≠ [] →
      (u.die (ch * 16 + die)).runFrom + 6000 ≤ u.mono →
      (v = ((u.mDie (ch * 16 + die) fun d => { d with loaded := 0, susp := d.susp + 1, senses := 0 }).resetLun (ch * 16 + die) 6).count R.STALL.SUSP_CNT_PROG ch) →
      exec (.loadAbandon ch die) s = .next (if (v.die (ch * 16 + die)).susp = 6 then v.count R.STALL.SUSP_CNT2_SIXTH ch else v))
  ∧ (∀ (s u : State) (ch die b t : Nat),
      u = s.sanNext (ch * 16 + die) →
      (u.die (ch * 16 + die)).erase = some (b, t) →
      u.dieOn ch die = true →
      (u.die (ch * 16 + die)).state = 1 →
      u.waitingAt (ch * 16 + die) = [] →
      u.queued ch die = 0 →
      u.eraseHeld ((ch * 16 + die) * 8192 + b) = false →
      exec (.eraseStart ch die) s = .next ((u.mDie (ch * 16 + die) fun d => { d with state := 7, runKind := 2, running := (ch * 16 + die) * 8192 + b, runFrom := u.mono, susp := 0, senses := 0, noSusp := false, erase := none }).journal 6 [ch, die, b, 1, 0]))
  ∧ (∀ (s : State) (ch die : Nat),
      (s.die (ch * 16 + die)).erase.isSome = true →
      exec (.erasePendingClose ch die) s = .next (s.mDie (ch * 16 + die) fun d => { d with closed := true }))

/-- Timeouts, interval checks and the loss of a rail at a stall complete. A timeout of a program or an erase counts,
records the anomaly, ends the operation as failed and resets the die, which three in a row lose; a suspend that is not
acknowledged lets the operation run to its end; a reset that times out loses the die or its target; the second feature
timeout in a row loses the die; a ZQ calibration or an identity that is good ends its run of failures; the supply of a
stall group out of range loses the group. -/
def Obligations.StallTimeoutsAndChecksComplete : Prop :=
  (∀ (s u v : State) (ch die : Nat) (l : List MRead),
      (s.die (ch * 16 + die)).state = 2 →
      (l = s.st.reads.filter fun r => decide (aDieKey r.addr = ch * 16 + die) && (decide (r.st = 2) || decide (r.st = 3))) →
      l ≠ [] →
      u = s.count R.STALL.TMO_CNT_READ ch →
      (v = if l.any fun r => decide (r.st = 3) then (u.anomaly ch die 4 0x06 0 0).mSt fun t => { t with noDqs := t.noDqs.set [] ch (t.noDqs.get [] ch ++ [die]) } else u.anomaly ch die 5 0x78 0 0) →
      exec (.readTimeout ch die) s = .next (if 16 ≤ (v.st.noDqs.get [] ch).length ∧ 2 ≤ (v.st.noDqs.get [] ch).eraseDups.length then v.loseChannel ch 2 else if l.any fun r => decide (1 ≤ r.timeouts) then v.loseDies ch [die] 2 else (v.repeatSense (ch * 16 + die)).resetLun (ch * 16 + die) (s.die (ch * 16 + die)).back))
  ∧ (∀ (s : State) (ch die : Nat),
      (s.die (ch * 16 + die)).state = 4 →
      exec (.programTimeout ch die) s = .next (((((s.count R.STALL.TMO_CNT_PROG ch).anomaly ch die 5 0x10 0 0).programOver (ch * 16 + die) false true).resetLun (ch * 16 + die) 1).opTimeout ch die))
  ∧ (∀ (s : State) (ch die : Nat),
      (s.die (ch * 16 + die)).state = 7 →
      exec (.eraseTimeout ch die) s = .next (((((s.count R.STALL.TMO_CNT_ERASE ch).anomaly ch die 5 0xD0 0 0).eraseOver (ch * 16 + die) 3).resetLun (ch * 16 + die) 1).opTimeout ch die))
  ∧ (∀ (s : State) (ch die : Nat),
      ((s.die (ch * 16 + die)).state = 5 ∨ (s.die (ch * 16 + die)).state = 8) →
      exec (.suspendTimeout ch die) s = .next (((s.count R.STALL.SUSP_CNT2_NOSUSP ch).count R.STALL.TMO_CNT_OTHER ch).mDie (ch * 16 + die) fun d => { d with state := if d.state = 5 then 4 else 7, noSusp := true }))
  ∧ (∀ (s : State) (ch die : Nat) (target : Bool),
      (s.die (ch * 16 + die)).state = 10 →
      exec (.resetTimeout ch die target) s = .next ((s.count R.STALL.TMO_CNT_OTHER ch).loseDies ch (if target then targetDies die else [die]) 1))
  ∧ (∀ (s u : State) (ch die : Nat),
      s.dieOn ch die = true →
      (s.die (ch * 16 + die)).state ≠ 10 →
      (u = (s.count R.STALL.TMO_CNT_OTHER ch).mDie (ch * 16 + die) fun d => { d with featBad := d.featBad + 1 }) →
      exec (.featureTimeout ch die) s = .next (if 2 ≤ (u.die (ch * 16 + die)).featBad then u.loseDies ch [die] 5 else u.resetLun (ch * 16 + die) (u.die (ch * 16 + die)).state))
  ∧ (∀ (s u : State) (ch die : Nat),
      s.rd R.STALL.CH_STATE_STATE ch = 2 →
      s.armed = [] →
      u = (s.count R.STALL.ZQ_CNT_SHORT ch) →
      exec (.zqIntervalExpiry ch die true) s = .next (((u.mSt fun x => { x with zqTemp := x.zqTemp.set none (ch * 4 + die / 4) (u.pwr.temps.get none (ch / 8)) }).mSt fun x => { x with zqFails := x.zqFails.set 0 (ch * 4 + die / 4) 0 })))
  ∧ (∀ (s : State) (ch die : Nat),
      s.rd R.STALL.CH_STATE_STATE ch = 2 →
      s.armed = [] →
      exec (.identityCheck ch die true) s = .next (s.mDie (ch * 16 + die) fun d => { d with idBad := 0 }))
  ∧ (∀ (s : State) (group : Nat),
      group < 12 →
      exec (.vccqFlOutOfRange group) s = .next (s.loseGroup group 2))

/-- Decodes, patrol scrub and memory protection complete. A hard decode that is good, with no point armed, counts its
codeword and iterations and gives a codeword that passes its checks to its reader; a soft job that runs ends; a
codeword that has waited too long in the soft queue leaves it for its next step; each second the walkers take their
pace; a cycle that has left blocks counts as late; the scrub state is saved; a corrected error is counted and tabled,
one that does not correct is handled by its group, and the walks of memories and key copies count what they find. -/
def Obligations.DecodeScrubAndMemoryComplete : Prop :=
  (∀ (s u v : State) (read iters : Nat) (r : MRead) (y : Cw),
      s.armed = [] →
      s.readOf read = some r →
      r.st = 4 →
      r.step < 9 →
      r.failTo ≤ r.step →
      u = (s.count R.DECODE.CW_HARD_COUNT r.cluster).count R.DECODE.ITER_SUM_COUNT r.cluster 0 iters →
      u.armed = [] →
      u.readOf read = some r →
      (v = u.tell r fun b => { b with cwRead := b.cwRead + (if r.step = 0 then 1 else 0), iterSum := b.iterSum + iters }) →
      v.passed r true = some y →
      exec (.hardDecodeComplete read iters true true) s = .next (v.decoded r y (decide (iters ≤ v.rd R.DECODE.HARD_CFG_ITER_WARN r.cluster))))
  ∧ (∀ (s : State) (read : Nat) (ok : Bool) (r : MRead) (j : SoftJob),
      s.readOf read = some r →
      s.jobOf r = some j →
      j.running = true →
      j.full = false →
      exec (.softPassComplete read ok) s = .next (s.softEnd r false ok))
  ∧ (∀ (s : State) (read : Nat) (ok : Bool) (r : MRead) (j : SoftJob),
      s.readOf read = some r →
      s.jobOf r = some j →
      j.running = true →
      j.full = true →
      exec (.fullSoftDecodeComplete read ok) s = .next (s.softEnd r true ok))
  ∧ (∀ (s u : State) (read : Nat) (r : MRead) (j : SoftJob),
      s.readOf read = some r →
      s.jobOf r = some j →
      j.rank = 1 →
      j.running = false →
      j.preempted = false →
      j.full = false →
      u = (s.leaveSoft r.cluster read).count R.DECODE.SOFT_OVERFLOW_COUNT r.cluster →
      exec (.softWaitExpiry read) s = .next (if r.step = 0 then u.needRetry r else u.climb r))
  ∧ (∀ (s u : State),
      u = s.scrubTime →
      (u.dst = 4 ∨ u.dst = 5) →
      exec (.scrubPace) s = .next ((List.range 96).foldl (fun t e => t.paceOne e) (u.wr R.SCRUB.SCRUB_RATE_CWPS 0)))
  ∧ (∀ (s u : State),
      u = s.scrubTime →
      (u.dst = 4 ∨ u.dst = 5) →
      exec (.scrubCycleEnd) s = .next (if u.scrubLeft = 0 then u.endCycle else ((u.count R.SCRUB.LATE_COUNT).record 2 0x105 [0, 0, 0, 0]).mInteg fun i => { i with catchUp := true }))
  ∧ (∀ (s : State),
      4 ≤ s.dst →
      s.dst ≤ 5 →
      exec (.scrubStateSave) s = .next (s.saveState))
  ∧ (∀ (s : State) (group addr syndrome : Nat),
      group ≤ 24 →
      exec (.correctableError group addr syndrome) s = .next ((s.count R.MEMCHK.GRP_CE_COUNT 0 group).tabled group (addr % 2 ^ 40) (syndrome % 256)))
  ∧ (∀ (s : State) (group addr what : Nat),
      group ≤ 24 →
      exec (.uncorrectableError group addr what) s = .next (((s.count R.MEMCHK.GRP_UE_COUNT 0 group).tabled group (addr % 2 ^ 40) 0xFF).uncorrected group addr what))
  ∧ (∀ (s : State) (group addr : Nat) (bad : Bool),
      group ≤ 24 →
      s.armed = [] →
      exec (.memoryScrubWalk group addr bad) s = .next (if bad then s.fresh.2.corrected group (addr % 2 ^ 40) (Config.freeValue s.free) else s))
  ∧ (∀ (s : State) (bad : List (Nat × Nat)),
      s.armed = [] →
      exec (.camParityWalk bad) s = .next (bad.foldl camRow s))

/-- Victims, copies, erases and epochs of the Sweep complete. Firmware names a victim, and the result is shown, or the
refusal counted; hardware names one while free blocks run low or a safety candidate stands; a walk that takes too long
makes its victim hard; the next IU still named is copied where its victim stands first; a member whose walk is over is
erased; a pause is ended; an epoch latches the fill level, the amplifications and the targets, and begins a lap. -/
def Obligations.SweepCommandsComplete : Prop :=
  (∀ (s u : State) (who : Initiator) (b : Band) (num kind : Nat),
      Reaches s who R.SWEEP.VICTIM_CMD_GO 0 u →
      u.armed = [] →
      kind = u.rd R.SWEEP.VICTIM_CMD_KIND →
      num = u.rd R.SWEEP.VICTIM_BAND →
      u.nameCode num kind = 0 →
      (u.set R.SWEEP.VICTIM_RES_CODE 0).bandOf num = some b →
      exec (.victimName who) s = .next ((u.set R.SWEEP.VICTIM_RES_CODE 0).makeVictim b kind false (decide (kind = 2) && decide ((u.set R.SWEEP.VICTIM_RES_CODE 0).standing b < 2))))
  ∧ (∀ (s u : State) (who : Initiator) (num kind : Nat),
      Reaches s who R.SWEEP.VICTIM_CMD_GO 0 u →
      u.armed = [] →
      kind = u.rd R.SWEEP.VICTIM_CMD_KIND →
      num = u.rd R.SWEEP.VICTIM_BAND →
      u.nameCode num kind ≠ 0 →
      u.nameCode num kind ≠ 4 →
      exec (.victimName who) s = .next ((u.set R.SWEEP.VICTIM_RES_CODE (u.nameCode num kind)).count R.SWEEP.VICTIM_REFUSED_COUNT))
  ∧ (∀ (s : State) (kind : Nat) (b : Band),
      s.candidate kind = some b →
      s.sweepHeld = false →
      s.sw.victims.length < 16 →
      (4 ≤ kind ∨ (kind = 1 ∧ s.lowFree = true)) →
      exec (.hardwareVictimNaming kind) s = .next ((s.makeVictim b kind true true).forced b.num kind (if kind = 1 then 2 else 1)))
  ∧ (∀ (s : State) (band : Nat) (v : Victim),
      ((s.sw.victims.find? fun v => decide (v.band = band)) = some v) →
      v.walked = false →
      exec (.victimWalkTimeout band) s = .next ((s.mSw fun w => { w with victims := w.victims.map fun x => if x.band = band then { x with hard := true, safety := true } else x }).forced band v.kind 3))
  ∧ (∀ (s u : State) (band : Nat) (y : Victim),
      ((s.sw.victims.find? fun v => decide (v.band = band)) = some y) →
      s.todoOf y = [] →
      (u = s.mSw fun w => { w with victims := w.victims.map fun x => if x.band = band then { x with todo := [] } else x }) →
      exec (.sweepCopyStart band) s = .next (if y.out = 0 ∧ y.walked = false then u.endWalk { y with todo := [] } else u))
  ∧ (∀ (s : State) (block : Nat) (y : Victim),
      ((s.sw.victims.find? fun v => decide (v.band = (s.block block).band)) = some y) →
      y.walked = true →
      y.todo = [] →
      (s.block block).state = 3 →
      ((s.sw.copies.any fun e => decide (aBlockKey e.source = block)) = false) →
      (s.block block).valid = 0 →
      s.bell.validWalk = false →
      s.rd R.SWEEP.SWEEP_STAT_CORE_PAUSE = 0 →
      s.sweepHeld = false →
      s.dieOn (block / 131072) (block / 8192 % 16) = true →
      exec (.victimErase block) s = .next (s.askErase block))
  ∧ (∀ (s u : State) (who : Initiator),
      Reaches s who R.SWEEP.SWEEP_CTRL_RESUME 0 u →
      exec (.sweepCtrlResume who) s = .next (u.wr R.SWEEP.SWEEP_STAT_CORE_PAUSE 0))
  ∧ (∀ (s u v w : State),
      u = ((s.wr R.INTAKE.FILL_LEVEL_F s.fillLevel).updateAmps) →
      v = u.wr R.WPATH.SLC_TARGET_MIB u.slcTarget →
      (w = (v.wearRoll.wr R.CKPT.LOG_RATE_MBPS (v.bell.logged * 256 / 1000000)).mBell fun b => { b with logged := 0 }) →
      exec (.sweepEpoch) s = .next ((w.mNv fun n => { n with deferLog := w.host.deferLog, deferTotal := w.rd R.INTAKE.DEFER_TOTAL_COUNT }).startLap))

/-- Laps, the rolling walk, the journal and the records save complete. A lap completes with its lines durable, the records
it supersedes gone and its numbers shown; a late lap is counted once; the rolling walk logs the next line and goes
round; the journal is flushed from REBUILD to QUIESCE; the block records are saved in SERVICE and QUIESCE. -/
def Obligations.CheckpointsComplete : Prop :=
  (∀ (s u v w : State) (num start next no : Nat),
      s.bell.lap = some (num, start, next, no) →
      u = s.flushed s.bell.flushing →
      (v = (u.mNv fun n => { n with ckpt := logDurable n.ckpt (u.bell.lines.filter fun r => decide (r.at_ ≤ no)), records := n.records.filter fun r => !(decide (r.kind ≤ 2) && decide (r.no < no)) }).mBell fun b => { b with lines := b.lines.filter fun r => !(decide (r.at_ ≤ no)) }) →
      w = (v.journal 8 [num, start, next, no]).wr R.CKPT.CKPT_LAP_NUM num →
      exec (.lapComplete) s = .next (((w.wr64 R.CKPT.CKPT_H_LO_VALUE R.CKPT.CKPT_H_HI_VALUE start).wr R.CKPT.LAP_LAST_US ((w.mono - start) / 100)).lapOver start))
  ∧ (∀ (s : State),
      s.bell.lap.isSome = true →
      s.bell.lapLate = false →
      exec (.lapLate) s = .next ((s.mBell fun b => { b with lapLate := true }).count R.CKPT.LATE_COUNT))
  ∧ (∀ (s u : State) (a i : Nat),
      (s.dst = 4 ∨ s.dst = 5) →
      i = s.bell.walkAt % s.allLines.length →
      s.allLines[i]? = some a →
      u = (s.lookLine a).logLine a →
      exec (.rollingWalk) s = .next ((u.mBell fun b => { b with walkAt := (i + 1) % s.allLines.length, walked := if (i + 1) % s.allLines.length = 0 then b.walked + 1 else b.walked }).wr R.CKPT.CIRCUIT_PERMILLE ((i + 1) % s.allLines.length * 1000 / s.allLines.length)))
  ∧ (∀ (s : State),
      3 ≤ s.dst →
      s.dst ≤ 5 →
      exec (.journalFlush) s = .next (s.flushed s.bell.journal.length))
  ∧ (∀ (s : State),
      (s.dst = 4 ∨ s.dst = 5) →
      exec (.recordsSave) s = .next (s.mNv fun n => { n with blocks := s.sw.blocks, erases := s.sw.erases, saveNo := s.bell.made }))

/-- Media units and media keys complete. An enciphering pipe makes the host units of its program unit ciphertext under the
key of their namespaces and counts them, an unreadable crate ending in a deferred error; a deciphering pipe gives its
unit to its reader; GENERATE of the CIPHER page draws a key for the selected slot, refused with the code of the check
that fails; the key record written loads the slot, and one not written leaves the old key. -/
def Obligations.CipherMediaCommandsComplete : Prop :=
  (∀ (s u : State) (id : Nat) (p : ProgUnit),
      s.unitOf id = some p →
      s.armed = [] →
      (u = s.count R.CIPHER.ENC_UNITS_COUNT 0 0 (p.ius.map fun i => s.encCount i).sum) →
      exec (.cipherUnitComplete true id) s = .next ((p.ius.filter fun i => !i.enc && s.cr.eccBad.get false i.crate).foldl (fun t i => t.deferIu i.nsid i.iu i.crate i.stamp 3) (u.mWp fun w => { w with units := w.units.map fun q => if q.id = id then { q with ius := q.ius.map fun i => if i.enc then i else u.encIu i } else q })))
  ∧ (∀ (s : State) (id : Nat) (r : MRead) (y : Cw),
      s.readOf id = some r →
      r.got = some y →
      r.st = 7 →
      s.armed = [] →
      exec (.cipherUnitComplete false id) s = .next (s.unitDeciphered r y))
  ∧ (∀ (s u : State) (who : Initiator) (slot : Nat),
      Reaches s who R.CIPHER.KEY_CMD_OP 0 u →
      u.rd R.CIPHER.KEY_CMD_BUSY = 0 →
      slot = u.rd R.CIPHER.KEY_SEL_SLOT →
      u.keyPermitted slot = true →
      u.slotUse slot = 0 →
      exec (.mediaKeyGenerate who) s = .next (if u.drawKey.1.1 = u.drawKey.1.2 then u.drawKey.2.set R.CIPHER.KEY_RES_CODE 3 else (u.drawKey.2.mCiph fun x => { x with generating := some (slot, u.drawKey.1.1, u.drawKey.1.2) }).set R.CIPHER.KEY_CMD_BUSY 1))
  ∧ (∀ (s u : State) (who : Initiator),
      Reaches s who R.CIPHER.KEY_CMD_OP 0 u →
      u.rd R.CIPHER.KEY_CMD_BUSY = 0 →
      u.keyPermitted (u.rd R.CIPHER.KEY_SEL_SLOT) = false →
      exec (.mediaKeyGenerate who) s = .next (u.set R.CIPHER.KEY_RES_CODE 1))
  ∧ (∀ (s u : State) (who : Initiator),
      Reaches s who R.CIPHER.KEY_CMD_OP 0 u →
      u.rd R.CIPHER.KEY_CMD_BUSY = 1 →
      exec (.mediaKeyGenerate who) s = .next (u.count R.CIPHER.KEY_RES_DROPPED))
  ∧ (∀ (s u v : State) (slot k1 k2 : Nat),
      s.ciph.generating = some (slot, k1, k2) →
      (u = s.mCiph fun x => { x with generating := none }) →
      (v = u.takeWrap.2.mCiph fun x => { x with media := x.media.set {} slot { loaded := true, bad := false, seq := u.takeWrap.1 % 2 ^ 32, k1 := k1, k2 := k2 } }) →
      exec (.keyRecordWritten true) s = .next (((v.mNv fun n => { n with keyRecs := n.keyRecs.set none slot (some (u.takeWrap.1 % 2 ^ 32, k1, k2, true)) }).set R.CIPHER.KEY_RES_CODE 0).set R.CIPHER.KEY_CMD_BUSY 0))
  ∧ (∀ (s u : State),
      s.ciph.generating ≠ none →
      (u = s.mCiph fun x => { x with generating := none }) →
      exec (.keyRecordWritten false) s = .next ((u.set R.CIPHER.KEY_RES_CODE 3).set R.CIPHER.KEY_CMD_BUSY 0))

/-- Jobs of the user pages complete. GO starts the job its page describes, or shows the code that refuses it before a byte
moves; a job ends with its output written, its chaining state moved and its code shown, or with code 5 where its
source or destination may not be used; ABORT ends it, or clears the chaining state of an idle page; SAVE writes the
chaining state out as a blob and clears the page; RESTORE loads one. -/
def Obligations.CipherJobsComplete : Prop :=
  (∀ (s u v : State) (who : Initiator) (page flags : Nat) (j : Job),
      ReachesUser s who page u →
      j = u.jobWanted page flags →
      (u.wr R.CUSER.JOB_DONE_BYTES 0 page).jobRefusal page j (u.mayMove (u.rd R.CUSER.JOB_SRC_KIND page) (u.jobSrc page) (u.jobAad page j + u.rd R.CUSER.JOB_LEN_BYTES page) && u.mayMove (u.rd R.CUSER.JOB_DST_KIND page) (u.jobDst page) (u.jobOut page j)) = none →
      v = u.wr R.CUSER.JOB_DONE_BYTES 0 page →
      exec (.jobGo who page flags) s = .next (((v.mCiph fun x => { x with jobs := x.jobs.set none page (some j) }).wr R.CUSER.JOB_STAT_CODE 0 page).set R.CUSER.JOB_STAT_BUSY 1 page))
  ∧ (∀ (s u v : State) (who : Initiator) (page flags code : Nat) (j : Job),
      ReachesUser s who page u →
      j = u.jobWanted page flags →
      (u.wr R.CUSER.JOB_DONE_BYTES 0 page).jobRefusal page j (u.mayMove (u.rd R.CUSER.JOB_SRC_KIND page) (u.jobSrc page) (u.jobAad page j + u.rd R.CUSER.JOB_LEN_BYTES page) && u.mayMove (u.rd R.CUSER.JOB_DST_KIND page) (u.jobDst page) (u.jobOut page j)) = some code →
      v = u.wr R.CUSER.JOB_DONE_BYTES 0 page →
      exec (.jobGo who page flags) s = .next (v.set R.CUSER.JOB_STAT_CODE code page))
  ∧ (∀ (s u : State) (page n sk dk : Nat) (j : Job),
      s.ciph.jobs.get none page = some j →
      sk = s.rd R.CUSER.JOB_SRC_KIND page →
      dk = s.rd R.CUSER.JOB_DST_KIND page →
      n = s.jobAad page j + s.rd R.CUSER.JOB_LEN_BYTES page →
      s.mayMove sk (s.jobSrc page) n = true →
      s.mayMove dk (s.jobDst page) (s.jobOut page j) = true →
      u = (s.runJob page j (s.srcBytes sk (s.jobSrc page) n)).2.2 →
      exec (.jobComplete page) s = .next (((u.dstBytes dk (s.jobDst page) (s.runJob page j (s.srcBytes sk (s.jobSrc page) n)).1).jobDone page (s.runJob page j (s.srcBytes sk (s.jobSrc page) n)).1.length).endJob page (s.runJob page j (s.srcBytes sk (s.jobSrc page) n)).2.1))
  ∧ (∀ (s : State) (page : Nat) (j : Job),
      s.ciph.jobs.get none page = some j →
      (s.mayMove (s.rd R.CUSER.JOB_SRC_KIND page) (s.jobSrc page) (s.jobAad page j + s.rd R.CUSER.JOB_LEN_BYTES page) = false ∨ s.mayMove (s.rd R.CUSER.JOB_DST_KIND page) (s.jobDst page) (s.jobOut page j) = false) →
      exec (.jobComplete page) s = .next (s.endJob page 5))
  ∧ (∀ (s u : State) (who : Initiator) (page : Nat),
      page < 16 →
      s.answers (pageOf R.CUSER.JOB_MODE_MODE page) = true →
      u = s.crossTo (initIsland who) (pageOf R.CUSER.JOB_MODE_MODE page) →
      u.mayUser who page = true →
      exec (.jobAbort who page) s = .next (u.abortJob page))
  ∧ (∀ (s u v : State) (who : Initiator) (page : Nat) (y : Chain),
      ReachesUser s who page u →
      u.ciph.chains.get none page = some y →
      u.mayMove (u.rd R.CUSER.JOB_DST_KIND page) (u.jobDst page) 128 = true →
      v = (u.wrapBlob 3 page y.bytes).2.dstBytes (u.rd R.CUSER.JOB_DST_KIND page) (u.jobDst page) (u.wrapBlob 3 page y.bytes).1 →
      exec (.jobSave who page) s = .next ((v.setChain page none).set R.CUSER.JOB_STAT_CODE 0 page))
  ∧ (∀ (s u : State) (who : Initiator) (page : Nat),
      ReachesUser s who page u →
      u.mayMove (u.rd R.CUSER.JOB_SRC_KIND page) (u.jobSrc page) 128 = true →
      exec (.jobRestore who page) s = .next (match openBlob 3 (u.srcBytes (u.rd R.CUSER.JOB_SRC_KIND page) (u.jobSrc page) 128) with
        | none => u.set R.CUSER.JOB_STAT_CODE 9 page
        | some (index, payload) =>
          if index = page ∧ ((u.genSlot (Chain.ofPayload payload).slot).any fun g => decide (g.owner = page)) = true then
            (u.setChain page (some (Chain.ofPayload payload))).set R.CUSER.JOB_STAT_CODE 0 page
          else u.set R.CUSER.JOB_STAT_CODE 9 page))

/-- Key commands of the user pages complete. A page that names a general slot that is free or its own loads it from the
staging words, draws a key and writes its blob out, loads it from a blob, or clears and releases it; equal halves are
refused with code 3, a blob that does not open, or a destination or source that may not be used, with code 4; the
staging words are cleared in every case. -/
def Obligations.CipherKeyCommandsComplete : Prop :=
  (∀ (s u : State) (who : Initiator) (page slot : Nat),
      ReachesUser s who page u →
      256 ≤ slot →
      slot ≤ 511 →
      (((u.genSlot slot).all fun g => decide (g.owner = page)) = true) →
      exec (.loadPlain who page slot) s = .next ((u.loadPair page slot (u.staged page 0) (u.staged page 8)).clearStaging page))
  ∧ (∀ (s u v w : State) (who : Initiator) (page slot : Nat),
      ReachesUser s who page u →
      256 ≤ slot →
      slot ≤ 511 →
      (((u.genSlot slot).all fun g => decide (g.owner = page)) = true) →
      u.mayMove (u.rd R.CUSER.JOB_DST_KIND page) (u.jobDst page) 128 = true →
      v = u.drawKey.2 →
      w = (v.wrapBlob 2 slot (bytesOf u.drawKey.1.1 32 ++ bytesOf u.drawKey.1.2 32 ++ List.replicate 16 0)).2 →
      exec (.generate who page slot) s = .next ((if u.drawKey.1.1 = u.drawKey.1.2 then v.set R.CUSER.KEY_RES_CODE 3 page else (w.dstBytes (u.rd R.CUSER.JOB_DST_KIND page) (u.jobDst page) (v.wrapBlob 2 slot (bytesOf u.drawKey.1.1 32 ++ bytesOf u.drawKey.1.2 32 ++ List.replicate 16 0)).1).loadPair page slot u.drawKey.1.1 u.drawKey.1.2).clearStaging page))
  ∧ (∀ (s u : State) (who : Initiator) (page slot : Nat),
      ReachesUser s who page u →
      256 ≤ slot →
      slot ≤ 511 →
      (((u.genSlot slot).all fun g => decide (g.owner = page)) = true) →
      u.mayMove (u.rd R.CUSER.JOB_SRC_KIND page) (u.jobSrc page) 128 = true →
      exec (.loadWrapped who page slot) s = .next ((match openBlob 2 (u.srcBytes (u.rd R.CUSER.JOB_SRC_KIND page) (u.jobSrc page) 128) with
        | some (index, payload) =>
          if 256 ≤ index ∧ index ≤ 511 then u.loadPair page slot (ofBytes (payload.take 32)) (ofBytes ((payload.drop 32).take 32))
          else u.set R.CUSER.KEY_RES_CODE 4 page
        | none => u.set R.CUSER.KEY_RES_CODE 4 page).clearStaging page))
  ∧ (∀ (s u : State) (who : Initiator) (page slot : Nat),
      ReachesUser s who page u →
      256 ≤ slot →
      slot ≤ 511 →
      (((u.genSlot slot).all fun g => decide (g.owner = page)) = true) →
      exec (.clear who page slot) s = .next (((u.setGen slot none).set R.CUSER.KEY_RES_CODE 0 page).clearStaging page))

/-- A blob the device wraps is opened by it with its index and payload. For every purpose, every index of 16 bits and
every payload of 80 B, the blob that the device wraps has 128 B and opens, for that purpose, to that index and
payload, whatever the block cipher and the wrap key are; it opens for no other purpose. -/
def Obligations.AWrappedBlobOpens : Prop :=
  ∀ (s : State) (purpose index : Nat) (payload : List Nat), index < 65536 → payload.length = 80 →
    (s.wrapBlob purpose index payload).1.length = 128
    ∧ openBlob purpose (s.wrapBlob purpose index payload).1 = some (index, payload)
    ∧ ∀ other : Nat, other ≠ purpose → openBlob other (s.wrapBlob purpose index payload).1 = none

/-- Descriptors, bursts and write responses of the Porter complete. A firmware channel that is enabled, with a descriptor
waiting and its start token, takes the descriptor, and a descriptor that passes the checks holds its crates and moves,
while one that fails them ends with the code of the check and moves nothing; a free port serves the burst its
arbitration picks; a good write response is counted off, the last of a finished descriptor releasing its crates; an
error response ends the running descriptor, or makes the late record of the one before it. -/
def Obligations.PorterTransfersComplete : Prop :=
  (∀ (s u v : State) (ch : Nat) (d : PDesc) (rsv : Bool),
      8 ≤ ch →
      ch < 64 →
      s.rd R.PCHAN.CH_CTRL_ENABLE ch = 1 →
      s.chState ch ≤ 1 →
      (s.pch ch).desc = none →
      s.ringWaits ch = true →
      (s.rd R.PCHAN.CH_CFG_START_KIND ch = 0 ∨ s.rd R.PCHAN.CH_STAT_TOKENS ch ≠ 0) →
      s.por.stopped = false →
      s.dst < 6 →
      s.armed = [] →
      (u = (if s.rd R.PCHAN.CH_CFG_START_KIND ch = 0 then s else s.wr R.PCHAN.CH_STAT_TOKENS (s.rd R.PCHAN.CH_STAT_TOKENS ch - 1) ch)) →
      u.fetchDesc ch = (d, rsv) →
      (v = (u.mCh ch fun x => { x with desc := some d, out := 0, poisoned := false, passed := 0 }).set R.PCHAN.CH_STAT_STATE 4 ch) →
      v.armed = [] →
      v.descFault ch d rsv = none →
      exec (.descriptorStart ch) s = .next ((d.crates.foldl (fun t n => t.takeRef n) v).mCh ch fun x => { x with desc := some { d with port := ((if d.dk = 2 then v.hostAllows ch d.dst d.len true else none).orElse fun _ => if d.sk = 2 then v.hostAllows ch d.src d.len false else none).getD 0 } }))
  ∧ (∀ (s u v : State) (ch code : Nat) (d : PDesc) (rsv : Bool),
      8 ≤ ch →
      ch < 64 →
      s.rd R.PCHAN.CH_CTRL_ENABLE ch = 1 →
      s.chState ch ≤ 1 →
      (s.pch ch).desc = none →
      s.ringWaits ch = true →
      (s.rd R.PCHAN.CH_CFG_START_KIND ch = 0 ∨ s.rd R.PCHAN.CH_STAT_TOKENS ch ≠ 0) →
      s.por.stopped = false →
      s.dst < 6 →
      s.armed = [] →
      (u = (if s.rd R.PCHAN.CH_CFG_START_KIND ch = 0 then s else s.wr R.PCHAN.CH_STAT_TOKENS (s.rd R.PCHAN.CH_STAT_TOKENS ch - 1) ch)) →
      u.fetchDesc ch = (d, rsv) →
      (v = (u.mCh ch fun x => { x with desc := some d, out := 0, poisoned := false, passed := 0 }).set R.PCHAN.CH_STAT_STATE 4 ch) →
      v.armed = [] →
      v.descFault ch d rsv = some (code, none) →
      exec (.descriptorStart ch) s = .next ((v.mCh ch fun x => { x with desc := some { d with sk := 0, dk := 0 } }).endDesc ch code false))
  ∧ (∀ (s u v : State) (ch code a : Nat) (d : PDesc) (rsv : Bool),
      8 ≤ ch →
      ch < 64 →
      s.rd R.PCHAN.CH_CTRL_ENABLE ch = 1 →
      s.chState ch ≤ 1 →
      (s.pch ch).desc = none →
      s.ringWaits ch = true →
      (s.rd R.PCHAN.CH_CFG_START_KIND ch = 0 ∨ s.rd R.PCHAN.CH_STAT_TOKENS ch ≠ 0) →
      s.por.stopped = false →
      s.dst < 6 →
      s.armed = [] →
      (u = (if s.rd R.PCHAN.CH_CFG_START_KIND ch = 0 then s else s.wr R.PCHAN.CH_STAT_TOKENS (s.rd R.PCHAN.CH_STAT_TOKENS ch - 1) ch)) →
      u.fetchDesc ch = (d, rsv) →
      (v = (u.mCh ch fun x => { x with desc := some d, out := 0, poisoned := false, passed := 0 }).set R.PCHAN.CH_STAT_STATE 4 ch) →
      v.armed = [] →
      v.descFault ch d rsv = some (code, some a) →
      exec (.descriptorStart ch) s = .next (((v.refuse 0 4 ch a false).mCh ch fun x => { x with desc := some { d with sk := 0, dk := 0 } }).endDesc ch code false))
  ∧ (∀ (s u : State) (prt ch pri : Nat) (aged : Bool),
      s.por.stopped = false →
      s.pickBurstAt prt = some ((ch, pri), aged) →
      u = s.passPort prt (ch, pri) aged →
      exec (.porterBurst prt) s = .next (if ch < 4 then u.egressBurst ch else if ch = 4 then u.fillBurst else u.fwBurst ch))
  ∧ (∀ (s : State) (ch : Nat) (d : PDesc),
      (s.pch ch).prev = some d →
      s.armed = [] →
      exec (.porterWriteResponse ch) s = .next ((s.prevResponse ch).tryOwed ch))
  ∧ (∀ (s : State) (ch : Nat),
      (s.pch ch).prev = none →
      (s.pch ch).out ≠ 0 →
      exec (.porterWriteResponse ch) s = .next ((s.mCh ch fun x => { x with out := x.out - 1 }).tryOwed ch))
  ∧ (∀ (s : State) (ch : Nat) (d : PDesc),
      (s.pch ch).prev = some d →
      exec (.writeResponseError ch) s = .next ((s.beatLost d).lateError ch d false))
  ∧ (∀ (s u : State) (ch : Nat) (d : PDesc),
      (s.pch ch).prev = none →
      (s.pch ch).desc = some d →
      (s.pch ch).out ≠ 0 →
      (u = (s.mCh ch fun x => { x with out := x.out - 1 }).beatLost d) →
      exec (.writeResponseError ch) s = .next (if u.chState ch = 5 then u.mCh ch fun x => { x with owed := some (2, false) } else u.earlyError ch d false))

/-- Timers and the controls of a firmware channel complete. A timer that is enabled counts its expiry, gives a token to
each channel it starts, and with ONE_SHOT clears its ENABLE; the owner of a firmware channel gives it a token, stops
it, enables or disables it, and pops its oldest record; a stopping channel whose responses are in records its
descriptor and is STOPPED with no token. -/
def Obligations.PorterControlsComplete : Prop :=
  (∀ (s u v w : State) (timer : Nat),
      timer < 16 →
      s.rd (R.PORTER.TMR_CTRL_ENABLE timer) = 1 →
      u = s.count (R.PORTER.TMR_STAT_EXPIRIES timer) →
      (v = u.mPor fun p => { p with timers := p.timers.set (0, 0) timer ((u.por.timers.get (0, 0) timer).1, (u.por.timers.get (0, 0) timer).2 + 1) }) →
      (w = if v.rd (R.PORTER.TMR_CTRL_ONE_SHOT timer) = 1 then v.wr (R.PORTER.TMR_CTRL_ENABLE timer) 0 else v) →
      exec (.porterTimerExpiry timer) s = .next ((w.startedBy 1 timer).foldl (fun t k => t.addToken k) w))
  ∧ (∀ (s u : State) (who : Initiator) (ch : Nat),
      ReachesChan s who ch u →
      exec (.chCtrlGo who ch) s = .next (u.addToken ch))
  ∧ (∀ (s u : State) (who : Initiator) (ch : Nat),
      ReachesChan s who ch u →
      exec (.chCtrlStop who ch) s = .next (u.stopChan ch))
  ∧ (∀ (s u : State) (who : Initiator) (ch : Nat) (on : Bool),
      ReachesChan s who ch u →
      exec (.chCtrlEnable who ch on) s = .next (u.chEnable ch on))
  ∧ (∀ (s u : State) (who : Initiator) (ch : Nat),
      ReachesChan s who ch u →
      exec (.cplPop who ch) s = .next (u.popRecord ch))
  ∧ (∀ (s u : State) (ch : Nat),
      s.chState ch = 5 →
      (s.pch ch).prevOut = 0 →
      (s.pch ch).out = 0 →
      (u = (match (s.pch ch).desc, (s.pch ch).owed with | some d, some (2, inj) => (if d.dk = 1 then s.poisonCrate (d.dst % 2 ^ 32) else s).makeRecord ch d 2 inj | some d, _ => s.makeRecord ch d 7 false | none, _ => s)) →
      exec (.channelStopComplete ch) s = .next ((u.wr R.PCHAN.CH_STAT_TOKENS 0 ch).set R.PCHAN.CH_STAT_STATE 6 ch))

/-- Gating, waking and the loss of a crossing complete. An idle island that may be gated is; a request wakes it, and the
wake is counted with its longest time; a destination that does not wake, and a crossing watchdog that expires, are
counted, latched, recorded, and cost what the table of the crossings says. -/
def Obligations.IslandsAndCrossingsComplete : Prop :=
  (∀ (s : State) (island : Nat),
      island < 117 →
      s.isl.gated.contains island = false →
      s.neverGated island = false →
      s.islandOn island = true →
      s.rd R.XCLK.GATE_CFG_ENABLE 0 island ≠ 0 →
      exec (.islandGate island) s = .next (s.mIsl fun x => { x with gated := x.gated ++ [island] }))
  ∧ (∀ (s u : State) (island ns : Nat),
      s.isl.gated.contains island = true →
      s.armed = [] →
      (u = s.mIsl fun x => { x with gated := x.gated.filter fun n => decide (n ≠ island) }) →
      exec (.islandWake island ns) s = .next ((u.count R.XCLK.WAKE_CNT_COUNT).peak R.XCLK.WAKE_MAX_NS ns))
  ∧ (∀ (s : State) (src dst : Nat),
      crossing src dst = true →
      s.isl.gated.contains dst = true →
      exec (.wakeFailure src dst) s = .next ((s.xwdReport src dst true false).crossingLost src dst))
  ∧ (∀ (s : State) (src dst : Nat),
      crossing src dst = true →
      s.islandOn src = true →
      s.islandOn dst = true →
      exec (.crossingWatchdogExpiry src dst) s = .next ((s.xwdReport src dst false false).crossingLost src dst))

/-- Votes, domains, clocks, voltage and the non-operational states complete. The owner of a vote register writes its
votes, domain 0 never among them, and any other initiator is counted and refused under limit 7; a domain that is
voted, and that no state keeps off and no lower domain must precede, powers on; one whose last vote is gone powers
off; a clock and voltage request is taken, each part out of range recorded and kept as it was, each part that would
break the order held; when the voltage has settled the clocks that waited rise. An entry into a non-operational state
that is wanted and that nothing holds back is made, and a wait for one is counted once; an exit powers DATA and the
stall groups of the populated channels, enters the state it goes back to and lets a held lap begin; the idle timer
selects the states that the tables of the idle controllers name. -/
def Obligations.PowerDomainsAndStatesComplete : Prop :=
  (∀ (s : State) (who : Initiator) (domains : Nat),
      mayWrite R.POWER.POL_VOTE_DOMAINS who = true →
      s.armed = [] →
      exec (.polVoteWrite who domains) s = .next ((s.wr R.POWER.POL_VOTE_DOMAINS (clrBit (domains % 2 ^ 17) 0)).heedVotes))
  ∧ (∀ (s : State) (who : Initiator) (domains : Nat),
      mayWrite R.POWER.POL_VOTE_DOMAINS who = false →
      s.armed = [] →
      exec (.polVoteWrite who domains) s = .next ((s.count R.POWER.VOTE_REFUSED_COUNT).refuse 7 (initCode who) (initHart who) (regAddr who (pageOf R.POWER.POL_VOTE_DOMAINS 0) R.POWER.POL_VOTE_DOMAINS.off)))
  ∧ (∀ (s : State) (who : Initiator) (domains : Nat),
      mayWrite R.POWER.MGT_VOTE_DOMAINS who = true →
      s.armed = [] →
      exec (.mgtVoteWrite who domains) s = .next ((s.wr R.POWER.MGT_VOTE_DOMAINS (clrBit (domains % 2 ^ 17) 0)).heedVotes))
  ∧ (∀ (s : State) (who : Initiator) (domains : Nat),
      mayWrite R.POWER.MGT_VOTE_DOMAINS who = false →
      s.armed = [] →
      exec (.mgtVoteWrite who domains) s = .next ((s.count R.POWER.VOTE_REFUSED_COUNT).refuse 7 (initCode who) (initHart who) (regAddr who (pageOf R.POWER.MGT_VOTE_DOMAINS 0) R.POWER.MGT_VOTE_DOMAINS.off)))
  ∧ (∀ (s : State) (domain : Nat),
      0 < domain →
      domain < 17 →
      (s.dst = 4 ∨ s.dst = 5) →
      s.domOn domain = false →
      s.voted domain = true →
      (planOff s.eff domain = false ∨ s.pwr.exiting = true) →
      ((List.range domain).any (fun d => decide (d ≠ 0) && s.voted d && !s.domOn d && (s.pwr.exiting || !planOff s.eff d)) = false) →
      exec (.domainPowerOn domain) s = .next (s.domainOn domain))
  ∧ (∀ (s : State) (domain : Nat),
      domain ≠ 0 →
      domain < 17 →
      domain ≠ 1 →
      domain ≠ 3 →
      (domain = 2 → s.eff = 4) →
      (s.dst = 4 ∨ s.dst = 5) →
      s.pwr.exiting = false →
      s.voted domain = false →
      exec (.domainPowerOff domain) s = .next (s.domainOff domain))
  ∧ (∀ (s u v w : State) (who : Initiator) (clk vdd ck vd : Nat) (holdC holdV : Bool),
      mayWrite R.POWER.DVFS_REQ_CORE_CLK who = true →
      s.armed = [] →
      (u = (if 4 ≤ clk ∧ clk ≤ 24 then s else s.rangeRecord who (pageOf R.POWER.DVFS_REQ_CORE_CLK 0) R.POWER.DVFS_REQ_CORE_CLK.off clk)) →
      (v = (if vdd ≤ 20 then u else u.rangeRecord who (pageOf R.POWER.DVFS_REQ_CORE_CLK 0) R.POWER.DVFS_REQ_CORE_CLK.off vdd)) →
      (ck = (if 4 ≤ clk ∧ clk ≤ 24 then clk else v.rd R.POWER.DVFS_REQ_CORE_CLK)) →
      (vd = (if vdd ≤ 20 then vdd else v.rd R.POWER.DVFS_REQ_VDD)) →
      w = (v.wr R.POWER.DVFS_REQ_CORE_CLK ck).wr R.POWER.DVFS_REQ_VDD vd →
      holdC = (decide (w.rd R.POWER.DVFS_STAT_VDD < coreNeed (min ck (planCore w.plan))) || (!w.pwr.settled && decide (w.rd R.POWER.DVFS_STAT_CORE_CLK < ck))) →
      (holdV = decide (vd < w.vddNeed w.pwr.mainClk (min (w.rd R.POWER.DVFS_STAT_CORE_CLK) (if holdC then 24 else ck)))) →
      exec (.dvfsReq who clk vdd) s = .next (((if (holdC || holdV) = true then w.count R.POWER.DVFS_HOLD_COUNT else w).mPwr fun x => { x with reqClk := if holdC then x.reqClk else ck, heldClk := if holdC then some ck else none, reqVdd := if holdV then x.reqVdd else vd, heldVdd := if holdV then some vd else none }).driveClocks))
  ∧ (∀ (s : State),
      exec (.vddSettled) s = .next ((s.mPwr fun x => { x with settled := true }).driveClocks))
  ∧ (∀ (s : State) (d : Nat),
      s.pwr.entering = some d →
      s.dst = 4 →
      s.eff < d →
      s.wantPs = d →
      s.entryBlocked d = false →
      exec (.nonopEntry) s = .next (s.enterNonop d))
  ∧ (∀ (s u : State) (d : Nat),
      s.pwr.entering = some d →
      s.dst = 4 →
      s.eff < d →
      s.wantPs = d →
      s.entryBlocked d = true →
      s.pwr.waitCounted = false →
      (u = (s.mPwr fun x => { x with waitCounted := true }).count R.POWER.NONOP_WAIT_COUNT) →
      exec (.nonopEntry) s = .next (if u.pwr.apstSel then u.count R.POWER.APST_BLOCKED_COUNT else u))
  ∧ (∀ (s u v w : State),
      s.pwr.exiting = true →
      2 < s.eff →
      (u = (List.range 12).foldl (fun t g => if t.groupIn g then t.domainOn (5 + g) else t) (s.domainOn 2)) →
      (v = (u.mPwr fun x => { x with exiting := false }).peak R.POWER.POWER_WAIT_MAX_US ((s.mono - s.pwr.exitFrom) / 1600)) →
      w = ((v.enterPs v.pwr.backTo).wr R.POWER.PS_CUR_AUTO 0).followPower.retest →
      exec (.nonopExitComplete) s = .next (if w.bell.lapHeld then (w.mBell fun b => { b with lapHeld := false }).startLap else w))
  ∧ (∀ (s u v : State) (l : List (Nat × Nat)),
      s.dst = 4 →
      (l = ([0, 1].filterMap fun p => (s.apstTarget p).map fun w => (p, w))) →
      l ≠ [] →
      (u = s.mPwr fun x => { x with sel := l.foldl (fun t e => t.set 0 e.1 e.2) x.sel, apstSel := true }) →
      v = u.wr R.POWER.PS_CUR_SELECTED u.selected →
      exec (.apstItptExpiry) s = .next ((if v.wantPs < v.selected then v.count R.POWER.APST_BLOCKED_COUNT else v).followPower))

/-- Watchdogs, core resets, timers and the admin queue complete. The right key from a policy hart reloads its watchdog and
clears its warning, any other is counted; at half its period it warns, at its end it resets CORE; the management
watchdog is reloaded by its key and restarts the management harts; management firmware and a policy hart in M-mode
reset CORE with their cause; a reset that nothing holds is released; a compare register that has been reached makes
the interrupt of its hart pending; firmware takes the oldest admin command, and completes one it holds, or is shown
the code of what is wrong and counted under limit 1. -/
def Obligations.CoresAndWatchdogsComplete : Prop :=
  (∀ (s : State) (h b key : Nat) (m : Bool),
      key = 0xC3A5 →
      h < 8 →
      exec (.wdogKick (.policy h m b) key) s = .next ((s.mCore fun x => { x with kicked := x.kicked.set 0 h s.mono }).wr R.CORESYS.WDOG_STAT_WARN 0 0 h))
  ∧ (∀ (s : State) (h b key : Nat) (m : Bool),
      key ≠ 0xC3A5 →
      h < 8 →
      exec (.wdogKick (.policy h m b) key) s = .next (s.count R.CORESYS.WDOG_STAT_BAD_KICK 0 (h % 8)))
  ∧ (∀ (s : State) (hart : Nat),
      hart < 8 →
      s.coreUp = true →
      exec (.wdogWarning hart) s = .next (s.wr R.CORESYS.WDOG_STAT_WARN 1 0 hart))
  ∧ (∀ (s : State) (hart : Nat),
      hart < 8 →
      s.coreUp = true →
      exec (.wdogExpiry hart) s = .next (s.wdogFire hart false))
  ∧ (∀ (s : State) (who : Initiator) (key : Nat),
      mayWrite R.CORESYS.MWDOG_KICK_KEY who = true →
      key = 0x5AC3 →
      exec (.mwdogKick who key) s = .next (s.mCore fun x => { x with mKicked := s.mono }))
  ∧ (∀ (s : State) (who : Initiator) (key : Nat),
      mayWrite R.CORESYS.MWDOG_KICK_KEY who = true →
      key ≠ 0x5AC3 →
      exec (.mwdogKick who key) s = .next (s))
  ∧ (∀ (s : State),
      exec (.mwdogExpiry) s = .next (s.mgmtRestart false))
  ∧ (∀ (s : State) (h b : Nat),
      s.domOn 4 = true →
      exec (.coreRstGo (.mgmt h b)) s = .next (s.coreReset 2 0))
  ∧ (∀ (s : State) (h b : Nat),
      s.domOn 4 = true →
      exec (.coreRstGo (.policy h true b)) s = .next (s.coreReset 6 0))
  ∧ (∀ (s : State) (h b : Nat),
      exec (.coreRstGo (.policy h false b)) s = .next (s.denyWrite (.policy h false b) R.CORESYS.CORE_RST_GO))
  ∧ (∀ (s : State),
      s.core.inReset = true →
      s.domOn 4 = true →
      s.coreHeld = false →
      exec (.coreResetRelease) s = .next (s.coreRelease))
  ∧ (∀ (s : State) (hart : Nat),
      hart < 10 →
      s.mtimecmp hart ≤ s.mono →
      s.core.timers.contains hart = false →
      exec (.machineTimerInterrupt hart) s = .next (s.mCore fun x => { x with timers := x.timers ++ [hart] }))
  ∧ (∀ (s u : State) (who : Initiator) (k : Nat) (y : AdmSlot),
      Reaches s who R.ADMQ.ADM_TAKE_TAKE 0 u →
      u.admOldest = some (k, y) →
      exec (.admTake who) s = .next ((u.mCore fun x => { x with adm := x.adm.set none k (some { y with st := 2 }) }).admShow))
  ∧ (∀ (s u v : State) (who : Initiator) (value : Nat) (y : AdmSlot) (d : Cmd),
      Reaches s who R.ADMQ.ADM_CPL_GO 0 u →
      bit value 31 = true →
      u.armed = [] →
      u.core.adm.get none (bits value 0 6) = some y →
      y.st = 2 →
      u.cmdOf y.uid = some d →
      statusReserved (bits value 8 3) (bits value 16 8) = false →
      statusListed (bits value 8 3) (bits value 16 8) = true →
      v = (u.set R.ADMQ.ADM_CPL_RES_CODE 0).dropAdm d.uid →
      exec (.admCplGo who value) s = .next (v.complete d (bits value 8 3) (bits value 16 8) (bit value 24) (v.rd R.ADMQ.ADM_CPL_DW0_VALUE) [] (v.rd R.ADMQ.ADM_CPL_DW1_VALUE) (bit value 25)))
  ∧ (∀ (s u : State) (who : Initiator) (value code : Nat),
      Reaches s who R.ADMQ.ADM_CPL_GO 0 u →
      bit value 31 = true →
      u.armed = [] →
      (code = (if (u.core.adm.get none (bits value 0 6)).all (fun y => decide (y.st ≠ 2) || (u.cmdOf y.uid).isNone) then 1 else if statusReserved (bits value 8 3) (bits value 16 8) then 2 else if statusListed (bits value 8 3) (bits value 16 8) then 0 else 3)) →
      code ≠ 0 →
      exec (.admCplGo who value) s = .next ((u.set R.ADMQ.ADM_CPL_RES_CODE code).refuse 1 (initCode who) (initHart who) (regAddr who (pageOf R.ADMQ.ADM_CPL_GO 0) R.ADMQ.ADM_CPL_GO.off)))

/-- Operations and reads of code flash complete. A firmware erase or program that passes its checks waits for its bank,
and one that does not shows the code of the first check it fails; the end of an operation changes the array, tells its
writer and lets the next operation begin; a long operation is suspended for a read; a core reads the word it
addresses, or zero from DEVREC and the execute-only windows, which are counted and recorded. -/
def Obligations.CodeFlashCommandsComplete : Prop :=
  (∀ (s v : State) (who : Initiator) (a : Nat),
      mayWrite R.CFLASH.FL_CMD_OP who = true →
      s.rd R.CFLASH.FL_STAT_BUSY = 0 →
      s.armed = [] →
      s.flCode who true (s.rd R.CFLASH.FL_ADDR_ADDR) false = 0 →
      a = s.rd R.CFLASH.FL_ADDR_ADDR →
      v = (s.set R.CFLASH.FL_STAT_CODE 0).wr R.CFLASH.FL_STAT_BUSY 1 →
      exec (.flCmdErase who) s = .next (v.flAsk { rank := 4, op := 1, sector := a / 512, addr := a, words := [], from_ := 0 }))
  ∧ (∀ (s v : State) (who : Initiator) (a code : Nat),
      mayWrite R.CFLASH.FL_CMD_OP who = true →
      s.rd R.CFLASH.FL_STAT_BUSY = 0 →
      s.armed = [] →
      s.flCode who true (s.rd R.CFLASH.FL_ADDR_ADDR) false = code →
      code ≠ 0 →
      a = s.rd R.CFLASH.FL_ADDR_ADDR →
      (v = (s.set R.CFLASH.FL_STAT_CODE code).count (if code = 2 then R.CFLASH.REFUSED_SELF_BANK else R.CFLASH.REFUSED_OTHER)) →
      exec (.flCmdErase who) s = .next (if code = 1 then v.refuse 8 (initCode who) (initHart who) (8 * a) false else v))
  ∧ (∀ (s v : State) (who : Initiator) (a : Nat),
      mayWrite R.CFLASH.FL_CMD_OP who = true →
      s.rd R.CFLASH.FL_STAT_BUSY = 0 →
      s.armed = [] →
      s.flCode who false (s.rd R.CFLASH.FL_ADDR_ADDR) false = 0 →
      a = s.rd R.CFLASH.FL_ADDR_ADDR →
      v = (s.set R.CFLASH.FL_STAT_CODE 0).wr R.CFLASH.FL_STAT_BUSY 1 →
      exec (.flCmdProgram who) s = .next (v.flAsk { rank := 4, op := 2, sector := a / 512, addr := a, words := [v.rd64 R.CFLASH.FL_WDATA_LO_VALUE R.CFLASH.FL_WDATA_HI_VALUE], from_ := 0 }))
  ∧ (∀ (s v : State) (who : Initiator) (a code : Nat),
      mayWrite R.CFLASH.FL_CMD_OP who = true →
      s.rd R.CFLASH.FL_STAT_BUSY = 0 →
      s.armed = [] →
      s.flCode who false (s.rd R.CFLASH.FL_ADDR_ADDR) false = code →
      code ≠ 0 →
      a = s.rd R.CFLASH.FL_ADDR_ADDR →
      (v = (s.set R.CFLASH.FL_STAT_CODE code).count (if code = 2 then R.CFLASH.REFUSED_SELF_BANK else R.CFLASH.REFUSED_OTHER)) →
      exec (.flCmdProgram who) s = .next (if code = 1 then v.refuse 8 (initCode who) (initHart who) (8 * a) false else v))
  ∧ (∀ (s u v : State) (bank : Nat) (y : FlOp),
      s.cf.run.get none bank = some y →
      s.flSuspended bank = false →
      (u = (if y.rank = 2 then (s.flIdle bank).permDone true else (s.flIdle bank).mNv fun n => if y.op = 1 then n.eraseSector y.sector else n.programWords y.addr y.words)) →
      (v = (if y.rank = 4 then u.set R.CFLASH.FL_STAT_BUSY 0 else u)) →
      exec (.flashOperationComplete bank) s = .next ((if y.rank = 3 then v.gateStep y else v).flNext bank))
  ∧ (∀ (s : State) (bank : Nat) (y : FlOp),
      s.cf.run.get none bank = some y →
      s.flSuspended bank = false →
      (y.op ≠ 2 ∨ 2 ≤ y.words.length) →
      (y.from_ + (if y.op = 1 then 50000 else 5000) ≤ s.mono) →
      exec (.flashOperationSuspend bank) s = .next (s.mCf fun x => { x with susp := x.susp.set none bank (some s.mono), run := x.run.set none bank (some { y with from_ := s.mono + 2000 }) }))
  ∧ (∀ (s : State) (who : Initiator) (addr d : Nat),
      s.dst ≠ 0 →
      addr / 8 < 4194304 →
      s.armed = [] →
      inDevrec (addr / 4096) = false →
      s.execOnly (addr / 4096) = false →
      s.flashWord (addr / 8) = some d →
      exec (.codeFlashDataRead who addr) s = .next (s.answer [d]))
  ∧ (∀ (s : State) (who : Initiator) (addr : Nat),
      s.dst ≠ 0 →
      addr / 8 < 4194304 →
      s.armed = [] →
      inDevrec (addr / 4096) = true →
      exec (.codeFlashDataRead who addr) s = .next (((s.count R.CFLASH.DEVREC_READ_COUNT).flashNote 0x2E3 (addr / 8) who).answer [0]))
  ∧ (∀ (s : State) (who : Initiator) (addr : Nat),
      s.dst ≠ 0 →
      addr / 8 < 4194304 →
      s.armed = [] →
      inDevrec (addr / 4096) = false →
      s.execOnly (addr / 4096) = true →
      exec (.codeFlashDataRead who addr) s = .next (((s.count R.CFLASH.XO_READ_COUNT).flashNote 0x2E2 (addr / 8) who).answer [0]))

/-- Pieces, commits, slot writes and activations complete. The server of a source reports a piece, which is checked and
merged; the slot lock is released when it is held too long; a commit of an image, where the Gate is free, makes its
checks and begins with the erase of the header sector, and a commit of a role changes the roles at once; a pumped word
is queued; a slot written whole is verified, and its commit ends or its image is activated; new firmware that is ready
ends the activation, and one that is not ready in time is abandoned. -/
def Obligations.FirmwareUpdatesComplete : Prop :=
  (∀ (s : State) (who : Initiator),
      serves who (s.rd R.GATE.PIECE_SRC) = true →
      exec (.pieceReport who) s = .next (s.reportPiece (s.rd R.GATE.PIECE_SRC)))
  ∧ (∀ (s : State),
      s.rd R.GATE.LOCK_HELD = 1 →
      s.cf.commit = none →
      exec (.slotLockHoldExpiry) s = .next (s.releaseLock (s.rd R.GATE.LOCK_SRC)))
  ∧ (∀ (s u : State) (who : Initiator) (slot k : Nat),
      serves who (s.rd R.GATE.COMMIT_SRC) = true →
      s.cf.commit = none →
      s.cf.recOpen = false →
      s.dst ≠ 6 →
      slot = s.rd R.GATE.COMMIT_SLOT →
      slot ≤ 2 →
      s.updateBar (s.rd R.GATE.COMMIT_SRC) 4 5 = none →
      s.downloaded (s.rd R.GATE.COMMIT_SRC) = true →
      s.rd R.GATE.LOCK_HELD = 1 →
      k = s.commitSlot slot →
      k ≠ 0 →
      s.slotRuns k = false →
      s.hasRole k = false →
      u = ((s.wr R.GATE.COMMIT_RES_BUSY 1).wr R.GATE.PUMP_STAT_SPACE 64).wr R.GATE.PUMP_STAT_WORDS 0 →
      exec (.commitAction000b who) s = .next ((u.mCf fun x => { x with commit := some { action := 0, slot := k, src := s.rd R.GATE.COMMIT_SRC, total := u.rd R.GATE.STG_LEN_DWORDS 0 (s.rd R.GATE.COMMIT_SRC) / 2 } }).flAsk { rank := 3, op := 1, sector := slotSector k, addr := slotSector k * 512, words := [], from_ := 0 }))
  ∧ (∀ (s : State) (who : Initiator),
      serves who (s.rd R.GATE.COMMIT_SRC) = true →
      (s.cf.commit.isSome = true ∨ s.cf.recOpen = true ∨ s.dst = 6) →
      exec (.commitAction000b who) s = .next (s.count R.GATE.GATE_REFUSED_COUNT))
  ∧ (∀ (s u : State) (who : Initiator) (slot k : Nat),
      serves who (s.rd R.GATE.COMMIT_SRC) = true →
      s.cf.commit = none →
      s.cf.recOpen = false →
      s.dst ≠ 6 →
      slot = s.rd R.GATE.COMMIT_SLOT →
      slot ≤ 2 →
      s.updateBar (s.rd R.GATE.COMMIT_SRC) 4 5 = none →
      s.downloaded (s.rd R.GATE.COMMIT_SRC) = true →
      s.rd R.GATE.LOCK_HELD = 1 →
      k = s.commitSlot slot →
      k ≠ 0 →
      s.slotRuns k = false →
      s.hasRole k = false →
      u = ((s.wr R.GATE.COMMIT_RES_BUSY 1).wr R.GATE.PUMP_STAT_SPACE 64).wr R.GATE.PUMP_STAT_WORDS 0 →
      exec (.commitAction001b who) s = .next ((u.mCf fun x => { x with commit := some { action := 1, slot := k, src := s.rd R.GATE.COMMIT_SRC, total := u.rd R.GATE.STG_LEN_DWORDS 0 (s.rd R.GATE.COMMIT_SRC) / 2 } }).flAsk { rank := 3, op := 1, sector := slotSector k, addr := slotSector k * 512, words := [], from_ := 0 }))
  ∧ (∀ (s : State) (who : Initiator),
      serves who (s.rd R.GATE.COMMIT_SRC) = true →
      (s.cf.commit.isSome = true ∨ s.cf.recOpen = true ∨ s.dst = 6) →
      exec (.commitAction001b who) s = .next (s.count R.GATE.GATE_REFUSED_COUNT))
  ∧ (∀ (s u : State) (who : Initiator) (slot k : Nat),
      serves who (s.rd R.GATE.COMMIT_SRC) = true →
      s.cf.commit = none →
      s.cf.recOpen = false →
      s.dst ≠ 6 →
      slot = s.rd R.GATE.COMMIT_SLOT →
      slot ≤ 2 →
      s.updateBar (s.rd R.GATE.COMMIT_SRC) 4 5 = none →
      s.downloaded (s.rd R.GATE.COMMIT_SRC) = true →
      s.rd R.GATE.LOCK_HELD = 1 →
      k = s.commitSlot slot →
      k ≠ 0 →
      s.slotRuns k = false →
      s.hasRole k = false →
      s.allowance ≠ 0 →
      s.dst = 4 →
      u = ((s.wr R.GATE.COMMIT_RES_BUSY 1).wr R.GATE.PUMP_STAT_SPACE 64).wr R.GATE.PUMP_STAT_WORDS 0 →
      exec (.commitAction011b who) s = .next ((u.mCf fun x => { x with commit := some { action := 3, slot := k, src := s.rd R.GATE.COMMIT_SRC, total := u.rd R.GATE.STG_LEN_DWORDS 0 (s.rd R.GATE.COMMIT_SRC) / 2 } }).flAsk { rank := 3, op := 1, sector := slotSector k, addr := slotSector k * 512, words := [], from_ := 0 }))
  ∧ (∀ (s : State) (who : Initiator),
      serves who (s.rd R.GATE.COMMIT_SRC) = true →
      (s.cf.commit.isSome = true ∨ s.cf.recOpen = true ∨ s.dst = 6) →
      exec (.commitAction011b who) s = .next (s.count R.GATE.GATE_REFUSED_COUNT))
  ∧ (∀ (s : State) (who : Initiator) (slot k src : Nat),
      serves who (s.rd R.GATE.COMMIT_SRC) = true →
      s.cf.commit = none →
      s.cf.recOpen = false →
      s.dst ≠ 6 →
      slot = s.rd R.GATE.COMMIT_SLOT →
      slot ≤ 2 →
      s.updateBar (s.rd R.GATE.COMMIT_SRC) 4 5 = none →
      src = s.rd R.GATE.COMMIT_SRC →
      k = s.commitSlot slot →
      k ≠ 0 →
      exec (.commitAction010b who) s = .next (if s.nv.desc.trial = k ∧ s.rd R.GATE.BOOT_INFO_RUN_POLICY = k then (s.appendDesc fun d => { d with current := k, trial := 0, boots := 0 }).commitDone src 0 0 false
        else if s.nv.desc.current = k ∧ s.rd R.GATE.BOOT_INFO_RUN_POLICY = k then s.commitDone src 0 0 false
        else if s.rd R.GATE.SLOT_INFO_VALID 0 k = 1 then (s.appendDesc fun d => { d with next := k }).commitDone src 0 0 false
        else s.commitDone src 2 0 false))
  ∧ (∀ (s : State) (who : Initiator) (hi : Nat) (y : Commit),
      s.cf.commit = some y →
      serves who y.src = true →
      y.activating = false →
      y.queue.length < 64 →
      y.taken + y.queue.length < y.total →
      exec (.pumpWrite who hi) s = .next (((s.mCf fun x => { x with commit := some { y with queue := y.queue ++ [s.rd R.GATE.PUMP_LO_VALUE + hi % 2 ^ 32 * 2 ^ 32] } }).wr R.GATE.PUMP_STAT_WORDS (s.rd R.GATE.PUMP_STAT_WORDS + 1)).gateGo))
  ∧ (∀ (s u : State) (y : Commit),
      s.cf.commit = some y →
      y.written = true →
      y.activating = false →
      s.armed = [] →
      u = (s.showSlot y.slot (s.slotValid y.slot)).showTested →
      exec (.slotWriteComplete) s = .next (if u.rd R.GATE.SLOT_INFO_VALID 0 y.slot = 0 then u.commitDone y.src 2 0 true
        else if y.action = 0 then u.commitDone y.src 0 0 true
        else if u.rd R.GATE.SLOT_INFO_TESTED 0 y.slot = 0 then u.commitDone y.src 2 0 true
        else if y.action = 1 then (u.appendDesc fun d => { d with next := y.slot }).commitDone y.src 0 0 true
        else match u.updateBar y.src 4 5 with
          | some (code, reason) => u.commitDone y.src code reason true
          | none => if u.allowance = 0 ∨ u.dst ≠ 4 then u.commitDone y.src 6 0 true else u.activate y))
  ∧ (∀ (s u : State) (who : Initiator) (y : Commit),
      mayWrite R.GATE.ACT_READY_READY who = true →
      s.cf.commit = some y →
      y.activating = true →
      s.dst = 5 →
      s.core.inReset = false →
      u = s.wr R.DEVSTATE.QZ_LAST_PAUSE ((s.mono - y.started) / 100) →
      exec (.actReady who) s = .next (((u.serve 0x15).commitDone y.src 0 0 true).appendDesc fun d => { d with trial := y.slot, boots := 0 }))
  ∧ (∀ (s u v : State) (y : Commit),
      s.cf.commit = some y →
      y.activating = true →
      s.dst = 5 →
      (u = (s.mCore fun x => { x with inReset := false }).startImage s.cf.prevPolicy s.cf.prevMgmt s.cf.prevMicro) →
      v = ((u.wr R.DEVSTATE.QZ_LAST_PAUSE ((u.mono - y.started) / 100)).wr R.DEVSTATE.QZ_LAST_ABANDONED 1).record 8 0x2E1 [y.slot, y.allow, 0, 0] →
      exec (.activationAllowanceExpiry) s = .next ((v.serve 0x16).commitDone y.src 7 0 true))

/-- Configuration records and the owner lock complete. A record is opened, filled, ended with its checks and written to
both copies, or cancelled; a second one, or one during a commit, is counted as refused; the NVMe-MI window writes the
owner lock, and the read-only cause and mode follow. -/
def Obligations.ConfigurationRecordsComplete : Prop :=
  (∀ (s u : State) (who : Initiator),
      mayWrite R.GATE.REC_CMD_OP who = true →
      s.cf.commit = none →
      s.cf.recOpen = false →
      s.dst ≠ 6 →
      (u = s.mCf fun x => { x with recOpen := true, recWords := [] }) →
      exec (.recCmdBegin who) s = .next (((u.set R.GATE.REC_RES_CODE 0).wr R.GATE.REC_RES_BUSY 1).wr R.GATE.PUMP_STAT_WORDS 0))
  ∧ (∀ (s : State) (who : Initiator),
      mayWrite R.GATE.REC_CMD_OP who = true →
      (s.cf.commit.isSome = true ∨ s.cf.recOpen = true ∨ s.dst = 6) →
      exec (.recCmdBegin who) s = .next (s.count R.GATE.GATE_REFUSED_COUNT))
  ∧ (∀ (s u : State) (who : Initiator) (r : CfgRec),
      mayWrite R.GATE.REC_CMD_OP who = true →
      s.cf.commit = none →
      s.cf.recOpen = true →
      r = { type := s.rd R.GATE.REC_TYPE_TYPE, format := s.rd R.GATE.REC_TYPE_FORMAT, seq := s.nv.cfgSeq + 1, len := s.rd R.GATE.REC_LEN_BYTES, payload := s.cf.recWords } →
      s.rd R.GATE.OWNER_LOCK = 0 →
      (r.type < 0x100 ∨ s.cfgFormats.contains r.format = true) →
      r.payload.length = ceilDiv r.len 8 →
      (u = (if 65536 < cfgStart (cfgUsed 0 s.nv.cfgA) r.size + r.size then s.cfgCompact else s)) →
      exec (.recCmdEnd who) s = .next ((u.mNv fun n => { n with cfgA := n.cfgA ++ [r], cfgB := n.cfgB ++ [r], cfgSeq := r.seq }).recDone 0))
  ∧ (∀ (s : State) (who : Initiator),
      mayWrite R.GATE.REC_CMD_OP who = true →
      s.cf.commit = none →
      s.cf.recOpen = true →
      exec (.recCmdCancel who) s = .next (s.recDone 0))
  ∧ (∀ (s u v : State) (who : Initiator) (value : Bool),
      mayWrite R.GATE.OWNER_LOCK who = true →
      (u = (s.wr R.GATE.OWNER_LOCK (b2n value)).mNv fun n => { n with owner := value }) →
      u.mode 3 = false →
      (v = (u.wr R.DEVSTATE.RO_CAUSE_OWNER (b2n value)).mNv fun n => { n with roCause := if value then setBit n.roCause 2 else clrBit n.roCause 2 }) →
      exec (.ownerLockWrite who value) s = .next (if u.rd R.DEVSTATE.RO_CAUSE_OWNER = b2n value then v else if value then v.hwMode 4 0 0 else v.hwMode 0 4 0))
  ∧ (∀ (s : State) (who : Initiator) (hi : Nat),
      s.cf.commit = none →
      mayWrite R.GATE.PUMP_HI_VALUE who = true →
      s.cf.recOpen = true →
      exec (.pumpWrite who hi) s = .next ((s.mCf fun x => { x with recWords := x.recWords ++ [s.rd R.GATE.PUMP_LO_VALUE + hi % 2 ^ 32 * 2 ^ 32] }).wr R.GATE.PUMP_STAT_WORDS (s.rd R.GATE.PUMP_STAT_WORDS + 1)))

/-- Records, saves, freezes, cursors and the wall clock complete. WATCH stores the next record of the ports in round
robin; a save that is good keeps the unsaved records, one that fails is recorded; management firmware and the NVMe-MI
window release the fault freeze; each bank freezes and unfreezes, and a stretch ends at its limit; a firmware record
is posted, or refused with its code; a cursor goes to the oldest or newest record, WIN0 answers its first word, WIN15
its last and moves on; the wall clock is set; a bucket gains a token. -/
def Obligations.LogbookCommandsComplete : Prop :=
  (∀ (s : State) (i : Nat) (q : LogReq) (rest : List LogReq),
      nextPort s.log.ports (s.log.lastPort + 1) 117 = some i →
      s.log.ports.get [] i = q :: rest →
      exec (.recordStore) s = .next ((s.mLog fun l => { l with ports := l.ports.set [] i rest, lastPort := i, portDrop := l.portDrop.set false i false }).store q (s.log.portDrop.get false i)))
  ∧ (∀ (s u v : State) (saved : List LogRec),
      u = s.set R.LOG.LOG_STAT_SAVING 0 →
      saved = newest u.log.unsaved u.stored →
      (v = (u.mNv fun n => { n with ring := newest 65536 (n.ring ++ saved) }).mLog fun l => { l with unsaved := 0 }) →
      exec (.ringSave true) s = .next (match saved.getLast? with
        | some r => v.wr R.LOG.SAVED_SEQ_VALUE r.seq
        | none => v))
  ∧ (∀ (s : State),
      exec (.ringSave false) s = .next ((s.set R.LOG.LOG_STAT_SAVING 0).record 8 0x00B [0, 2, 0, 0]))
  ∧ (∀ (s : State) (who : Initiator),
      mayRelease who = true →
      s.rd R.LOG.LOG_STAT_FAULT_FROZEN ≠ 0 →
      exec (.faultRelease who) s = .next (((s.mLog fun l => { l with ring := newest 65536 s.stored, heldRing := [] }).wr R.LOG.LOG_STAT_FAULT_FROZEN 0).record 8 0x00A [initCode who, s.log.heldRing.length, 0, 0]))
  ∧ (∀ (s u : State) (who : Initiator) (b : Nat),
      b = logBank who →
      freezeRefused s = false →
      u = ((s.wr R.LOG.LOG_CTRL_FREEZE 1 0 b).wr R.LOG.LOG_STAT_FREEZE_BY (setBit (s.rd R.LOG.LOG_STAT_FREEZE_BY) (b - 1))).wr R.LOG.LOG_STAT_FROZEN 1 →
      exec (.logCtrlFreeze who true) s = .next (u.mLog fun l => if s.rd R.LOG.LOG_STAT_FROZEN = 0 then { l with stretchFrom := s.mono, stretchBanks := 2 ^ b, stretchEvents := 0 } else { l with stretchBanks := setBit l.stretchBanks b }))
  ∧ (∀ (s u : State) (who : Initiator) (b left : Nat),
      b = logBank who →
      left = clrBit (s.rd R.LOG.LOG_STAT_FREEZE_BY) (b - 1) →
      u = (s.wr R.LOG.LOG_CTRL_FREEZE 0 0 b).wr R.LOG.LOG_STAT_FREEZE_BY left →
      exec (.logCtrlFreeze who false) s = .next (if s.rd R.LOG.LOG_STAT_FREEZE_BY ≠ 0 ∧ left = 0 then endStretch u false else u))
  ∧ (∀ (s : State),
      s.rd R.LOG.LOG_STAT_FROZEN = 1 →
      exec (.freezeMaxExpiry) s = .next (endStretch s true))
  ∧ (∀ (s u : State) (who : Initiator) (b : Nat),
      mayWrite R.LOG.FW_POST_GO who = true →
      b = logBank who →
      s.rd R.LOG.FW_RES_CODE 0 b ≠ 4 →
      0x380 ≤ s.rd R.LOG.FW_CODE_CODE 0 b →
      u = s.wr R.LOG.FW_RES_CODE 4 0 b →
      exec (.fwPost who) s = .next (u.post (if b = 1 then 7 else 8) { code := s.rd R.LOG.FW_CODE_CODE 0 b, inj := false, source := 0x80 + (if b = 1 then initHart who else 8 + initHart who), at_ := s.mono, fw := true, snaps := [s.rd (R.LOG.FW_SNAP_VALUE 0) 0 b, s.rd (R.LOG.FW_SNAP_VALUE 1) 0 b, s.rd (R.LOG.FW_SNAP_VALUE 2) 0 b, s.rd (R.LOG.FW_SNAP_VALUE 3) 0 b] }))
  ∧ (∀ (s : State) (who : Initiator) (b : Nat),
      mayWrite R.LOG.FW_POST_GO who = true →
      b = logBank who →
      s.rd R.LOG.FW_RES_CODE 0 b ≠ 4 →
      s.rd R.LOG.FW_CODE_CODE 0 b < 0x380 →
      exec (.fwPost who) s = .next (s.set R.LOG.FW_RES_CODE 1 0 b))
  ∧ (∀ (s : State) (who : Initiator) (b : Nat),
      b = logBank who →
      s.rd R.LOG.CUR_AREA_AREA 0 b = 1 →
      exec (.curCmdOldest who) s = .next ((s.wr R.LOG.CUR_INDEX_INDEX 0 0 b).wr R.LOG.CUR_STAT_VALID (b2n (decide (0 < s.nv.perm.length))) 0 b))
  ∧ (∀ (s : State) (who : Initiator) (b : Nat) (r : LogRec),
      b = logBank who →
      s.rd R.LOG.CUR_AREA_AREA 0 b ≠ 1 →
      s.stored.head? = some r →
      exec (.curCmdOldest who) s = .next ((cursorTo s b r.epoch r.seq).wr R.LOG.CUR_STAT_VALID 1 0 b))
  ∧ (∀ (s : State) (who : Initiator) (b : Nat),
      b = logBank who →
      s.rd R.LOG.CUR_AREA_AREA 0 b ≠ 1 →
      s.stored = [] →
      exec (.curCmdOldest who) s = .next ((cursorTo s b (s.rd R.TIME.EPOCH_VALUE) s.headSeq).wr R.LOG.CUR_STAT_VALID 0 0 b))
  ∧ (∀ (s : State) (who : Initiator) (b : Nat),
      b = logBank who →
      s.rd R.LOG.CUR_AREA_AREA 0 b = 1 →
      exec (.curCmdNewest who) s = .next ((s.wr R.LOG.CUR_INDEX_INDEX (s.nv.perm.length - 1) 0 b).wr R.LOG.CUR_STAT_VALID (b2n (decide (0 < s.nv.perm.length))) 0 b))
  ∧ (∀ (s : State) (who : Initiator) (b : Nat) (r : LogRec),
      b = logBank who →
      s.rd R.LOG.CUR_AREA_AREA 0 b ≠ 1 →
      s.stored.getLast? = some r →
      exec (.curCmdNewest who) s = .next ((cursorTo s b r.epoch r.seq).wr R.LOG.CUR_STAT_VALID 1 0 b))
  ∧ (∀ (s : State) (who : Initiator) (b : Nat),
      b = logBank who →
      s.rd R.LOG.CUR_AREA_AREA 0 b ≠ 1 →
      s.stored = [] →
      exec (.curCmdNewest who) s = .next ((cursorTo s b (s.rd R.TIME.EPOCH_VALUE) s.headSeq).wr R.LOG.CUR_STAT_VALID 0 0 b))
  ∧ (∀ (s u : State) (who : Initiator),
      u = s.win0 (logBank who) →
      exec (.win0Read who) s = .next (u.answer [u.rd (R.LOG.WIN_VALUE 0) 0 (logBank who)]))
  ∧ (∀ (s : State) (who : Initiator),
      exec (.win15Read who) s = .next ((s.win15 (logBank who)).answer [s.rd (R.LOG.WIN_VALUE 15) 0 (logBank who)]))
  ∧ (∀ (s u : State) (who : Initiator) (ms y : Nat),
      mayWrite R.TIME.WALL_SET_HI_MS who = true →
      y = s.rd R.TIME.WALL_SET_LO_MS + ms % 2 ^ 16 * 2 ^ 32 →
      (u = ((s.mLog fun l => { l with wallOff := (y : Int) - (s.mono / 100000 : Nat) }).wr R.TIME.WALL_HI_VALID 1).count R.TIME.TIME_SETS_COUNT) →
      exec (.wallSetHi who ms) s = .next (u.recordNow 0x008 [(if s.rd R.TIME.WALL_HI_VALID = 1 then s.wallAt s.mono else s.mono / 100000 % 2 ^ 48) % 2 ^ 32, (if s.rd R.TIME.WALL_HI_VALID = 1 then s.wallAt s.mono else s.mono / 100000 % 2 ^ 48) / 2 ^ 32 + 0x10000 * initCode who, y % 2 ^ 32, y / 2 ^ 32]))
  ∧ (∀ (s : State) (code : Nat),
      exec (.rateBucketRefill code) s = .next (s.mLog fun l => { l with spent := l.spent.set 0 code (l.spent.get 0 code - 1) }))

/-- Arming and disarming complete. Arming a page shows the code of the first check that fails, counts and records the
refusal, or arms the point with its firings left and records it; arming a page whose point is armed offers MODE and
COUNT alone; a page is disarmed, and all pages are. -/
def Obligations.InjectionCommandsComplete : Prop :=
  (∀ (s u v w : State) (who : Initiator) (page mode count : Nat) (y : Armed),
      MayInject s who page u →
      mode < 4 →
      count < 256 →
      ((u.armed.any fun a => decide (a.page = page)) = false) →
      u.armCheck page mode count = 0 →
      v = ((u.set R.COMMON.INJ_CTRL_RESULT 0 page).wr R.COMMON.INJ_CTRL_MODE mode page).wr R.COMMON.INJ_CTRL_COUNT count page →
      (y = { page := page, point := v.rd R.COMMON.INJ_SEL_POINT page, sub := v.rd R.COMMON.INJ_SEL_SUB page, param := v.rd R.COMMON.INJ_SEL_PARAM page, mode := mode, left := if mode = 2 then 0xFF else if mode = 1 then count else 1 }) →
      (w = (((v.mArmed fun l => l ++ [y]).wr R.INJFAB.ARMED_COUNT (v.armed.length + 1)).wr R.COMMON.INJ_CTRL_ARM 1 page).wr R.COMMON.INJ_CTRL_LEFT y.left page) →
      exec (.injArm who page mode count) s = .next ((w.record 8 0x018 [page, w.injSel page, w.injCtrl page, initCode who]).evalNow page))
  ∧ (∀ (s u v w x : State) (who : Initiator) (page mode count code : Nat),
      MayInject s who page u →
      mode < 4 →
      count < 256 →
      ((u.armed.any fun a => decide (a.page = page)) = false) →
      code = u.armCheck page mode count →
      code ≠ 0 →
      v = u.set R.COMMON.INJ_CTRL_RESULT code page →
      (w = if code = 6 ∨ mode = 3 ∨ count = 0 then v else (v.wr R.COMMON.INJ_CTRL_MODE mode page).wr R.COMMON.INJ_CTRL_COUNT count page) →
      x = (w.count R.COMMON.INJ_COUNT_REFUSED page).count R.INJFAB.REFUSED_COUNT →
      exec (.injArm who page mode count) s = .next (x.record 8 0x018 [page, x.injSel page, x.injCtrl page, initCode who]))
  ∧ (∀ (s u : State) (who : Initiator) (page mode count : Nat),
      MayInject s who page u →
      mode < 4 →
      count < 256 →
      ((u.armed.any fun a => decide (a.page = page)) = true) →
      exec (.injArm who page mode count) s = .next ((u.injField who page R.COMMON.INJ_CTRL_MODE mode).injField who page R.COMMON.INJ_CTRL_COUNT count))
  ∧ (∀ (s u : State) (who : Initiator) (page : Nat),
      MayInject s who page u →
      exec (.injDisarm who page) s = .next (u.disarm page 1))
  ∧ (∀ (s : State) (who : Initiator),
      mayWrite R.INJFAB.DISARM_ALL who = true →
      exec (.disarmAll who) s = .next ((s.armed.map fun a => a.page).foldl (fun t p => t.disarm p 9) s))

/-- Reads and writes of registers, by a core and through the NVMe-MI window, complete. A read that its page answers gives
the word, with its pair latched and its read-to-clear fields cleared as the word asks; one that the page or the domain
refuses answers as they say; a write that a row of the table acts through does what the row does, and any other loads
the fields of its word; an access of a wrong index, width or alignment is recorded, and a bus error where it reads;
the window reads and writes its dwords in order, and answers status 04h where the span is not one of its own; another
NVMe-MI command goes to management firmware. -/
def Obligations.RegisterAccessesComplete : Prop :=
  (∀ (s u v : State) (who : Initiator) (addr p off : Nat),
      regOf who addr = some (p, off) →
      Shows s who p off u →
      (¬(p = 0x18 ∧ off = 0x15C)) →
      v = (u.readWord who (s.isl.gated.contains (pageIsland p)) p off).2 →
      exec (.rcFieldRead who addr) s = .next (v.answer [(u.readWord who (s.isl.gated.contains (pageIsland p)) p off).1]))
  ∧ (∀ (s u v : State) (who : Initiator) (addr p off : Nat),
      regOf who addr = some (p, off) →
      Shows s who p off u →
      (¬(p = 0x18 ∧ off = 0x15C)) →
      v = (u.readWord who (s.isl.gated.contains (pageIsland p)) p off).2 →
      exec (.loWordRead who addr) s = .next (v.answer [(u.readWord who (s.isl.gated.contains (pageIsland p)) p off).1]))
  ∧ (∀ (s : State) (who : Initiator) (addr p off : Nat),
      regOf who addr = some (p, off) →
      isPage p = true →
      off % 4 = 0 →
      who ≠ .mi →
      s.answers p = false →
      exec (.registerReadRefused who addr) s = .next ((s.offAccess who p off false).busError))
  ∧ (∀ (s u : State) (who : Initiator) (addr p off : Nat),
      regOf who addr = some (p, off) →
      isPage p = true →
      off % 4 = 0 →
      who ≠ .mi →
      s.answers p = true →
      ((s.crossTo (initIsland who) p).ownCheck who p off).1 = true →
      u = ((s.crossTo (initIsland who) p).ownCheck who p off).2 →
      exec (.registerReadRefused who addr) s = .next (u.answer [0]))
  ∧ (∀ (s : State) (who : Initiator) (addr p off value : Nat) (t : State),
      regOf who addr = some (p, off) →
      isPage p = true →
      off % 4 = 0 →
      s.rowWrite who p off (value % 2 ^ 32) = some t →
      exec (.registerWrite who addr value) s = .next (t))
  ∧ (∀ (s u : State) (who : Initiator) (addr p off value : Nat),
      regOf who addr = some (p, off) →
      off % 4 = 0 →
      s.rowWrite who p off (value % 2 ^ 32) = none →
      Opens s who p off u →
      exec (.registerWrite who addr value) s = .next (u.plainWrite who p off (value % 2 ^ 32)))
  ∧ (∀ (s : State) (who : Initiator) (addr p off width : Nat) (write : Bool),
      regOf who addr = some (p, off) →
      isPage p = false →
      exec (.pageAccessFault who addr width write) s = .next ((s.record (initIsland who) 0x022 [p, off, width, initCode who]).busError))
  ∧ (∀ (s u : State) (who : Initiator) (addr p off width : Nat) (write : Bool),
      regOf who addr = some (p, off) →
      isPage p = true →
      (width ≠ 4 ∨ off % 4 ≠ 0) →
      s.answers p = true →
      u = (s.crossTo (initIsland who) p).record (pageIsland p) 0x022 [p, off, width, initCode who] →
      exec (.pageAccessFault who addr width write) s = .next (if write then u else u.busError))
  ∧ (∀ (s : State) (nmd0 nmd1 p first n : Nat),
      s.dst ≠ 0 →
      miSpan nmd0 nmd1 = some (p, first, n) →
      exec (.miRegisterRead nmd0 nmd1) s = .next ((s.miReadDwords p first n).2.2.miAnswer 0 (s.miReadDwords p first n).2.1 (s.miReadDwords p first n).1))
  ∧ (∀ (s : State) (nmd0 nmd1 : Nat),
      s.dst ≠ 0 →
      miSpan nmd0 nmd1 = none →
      exec (.miRegisterRead nmd0 nmd1) s = .next (s.miAnswer 4 0 []))
  ∧ (∀ (s : State) (nmd0 nmd1 p first n : Nat) (data : List Nat),
      s.dst ≠ 0 →
      miSpan nmd0 nmd1 = some (p, first, n) →
      data.length = n →
      exec (.miRegisterWrite nmd0 nmd1 data) s = .next ((s.miWriteDwords p first data).2.miAnswer 0 (s.miWriteDwords p first data).1 []))
  ∧ (∀ (s : State) (nmd0 nmd1 : Nat) (data : List Nat),
      s.dst ≠ 0 →
      ((miSpan nmd0 nmd1).all (fun e => decide (data.length ≠ e.2.2)) = true) →
      exec (.miRegisterWrite nmd0 nmd1 data) s = .next (s.miAnswer 4 0 []))
  ∧ (∀ (s : State) (opcode : Nat),
      s.dst ≠ 0 →
      opcode ≠ 0xC0 →
      opcode ≠ 0xC1 →
      s.dev.mgmtUp = true →
      exec (.miOtherCommand opcode) s = .next (s.mBus fun b => { b with miPassed := b.miPassed ++ [opcode] }))

/-- The common registers of a page complete. By an initiator that may write them: SOFT_CLEAR clears the events and the
counter; a one in EVT_PEND clears its event; a one in EVT_FORCE raises its event together with FORCED; PAGE_LOCK locks
the page with the code of its locker; CNT_SEL selects an event and starts its counter at 0; VOTE writes the bit of the
page domain in the vote register of the writer. -/
def Obligations.CommonRegistersComplete : Prop :=
  (∀ (s u : State) (who : Initiator) (page : Nat),
      Opens s who page 0x008 u →
      mayTouch who page R.COMMON.PAGE_CTRL_SOFT_CLEAR = true →
      exec (.softClear who page) s = .next ((u.wr R.COMMON.EVT_RAW_EVENTS 0 page).wr R.COMMON.CNT_VAL_COUNT 0 page))
  ∧ (∀ (s u : State) (who : Initiator) (page mask : Nat),
      Opens s who page 0x018 u →
      mayTouch who page R.COMMON.EVT_PEND_PEND = true →
      exec (.evtPendClear who page mask) s = .next (u.wr R.COMMON.EVT_RAW_EVENTS (without (u.rd R.COMMON.EVT_RAW_EVENTS page) mask) page))
  ∧ (∀ (s u : State) (who : Initiator) (page mask : Nat),
      Opens s who page 0x01C u →
      mayTouch who page R.COMMON.EVT_FORCE_FORCE = true →
      mask % 256 ≠ 0 →
      exec (.evtForce who page mask) s = .next (((List.range 7).foldl (fun (t : State) e => if bit mask e then t.raise page e else t) u).raise page 7))
  ∧ (∀ (s u : State) (who : Initiator) (page : Nat),
      Opens s who page 0x02C u →
      page ≠ 0x0A →
      u.rd R.COMMON.PAGE_LOCK_LOCK page ≠ 1 →
      mayLock who page = true →
      exec (.pageLock who page) s = .next ((u.wr R.COMMON.PAGE_LOCK_LOCK 1 page).wr R.COMMON.PAGE_LOCK_BY (lockCode who) page))
  ∧ (∀ (s u : State) (who : Initiator) (page event : Nat),
      Opens s who page 0x040 u →
      mayTouch who page R.COMMON.CNT_SEL_EVENT = true →
      exec (.cntSelWrite who page event) s = .next ((u.wr R.COMMON.CNT_SEL_EVENT (event % 8) page).wr R.COMMON.CNT_VAL_COUNT 0 page))
  ∧ (∀ (s u : State) (who : Initiator) (page d : Nat) (vote : Bool),
      Opens s who page 0x008 u →
      d = islandDomain (pageIsland page) →
      d ≠ 0 →
      bit (u.rd (voteField who)) d ≠ vote →
      mayTouch who page R.COMMON.PAGE_CTRL_VOTE = true →
      exec (.pageCtrlVote who page vote) s = .next (u.voteWrite who (voteField who) (if vote then setBit (u.rd (voteField who)) d else clrBit (u.rd (voteField who)) d)))

/-- The instructions of the test access port and the trace events complete. While WATCH has power: EXTEST drives the cells
shifted in, or those preloaded, and SAMPLE/PRELOAD captures and preloads, in board test mode, and select the bypass
register outside it; IDCODE selects the identity; BYPASS and every other code the bypass register; KTR_CFG is applied,
followed by a SYNC packet where it enables the trace, which needs DIAGNOSE or the development fuse; KTR_STAT captures
the status; the trigger input makes a record; the periodic SYNC is sent while the trace is enabled. -/
def Obligations.TestAndTracePortsComplete : Prop :=
  (∀ (s : State) (cells : List Nat),
      s.dst ≠ 0 →
      s.dev.boardTest = true →
      exec (.extest cells) s = .next (s.mJtag fun j => { j with ir := 0x00, driven := if cells = [] then j.preload else cells }))
  ∧ (∀ (s : State) (cells : List Nat),
      s.dst ≠ 0 →
      s.dev.boardTest = false →
      exec (.extest cells) s = .next (s.mJtag fun j => { j with ir := 0x00, shift := 0, driven := [] }))
  ∧ (∀ (s : State) (captured preload : List Nat),
      s.dst ≠ 0 →
      s.dev.boardTest = true →
      exec (.samplePreload captured preload) s = .next (s.mJtag fun j => { j with ir := 0x01, captured := captured, preload := preload, driven := [] }))
  ∧ (∀ (s : State) (captured preload : List Nat),
      s.dst ≠ 0 →
      s.dev.boardTest = false →
      exec (.samplePreload captured preload) s = .next (s.mJtag fun j => { j with ir := 0x01, shift := 0, driven := [] }))
  ∧ (∀ (s : State),
      s.dst ≠ 0 →
      exec (.idcode) s = .next (s.mJtag fun j => { j with ir := 0x02, shift := 0xA9624A7B, driven := [] }))
  ∧ (∀ (s : State) (code : Nat),
      s.dst ≠ 0 →
      exec (.bypass code) s = .next (s.mJtag fun j => { j with ir := code % 256, shift := 0, driven := [] }))
  ∧ (∀ (s u : State) (value : Nat),
      s.dst ≠ 0 →
      bit (value % 2 ^ 20) 0 = false →
      (u = s.mJtag fun j => { j with ir := 0x20, shift := value % 2 ^ 32, driven := [] }) →
      exec (.ktrCfg value) s = .next (u.mJtag fun j => { j with ktrCfg := value % 2 ^ 20 }))
  ∧ (∀ (s u : State) (value : Nat),
      s.dst ≠ 0 →
      bit (value % 2 ^ 20) 0 = true →
      (u = s.mJtag fun j => { j with ir := 0x20, shift := value % 2 ^ 32, driven := [] }) →
      exec (.ktrCfg value) s = .next (if s.mode 5 = false ∧ Config.devFuse = false then u.mJtag fun j => { j with ktrStat := setBit j.ktrStat 18 } else (u.mJtag fun j => { j with ktrCfg := value % 2 ^ 20, ktrStat := 0 }).sync))
  ∧ (∀ (s : State),
      s.dst ≠ 0 →
      exec (.ktrStat) s = .next (s.mJtag fun j => { j with ir := 0x21, shift := ktrWord j, driven := [] }))
  ∧ (∀ (s : State),
      s.dst ≠ 0 →
      exec (.ktrTrigIn) s = .next (s.record 8 0x01B [0, 0, 0, 0]))
  ∧ (∀ (s : State),
      s.dst ≠ 0 →
      bit s.jtag.ktrCfg 0 = true →
      exec (.ktrSync) s = .next (s.sync))

/-- TRST_N resets the test access port and nothing else. TRST_N selects IDCODE with its identity in the shift register and
lets go of the balls; every other part of the state, on every island, is as before. Without WATCH power there is no
port to reset. -/
def Obligations.TrstResetsOnlyTheTestAccessPort : Prop :=
  (∀ (s : State),
      s.dst ≠ 0 →
      exec (.trstNAssert) s = .next ({ s with jtag := { s.jtag with ir := 0x02, shift := 0xA9624A7B, driven := [] } }))
  ∧ (∀ (s : State),
      s.dst = 0 →
      exec (.trstNAssert) s = .next (s))

/-- A vote register is written by its owner alone. With no injection point armed, for every initiator and every set of
domains: a write of POL_VOTE or MGT_VOTE by an initiator that may write it loads the domains it names, WATCH never
among them, and is then treated under R481; by any other it leaves the register as it was, and is counted in
POWER.VOTE_REFUSED and under limit 7. Policy firmware may write POL_VOTE and not MGT_VOTE; management firmware
MGT_VOTE and not POL_VOTE. -/
def Obligations.OnlyItsOwnerWritesAVote : Prop :=
  (∀ (s : State) (who : Initiator) (domains : Nat), s.armed = [] →
      exec (.polVoteWrite who domains) s = .next (if mayWrite R.POWER.POL_VOTE_DOMAINS who then
          (s.wr R.POWER.POL_VOTE_DOMAINS (clrBit (domains % 2 ^ 17) 0)).heedVotes
        else (s.count R.POWER.VOTE_REFUSED_COUNT).refuse 7 (initCode who) (initHart who)
          (regAddr who (pageOf R.POWER.POL_VOTE_DOMAINS 0) R.POWER.POL_VOTE_DOMAINS.off))
      ∧ exec (.mgtVoteWrite who domains) s = .next (if mayWrite R.POWER.MGT_VOTE_DOMAINS who then
          (s.wr R.POWER.MGT_VOTE_DOMAINS (clrBit (domains % 2 ^ 17) 0)).heedVotes
        else (s.count R.POWER.VOTE_REFUSED_COUNT).refuse 7 (initCode who) (initHart who)
          (regAddr who (pageOf R.POWER.MGT_VOTE_DOMAINS 0) R.POWER.MGT_VOTE_DOMAINS.off)))
  ∧ (∀ (h b : Nat) (m : Bool), mayWrite R.POWER.POL_VOTE_DOMAINS (.policy h m b) = true
      ∧ mayWrite R.POWER.MGT_VOTE_DOMAINS (.policy h m b) = false
      ∧ mayWrite R.POWER.MGT_VOTE_DOMAINS (.mgmt h b) = true ∧ mayWrite R.POWER.POL_VOTE_DOMAINS (.mgmt h b) = false)

/-- A failed wake is handled as a watchdog expiry. A wake failure on a crossing into a gated island, and an expiry of the
watchdog of a crossing between powered islands, are both counted and latched with their ends, recorded, and cost the
device the same: what the table of R454 says of the crossing. They differ only in what they tell: whether it was a
wake. -/
def Obligations.AFailedWakeIsALostCrossing : Prop :=
  ∀ (s : State) (src dst : Nat) (wake : Bool), crossing src dst = true →
    (if wake then s.isl.gated.contains dst = true else s.islandOn src = true ∧ s.islandOn dst = true) →
    exec (if wake then .wakeFailure src dst else .crossingWatchdogExpiry src dst) s = .next
      ((((((s.count R.XCLK.XWD_FIRE_COUNT).wr R.XCLK.XWD_LAST_SRC src).wr R.XCLK.XWD_LAST_DST dst).wr
        R.XCLK.XWD_LAST_WAKE (b2n wake)).record 8 0x1C1 [src, dst, b2n wake, 0]).crossingLost src dst)

/-- A command to a page whose domain is off is answered by the crossing. For every command that is a register write into
another domain, every initiator and operand, and every state in which the domain of its page does not answer: the
write is counted and recorded on the side of its source, and nothing else happens. -/
def Obligations.AWriteIntoAnUnpoweredDomainIsDropped : Prop :=
  ∀ (s : State) (who : Initiator) (a b : Nat) (x y : Bool) (e : Instr × Field), CrossingWrite who a b x y e →
    s.answers (pageOf e.2 0) = false →
    exec e.1 s = .next ((s.count R.XCLK.OFF_ACCESS_COUNT).record (initIsland who) 0x1C2 [pageOf e.2 0, e.2.off, 1, initCode who])

/-- A command by an initiator that may not give it is counted under its limit and does nothing. For every command that is
a register write, every initiator that has no write path to its field, and every operand: the write is refused under
limit 15, in the state after its crossing where it crosses into another domain that answers, and nothing else happens. -/
def Obligations.AWriteWithoutTheRightIsCountedOnly : Prop :=
  (∀ (s : State) (who : Initiator) (a b : Nat) (x y : Bool) (e : Instr × Field), CrossingWrite who a b x y e →
      s.answers (pageOf e.2 0) = true → mayWrite e.2 who = false →
      exec e.1 s = .next ((s.crossTo (initIsland who) (pageOf e.2 0)).refuse 15 (initCode who) (initHart who)
        (regAddr who (pageOf e.2 0) e.2.off)))
  ∧ (∀ (s : State) (who : Initiator) (a b : Nat) (x : Bool) (e : Instr × Field), WatchWrite who a b x e →
      mayWrite e.2 who = false →
      exec e.1 s = .next (s.refuse 15 (initCode who) (initHart who) (regAddr who (pageOf e.2 0) e.2.off)))

/-- A device that is OFF lets the commands of a running device pass. The model's own choice (log entry 5), for a list of
commands that only a device with power can have: in OFF, where no instance of what they act on is held, each changes
nothing. -/
def Obligations.AnOffDeviceDoesNothing : Prop :=
  ∀ (s : State) (a b : Nat) (l : List Nat) (c : Instr), s.dst = 0 → s.core.inReset = true → s.dev.railStage = 0 → OffIdle a b l c →
    exec c s = .next s

end Slice0
end

