-- ==== Sys2Proof/Laws/Exec.lean ====
section
/-! SUPPORT. What exec does with each command is that command's meaning, one equation per command, so that a proof rewrites with
the one it needs and never opens the dispatch. -/

namespace Sys2Proof.Laws

open Sys2Proof Sys2Proof.Machine

@[simp] theorem exec_powerOnResetRelease (testEn : Bool) (s : State) : exec (.powerOnResetRelease testEn) s = execPowerOnResetRelease testEn s := rfl
@[simp] theorem exec_vddWatchLoss (s : State) : exec .vddWatchLoss s = execVddWatchLoss s := rfl
@[simp] theorem exec_strapSampleComplete (samples : List Nat) (s : State) : exec (.strapSampleComplete samples) s = execStrapSampleComplete samples s := rfl
@[simp] theorem exec_railStageValid (early : Nat) (s : State) : exec (.railStageValid early) s = execRailStageValid early s := rfl
@[simp] theorem exec_railEnableTimeout (rail : Nat) (s : State) : exec (.railEnableTimeout rail) s = execRailEnableTimeout rail s := rfl
@[simp] theorem exec_railOutOfWindow (rail : Nat) (s : State) : exec (.railOutOfWindow rail) s = execRailOutOfWindow rail s := rfl
@[simp] theorem exec_bootSlotChoice (s : State) : exec .bootSlotChoice s = execBootSlotChoice s := rfl
@[simp] theorem exec_ddr5TrainingComplete (gib mts ms : Nat) (s : State) : exec (.ddr5TrainingComplete gib mts ms) s = execDdr5TrainingComplete gib mts ms s := rfl
@[simp] theorem exec_wakeComplete (s : State) : exec .wakeComplete s = execWakeComplete s := rfl
@[simp] theorem exec_wakeTimerExpiry (s : State) : exec .wakeTimerExpiry s = execWakeTimerExpiry s := rfl
@[simp] theorem exec_selfTestPhaseComplete (transients firings : Nat) (fails : List (Nat × Nat)) (chans : List (List Nat)) (s : State) : exec (.selfTestPhaseComplete transients firings fails chans) s = execSelfTestPhaseComplete transients firings fails chans s := rfl
@[simp] theorem exec_selfTestComplete (ms : Nat) (s : State) : exec (.selfTestComplete ms) s = execSelfTestComplete ms s := rfl
@[simp] theorem exec_selfTestTimerExpiry (s : State) : exec .selfTestTimerExpiry s = execSelfTestTimerExpiry s := rfl
@[simp] theorem exec_rebuildPhaseComplete (ms : Nat) (bad : List Nat) (s : State) : exec (.rebuildPhaseComplete ms bad) s = execRebuildPhaseComplete ms bad s := rfl
@[simp] theorem exec_rebuildComplete (s : State) : exec .rebuildComplete s = execRebuildComplete s := rfl
@[simp] theorem exec_rebuildTimerExpiry (s : State) : exec .rebuildTimerExpiry s = execRebuildTimerExpiry s := rfl
@[simp] theorem exec_validWalkComplete (s : State) : exec .validWalkComplete s = execValidWalkComplete s := rfl
@[simp] theorem exec_powerFailDetect (comparator : Bool) (s : State) : exec (.powerFailDetect comparator) s = execPowerFailDetect comparator s := rfl
@[simp] theorem exec_holdupThresholdCrossing (fail up : Bool) (s : State) : exec (.holdupThresholdCrossing fail up) s = execHoldupThresholdCrossing fail up s := rfl
@[simp] theorem exec_bellUnitDurable (unit : Nat) (s : State) : exec (.bellUnitDurable unit) s = execBellUnitDurable unit s := rfl
@[simp] theorem exec_bellUnitFail (unit : Nat) (s : State) : exec (.bellUnitFail unit) s = execBellUnitFail unit s := rfl
@[simp] theorem exec_closingBellComplete (s : State) : exec .closingBellComplete s = execClosingBellComplete s := rfl
@[simp] theorem exec_closingBellTimerExpiry (s : State) : exec .closingBellTimerExpiry s = execClosingBellTimerExpiry s := rfl
@[simp] theorem exec_haltCtrlOrderly (by_ : Initiator) (s : State) : exec (.haltCtrlOrderly by_) s = execHaltCtrlOrderly by_ s := rfl
@[simp] theorem exec_haltCtrlRestart (by_ : Initiator) (s : State) : exec (.haltCtrlRestart by_) s = execHaltCtrlRestart by_ s := rfl
@[simp] theorem exec_restartDwellExpiry (s : State) : exec .restartDwellExpiry s = execRestartDwellExpiry s := rfl
@[simp] theorem exec_modeReq (by_ : Initiator) (set clear : Nat) (s : State) : exec (.modeReq by_ set clear) s = execModeReq by_ set clear s := rfl
@[simp] theorem exec_modeInstant (s : State) : exec .modeInstant s = execModeInstant s := rfl
@[simp] theorem exec_inServiceRise (level : Bool) (s : State) : exec (.inServiceRise level) s = execInServiceRise level s := rfl
@[simp] theorem exec_sqDoorbell (port sqid tail : Nat) (s : State) : exec (.sqDoorbell port sqid tail) s = execSqDoorbell port sqid tail s := rfl
@[simp] theorem exec_sqeArrival (port sqid cid opcode flags nsid : Nat) (dw : List Nat) (ranges : List (Nat × Nat)) (payload : List Nat) (s : State) : exec (.sqeArrival port sqid cid opcode flags nsid dw ranges payload) s = execSqeArrival port sqid cid opcode flags nsid dw ranges payload s := rfl
@[simp] theorem exec_intakeEvaluation (s : State) : exec .intakeEvaluation s = execIntakeEvaluation s := rfl
@[simp] theorem exec_returnWaitExpiry (port sqid cid : Nat) (s : State) : exec (.returnWaitExpiry port sqid cid) s = execReturnWaitExpiry port sqid cid s := rfl
@[simp] theorem exec_tokenRefill (s : State) : exec .tokenRefill s = execTokenRefill s := rfl
@[simp] theorem exec_rltBlockShift (s : State) : exec .rltBlockShift s = execRltBlockShift s := rfl
@[simp] theorem exec_deadlineFirstExpiry (port sqid cid : Nat) (s : State) : exec (.deadlineFirstExpiry port sqid cid) s = execDeadlineFirstExpiry port sqid cid s := rfl
@[simp] theorem exec_read (port sqid cid : Nat) (s : State) : exec (.read port sqid cid) s = execRead port sqid cid s := rfl
@[simp] theorem exec_write (port sqid cid : Nat) (s : State) : exec (.write port sqid cid) s = execWrite port sqid cid s := rfl
@[simp] theorem exec_flush (port sqid cid : Nat) (s : State) : exec (.flush port sqid cid) s = execFlush port sqid cid s := rfl
@[simp] theorem exec_flushComplete (port sqid cid : Nat) (s : State) : exec (.flushComplete port sqid cid) s = execFlushComplete port sqid cid s := rfl
@[simp] theorem exec_writeUncorrectable (port sqid cid : Nat) (s : State) : exec (.writeUncorrectable port sqid cid) s = execWriteUncorrectable port sqid cid s := rfl
@[simp] theorem exec_compare (port sqid cid : Nat) (s : State) : exec (.compare port sqid cid) s = execCompare port sqid cid s := rfl
@[simp] theorem exec_writeZeroes (port sqid cid : Nat) (s : State) : exec (.writeZeroes port sqid cid) s = execWriteZeroes port sqid cid s := rfl
@[simp] theorem exec_datasetManagement (port sqid cid : Nat) (s : State) : exec (.datasetManagement port sqid cid) s = execDatasetManagement port sqid cid s := rfl
@[simp] theorem exec_verify (port sqid cid : Nat) (s : State) : exec (.verify port sqid cid) s = execVerify port sqid cid s := rfl
@[simp] theorem exec_createIoSq (port cid : Nat) (s : State) : exec (.createIoSq port cid) s = execCreateIoSq port cid s := rfl
@[simp] theorem exec_deleteIoSq (port cid : Nat) (s : State) : exec (.deleteIoSq port cid) s = execDeleteIoSq port cid s := rfl
@[simp] theorem exec_createIoCq (port cid : Nat) (s : State) : exec (.createIoCq port cid) s = execCreateIoCq port cid s := rfl
@[simp] theorem exec_deleteIoCq (port cid : Nat) (s : State) : exec (.deleteIoCq port cid) s = execDeleteIoCq port cid s := rfl
@[simp] theorem exec_getLogPage (port cid : Nat) (s : State) : exec (.getLogPage port cid) s = execGetLogPage port cid s := rfl
@[simp] theorem exec_identify (port cid : Nat) (s : State) : exec (.identify port cid) s = execIdentify port cid s := rfl
@[simp] theorem exec_abort (port cid : Nat) (s : State) : exec (.abort port cid) s = execAbort port cid s := rfl
@[simp] theorem exec_setFeatures (port cid : Nat) (s : State) : exec (.setFeatures port cid) s = execSetFeatures port cid s := rfl
@[simp] theorem exec_getFeatures (port cid : Nat) (s : State) : exec (.getFeatures port cid) s = execGetFeatures port cid s := rfl
@[simp] theorem exec_modeControlSet (port cid : Nat) (s : State) : exec (.modeControlSet port cid) s = execModeControlSet port cid s := rfl
@[simp] theorem exec_modeControlGet (port cid : Nat) (s : State) : exec (.modeControlGet port cid) s = execModeControlGet port cid s := rfl
@[simp] theorem exec_powerManagementSet (port cid : Nat) (s : State) : exec (.powerManagementSet port cid) s = execPowerManagementSet port cid s := rfl
@[simp] theorem exec_timestampSet (port cid : Nat) (s : State) : exec (.timestampSet port cid) s = execTimestampSet port cid s := rfl
@[simp] theorem exec_timestampGet (port cid : Nat) (s : State) : exec (.timestampGet port cid) s = execTimestampGet port cid s := rfl
@[simp] theorem exec_asynchronousEventRequest (port cid : Nat) (s : State) : exec (.asynchronousEventRequest port cid) s = execAsynchronousEventRequest port cid s := rfl
@[simp] theorem exec_namespaceManagement (port cid : Nat) (s : State) : exec (.namespaceManagement port cid) s = execNamespaceManagement port cid s := rfl
@[simp] theorem exec_namespaceAttachment (port cid : Nat) (s : State) : exec (.namespaceAttachment port cid) s = execNamespaceAttachment port cid s := rfl
@[simp] theorem exec_formatNvm (port cid : Nat) (s : State) : exec (.formatNvm port cid) s = execFormatNvm port cid s := rfl
@[simp] theorem exec_formatComplete (nsid : Nat) (s : State) : exec (.formatComplete nsid) s = execFormatComplete nsid s := rfl
@[simp] theorem exec_sanitizeBlockErase (port cid : Nat) (s : State) : exec (.sanitizeBlockErase port cid) s = execSanitizeBlockErase port cid s := rfl
@[simp] theorem exec_sanitizeCryptoErase (port cid : Nat) (s : State) : exec (.sanitizeCryptoErase port cid) s = execSanitizeCryptoErase port cid s := rfl
@[simp] theorem exec_sanitizeExitFailureMode (port cid : Nat) (s : State) : exec (.sanitizeExitFailureMode port cid) s = execSanitizeExitFailureMode port cid s := rfl
@[simp] theorem exec_sanitizeComplete (ok : Bool) (s : State) : exec (.sanitizeComplete ok) s = execSanitizeComplete ok s := rfl
@[simp] theorem exec_firmwareImageDownload (port cid : Nat) (s : State) : exec (.firmwareImageDownload port cid) s = execFirmwareImageDownload port cid s := rfl
@[simp] theorem exec_firmwareCommit (port cid : Nat) (s : State) : exec (.firmwareCommit port cid) s = execFirmwareCommit port cid s := rfl
@[simp] theorem exec_pitchRent (port cid : Nat) (s : State) : exec (.pitchRent port cid) s = execPitchRent port cid s := rfl
@[simp] theorem exec_pitchReturn (port cid : Nat) (s : State) : exec (.pitchReturn port cid) s = execPitchReturn port cid s := rfl
@[simp] theorem exec_pitchBind (port cid : Nat) (s : State) : exec (.pitchBind port cid) s = execPitchBind port cid s := rfl
@[simp] theorem exec_pitchCmdRent (by_ : Initiator) (s : State) : exec (.pitchCmdRent by_) s = execPitchCmdRent by_ s := rfl
@[simp] theorem exec_pitchCmdReturn (by_ : Initiator) (s : State) : exec (.pitchCmdReturn by_) s = execPitchCmdReturn by_ s := rfl
@[simp] theorem exec_pitchCmdLoad (by_ : Initiator) (s : State) : exec (.pitchCmdLoad by_) s = execPitchCmdLoad by_ s := rfl
@[simp] theorem exec_pitchCmdTest (by_ : Initiator) (s : State) : exec (.pitchCmdTest by_) s = execPitchCmdTest by_ s := rfl
@[simp] theorem exec_qbCfgWrite (by_ : Initiator) (value : Nat) (s : State) : exec (.qbCfgWrite by_ value) s = execQbCfgWrite by_ value s := rfl
@[simp] theorem exec_ccEnClear (port : Nat) (s : State) : exec (.ccEnClear port) s = execCcEnClear port s := rfl
@[simp] theorem exec_controllerResetComplete (port : Nat) (s : State) : exec (.controllerResetComplete port) s = execControllerResetComplete port s := rfl
@[simp] theorem exec_ccEnSet (port ams : Nat) (s : State) : exec (.ccEnSet port ams) s = execCcEnSet port ams s := rfl
@[simp] theorem exec_shutdownNotification (port shn : Nat) (s : State) : exec (.shutdownNotification port shn) s = execShutdownNotification port shn s := rfl
@[simp] theorem exec_shutdownComplete (port : Nat) (s : State) : exec (.shutdownComplete port) s = execShutdownComplete port s := rfl
@[simp] theorem exec_perstNAssert (port : Nat) (s : State) : exec (.perstNAssert port) s = execPerstNAssert port s := rfl
@[simp] theorem exec_perstNDeassert (port : Nat) (s : State) : exec (.perstNDeassert port) s = execPerstNDeassert port s := rfl
@[simp] theorem exec_hotReset (port : Nat) (s : State) : exec (.hotReset port) s = execHotReset port s := rfl
@[simp] theorem exec_flr (port : Nat) (s : State) : exec (.flr port) s = execFlr port s := rfl
@[simp] theorem exec_linkDown (port : Nat) (s : State) : exec (.linkDown port) s = execLinkDown port s := rfl
@[simp] theorem exec_linkUp (port width rate : Nat) (s : State) : exec (.linkUp port width rate) s = execLinkUp port width rate s := rfl
@[simp] theorem exec_deviceControlWrite (port mps : Nat) (s : State) : exec (.deviceControlWrite port mps) s = execDeviceControlWrite port mps s := rfl
@[simp] theorem exec_creditReceive (counter n : Nat) (s : State) : exec (.creditReceive counter n) s = execCreditReceive counter n s := rfl
@[simp] theorem exec_creditRelease (counter n : Nat) (s : State) : exec (.creditRelease counter n) s = execCreditRelease counter n s := rfl
@[simp] theorem exec_creditAdvertise (counter n : Nat) (s : State) : exec (.creditAdvertise counter n) s = execCreditAdvertise counter n s := rfl
@[simp] theorem exec_hostReadCompletion (port tag : Nat) (ok : Bool) (s : State) : exec (.hostReadCompletion port tag ok) s = execHostReadCompletion port tag ok s := rfl
@[simp] theorem exec_writeDataResidency (port sqid cid : Nat) (sector data : Nat) (s : State) : exec (.writeDataResidency port sqid cid sector data) s = execWriteDataResidency port sqid cid sector data s := rfl
@[simp] theorem exec_halfMoveReceipt (index : Nat) (s : State) : exec (.halfMoveReceipt index) s = execHalfMoveReceipt index s := rfl
@[simp] theorem exec_lcacheFill (line : Nat) (crcOk : Bool) (s : State) : exec (.lcacheFill line crcOk) s = execLcacheFill line crcOk s := rfl
@[simp] theorem exec_prefetchArrival (line : Nat) (crcOk : Bool) (s : State) : exec (.prefetchArrival line crcOk) s = execPrefetchArrival line crcOk s := rfl
@[simp] theorem exec_cixRebalance (group : Nat) (s : State) : exec (.cixRebalance group) s = execCixRebalance group s := rfl
@[simp] theorem exec_nsCmdInit (by_ : Initiator) (s : State) : exec (.nsCmdInit by_) s = execNsCmdInit by_ s := rfl
@[simp] theorem exec_nsCmdRelease (by_ : Initiator) (s : State) : exec (.nsCmdRelease by_) s = execNsCmdRelease by_ s := rfl
@[simp] theorem exec_nsCmdDeallocAll (by_ : Initiator) (s : State) : exec (.nsCmdDeallocAll by_) s = execNsCmdDeallocAll by_ s := rfl
@[simp] theorem exec_nsCmdComplete (s : State) : exec .nsCmdComplete s = execNsCmdComplete s := rfl
@[simp] theorem exec_cixProbeGo (by_ : Initiator) (s : State) : exec (.cixProbeGo by_) s = execCixProbeGo by_ s := rfl
@[simp] theorem exec_dramWriteRefused (by_ : Initiator) (addr : Nat) (s : State) : exec (.dramWriteRefused by_ addr) s = execDramWriteRefused by_ addr s := rfl
@[simp] theorem exec_rangeClean (by_ : Initiator) (force all : Bool) (s : State) : exec (.rangeClean by_ force all) s = execRangeClean by_ force all s := rfl
@[simp] theorem exec_rangeInvalidate (by_ : Initiator) (force all : Bool) (s : State) : exec (.rangeInvalidate by_ force all) s = execRangeInvalidate by_ force all s := rfl
@[simp] theorem exec_rangeCleanInvalidate (by_ : Initiator) (force all : Bool) (s : State) : exec (.rangeCleanInvalidate by_ force all) s = execRangeCleanInvalidate by_ force all s := rfl
@[simp] theorem exec_rangePrefetch (by_ : Initiator) (all : Bool) (s : State) : exec (.rangePrefetch by_ all) s = execRangePrefetch by_ all s := rfl
@[simp] theorem exec_rangeOpComplete (s : State) : exec .rangeOpComplete s = execRangeOpComplete s := rfl
@[simp] theorem exec_lockApply (by_ : Initiator) (s : State) : exec (.lockApply by_) s = execLockApply by_ s := rfl
@[simp] theorem exec_lockSyncComplete (s : State) : exec .lockSyncComplete s = execLockSyncComplete s := rfl
@[simp] theorem exec_cacheDisable (by_ : Initiator) (s : State) : exec (.cacheDisable by_) s = execCacheDisable by_ s := rfl
@[simp] theorem exec_cacheDisableComplete (s : State) : exec .cacheDisableComplete s = execCacheDisableComplete s := rfl
@[simp] theorem exec_cacheEnable (by_ : Initiator) (s : State) : exec (.cacheEnable by_) s = execCacheEnable by_ s := rfl
@[simp] theorem exec_wayPowerOff (by_ : Initiator) (way : Nat) (s : State) : exec (.wayPowerOff by_ way) s = execWayPowerOff by_ way s := rfl
@[simp] theorem exec_wayDrainComplete (way : Nat) (s : State) : exec (.wayDrainComplete way) s = execWayDrainComplete way s := rfl
@[simp] theorem exec_wayPowerOn (by_ : Initiator) (way : Nat) (s : State) : exec (.wayPowerOn by_ way) s = execWayPowerOn by_ way s := rfl
@[simp] theorem exec_rowTake (group : Nat) (s : State) : exec (.rowTake group) s = execRowTake group s := rfl
@[simp] theorem exec_padWaitExpiry (group : Nat) (s : State) : exec (.padWaitExpiry group) s = execPadWaitExpiry group s := rfl
@[simp] theorem exec_stripeWaitExpiry (serial : Nat) (s : State) : exec (.stripeWaitExpiry serial) s = execStripeWaitExpiry serial s := rfl
@[simp] theorem exec_crateGrantRequest (cls count pool kind owner otag who : Nat) (s : State) : exec (.crateGrantRequest cls count pool kind owner otag who) s = execCrateGrantRequest cls count pool kind owner otag who s := rfl
@[simp] theorem exec_crateFree (handle owner : Nat) (s : State) : exec (.crateFree handle owner) s = execCrateFree handle owner s := rfl
@[simp] theorem exec_crateReferenceRelease (handle owner : Nat) (s : State) : exec (.crateReferenceRelease handle owner) s = execCrateReferenceRelease handle owner s := rfl
@[simp] theorem exec_lendGo (by_ : Initiator) (pool : Nat) (s : State) : exec (.lendGo by_ pool) s = execLendGo by_ pool s := rfl
@[simp] theorem exec_returnHandle (by_ : Initiator) (handle : Nat) (s : State) : exec (.returnHandle by_ handle) s = execReturnHandle by_ handle s := rfl
@[simp] theorem exec_winDataAccess (by_ : Initiator) (write : Bool) (value : Nat) (s : State) : exec (.winDataAccess by_ write value) s = execWinDataAccess by_ write value s := rfl
@[simp] theorem exec_senseStart (ch die : Nat) (s : State) : exec (.senseStart ch die) s = execSenseStart ch die s := rfl
@[simp] theorem exec_channelBurst (ch : Nat) (s : State) : exec (.channelBurst ch) s = execChannelBurst ch s := rfl
@[simp] theorem exec_statusPoll (ch die status : Nat) (s : State) : exec (.statusPoll ch die status) s = execStatusPoll ch die status s := rfl
@[simp] theorem exec_programSuspend (ch die : Nat) (s : State) : exec (.programSuspend ch die) s = execProgramSuspend ch die s := rfl
@[simp] theorem exec_eraseSuspend (ch die : Nat) (s : State) : exec (.eraseSuspend ch die) s = execEraseSuspend ch die s := rfl
@[simp] theorem exec_loadAbandon (ch die : Nat) (s : State) : exec (.loadAbandon ch die) s = execLoadAbandon ch die s := rfl
@[simp] theorem exec_eraseStart (ch die : Nat) (s : State) : exec (.eraseStart ch die) s = execEraseStart ch die s := rfl
@[simp] theorem exec_erasePendingClose (ch die : Nat) (s : State) : exec (.erasePendingClose ch die) s = execErasePendingClose ch die s := rfl
@[simp] theorem exec_readTimeout (ch die : Nat) (s : State) : exec (.readTimeout ch die) s = execReadTimeout ch die s := rfl
@[simp] theorem exec_programTimeout (ch die : Nat) (s : State) : exec (.programTimeout ch die) s = execProgramTimeout ch die s := rfl
@[simp] theorem exec_eraseTimeout (ch die : Nat) (s : State) : exec (.eraseTimeout ch die) s = execEraseTimeout ch die s := rfl
@[simp] theorem exec_suspendTimeout (ch die : Nat) (s : State) : exec (.suspendTimeout ch die) s = execSuspendTimeout ch die s := rfl
@[simp] theorem exec_resetTimeout (ch die : Nat) (target : Bool) (s : State) : exec (.resetTimeout ch die target) s = execResetTimeout ch die target s := rfl
@[simp] theorem exec_featureTimeout (ch die : Nat) (s : State) : exec (.featureTimeout ch die) s = execFeatureTimeout ch die s := rfl
@[simp] theorem exec_zqIntervalExpiry (ch die : Nat) (ok : Bool) (s : State) : exec (.zqIntervalExpiry ch die ok) s = execZqIntervalExpiry ch die ok s := rfl
@[simp] theorem exec_identityCheck (ch die : Nat) (ok : Bool) (s : State) : exec (.identityCheck ch die ok) s = execIdentityCheck ch die ok s := rfl
@[simp] theorem exec_vccqFlOutOfRange (group : Nat) (s : State) : exec (.vccqFlOutOfRange group) s = execVccqFlOutOfRange group s := rfl
@[simp] theorem exec_hardDecodeComplete (read iters : Nat) (ok headerOk : Bool) (s : State) : exec (.hardDecodeComplete read iters ok headerOk) s = execHardDecodeComplete read iters ok headerOk s := rfl
@[simp] theorem exec_softPassComplete (read : Nat) (ok : Bool) (s : State) : exec (.softPassComplete read ok) s = execSoftPassComplete read ok s := rfl
@[simp] theorem exec_fullSoftDecodeComplete (read : Nat) (ok : Bool) (s : State) : exec (.fullSoftDecodeComplete read ok) s = execFullSoftDecodeComplete read ok s := rfl
@[simp] theorem exec_softWaitExpiry (read : Nat) (s : State) : exec (.softWaitExpiry read) s = execSoftWaitExpiry read s := rfl
@[simp] theorem exec_scrubPace (s : State) : exec .scrubPace s = execScrubPace s := rfl
@[simp] theorem exec_scrubCycleEnd (s : State) : exec .scrubCycleEnd s = execScrubCycleEnd s := rfl
@[simp] theorem exec_scrubStateSave (s : State) : exec .scrubStateSave s = execScrubStateSave s := rfl
@[simp] theorem exec_correctableError (group addr syndrome : Nat) (s : State) : exec (.correctableError group addr syndrome) s = execCorrectableError group addr syndrome s := rfl
@[simp] theorem exec_uncorrectableError (group addr what : Nat) (s : State) : exec (.uncorrectableError group addr what) s = execUncorrectableError group addr what s := rfl
@[simp] theorem exec_memoryScrubWalk (group addr : Nat) (bad : Bool) (s : State) : exec (.memoryScrubWalk group addr bad) s = execMemoryScrubWalk group addr bad s := rfl
@[simp] theorem exec_camParityWalk (bad : List (Nat × Nat)) (s : State) : exec (.camParityWalk bad) s = execCamParityWalk bad s := rfl
@[simp] theorem exec_victimName (by_ : Initiator) (s : State) : exec (.victimName by_) s = execVictimName by_ s := rfl
@[simp] theorem exec_hardwareVictimNaming (kind : Nat) (s : State) : exec (.hardwareVictimNaming kind) s = execHardwareVictimNaming kind s := rfl
@[simp] theorem exec_victimWalkTimeout (band : Nat) (s : State) : exec (.victimWalkTimeout band) s = execVictimWalkTimeout band s := rfl
@[simp] theorem exec_sweepCopyStart (band : Nat) (s : State) : exec (.sweepCopyStart band) s = execSweepCopyStart band s := rfl
@[simp] theorem exec_victimErase (block : Nat) (s : State) : exec (.victimErase block) s = execVictimErase block s := rfl
@[simp] theorem exec_sweepCtrlResume (by_ : Initiator) (s : State) : exec (.sweepCtrlResume by_) s = execSweepCtrlResume by_ s := rfl
@[simp] theorem exec_sweepEpoch (s : State) : exec .sweepEpoch s = execSweepEpoch s := rfl
@[simp] theorem exec_lapComplete (s : State) : exec .lapComplete s = execLapComplete s := rfl
@[simp] theorem exec_lapLate (s : State) : exec .lapLate s = execLapLate s := rfl
@[simp] theorem exec_rollingWalk (s : State) : exec .rollingWalk s = execRollingWalk s := rfl
@[simp] theorem exec_journalFlush (s : State) : exec .journalFlush s = execJournalFlush s := rfl
@[simp] theorem exec_recordsSave (s : State) : exec .recordsSave s = execRecordsSave s := rfl
@[simp] theorem exec_cipherUnitComplete (encipher : Bool) (id : Nat) (s : State) : exec (.cipherUnitComplete encipher id) s = execCipherUnitComplete encipher id s := rfl
@[simp] theorem exec_mediaKeyGenerate (by_ : Initiator) (s : State) : exec (.mediaKeyGenerate by_) s = execMediaKeyGenerate by_ s := rfl
@[simp] theorem exec_keyRecordWritten (ok : Bool) (s : State) : exec (.keyRecordWritten ok) s = execKeyRecordWritten ok s := rfl
@[simp] theorem exec_jobGo (by_ : Initiator) (page flags : Nat) (s : State) : exec (.jobGo by_ page flags) s = execJobGo by_ page flags s := rfl
@[simp] theorem exec_jobComplete (page : Nat) (s : State) : exec (.jobComplete page) s = execJobComplete page s := rfl
@[simp] theorem exec_jobAbort (by_ : Initiator) (page : Nat) (s : State) : exec (.jobAbort by_ page) s = execJobAbort by_ page s := rfl
@[simp] theorem exec_jobSave (by_ : Initiator) (page : Nat) (s : State) : exec (.jobSave by_ page) s = execJobSave by_ page s := rfl
@[simp] theorem exec_jobRestore (by_ : Initiator) (page : Nat) (s : State) : exec (.jobRestore by_ page) s = execJobRestore by_ page s := rfl
@[simp] theorem exec_loadPlain (by_ : Initiator) (page slot : Nat) (s : State) : exec (.loadPlain by_ page slot) s = execLoadPlain by_ page slot s := rfl
@[simp] theorem exec_generate (by_ : Initiator) (page slot : Nat) (s : State) : exec (.generate by_ page slot) s = execGenerate by_ page slot s := rfl
@[simp] theorem exec_loadWrapped (by_ : Initiator) (page slot : Nat) (s : State) : exec (.loadWrapped by_ page slot) s = execLoadWrapped by_ page slot s := rfl
@[simp] theorem exec_clear (by_ : Initiator) (page slot : Nat) (s : State) : exec (.clear by_ page slot) s = execClear by_ page slot s := rfl
@[simp] theorem exec_porterBurst (prt : Nat) (s : State) : exec (.porterBurst prt) s = execPorterBurst prt s := rfl
@[simp] theorem exec_descriptorStart (ch : Nat) (s : State) : exec (.descriptorStart ch) s = execDescriptorStart ch s := rfl
@[simp] theorem exec_writeResponseError (ch : Nat) (s : State) : exec (.writeResponseError ch) s = execWriteResponseError ch s := rfl
@[simp] theorem exec_porterTimerExpiry (timer : Nat) (s : State) : exec (.porterTimerExpiry timer) s = execPorterTimerExpiry timer s := rfl
@[simp] theorem exec_chCtrlGo (by_ : Initiator) (ch : Nat) (s : State) : exec (.chCtrlGo by_ ch) s = execChCtrlGo by_ ch s := rfl
@[simp] theorem exec_chCtrlStop (by_ : Initiator) (ch : Nat) (s : State) : exec (.chCtrlStop by_ ch) s = execChCtrlStop by_ ch s := rfl
@[simp] theorem exec_channelStopComplete (ch : Nat) (s : State) : exec (.channelStopComplete ch) s = execChannelStopComplete ch s := rfl
@[simp] theorem exec_chCtrlEnable (by_ : Initiator) (ch : Nat) (on : Bool) (s : State) : exec (.chCtrlEnable by_ ch on) s = execChCtrlEnable by_ ch on s := rfl
@[simp] theorem exec_cplPop (by_ : Initiator) (ch : Nat) (s : State) : exec (.cplPop by_ ch) s = execCplPop by_ ch s := rfl
@[simp] theorem exec_islandGate (island : Nat) (s : State) : exec (.islandGate island) s = execIslandGate island s := rfl
@[simp] theorem exec_islandWake (island ns : Nat) (s : State) : exec (.islandWake island ns) s = execIslandWake island ns s := rfl
@[simp] theorem exec_wakeFailure (src dst : Nat) (s : State) : exec (.wakeFailure src dst) s = execWakeFailure src dst s := rfl
@[simp] theorem exec_crossingWatchdogExpiry (src dst : Nat) (s : State) : exec (.crossingWatchdogExpiry src dst) s = execCrossingWatchdogExpiry src dst s := rfl
@[simp] theorem exec_polVoteWrite (by_ : Initiator) (domains : Nat) (s : State) : exec (.polVoteWrite by_ domains) s = execPolVoteWrite by_ domains s := rfl
@[simp] theorem exec_mgtVoteWrite (by_ : Initiator) (domains : Nat) (s : State) : exec (.mgtVoteWrite by_ domains) s = execMgtVoteWrite by_ domains s := rfl
@[simp] theorem exec_domainPowerOn (domain : Nat) (s : State) : exec (.domainPowerOn domain) s = execDomainPowerOn domain s := rfl
@[simp] theorem exec_domainPowerOff (domain : Nat) (s : State) : exec (.domainPowerOff domain) s = execDomainPowerOff domain s := rfl
@[simp] theorem exec_dvfsReq (by_ : Initiator) (clk vdd : Nat) (s : State) : exec (.dvfsReq by_ clk vdd) s = execDvfsReq by_ clk vdd s := rfl
@[simp] theorem exec_vddSettled (s : State) : exec .vddSettled s = execVddSettled s := rfl
@[simp] theorem exec_nonopEntry (s : State) : exec .nonopEntry s = execNonopEntry s := rfl
@[simp] theorem exec_apstItptExpiry (s : State) : exec .apstItptExpiry s = execApstItptExpiry s := rfl
@[simp] theorem exec_nonopExitComplete (s : State) : exec .nonopExitComplete s = execNonopExitComplete s := rfl
@[simp] theorem exec_temperatureSample (readings : List Int) (s : State) : exec (.temperatureSample readings) s = execTemperatureSample readings s := rfl
@[simp] theorem exec_tempHistorySample (s : State) : exec .tempHistorySample s = execTempHistorySample s := rfl
@[simp] theorem exec_wdogKick (by_ : Initiator) (key : Nat) (s : State) : exec (.wdogKick by_ key) s = execWdogKick by_ key s := rfl
@[simp] theorem exec_wdogWarning (hart : Nat) (s : State) : exec (.wdogWarning hart) s = execWdogWarning hart s := rfl
@[simp] theorem exec_wdogExpiry (hart : Nat) (s : State) : exec (.wdogExpiry hart) s = execWdogExpiry hart s := rfl
@[simp] theorem exec_mwdogKick (by_ : Initiator) (key : Nat) (s : State) : exec (.mwdogKick by_ key) s = execMwdogKick by_ key s := rfl
@[simp] theorem exec_mwdogExpiry (s : State) : exec .mwdogExpiry s = execMwdogExpiry s := rfl
@[simp] theorem exec_coreRstGo (by_ : Initiator) (s : State) : exec (.coreRstGo by_) s = execCoreRstGo by_ s := rfl
@[simp] theorem exec_coreResetRelease (s : State) : exec .coreResetRelease s = execCoreResetRelease s := rfl
@[simp] theorem exec_machineTimerInterrupt (hart : Nat) (s : State) : exec (.machineTimerInterrupt hart) s = execMachineTimerInterrupt hart s := rfl
@[simp] theorem exec_admTake (by_ : Initiator) (s : State) : exec (.admTake by_) s = execAdmTake by_ s := rfl
@[simp] theorem exec_admCplGo (by_ : Initiator) (value : Nat) (s : State) : exec (.admCplGo by_ value) s = execAdmCplGo by_ value s := rfl
@[simp] theorem exec_flCmdErase (by_ : Initiator) (s : State) : exec (.flCmdErase by_) s = execFlCmdErase by_ s := rfl
@[simp] theorem exec_flCmdProgram (by_ : Initiator) (s : State) : exec (.flCmdProgram by_) s = execFlCmdProgram by_ s := rfl
@[simp] theorem exec_flashOperationComplete (bank : Nat) (s : State) : exec (.flashOperationComplete bank) s = execFlashOperationComplete bank s := rfl
@[simp] theorem exec_flashOperationSuspend (bank : Nat) (s : State) : exec (.flashOperationSuspend bank) s = execFlashOperationSuspend bank s := rfl
@[simp] theorem exec_pieceReport (by_ : Initiator) (s : State) : exec (.pieceReport by_) s = execPieceReport by_ s := rfl
@[simp] theorem exec_slotLockHoldExpiry (s : State) : exec .slotLockHoldExpiry s = execSlotLockHoldExpiry s := rfl
@[simp] theorem exec_commitAction000b (by_ : Initiator) (s : State) : exec (.commitAction000b by_) s = execCommitAction000b by_ s := rfl
@[simp] theorem exec_commitAction001b (by_ : Initiator) (s : State) : exec (.commitAction001b by_) s = execCommitAction001b by_ s := rfl
@[simp] theorem exec_commitAction010b (by_ : Initiator) (s : State) : exec (.commitAction010b by_) s = execCommitAction010b by_ s := rfl
@[simp] theorem exec_commitAction011b (by_ : Initiator) (s : State) : exec (.commitAction011b by_) s = execCommitAction011b by_ s := rfl
@[simp] theorem exec_pumpWrite (by_ : Initiator) (hi : Nat) (s : State) : exec (.pumpWrite by_ hi) s = execPumpWrite by_ hi s := rfl
@[simp] theorem exec_slotWriteComplete (s : State) : exec .slotWriteComplete s = execSlotWriteComplete s := rfl
@[simp] theorem exec_actReady (by_ : Initiator) (s : State) : exec (.actReady by_) s = execActReady by_ s := rfl
@[simp] theorem exec_activationAllowanceExpiry (s : State) : exec .activationAllowanceExpiry s = execActivationAllowanceExpiry s := rfl
@[simp] theorem exec_recCmdBegin (by_ : Initiator) (s : State) : exec (.recCmdBegin by_) s = execRecCmdBegin by_ s := rfl
@[simp] theorem exec_recCmdEnd (by_ : Initiator) (s : State) : exec (.recCmdEnd by_) s = execRecCmdEnd by_ s := rfl
@[simp] theorem exec_recCmdCancel (by_ : Initiator) (s : State) : exec (.recCmdCancel by_) s = execRecCmdCancel by_ s := rfl
@[simp] theorem exec_ownerLockWrite (by_ : Initiator) (value : Bool) (s : State) : exec (.ownerLockWrite by_ value) s = execOwnerLockWrite by_ value s := rfl
@[simp] theorem exec_recordStore (s : State) : exec .recordStore s = execRecordStore s := rfl
@[simp] theorem exec_ringSave (ok : Bool) (s : State) : exec (.ringSave ok) s = execRingSave ok s := rfl
@[simp] theorem exec_faultRelease (by_ : Initiator) (s : State) : exec (.faultRelease by_) s = execFaultRelease by_ s := rfl
@[simp] theorem exec_logCtrlFreeze (by_ : Initiator) (on : Bool) (s : State) : exec (.logCtrlFreeze by_ on) s = execLogCtrlFreeze by_ on s := rfl
@[simp] theorem exec_freezeMaxExpiry (s : State) : exec .freezeMaxExpiry s = execFreezeMaxExpiry s := rfl
@[simp] theorem exec_fwPost (by_ : Initiator) (s : State) : exec (.fwPost by_) s = execFwPost by_ s := rfl
@[simp] theorem exec_curCmdOldest (by_ : Initiator) (s : State) : exec (.curCmdOldest by_) s = execCurCmdOldest by_ s := rfl
@[simp] theorem exec_curCmdNewest (by_ : Initiator) (s : State) : exec (.curCmdNewest by_) s = execCurCmdNewest by_ s := rfl
@[simp] theorem exec_win0Read (by_ : Initiator) (s : State) : exec (.win0Read by_) s = execWin0Read by_ s := rfl
@[simp] theorem exec_win15Read (by_ : Initiator) (s : State) : exec (.win15Read by_) s = execWin15Read by_ s := rfl
@[simp] theorem exec_wallSetHi (by_ : Initiator) (ms : Nat) (s : State) : exec (.wallSetHi by_ ms) s = execWallSetHi by_ ms s := rfl
@[simp] theorem exec_rateBucketRefill (code : Nat) (s : State) : exec (.rateBucketRefill code) s = execRateBucketRefill code s := rfl
@[simp] theorem exec_tallyRound (s : State) : exec .tallyRound s = execTallyRound s := rfl
@[simp] theorem exec_tallyClr (by_ : Initiator) (s : State) : exec (.tallyClr by_) s = execTallyClr by_ s := rfl
@[simp] theorem exec_injArm (by_ : Initiator) (page mode count : Nat) (s : State) : exec (.injArm by_ page mode count) s = execInjArm by_ page mode count s := rfl
@[simp] theorem exec_injDisarm (by_ : Initiator) (page : Nat) (s : State) : exec (.injDisarm by_ page) s = execInjDisarm by_ page s := rfl
@[simp] theorem exec_disarmAll (by_ : Initiator) (s : State) : exec (.disarmAll by_) s = execDisarmAll by_ s := rfl
@[simp] theorem exec_miRegisterRead (nmd0 nmd1 : Nat) (s : State) : exec (.miRegisterRead nmd0 nmd1) s = execMiRegisterRead nmd0 nmd1 s := rfl
@[simp] theorem exec_miRegisterWrite (nmd0 nmd1 : Nat) (data : List Nat) (s : State) : exec (.miRegisterWrite nmd0 nmd1 data) s = execMiRegisterWrite nmd0 nmd1 data s := rfl
@[simp] theorem exec_miOtherCommand (opcode : Nat) (s : State) : exec (.miOtherCommand opcode) s = execMiOtherCommand opcode s := rfl
@[simp] theorem exec_registerWrite (by_ : Initiator) (addr value : Nat) (s : State) : exec (.registerWrite by_ addr value) s = execRegisterWrite by_ addr value s := rfl
@[simp] theorem exec_rcFieldRead (by_ : Initiator) (addr : Nat) (s : State) : exec (.rcFieldRead by_ addr) s = execRcFieldRead by_ addr s := rfl
@[simp] theorem exec_loWordRead (by_ : Initiator) (addr : Nat) (s : State) : exec (.loWordRead by_ addr) s = execLoWordRead by_ addr s := rfl
@[simp] theorem exec_pageAccessFault (by_ : Initiator) (addr width : Nat) (write : Bool) (s : State) : exec (.pageAccessFault by_ addr width write) s = execPageAccessFault by_ addr width write s := rfl
@[simp] theorem exec_softClear (by_ : Initiator) (page : Nat) (s : State) : exec (.softClear by_ page) s = execSoftClear by_ page s := rfl
@[simp] theorem exec_evtPendClear (by_ : Initiator) (page mask : Nat) (s : State) : exec (.evtPendClear by_ page mask) s = execEvtPendClear by_ page mask s := rfl
@[simp] theorem exec_evtForce (by_ : Initiator) (page mask : Nat) (s : State) : exec (.evtForce by_ page mask) s = execEvtForce by_ page mask s := rfl
@[simp] theorem exec_pageLock (by_ : Initiator) (page : Nat) (s : State) : exec (.pageLock by_ page) s = execPageLock by_ page s := rfl
@[simp] theorem exec_cntSelWrite (by_ : Initiator) (page event : Nat) (s : State) : exec (.cntSelWrite by_ page event) s = execCntSelWrite by_ page event s := rfl
@[simp] theorem exec_pageCtrlVote (by_ : Initiator) (page : Nat) (vote : Bool) (s : State) : exec (.pageCtrlVote by_ page vote) s = execPageCtrlVote by_ page vote s := rfl
@[simp] theorem exec_extest (cells : List Nat) (s : State) : exec (.extest cells) s = execExtest cells s := rfl
@[simp] theorem exec_samplePreload (captured preload : List Nat) (s : State) : exec (.samplePreload captured preload) s = execSamplePreload captured preload s := rfl
@[simp] theorem exec_idcode (s : State) : exec .idcode s = execIdcode s := rfl
@[simp] theorem exec_bypass (code : Nat) (s : State) : exec (.bypass code) s = execBypass code s := rfl
@[simp] theorem exec_ktrCfg (value : Nat) (s : State) : exec (.ktrCfg value) s = execKtrCfg value s := rfl
@[simp] theorem exec_ktrStat (s : State) : exec .ktrStat s = execKtrStat s := rfl
@[simp] theorem exec_trstNAssert (s : State) : exec .trstNAssert s = execTrstNAssert s := rfl
@[simp] theorem exec_ktrTrigIn (s : State) : exec .ktrTrigIn s = execKtrTrigIn s := rfl
@[simp] theorem exec_ktrSync (s : State) : exec .ktrSync s = execKtrSync s := rfl
@[simp] theorem exec_cqHeadDoorbell (port cqid head : Nat) (s : State) : exec (.cqHeadDoorbell port cqid head) s = execCqHeadDoorbell port cqid head s := rfl
@[simp] theorem exec_completionTimeout (port tag : Nat) (s : State) : exec (.completionTimeout port tag) s = execCompletionTimeout port tag s := rfl
@[simp] theorem exec_vrAlertN (s : State) : exec .vrAlertN s = execVrAlertN s := rfl
@[simp] theorem exec_porterWriteResponse (ch : Nat) (s : State) : exec (.porterWriteResponse ch) s = execPorterWriteResponse ch s := rfl
@[simp] theorem exec_codeFlashDataRead (by_ : Initiator) (addr : Nat) (s : State) : exec (.codeFlashDataRead by_ addr) s = execCodeFlashDataRead by_ addr s := rfl
@[simp] theorem exec_registerReadRefused (by_ : Initiator) (addr : Nat) (s : State) : exec (.registerReadRefused by_ addr) s = execRegisterReadRefused by_ addr s := rfl

end Sys2Proof.Laws
end

