-- ==== Sys2Proof/Laws/Tbl.lean ====
section
/-! SUPPORT. What a sparse table's read, write and canonical form say about each other. -/

namespace Sys2Proof.Laws

theorem tbl_get_insert {α : Type} (d : α) (t : Tbl α) (k j : Nat) (v : α) :
    Tbl.get d (Tbl.insert t k v) j = if k = j then v else Tbl.get d t j := by
  induction t with
  | nil => simp [Tbl.insert, Tbl.get]
  | cons e t ih =>
    obtain ⟨i, w⟩ := e
    simp only [Tbl.insert]
    split
    · simp [Tbl.get]
    · split
      · subst_vars; simp only [Tbl.get]; split <;> rfl
      · simp only [Tbl.get, ih]
        split <;> split <;> first | rfl | omega

theorem tbl_get_of_lt {α : Type} (d : α) (t : Tbl α) (k : Nat)
    (h : t.all (fun e => decide (k < e.1)) = true) : Tbl.get d t k = d := by
  induction t with
  | nil => rfl
  | cons e t ih =>
    simp only [List.all_cons, Bool.and_eq_true, decide_eq_true_eq] at h
    simp only [Tbl.get]
    rw [if_neg (by omega), ih h.2]

theorem tbl_get_erase {α : Type} (d : α) (t : Tbl α) (k j : Nat) (h : Tbl.sorted t = true) :
    Tbl.get d (Tbl.erase t k) j = if k = j then d else Tbl.get d t j := by
  induction t with
  | nil => simp [Tbl.erase, Tbl.get]
  | cons e t ih =>
    obtain ⟨i, w⟩ := e
    simp only [Tbl.sorted, Bool.and_eq_true] at h
    simp only [Tbl.erase]
    split
    · subst_vars
      split
      · subst_vars; exact tbl_get_of_lt d t _ h.1
      · simp only [Tbl.get]; rw [if_neg (by assumption)]
    · simp only [Tbl.get, ih h.2]
      split <;> split <;> first | rfl | omega

/-- A read after a write: the key written reads the value written, every other key reads as before. -/
theorem tbl_get_set {α : Type} [DecidableEq α] (d : α) (t : Tbl α) (k j : Nat) (v : α)
    (h : Tbl.sorted t = true) :
    Tbl.get d (Tbl.set d t k v) j = if k = j then v else Tbl.get d t j := by
  unfold Tbl.set
  split
  · subst_vars; exact tbl_get_erase _ t k j h
  · exact tbl_get_insert d t k j v

theorem tbl_all_insert {α : Type} (p : Nat × α → Bool) (t : Tbl α) (k : Nat) (v : α)
    (h : t.all p = true) (hk : p (k, v) = true) : (Tbl.insert t k v).all p = true := by
  induction t with
  | nil => simp [Tbl.insert, hk]
  | cons e t ih =>
    obtain ⟨i, w⟩ := e
    simp only [List.all_cons, Bool.and_eq_true] at h
    simp only [Tbl.insert]
    split
    · simp [List.all_cons, hk, h.1, h.2]
    · split
      · simp [List.all_cons, hk, h.2]
      · simp [List.all_cons, h.1, ih h.2]

theorem tbl_all_erase {α : Type} (p : Nat × α → Bool) (t : Tbl α) (k : Nat)
    (h : t.all p = true) : (Tbl.erase t k).all p = true := by
  induction t with
  | nil => simp [Tbl.erase]
  | cons e t ih =>
    obtain ⟨i, w⟩ := e
    simp only [List.all_cons, Bool.and_eq_true] at h
    simp only [Tbl.erase]
    split
    · exact h.2
    · simp [List.all_cons, h.1, ih h.2]

theorem tbl_sorted_insert {α : Type} (t : Tbl α) (k : Nat) (v : α) (h : Tbl.sorted t = true) :
    Tbl.sorted (Tbl.insert t k v) = true := by
  induction t with
  | nil => simp [Tbl.insert, Tbl.sorted]
  | cons e t ih =>
    obtain ⟨i, w⟩ := e
    simp only [Tbl.sorted, Bool.and_eq_true] at h
    simp only [Tbl.insert]
    split
    · rename_i hk
      simp only [Tbl.sorted, List.all_cons, Bool.and_eq_true, decide_eq_true_eq]
      refine ⟨⟨hk, ?_⟩, h.1, h.2⟩
      have := h.1
      rw [List.all_eq_true] at this ⊢
      intro x hx
      have := this x hx
      simp only [decide_eq_true_eq] at this ⊢
      omega
    · split
      · subst_vars; simp [Tbl.sorted, h.1, h.2]
      · simp only [Tbl.sorted, Bool.and_eq_true]
        refine ⟨tbl_all_insert _ t k v h.1 ?_, ih h.2⟩
        simp only [decide_eq_true_eq]; omega

theorem tbl_sorted_erase {α : Type} (t : Tbl α) (k : Nat) (h : Tbl.sorted t = true) :
    Tbl.sorted (Tbl.erase t k) = true := by
  induction t with
  | nil => simp [Tbl.erase, Tbl.sorted]
  | cons e t ih =>
    obtain ⟨i, w⟩ := e
    simp only [Tbl.sorted, Bool.and_eq_true] at h
    simp only [Tbl.erase]
    split
    · exact h.2
    · simp only [Tbl.sorted, Bool.and_eq_true]
      exact ⟨tbl_all_erase _ t k h.1, ih h.2⟩

/-- A write keeps the keys rising. -/
theorem tbl_sorted_set {α : Type} [DecidableEq α] (d : α) (t : Tbl α) (k : Nat) (v : α)
    (h : Tbl.sorted t = true) : Tbl.sorted (Tbl.set d t k v) = true := by
  unfold Tbl.set
  split
  · exact tbl_sorted_erase t k h
  · exact tbl_sorted_insert t k v h

/-- A write keeps the canonical form. -/
theorem tbl_wf_set {α : Type} [DecidableEq α] (d : α) (t : Tbl α) (k : Nat) (v : α)
    (h : Tbl.wf d t = true) : Tbl.wf d (Tbl.set d t k v) = true := by
  simp only [Tbl.wf, Bool.and_eq_true] at h ⊢
  refine ⟨tbl_sorted_set d t k v h.1, ?_⟩
  unfold Tbl.set
  split
  · exact tbl_all_erase _ t k h.2
  · exact tbl_all_insert _ t k v h.2 (by simpa using ‹_›)

end Sys2Proof.Laws
end

