-- ==== Sys2Proof/Laws/KeepBase.lean ====
section
/-! SUPPORT. What every operation keeps: the queue of waiting commands, and the canonical form of the register store, of
crate memory and of the FIRMWARE region. -/

namespace Sys2Proof.Laws

open Sys2Proof Sys2Proof.Machine

theorem tbl_all_filter {α : Type} (p q : Nat × α → Bool) (t : Tbl α) (h : t.all p = true) : (t.filter q).all p = true := by
  rw [List.all_eq_true] at h ⊢
  exact fun x hx => h x (List.mem_of_mem_filter hx)

theorem tbl_sorted_filter {α : Type} (q : Nat × α → Bool) (t : Tbl α) (h : Tbl.sorted t = true) :
    Tbl.sorted (t.filter q) = true := by
  induction t with
  | nil => rfl
  | cons e t ih =>
    simp only [Tbl.sorted, Bool.and_eq_true] at h
    rw [List.filter_cons]
    split
    · simp only [Tbl.sorted, Bool.and_eq_true]
      exact ⟨tbl_all_filter _ _ _ h.1, ih h.2⟩
    · exact ih h.2

/-- Taking entries out keeps the canonical form. -/
theorem tbl_wf_filter {α : Type} [DecidableEq α] (d : α) (q : Nat × α → Bool) (t : Tbl α) (h : Tbl.wf d t = true) :
    Tbl.wf d (t.filter q) = true := by
  simp only [Tbl.wf, Bool.and_eq_true] at h ⊢
  exact ⟨tbl_sorted_filter q t h.1, tbl_all_filter _ _ _ h.2⟩

theorem tbl_sorted_foldl_set {α β : Type} [DecidableEq α] (d : α) (f : β → Nat) (g : β → α) (l : List β) (t : Tbl α)
    (h : Tbl.sorted t = true) : Tbl.sorted (l.foldl (fun t e => t.set d (f e) (g e)) t) = true := by
  induction l generalizing t with
  | nil => exact h
  | cons e l ih => exact ih _ (tbl_sorted_set _ _ _ _ h)

/-- What is known of the state before a command: its queue, its time base, the records of the permanent area; whether
the command may store to crate memory or to the FIRMWARE region, and whether it may change what is kept without power. -/
structure Kept where
  queue : List Instr
  mono : Nat
  epoch : Nat
  perm : List LogRec
  stores : Bool
  cells : List Host.Cell
  firmware : List Host.Cell
  keeps : Bool
  nv : Nv

/-- What is kept without power changes without touching the epoch, and adds to the permanent area only. -/
structure NvOk (v w : Nv) : Prop where
  epoch : w.epoch = v.epoch
  perm : v.perm <+: w.perm

/-- The queue, the time base and the epoch are as known; no record has left the permanent area; the tables are
canonical; memory and what is kept without power are as known where the command may not change them. -/
structure Keep (K : Kept) (s : State) : Prop where
  queue : s.pending = K.queue
  mono : s.mono = K.mono
  epoch : s.nv.epoch = K.epoch
  perm : K.perm <+: s.nv.perm
  regs : Tbl.sorted s.regs = true
  mem : Tbl.wf (0 : BitVec 8) s.cr.mem = true
  dram : Tbl.wf (0 : BitVec 8) s.dram = true
  cells : K.stores = false → s.cr.mem = K.cells ∧ s.dram = K.firmware
  kept : K.keeps = false → s.nv = K.nv

/-- What a meaning answers keeps them. -/
structure KeepO (K : Kept) (o : Host.Outcome State Fault Refusal) : Prop where
  get : ∀ t, o = .next t → Keep K t

/-- A state that may be answered keeps them. -/
structure KeepOpt (K : Kept) (o : Option State) : Prop where
  get : ∀ t, o = some t → Keep K t

theorem keepO_next {K : Kept} {s : State} (h : Keep K s) : KeepO K (.next s) := ⟨fun t e => by cases e; exact h⟩

theorem keepOpt_some {K : Kept} {s : State} (h : Keep K s) : KeepOpt K (some s) := ⟨fun t e => by cases e; exact h⟩

theorem keepOpt_none {K : Kept} : KeepOpt K none := ⟨fun t e => by cases e⟩

theorem keepOpt_elim {K : Kept} {o : Option State} {s : State} (h : KeepOpt K o) (e : o = some s) : Keep K s := h.get s e

theorem keepOpt_getD {K : Kept} {o : Option State} {s : State} (h : KeepOpt K o) (hs : Keep K s) : Keep K (o.getD s) := by
  cases o with
  | none => exact hs
  | some t => exact h.get t rfl

theorem keep_wr {K : Kept} (s : State) (f : Field) (v i b : Nat) (h : Keep K s) : Keep K (s.wr f v i b) :=
  ⟨h.queue, h.mono, h.epoch, h.perm, tbl_sorted_set _ _ _ _ h.regs, h.mem, h.dram, h.cells, h.kept⟩

theorem keep_foldl {K : Kept} {α : Type} {g : State → α → State} (l : List α) (s : State)
    (hg : ∀ t a, Keep K t → Keep K (g t a)) (h : Keep K s) : Keep K (l.foldl g s) := by
  induction l generalizing s with
  | nil => exact h
  | cons a l ih => exact ih _ (hg s a h)

theorem keep_free {K : Kept} {s : State} (n : Nat) (h : Keep K s) : Keep K { s with free := n } :=
  ⟨h.queue, h.mono, h.epoch, h.perm, h.regs, h.mem, h.dram, h.cells, h.kept⟩

theorem keep_regs {K : Kept} {s : State} (r : Tbl Nat) (h : Keep K s) (hr : Tbl.sorted r = true) :
    Keep K { s with regs := r } := ⟨h.queue, h.mono, h.epoch, h.perm, hr, h.mem, h.dram, h.cells, h.kept⟩

theorem keep_dram {K : Kept} {s : State} (m : List Host.Cell) (hK : K.stores = true) (h : Keep K s)
    (hm : Tbl.wf (0 : BitVec 8) m = true) : Keep K { s with dram := m } :=
  ⟨h.queue, h.mono, h.epoch, h.perm, h.regs, h.mem, hm, fun e => by simp [hK] at e, h.kept⟩

theorem keep_ite {K : Kept} {c : Prop} [Decidable c] {a b : State} (ha : c → Keep K a) (hb : ¬c → Keep K b) :
    Keep K (if c then a else b) := by
  split
  · exact ha ‹_›
  · exact hb ‹_›

theorem keep_ite_snd {K : Kept} {α : Type} {c : Prop} [Decidable c] {a b : α × State} (ha : c → Keep K a.2) (hb : ¬c → Keep K b.2) :
    Keep K (if c then a else b).2 := by
  split
  · exact ha ‹_›
  · exact hb ‹_›

theorem keep_ite_fst {K : Kept} {α : Type} {c : Prop} [Decidable c] {a b : State × α} (ha : c → Keep K a.1) (hb : ¬c → Keep K b.1) :
    Keep K (if c then a else b).1 := by
  split
  · exact ha ‹_›
  · exact hb ‹_›

theorem keepOpt_ite {K : Kept} {c : Prop} [Decidable c] {a b : Option State} (ha : c → KeepOpt K a) (hb : ¬c → KeepOpt K b) :
    KeepOpt K (if c then a else b) := by
  split
  · exact ha ‹_›
  · exact hb ‹_›

theorem keepO_ite {K : Kept} {c : Prop} [Decidable c] {a b : Host.Outcome State Fault Refusal} (ha : c → KeepO K a)
    (hb : ¬c → KeepO K b) : KeepO K (if c then a else b) := by
  split
  · exact ha ‹_›
  · exact hb ‹_›

theorem keep_foldl2 {K : Kept} {α β : Type} {g : β × State → α → β × State} (l : List α) (s : β × State)
    (hg : ∀ t a, Keep K t.2 → Keep K (g t a).2) (h : Keep K s.2) : Keep K (l.foldl g s).2 := by
  induction l generalizing s with
  | nil => exact h
  | cons a l ih => exact ih _ (hg s a h)

theorem keep_foldl1 {K : Kept} {α β : Type} {g : State × β → α → State × β} (l : List α) (s : State × β)
    (hg : ∀ t a, Keep K t.1 → Keep K (g t a).1) (h : Keep K s.1) : Keep K (l.foldl g s).1 := by
  induction l generalizing s with
  | nil => exact h
  | cons a l ih => exact ih _ (hg s a h)

theorem keep_mem {K : Kept} {s : State} (h : Keep K s) : Tbl.wf (0 : BitVec 8) s.cr.mem = true := h.mem

/-- An update of the crate yard that leaves crate memory. -/
theorem keep_mCr {K : Kept} (s : State) (g : CrateSt → CrateSt) (h : Keep K s) (hm : (g s.cr).mem = s.cr.mem) :
    Keep K (s.mCr g) := by
  refine ⟨h.queue, h.mono, h.epoch, h.perm, h.regs, ?_, h.dram, ?_, h.kept⟩
  · show Tbl.wf 0 (g s.cr).mem = true
    rw [hm]; exact h.mem
  · intro e
    exact ⟨hm.trans (h.cells e).1, (h.cells e).2⟩

/-- An update of the crate yard that stores to crate memory. -/
theorem keep_mCrStore {K : Kept} (s : State) (g : CrateSt → CrateSt) (hK : K.stores = true) (h : Keep K s)
    (hm : Tbl.wf (0 : BitVec 8) (g s.cr).mem = true) : Keep K (s.mCr g) :=
  ⟨h.queue, h.mono, h.epoch, h.perm, h.regs, hm, h.dram, fun e => by simp [hK] at e, h.kept⟩

theorem nvOk_ite {v : Nv} {c : Prop} [Decidable c] {a b : Nv} (ha : NvOk v a) (hb : NvOk v b) :
    NvOk v (if c then a else b) := by
  split
  · exact ha
  · exact hb

/-- An update of what is kept without power. -/
theorem keep_mNv {K : Kept} (s : State) (g : Nv → Nv) (hN : K.keeps = true) (h : Keep K s) (hg : NvOk s.nv (g s.nv)) :
    Keep K (s.mNv g) :=
  ⟨h.queue, h.mono, hg.epoch.trans h.epoch, h.perm.trans hg.perm, h.regs, h.mem, h.dram, h.cells, fun e => by simp [hN] at e⟩

theorem keep_mDev {K : Kept} (s : State) (g : DevSt → DevSt) (h : Keep K s) :
    Keep K (s.mDev g) := ⟨h.queue, h.mono, h.epoch, h.perm, h.regs, h.mem, h.dram, h.cells, h.kept⟩
theorem keep_mLog {K : Kept} (s : State) (g : LogSt → LogSt) (h : Keep K s) :
    Keep K (s.mLog g) := ⟨h.queue, h.mono, h.epoch, h.perm, h.regs, h.mem, h.dram, h.cells, h.kept⟩
theorem keep_mTal {K : Kept} (s : State) (g : TallySt → TallySt) (h : Keep K s) :
    Keep K (s.mTal g) := ⟨h.queue, h.mono, h.epoch, h.perm, h.regs, h.mem, h.dram, h.cells, h.kept⟩
theorem keep_mPit {K : Kept} (s : State) (g : PitchSt → PitchSt) (h : Keep K s) :
    Keep K (s.mPit g) := ⟨h.queue, h.mono, h.epoch, h.perm, h.regs, h.mem, h.dram, h.cells, h.kept⟩
theorem keep_mHost {K : Kept} (s : State) (g : HostSt → HostSt) (h : Keep K s) :
    Keep K (s.mHost g) := ⟨h.queue, h.mono, h.epoch, h.perm, h.regs, h.mem, h.dram, h.cells, h.kept⟩
theorem keep_mLed {K : Kept} (s : State) (g : LedgerSt → LedgerSt) (h : Keep K s) :
    Keep K (s.mLed g) := ⟨h.queue, h.mono, h.epoch, h.perm, h.regs, h.mem, h.dram, h.cells, h.kept⟩
theorem keep_mLc {K : Kept} (s : State) (g : CacheSt → CacheSt) (h : Keep K s) :
    Keep K (s.mLc g) := ⟨h.queue, h.mono, h.epoch, h.perm, h.regs, h.mem, h.dram, h.cells, h.kept⟩
theorem keep_mWp {K : Kept} (s : State) (g : WriteSt → WriteSt) (h : Keep K s) :
    Keep K (s.mWp g) := ⟨h.queue, h.mono, h.epoch, h.perm, h.regs, h.mem, h.dram, h.cells, h.kept⟩
theorem keep_mSt {K : Kept} (s : State) (g : StallSt → StallSt) (h : Keep K s) :
    Keep K (s.mSt g) := ⟨h.queue, h.mono, h.epoch, h.perm, h.regs, h.mem, h.dram, h.cells, h.kept⟩
theorem keep_mInteg {K : Kept} (s : State) (g : IntegSt → IntegSt) (h : Keep K s) :
    Keep K (s.mInteg g) := ⟨h.queue, h.mono, h.epoch, h.perm, h.regs, h.mem, h.dram, h.cells, h.kept⟩
theorem keep_mSw {K : Kept} (s : State) (g : SweepSt → SweepSt) (h : Keep K s) :
    Keep K (s.mSw g) := ⟨h.queue, h.mono, h.epoch, h.perm, h.regs, h.mem, h.dram, h.cells, h.kept⟩
theorem keep_mBell {K : Kept} (s : State) (g : BellSt → BellSt) (h : Keep K s) :
    Keep K (s.mBell g) := ⟨h.queue, h.mono, h.epoch, h.perm, h.regs, h.mem, h.dram, h.cells, h.kept⟩
theorem keep_mCiph {K : Kept} (s : State) (g : CiphSt → CiphSt) (h : Keep K s) :
    Keep K (s.mCiph g) := ⟨h.queue, h.mono, h.epoch, h.perm, h.regs, h.mem, h.dram, h.cells, h.kept⟩
theorem keep_mPor {K : Kept} (s : State) (g : PorterSt → PorterSt) (h : Keep K s) :
    Keep K (s.mPor g) := ⟨h.queue, h.mono, h.epoch, h.perm, h.regs, h.mem, h.dram, h.cells, h.kept⟩
theorem keep_mIsl {K : Kept} (s : State) (g : IslSt → IslSt) (h : Keep K s) :
    Keep K (s.mIsl g) := ⟨h.queue, h.mono, h.epoch, h.perm, h.regs, h.mem, h.dram, h.cells, h.kept⟩
theorem keep_mPwr {K : Kept} (s : State) (g : PwrSt → PwrSt) (h : Keep K s) :
    Keep K (s.mPwr g) := ⟨h.queue, h.mono, h.epoch, h.perm, h.regs, h.mem, h.dram, h.cells, h.kept⟩
theorem keep_mCore {K : Kept} (s : State) (g : CoreSt → CoreSt) (h : Keep K s) :
    Keep K (s.mCore g) := ⟨h.queue, h.mono, h.epoch, h.perm, h.regs, h.mem, h.dram, h.cells, h.kept⟩
theorem keep_mCf {K : Kept} (s : State) (g : CfSt → CfSt) (h : Keep K s) :
    Keep K (s.mCf g) := ⟨h.queue, h.mono, h.epoch, h.perm, h.regs, h.mem, h.dram, h.cells, h.kept⟩
theorem keep_mArmed {K : Kept} (s : State) (g : List Armed → List Armed) (h : Keep K s) :
    Keep K (s.mArmed g) := ⟨h.queue, h.mono, h.epoch, h.perm, h.regs, h.mem, h.dram, h.cells, h.kept⟩
theorem keep_mJtag {K : Kept} (s : State) (g : JtagSt → JtagSt) (h : Keep K s) :
    Keep K (s.mJtag g) := ⟨h.queue, h.mono, h.epoch, h.perm, h.regs, h.mem, h.dram, h.cells, h.kept⟩
theorem keep_mBus {K : Kept} (s : State) (g : BusSt → BusSt) (h : Keep K s) :
    Keep K (s.mBus g) := ⟨h.queue, h.mono, h.epoch, h.perm, h.regs, h.mem, h.dram, h.cells, h.kept⟩

end Sys2Proof.Laws
end

