-- ==== Sys2Proof/Laws/KeepRegs.lean ====
section
/-! SUPPORT. The operations of Machine/Regs.lean keep the queue and the canonical forms. -/

namespace Sys2Proof.Laws

open Sys2Proof Sys2Proof.Machine

set_option linter.unusedTactic false
set_option linter.unreachableTactic false
set_option linter.unusedVariables false

theorem keep_peak {K : Kept} (s : State) (f : Field) (v : Nat) (i b : Nat) (hs : Keep K s) :
    Keep K (State.peak s f v i b) := by
  unfold State.peak
  repeat' (first
    | (with_reducible first | assumption | apply keep_wr | apply keep_wr | apply keep_ite | apply keep_ite_snd | apply keep_ite_fst | apply keepO_ite | apply keepOpt_ite)
    | (intro t ht; with_reducible (have _h : Keep K t := ht))
    | (intro (_ : _); show Keep K _)
    | split)

theorem keep_raise {K : Kept} (s : State) (p e : Nat) (hs : Keep K s) :
    Keep K (State.raise s p e) := by
  unfold State.raise
  repeat' (first
    | (with_reducible first | assumption | apply keep_wr | apply keep_wr | apply keep_ite | apply keep_ite_snd | apply keep_ite_fst | apply keepO_ite | apply keepOpt_ite)
    | (intro t ht; with_reducible (have _h : Keep K t := ht))
    | lift_lets -underBinder
    | (intro u; first
        | (refine (?_ : Keep K u → _) ?_; pick_goal 2; simp only [u]; pick_goal 2; intro hu; clear_value u)
        | clear_value u | skip)
    | split)

theorem keep_set {K : Kept} (s : State) (f : Field) (v : Nat) (i b : Nat) (hs : Keep K s) :
    Keep K (State.set s f v i b) := by
  unfold State.set
  repeat' (first
    | (with_reducible first | assumption | apply keep_raise | apply keep_wr | apply keep_wr)
    | (intro t ht; with_reducible (have _h : Keep K t := ht))
    | lift_lets -underBinder
    | (intro u; first
        | (refine (?_ : Keep K u → _) ?_; pick_goal 2; simp only [u]; pick_goal 2; intro hu; clear_value u)
        | clear_value u | skip)
    | split)

theorem keep_count {K : Kept} (s : State) (f : Field) (i b : Nat) (n : Nat) (hs : Keep K s) :
    Keep K (State.count s f i b n) := by
  unfold State.count
  repeat' (first
    | (with_reducible first | assumption | apply keep_raise | apply keep_wr | apply keep_wr | apply keep_ite | apply keep_ite_snd | apply keep_ite_fst | apply keepO_ite | apply keepOpt_ite)
    | (intro t ht; with_reducible (have _h : Keep K t := ht))
    | lift_lets -underBinder
    | (intro u; first
        | (refine (?_ : Keep K u → _) ?_; pick_goal 2; simp only [u]; pick_goal 2; intro hu; clear_value u)
        | clear_value u | skip)
    | split)

theorem keep_wr64 {K : Kept} (s : State) (lo hi : Field) (v : Nat) (i b : Nat) (hs : Keep K s) :
    Keep K (State.wr64 s lo hi v i b) := by
  unfold State.wr64
  repeat' (with_reducible first | assumption | apply keep_wr | apply keep_wr)

theorem keep_fresh {K : Kept} (s : State) (hs : Keep K s) : Keep K s.fresh.2 := keep_free _ hs


end Sys2Proof.Laws
end

