-- ==== Sys2Proof/Laws/KeepOps.lean ====
section
/-! SUPPORT. The operations of Machine/Ops.lean keep the queue and the canonical forms. -/

namespace Sys2Proof.Laws

open Sys2Proof Sys2Proof.Machine

set_option linter.unusedTactic false
set_option linter.unreachableTactic false
set_option linter.unusedVariables false

theorem keep_traceOff {K : Kept} (s : State) (hs : Keep K s) :
    Keep K (State.traceOff s) := by
  unfold State.traceOff
  repeat' (first
    | (with_reducible first | assumption | apply keep_mJtag | apply keep_ite | apply keep_ite_snd | apply keep_ite_fst | apply keepO_ite | apply keepOpt_ite)
    | (intro t ht; with_reducible (have _h : Keep K t := ht))
    | (intro (_ : _); show Keep K _)
    | split)

theorem keep_countErase {K : Kept} (hN : K.keeps = true) (s : State) (sector : Nat) (hs : Keep K s) :
    Keep K (State.countErase s sector) := by
  unfold State.countErase
  repeat' (first
    | (with_reducible first | assumption | apply keep_set | apply keep_ite | apply keep_ite_snd | apply keep_ite_fst | apply keepO_ite | apply keepOpt_ite | apply keep_foldl | apply keep_foldl2 | apply keep_foldl1 | refine keep_mNv _ _ hN ?_ (NvOk.mk rfl (List.prefix_refl _)) | refine keep_mNv _ _ hN ?_ (NvOk.mk rfl (List.prefix_append _ _)) | refine keep_mNv _ _ hN ?_ ?_ | exact NvOk.mk rfl (List.prefix_refl _) | apply nvOk_ite)
    | (intro t a ht; with_reducible (have _h : Keep K t := ht))
    | (intro t ht; with_reducible (have _h : Keep K t := ht))
    | lift_lets -underBinder
    | (intro u; first
        | (refine (?_ : Keep K u → _) ?_; pick_goal 2; simp only [u]; pick_goal 2; intro hu; clear_value u)
        | clear_value u | skip)
    | split)

theorem keep_flNext {K : Kept} (hN : K.keeps = true) (s : State) (bank : Nat) (hs : Keep K s) :
    Keep K (State.flNext s bank) := by
  unfold State.flNext
  repeat' (first
    | (with_reducible first | assumption | apply keep_countErase | apply keep_mCf | apply keep_set | apply keep_wr | apply keep_wr | apply keep_ite | apply keep_ite_snd | apply keep_ite_fst | apply keepO_ite | apply keepOpt_ite)
    | (intro t ht; with_reducible (have _h : Keep K t := ht))
    | lift_lets -underBinder
    | (intro u; first
        | (refine (?_ : Keep K u → _) ?_; pick_goal 2; simp only [u]; pick_goal 2; intro hu; clear_value u)
        | clear_value u | skip)
    | split)

theorem keep_keep {K : Kept} (hN : K.keeps = true) (s : State) (q : LogReq) (dropped : Bool) (hs : Keep K s) :
    Keep K (State.keep s q dropped) := by
  unfold State.keep
  repeat' (first
    | (with_reducible first | assumption | apply keep_count | apply keep_flNext | apply keep_mJtag | apply keep_mLog | apply keep_set | apply keep_wr | apply keep_wr64 | apply keep_wr | apply keep_ite | apply keep_ite_snd | apply keep_ite_fst | apply keepO_ite | apply keepOpt_ite)
    | (intro t ht; with_reducible (have _h : Keep K t := ht))
    | lift_lets -underBinder
    | (intro u; first
        | (refine (?_ : Keep K u → _) ?_; pick_goal 2; simp only [u]; pick_goal 2; intro hu; clear_value u)
        | clear_value u | skip)
    | split)

theorem keep_store {K : Kept} (hN : K.keeps = true) (s : State) (q : LogReq) (dropped : Bool) (hs : Keep K s) :
    Keep K (State.store s q dropped) := by
  unfold State.store
  repeat' (first
    | (with_reducible first | assumption | apply keep_count | apply keep_keep | apply keep_mLog | apply keep_set | apply keep_wr | apply keep_wr | apply keep_ite | apply keep_ite_snd | apply keep_ite_fst | apply keepO_ite | apply keepOpt_ite)
    | (intro t ht; with_reducible (have _h : Keep K t := ht))
    | lift_lets -underBinder
    | (intro u; first
        | (refine (?_ : Keep K u → _) ?_; pick_goal 2; simp only [u]; pick_goal 2; intro hu; clear_value u)
        | clear_value u | skip)
    | split)

theorem keep_post {K : Kept} (s : State) (island : Nat) (q : LogReq) (hs : Keep K s) :
    Keep K (State.post s island q) := by
  unfold State.post
  repeat' (first
    | (with_reducible first | assumption | apply keep_count | apply keep_mLog | apply keep_set | apply keep_ite | apply keep_ite_snd | apply keep_ite_fst | apply keepO_ite | apply keepOpt_ite)
    | (intro t ht; with_reducible (have _h : Keep K t := ht))
    | (intro (_ : _); show Keep K _)
    | split)

theorem keep_record {K : Kept} (s : State) (island code : Nat) (snaps : List Nat) (inj : Bool) (hs : Keep K s) :
    Keep K (State.record s island code snaps inj) := by
  unfold State.record
  repeat' (first
    | (with_reducible first | assumption | apply keep_post)
    | (intro t ht; with_reducible (have _h : Keep K t := ht)))

theorem keep_recordNow {K : Kept} (hN : K.keeps = true) (s : State) (code : Nat) (snaps : List Nat) (hs : Keep K s) :
    Keep K (State.recordNow s code snaps) := by
  unfold State.recordNow
  repeat' (first
    | (with_reducible first | assumption | apply keep_store)
    | (intro t ht; with_reducible (have _h : Keep K t := ht)))

theorem keep_refuse {K : Kept} (s : State) (limit init id addr : Nat) (inj : Bool) (hs : Keep K s) :
    Keep K (State.refuse s limit init id addr inj) := by
  unfold State.refuse
  repeat' (with_reducible first | assumption | apply keep_count | apply keep_record | apply keep_wr | apply keep_wr64 | apply keep_wr)

theorem keep_denyWrite {K : Kept} (s : State) (who : Initiator) (f : Field) (i : Nat) (hs : Keep K s) :
    Keep K (State.denyWrite s who f i) := by
  unfold State.denyWrite
  repeat' (with_reducible first | assumption | apply keep_refuse)

theorem keep_denyUnder {K : Kept} (s : State) (limit : Nat) (who : Initiator) (page off : Nat) (hs : Keep K s) :
    Keep K (State.denyUnder s limit who page off) := by
  unfold State.denyUnder
  repeat' (first
    | (with_reducible first | assumption | apply keep_refuse | apply keep_ite | apply keep_ite_snd | apply keep_ite_fst | apply keepO_ite | apply keepOpt_ite)
    | (intro t ht; with_reducible (have _h : Keep K t := ht))
    | (intro (_ : _); show Keep K _)
    | split)

theorem keep_rangeRecord {K : Kept} (s : State) (who : Initiator) (page off value : Nat) (hs : Keep K s) :
    Keep K (State.rangeRecord s who page off value) := by
  unfold State.rangeRecord
  repeat' (with_reducible first | assumption | apply keep_record)

theorem keep_answer {K : Kept} (s : State) (data : List Nat) (hs : Keep K s) :
    Keep K (State.answer s data) := by
  unfold State.answer
  repeat' (first
    | (with_reducible first | assumption | apply keep_mBus)
    | (intro t ht; with_reducible (have _h : Keep K t := ht)))

theorem keep_busError {K : Kept} (s : State) (hs : Keep K s) :
    Keep K (State.busError s) := by
  unfold State.busError
  repeat' (first
    | (with_reducible first | assumption | apply keep_mBus)
    | (intro t ht; with_reducible (have _h : Keep K t := ht)))

theorem keep_move {K : Kept} (s : State) (t : Nat) (d : Int) (hs : Keep K s) :
    Keep K (State.move s t d) := by
  unfold State.move
  repeat' (first
    | (with_reducible first | assumption | apply keep_mTal | apply keep_set)
    | (intro t ht; with_reducible (have _h : Keep K t := ht)))

theorem keep_send {K : Kept} (s : State) (t : Nat) (d : Int) (hs : Keep K s) :
    Keep K (State.send s t d) := by
  unfold State.send
  repeat' (first
    | (with_reducible first | assumption | apply keep_mTal)
    | (intro t ht; with_reducible (have _h : Keep K t := ht)))

end Sys2Proof.Laws
end

