-- ==== Sys2Proof/Laws/KeepCapacity.lean ====
section
/-! SUPPORT. The operations of Machine/Capacity.lean keep the queue and the canonical forms. -/

namespace Sys2Proof.Laws

open Sys2Proof Sys2Proof.Machine

set_option linter.unusedTactic false
set_option linter.unreachableTactic false
set_option linter.unusedVariables false

theorem keep_setPitch {K : Kept} (s : State) (n : Nat) (p : Pitch) (hs : Keep K s) :
    Keep K (State.setPitch s n p) := by
  unfold State.setPitch
  repeat' (first
    | (with_reducible first | assumption | apply keep_mPit | apply keep_set)
    | (intro t ht; with_reducible (have _h : Keep K t := ht)))

theorem keep_pitchLog {K : Kept} (s : State) (n : Nat) (g : PitchLog → PitchLog) (hs : Keep K s) :
    Keep K (State.pitchLog s n g) := by
  unfold State.pitchLog
  repeat' (first
    | (with_reducible first | assumption | apply keep_setPitch)
    | (intro t ht; with_reducible (have _h : Keep K t := ht))
    | lift_lets -underBinder
    | (intro u; first
        | (refine (?_ : Keep K u → _) ?_; pick_goal 2; simp only [u]; pick_goal 2; intro hu; clear_value u)
        | clear_value u | skip))

theorem keep_mPort {K : Kept} (s : State) (p : Nat) (g : Port → Port) (hs : Keep K s) :
    Keep K (State.mPort s p g) := by
  unfold State.mPort
  repeat' (first
    | (with_reducible first | assumption | apply keep_mHost | apply keep_ite | apply keep_ite_snd | apply keep_ite_fst | apply keepO_ite | apply keepOpt_ite)
    | (intro t ht; with_reducible (have _h : Keep K t := ht))
    | (intro (_ : _); show Keep K _)
    | split)

theorem keep_setReserve {K : Kept} (s : State) (hs : Keep K s) :
    Keep K (State.setReserve s) := by
  unfold State.setReserve
  repeat' (first
    | (with_reducible first | assumption | apply keep_wr | apply keep_wr | apply keep_foldl | apply keep_foldl2 | apply keep_foldl1)
    | (intro t a ht; with_reducible (have _h : Keep K t := ht))
    | (intro t ht; with_reducible (have _h : Keep K t := ht)))

theorem keep_refillOne {K : Kept} (s : State) (n t r : Nat) (hs : Keep K s) :
    Keep K (State.refillOne s n t r) := by
  unfold State.refillOne
  repeat' (first
    | (with_reducible first | assumption | apply keep_mPit | apply keep_move | apply keep_set)
    | (intro t ht; with_reducible (have _h : Keep K t := ht))
    | lift_lets -underBinder
    | (intro u; first
        | (refine (?_ : Keep K u → _) ?_; pick_goal 2; simp only [u]; pick_goal 2; intro hu; clear_value u)
        | clear_value u | skip))

theorem keep_retire {K : Kept} (s : State) (n : Nat) (hs : Keep K s) :
    Keep K (State.retire s n) := by
  unfold State.retire
  repeat' (first
    | (with_reducible first | assumption | apply keep_move | apply keep_setPitch | apply keep_foldl | apply keep_foldl2 | apply keep_foldl1)
    | (intro t a ht; with_reducible (have _h : Keep K t := ht))
    | (intro t ht; with_reducible (have _h : Keep K t := ht))
    | lift_lets -underBinder
    | (intro u; first
        | (refine (?_ : Keep K u → _) ?_; pick_goal 2; simp only [u]; pick_goal 2; intro hu; clear_value u)
        | clear_value u | skip))

theorem keep_spend {K : Kept} (s : State) (n ops units tax : Nat) (hs : Keep K s) :
    Keep K (State.spend s n ops units tax) := by
  unfold State.spend
  repeat' (first
    | (with_reducible first | assumption | apply keep_move | apply keep_setPitch)
    | (intro t ht; with_reducible (have _h : Keep K t := ht))
    | lift_lets -underBinder
    | (intro u; first
        | (refine (?_ : Keep K u → _) ?_; pick_goal 2; simp only [u]; pick_goal 2; intro hu; clear_value u)
        | clear_value u | skip))

theorem keep_driveClocks {K : Kept} (s : State) (hs : Keep K s) :
    Keep K (State.driveClocks s) := by
  unfold State.driveClocks
  repeat' (first
    | (with_reducible first | assumption | apply keep_mPwr | apply keep_wr | apply keep_wr | apply keep_ite | apply keep_ite_snd | apply keep_ite_fst | apply keepO_ite | apply keepOpt_ite)
    | (intro t ht; with_reducible (have _h : Keep K t := ht))
    | lift_lets -underBinder
    | (intro u; first
        | (refine (?_ : Keep K u → _) ?_; pick_goal 2; simp only [u]; pick_goal 2; intro hu; clear_value u)
        | clear_value u | skip)
    | split)

theorem keep_enterPs {K : Kept} (s : State) (w : Nat) (hs : Keep K s) :
    Keep K (State.enterPs s w) := by
  unfold State.enterPs
  repeat' (first
    | (with_reducible first | assumption | apply keep_driveClocks | apply keep_mPwr | apply keep_set | apply keep_wr | apply keep_wr | apply keep_ite | apply keep_ite_snd | apply keep_ite_fst | apply keepO_ite | apply keepOpt_ite)
    | (intro t ht; with_reducible (have _h : Keep K t := ht))
    | lift_lets -underBinder
    | (intro u; first
        | (refine (?_ : Keep K u → _) ?_; pick_goal 2; simp only [u]; pick_goal 2; intro hu; clear_value u)
        | clear_value u | skip)
    | split)

theorem keep_followPower {K : Kept} (s : State) (hs : Keep K s) :
    Keep K (State.followPower s) := by
  unfold State.followPower
  repeat' (first
    | (with_reducible first | assumption | apply keep_count | apply keep_enterPs | apply keep_mPwr | apply keep_wr | apply keep_wr | apply keep_ite | apply keep_ite_snd | apply keep_ite_fst | apply keepO_ite | apply keepOpt_ite)
    | (intro t ht; with_reducible (have _h : Keep K t := ht))
    | lift_lets -underBinder
    | (intro u; first
        | (refine (?_ : Keep K u → _) ?_; pick_goal 2; simp only [u]; pick_goal 2; intro hu; clear_value u)
        | clear_value u | skip)
    | split)

theorem keep_suspend {K : Kept} (s : State) (n res : Nat) (hs : Keep K s) :
    Keep K (State.suspend s n res) := by
  unfold State.suspend
  repeat' (with_reducible first | assumption | apply keep_record | apply keep_setPitch)

theorem keep_suspendUntil {K : Kept} (s : State) (l : List Nat) (hs : Keep K s) : Keep K (suspendUntil s l) := by
  induction l generalizing s with
  | nil => exact hs
  | cons n t ih =>
    rw [suspendUntil]
    repeat' (first
      | (with_reducible assumption)
      | (with_reducible first | apply ih | apply keep_suspend | apply keep_ite | apply keep_ite_snd | apply keep_ite_fst | apply keepO_ite | apply keepOpt_ite)
      | (intro t ht; with_reducible (have _h : Keep K t := ht))
      | lift_lets -underBinder
      | (intro u; first
          | (refine (?_ : Keep K u → _) ?_; pick_goal 2; simp only [u]; pick_goal 2; intro hu; clear_value u)
          | (refine (?_ : Keep K u.2 → _) ?_; pick_goal 2; simp only [u]; pick_goal 2; intro hu; clear_value u)
          | (refine (?_ : Keep K u.1 → _) ?_; pick_goal 2; simp only [u]; pick_goal 2; intro hu; clear_value u)
          | (refine (?_ : Keep K u.st → _) ?_; pick_goal 2; simp only [u]; pick_goal 2; intro hu; clear_value u)
          | clear_value u | skip)
      | split
      | (intro t ht; with_reducible (have _h : Keep K t := ht))
      | (intro c t ht; with_reducible (have _h : Keep K t := ht))
      | dsimp -zeta only [id])


theorem keep_restoreThose {K : Kept} (s : State) (l : List Nat) (hs : Keep K s) : Keep K (restoreThose s l) := by
  induction l generalizing s with
  | nil => exact hs
  | cons n t ih =>
    rw [restoreThose]
    split
    · exact ih _ (keep_record _ _ _ _ _ (keep_setPitch _ _ _ hs))
    · exact ih _ hs


theorem keep_retest {K : Kept} (s : State) (hs : Keep K s) :
    Keep K (State.retest s) := by
  unfold State.retest
  repeat' (first
    | (with_reducible first | assumption | apply keep_followPower | apply keep_restoreThose | apply keep_setReserve | apply keep_suspendUntil)
    | (intro t ht; with_reducible (have _h : Keep K t := ht))
    | lift_lets -underBinder
    | (intro u; first
        | (refine (?_ : Keep K u → _) ?_; pick_goal 2; simp only [u]; pick_goal 2; intro hu; clear_value u)
        | clear_value u | skip))

theorem keep_rentAt {K : Kept} (s : State) (n owner port : Nat) (c : Contract) (hs : Keep K s) :
    Keep K (State.rentAt s n owner port c) := by
  unfold State.rentAt
  repeat' (first
    | (with_reducible first | assumption | apply keep_followPower | apply keep_refillOne | apply keep_retest | apply keep_setPitch | apply keep_foldl | apply keep_foldl2 | apply keep_foldl1)
    | (intro t a ht; with_reducible (have _h : Keep K t := ht))
    | (intro t ht; with_reducible (have _h : Keep K t := ht))
    | lift_lets -underBinder
    | (intro u; first
        | (refine (?_ : Keep K u → _) ?_; pick_goal 2; simp only [u]; pick_goal 2; intro hu; clear_value u)
        | clear_value u | skip))

theorem keep_unbindPitch {K : Kept} (s : State) (n : Nat) (hs : Keep K s) :
    Keep K (State.unbindPitch s n) := by
  unfold State.unbindPitch
  repeat' (first
    | (with_reducible first | assumption | apply keep_wr | apply keep_wr | apply keep_ite | apply keep_ite_snd | apply keep_ite_fst | apply keepO_ite | apply keepOpt_ite | apply keep_foldl | apply keep_foldl2 | apply keep_foldl1)
    | (intro t a ht; with_reducible (have _h : Keep K t := ht))
    | (intro t ht; with_reducible (have _h : Keep K t := ht))
    | lift_lets -underBinder
    | (intro u; first
        | (refine (?_ : Keep K u → _) ?_; pick_goal 2; simp only [u]; pick_goal 2; intro hu; clear_value u)
        | clear_value u | skip)
    | split)

theorem keep_returnPitch {K : Kept} (s : State) (n : Nat) (hs : Keep K s) :
    Keep K (State.returnPitch s n) := by
  unfold State.returnPitch
  repeat' (first
    | (with_reducible first | assumption | apply keep_followPower | apply keep_retest | apply keep_retire | apply keep_setPitch | apply keep_unbindPitch | apply keep_ite | apply keep_ite_snd | apply keep_ite_fst | apply keepO_ite | apply keepOpt_ite)
    | (intro t ht; with_reducible (have _h : Keep K t := ht))
    | lift_lets -underBinder
    | (intro u; first
        | (refine (?_ : Keep K u → _) ?_; pick_goal 2; simp only [u]; pick_goal 2; intro hu; clear_value u)
        | clear_value u | skip)
    | split)

theorem keep_pitchFree {K : Kept} (s : State) (n : Nat) (hs : Keep K s) :
    Keep K (State.pitchFree s n) := by
  unfold State.pitchFree
  repeat' (first
    | (with_reducible first | assumption | apply keep_followPower | apply keep_retest | apply keep_retire | apply keep_ite | apply keep_ite_snd | apply keep_ite_fst | apply keepO_ite | apply keepOpt_ite)
    | (intro t ht; with_reducible (have _h : Keep K t := ht))
    | (intro (_ : _); show Keep K _)
    | split)

end Sys2Proof.Laws
end

