-- ==== Sys2Proof/Laws/KeepInject.lean ====
section
/-! SUPPORT. The operations of Machine/Inject.lean keep the queue and the canonical forms. -/

namespace Sys2Proof.Laws

open Sys2Proof Sys2Proof.Machine

set_option linter.unusedTactic false
set_option linter.unreachableTactic false
set_option linter.unusedVariables false

theorem keep_disarm {K : Kept} (s : State) (p cause : Nat) (hs : Keep K s) :
    Keep K (State.disarm s p cause) := by
  unfold State.disarm
  repeat' (first
    | (with_reducible first | assumption | apply keep_mArmed | apply keep_record | apply keep_wr | apply keep_wr | apply keep_ite | apply keep_ite_snd | apply keep_ite_fst | apply keepO_ite | apply keepOpt_ite)
    | (intro t ht; with_reducible (have _h : Keep K t := ht))
    | lift_lets -underBinder
    | (intro u; first
        | (refine (?_ : Keep K u → _) ?_; pick_goal 2; simp only [u]; pick_goal 2; intro hu; clear_value u)
        | clear_value u | skip)
    | split)

theorem keep_disarmThose {K : Kept} (s : State) (which : Nat → Bool) (cause : Nat) (hs : Keep K s) :
    Keep K (State.disarmThose s which cause) := by
  unfold State.disarmThose
  repeat' (first
    | (with_reducible first | assumption | apply keep_disarm | apply keep_foldl | apply keep_foldl2 | apply keep_foldl1)
    | (intro t a ht; with_reducible (have _h : Keep K t := ht))
    | (intro t ht; with_reducible (have _h : Keep K t := ht)))

theorem keep_fire {K : Kept} (s : State) (p point : Nat) (sel : Nat → Nat → Bool) (hs : Keep K s) :
    Keep K (State.fire s p point sel).2 := by
  unfold State.fire
  repeat' (first
    | (with_reducible first | assumption | apply keep_count | apply keep_disarm | apply keep_mArmed | apply keep_raise | apply keep_wr | apply keep_wr | apply keep_ite | apply keep_ite_snd | apply keep_ite_fst | apply keepO_ite | apply keepOpt_ite)
    | (intro t ht; with_reducible (have _h : Keep K t := ht))
    | lift_lets -underBinder
    | (intro u; first
        | (refine (?_ : Keep K u → _) ?_; pick_goal 2; simp only [u]; pick_goal 2; intro hu; clear_value u)
        | clear_value u | skip)
    | split)

theorem keep_limFire {K : Kept} (s : State) (limit : Nat) (hs : Keep K s) :
    Keep K (State.limFire s limit).2 := by
  unfold State.limFire
  repeat' (first
    | (with_reducible first | assumption | apply keep_fire)
    | (intro t ht; with_reducible (have _h : Keep K t := ht)))

end Sys2Proof.Laws
end

