-- ==== Sys2Proof/Laws/KeepAccess.lean ====
section
/-! SUPPORT. The operations of Machine/Access.lean keep the queue and the canonical forms. -/

namespace Sys2Proof.Laws

open Sys2Proof Sys2Proof.Machine

set_option linter.unusedTactic false
set_option linter.unreachableTactic false
set_option linter.unusedVariables false

theorem keep_xwdReport {K : Kept} (s : State) (src dst : Nat) (wake inj : Bool) (hs : Keep K s) :
    Keep K (State.xwdReport s src dst wake inj) := by
  unfold State.xwdReport
  repeat' (with_reducible first | assumption | apply keep_count | apply keep_record | apply keep_wr | apply keep_wr)

theorem keep_wakeIsland {K : Kept} (s : State) (src island ns : Nat) (hs : Keep K s) :
    Keep K (State.wakeIsland s src island ns) := by
  unfold State.wakeIsland
  repeat' (first
    | (with_reducible first | assumption | apply keep_count | apply keep_fire | apply keep_mIsl | apply keep_peak | apply keep_xwdReport | apply keep_ite | apply keep_ite_snd | apply keep_ite_fst | apply keepO_ite | apply keepOpt_ite)
    | (intro t ht; with_reducible (have _h : Keep K t := ht))
    | lift_lets -underBinder
    | (intro u; first
        | (refine (?_ : Keep K u → _) ?_; pick_goal 2; simp only [u]; pick_goal 2; intro hu; clear_value u)
        | clear_value u | skip)
    | split)

theorem keep_crossTo {K : Kept} (s : State) (src p : Nat) (hs : Keep K s) :
    Keep K (State.crossTo s src p) := by
  unfold State.crossTo
  repeat' (first
    | (with_reducible first | assumption | apply keep_fire | apply keep_fresh | apply keep_wakeIsland | apply keep_xwdReport | apply keep_ite | apply keep_ite_snd | apply keep_ite_fst | apply keepO_ite | apply keepOpt_ite)
    | (intro t ht; with_reducible (have _h : Keep K t := ht))
    | lift_lets -underBinder
    | (intro u; first
        | (refine (?_ : Keep K u → _) ?_; pick_goal 2; simp only [u]; pick_goal 2; intro hu; clear_value u)
        | clear_value u | skip)
    | split)

theorem keep_offAccess {K : Kept} (s : State) (who : Initiator) (p off : Nat) (write : Bool) (hs : Keep K s) :
    Keep K (State.offAccess s who p off write) := by
  unfold State.offAccess
  repeat' (with_reducible first | assumption | apply keep_count | apply keep_record)

theorem keep_access {K : Kept} (s : State) (who : Initiator) (p off : Nat) (write : Bool) (f : State → State) (hs : Keep K s) (hf : ∀ (x0 : State), Keep K x0 → Keep K (f x0)) :
    Keep K (State.access s who p off write f) := by
  unfold State.access
  repeat' (first
    | (with_reducible first | assumption | apply keep_crossTo | apply keep_offAccess | apply hf | apply keep_ite | apply keep_ite_snd | apply keep_ite_fst | apply keepO_ite | apply keepOpt_ite)
    | (intro t ht; with_reducible (have _h : Keep K t := ht))
    | (intro (_ : _); show Keep K _)
    | split)

end Sys2Proof.Laws
end

