-- ==== Sys2Proof/Laws/KeepHost.lean ====
section
/-! SUPPORT. The operations of Machine/Host.lean keep the queue and the canonical forms. -/

namespace Sys2Proof.Laws

open Sys2Proof Sys2Proof.Machine

set_option linter.unusedTactic false
set_option linter.unreachableTactic false
set_option linter.unusedVariables false

theorem keep_mCmd {K : Kept} (s : State) (uid : Nat) (g : Cmd → Cmd) (hs : Keep K s) :
    Keep K (State.mCmd s uid g) := by
  unfold State.mCmd
  repeat' (first
    | (with_reducible first | assumption | apply keep_mHost | apply keep_ite | apply keep_ite_snd | apply keep_ite_fst | apply keepO_ite | apply keepOpt_ite)
    | (intro t ht; with_reducible (have _h : Keep K t := ht))
    | (intro (_ : _); show Keep K _)
    | split)

theorem keep_mSq {K : Kept} (s : State) (port id : Nat) (g : Sq → Sq) (hs : Keep K s) :
    Keep K (State.mSq s port id g) := by
  unfold State.mSq
  repeat' (first
    | (with_reducible first | assumption | apply keep_mHost | apply keep_ite | apply keep_ite_snd | apply keep_ite_fst | apply keepO_ite | apply keepOpt_ite)
    | (intro t ht; with_reducible (have _h : Keep K t := ht))
    | (intro (_ : _); show Keep K _)
    | split)

theorem keep_unstage {K : Kept} (s : State) (c : Cmd) (hs : Keep K s) :
    Keep K (State.unstage s c) := by
  unfold State.unstage
  repeat' (first
    | (with_reducible first | assumption | apply keep_mSq | apply keep_ite | apply keep_ite_snd | apply keep_ite_fst | apply keepO_ite | apply keepOpt_ite)
    | (intro t ht; with_reducible (have _h : Keep K t := ht))
    | lift_lets -underBinder
    | (intro u; first
        | (refine (?_ : Keep K u → _) ?_; pick_goal 2; simp only [u]; pick_goal 2; intro hu; clear_value u)
        | clear_value u | skip)
    | split)

theorem keep_ctxUse {K : Kept} (s : State) (hs : Keep K s) :
    Keep K (State.ctxUse s) := by
  unfold State.ctxUse
  repeat' (first
    | (with_reducible first | assumption | apply keep_wr | apply keep_wr)
    | (intro t ht; with_reducible (have _h : Keep K t := ht)))

theorem keep_traceCmd {K : Kept} (s : State) (ev : Nat) (c : Cmd) (hs : Keep K s) :
    Keep K (State.traceCmd s ev c) := by
  unfold State.traceCmd
  repeat' (first
    | (with_reducible first | assumption | apply keep_mJtag | apply keep_ite | apply keep_ite_snd | apply keep_ite_fst | apply keepO_ite | apply keepOpt_ite)
    | (intro t ht; with_reducible (have _h : Keep K t := ht))
    | lift_lets -underBinder
    | (intro u; first
        | (refine (?_ : Keep K u → _) ?_; pick_goal 2; simp only [u]; pick_goal 2; intro hu; clear_value u)
        | clear_value u | skip)
    | split)

theorem keep_mNs {K : Kept} (s : State) (n : Nat) (g : Ns → Ns) (hs : Keep K s) :
    Keep K (State.mNs s n g) := by
  unfold State.mNs
  repeat' (first
    | (with_reducible first | assumption | apply keep_mLed | apply keep_set)
    | (intro t ht; with_reducible (have _h : Keep K t := ht)))

theorem keep_postCqe {K : Kept} (s : State) (port cq : Nat) (e : Cqe) (pitch : Nat) (hs : Keep K s) :
    Keep K (State.postCqe s port cq e pitch) := by
  unfold State.postCqe
  repeat' (first
    | (with_reducible first | assumption | apply keep_mHost | apply keep_ite | apply keep_ite_snd | apply keep_ite_fst | apply keepO_ite | apply keepOpt_ite)
    | (intro t ht; with_reducible (have _h : Keep K t := ht))
    | (intro (_ : _); show Keep K _)
    | split)

theorem keep_sendEvent {K : Kept} (s : State) (port dw0 : Nat) (hs : Keep K s) :
    Keep K (State.sendEvent s port dw0) := by
  unfold State.sendEvent
  repeat' (first
    | (with_reducible first | assumption | apply keep_ctxUse | apply keep_mHost | apply keep_mPort | apply keep_postCqe | apply keep_ite | apply keep_ite_snd | apply keep_ite_fst | apply keepO_ite | apply keepOpt_ite)
    | (intro t ht; with_reducible (have _h : Keep K t := ht))
    | lift_lets -underBinder
    | (intro u; first
        | (refine (?_ : Keep K u → _) ?_; pick_goal 2; simp only [u]; pick_goal 2; intro hu; clear_value u)
        | clear_value u | skip)
    | split)

theorem keep_asyncEvent {K : Kept} (s : State) (enableBit typ info page : Nat) (hs : Keep K s) :
    Keep K (State.asyncEvent s enableBit typ info page) := by
  unfold State.asyncEvent
  repeat' (first
    | (with_reducible first | assumption | apply keep_sendEvent | apply keep_ite | apply keep_ite_snd | apply keep_ite_fst | apply keepO_ite | apply keepOpt_ite | apply keep_foldl | apply keep_foldl2 | apply keep_foldl1)
    | (intro t a ht; with_reducible (have _h : Keep K t := ht))
    | (intro t ht; with_reducible (have _h : Keep K t := ht))
    | (intro (_ : _); show Keep K _)
    | split)

theorem keep_critical {K : Kept} (s : State) (b : Nat) (hs : Keep K s) :
    Keep K (State.critical s b) := by
  unfold State.critical
  repeat' (first
    | (with_reducible first | assumption | apply keep_asyncEvent | apply keep_wr | apply keep_wr | apply keep_ite | apply keep_ite_snd | apply keep_ite_fst | apply keepO_ite | apply keepOpt_ite)
    | (intro t ht; with_reducible (have _h : Keep K t := ht))
    | (intro (_ : _); show Keep K _)
    | split)

theorem keep_rearm {K : Kept} (s : State) (port page : Nat) (hs : Keep K s) :
    Keep K (State.rearm s port page) := by
  unfold State.rearm
  repeat' (first
    | (with_reducible first | assumption | apply keep_mPort)
    | (intro t ht; with_reducible (have _h : Keep K t := ht)))

theorem keep_rltUse {K : Kept} (s : State) (hs : Keep K s) :
    Keep K (State.rltUse s) := by
  unfold State.rltUse
  repeat' (with_reducible first | assumption | apply keep_peak | apply keep_wr | apply keep_wr)

theorem keep_putRow {K : Kept} (s : State) (r : RltRow) (hs : Keep K s) :
    Keep K (State.putRow s r) := by
  unfold State.putRow
  repeat' (first
    | (with_reducible first | assumption | apply keep_mHost | apply keep_rltUse)
    | (intro t ht; with_reducible (have _h : Keep K t := ht)))

theorem keep_insertRow {K : Kept} (s : State) (r : RltRow) (hs : Keep K s) :
    Keep K (State.insertRow s r) := by
  unfold State.insertRow
  repeat' (first
    | (with_reducible first | assumption | apply keep_count | apply keep_mHost | apply keep_peak | apply keep_putRow | apply keep_wr | apply keep_wr)
    | (intro t ht; with_reducible (have _h : Keep K t := ht))
    | lift_lets -underBinder
    | (intro u; first
        | (refine (?_ : Keep K u → _) ?_; pick_goal 2; simp only [u]; pick_goal 2; intro hu; clear_value u)
        | clear_value u | skip)
    | split)

theorem keep_requestRow {K : Kept} (s : State) (r : RltRow) (hs : Keep K s) :
    Keep K (State.requestRow s r) := by
  unfold State.requestRow
  repeat' (first
    | (with_reducible first | assumption | apply keep_count | apply keep_insertRow | apply keep_mHost | apply keep_ite | apply keep_ite_snd | apply keep_ite_fst | apply keepO_ite | apply keepOpt_ite)
    | (intro t ht; with_reducible (have _h : Keep K t := ht))
    | (intro (_ : _); show Keep K _)
    | split)

theorem keep_grantRows {K : Kept} (s : State) (hs : Keep K s) :
    Keep K (State.grantRows s) := by
  unfold State.grantRows
  repeat' (first
    | (with_reducible first | assumption | apply keep_mHost | apply keep_ite | apply keep_ite_snd | apply keep_ite_fst | apply keepO_ite | apply keepOpt_ite)
    | (intro t ht; with_reducible (have _h : Keep K t := ht))
    | (intro (_ : _); show Keep K _)
    | split)

theorem keep_seatWaiting {K : Kept} (s : State) (l : List RltRow) (hs : Keep K s) : Keep K (seatWaiting s l) := by
  induction l generalizing s with
  | nil => exact hs
  | cons n t ih =>
    rw [seatWaiting]
    repeat' (first
      | (with_reducible assumption)
      | (with_reducible first | apply ih | apply keep_requestRow | apply keep_ite | apply keep_ite_snd | apply keep_ite_fst | apply keepO_ite | apply keepOpt_ite)
      | (intro t ht; with_reducible (have _h : Keep K t := ht))
      | lift_lets -underBinder
      | (intro u; first
          | (refine (?_ : Keep K u → _) ?_; pick_goal 2; simp only [u]; pick_goal 2; intro hu; clear_value u)
          | (refine (?_ : Keep K u.2 → _) ?_; pick_goal 2; simp only [u]; pick_goal 2; intro hu; clear_value u)
          | (refine (?_ : Keep K u.1 → _) ?_; pick_goal 2; simp only [u]; pick_goal 2; intro hu; clear_value u)
          | (refine (?_ : Keep K u.st → _) ?_; pick_goal 2; simp only [u]; pick_goal 2; intro hu; clear_value u)
          | clear_value u | skip)
      | split
      | (intro t ht; with_reducible (have _h : Keep K t := ht))
      | (intro c t ht; with_reducible (have _h : Keep K t := ht))
      | dsimp -zeta only [id])


theorem keep_releaseRows {K : Kept} (s : State) (uid : Nat) (hs : Keep K s) :
    Keep K (State.releaseRows s uid) := by
  unfold State.releaseRows
  repeat' (first
    | (with_reducible first | assumption | apply keep_grantRows | apply keep_mHost | apply keep_rltUse | apply keep_seatWaiting | apply keep_wr | apply keep_wr | apply keep_ite | apply keep_ite_snd | apply keep_ite_fst | apply keepO_ite | apply keepOpt_ite)
    | (intro t ht; with_reducible (have _h : Keep K t := ht))
    | lift_lets -underBinder
    | (intro u; first
        | (refine (?_ : Keep K u → _) ?_; pick_goal 2; simp only [u]; pick_goal 2; intro hu; clear_value u)
        | clear_value u | skip)
    | split)

theorem keep_promise {K : Kept} (s : State) (c : Cmd) (hs : Keep K s) :
    Keep K (State.promise s c) := by
  unfold State.promise
  repeat' (first
    | (with_reducible first | assumption | apply keep_fire | apply keep_mPit | apply keep_pitchLog | apply keep_record | apply keep_traceCmd | apply keep_ite | apply keep_ite_snd | apply keep_ite_fst | apply keepO_ite | apply keepOpt_ite)
    | (intro t ht; with_reducible (have _h : Keep K t := ht))
    | lift_lets -underBinder
    | (intro u; first
        | (refine (?_ : Keep K u → _) ?_; pick_goal 2; simp only [u]; pick_goal 2; intro hu; clear_value u)
        | clear_value u | skip)
    | split)

theorem keep_latency {K : Kept} (s : State) (c : Cmd) (hs : Keep K s) :
    Keep K (State.latency s c) := by
  unfold State.latency
  repeat' (first
    | (with_reducible first | assumption | apply keep_pitchLog)
    | (intro t ht; with_reducible (have _h : Keep K t := ht))
    | lift_lets -underBinder
    | (intro u; first
        | (refine (?_ : Keep K u → _) ?_; pick_goal 2; simp only [u]; pick_goal 2; intro hu; clear_value u)
        | clear_value u | skip)
    | split)

theorem keep_complete {K : Kept} (s : State) (c : Cmd) (sct sc : Nat) (dnr : Bool) (dw0 : Nat) (data : List Nat) (dw1 : Nat) (more : Bool) (hs : Keep K s) :
    Keep K (State.complete s c sct sc dnr dw0 data dw1 more) := by
  unfold State.complete
  repeat' (first
    | (with_reducible first | assumption | apply keep_ctxUse | apply keep_latency | apply keep_mHost | apply keep_pitchFree | apply keep_postCqe | apply keep_promise | apply keep_releaseRows | apply keep_traceCmd | apply keep_unstage | apply keep_ite | apply keep_ite_snd | apply keep_ite_fst | apply keepO_ite | apply keepOpt_ite)
    | (intro t ht; with_reducible (have _h : Keep K t := ht))
    | lift_lets -underBinder
    | (intro u; first
        | (refine (?_ : Keep K u → _) ?_; pick_goal 2; simp only [u]; pick_goal 2; intro hu; clear_value u)
        | clear_value u | skip)
    | split)

theorem keep_discard {K : Kept} (s : State) (c : Cmd) (hs : Keep K s) :
    Keep K (State.discard s c) := by
  unfold State.discard
  repeat' (first
    | (with_reducible first | assumption | apply keep_ctxUse | apply keep_mHost | apply keep_pitchFree | apply keep_releaseRows | apply keep_unstage)
    | (intro t ht; with_reducible (have _h : Keep K t := ht))
    | lift_lets -underBinder
    | (intro u; first
        | (refine (?_ : Keep K u → _) ?_; pick_goal 2; simp only [u]; pick_goal 2; intro hu; clear_value u)
        | clear_value u | skip)
    | split)

theorem keep_errorInfo {K : Kept} (s : State) (e : ErrInfo) (hs : Keep K s) :
    Keep K (State.errorInfo s e) := by
  unfold State.errorInfo
  repeat' (first
    | (with_reducible first | assumption | apply keep_mHost)
    | (intro t ht; with_reducible (have _h : Keep K t := ht)))

end Sys2Proof.Laws
end

