-- ==== Sys2Proof/Laws/KeepTally.lean ====
section
/-! SUPPORT. The operations of Machine/Tally.lean keep the queue and the canonical forms. -/

namespace Sys2Proof.Laws

open Sys2Proof Sys2Proof.Machine

set_option linter.unusedTactic false
set_option linter.unreachableTactic false
set_option linter.unusedVariables false

theorem keep_checkOne {K : Kept} (now : Tbl Int) (a : State × List Violation) (is_ : Nat × Nat) (ha : Keep K a.1) :
    Keep K (checkOne now a is_).1 := by
  unfold checkOne
  repeat' (first
    | (with_reducible first | assumption | apply keep_fire | apply keep_ite | apply keep_ite_snd | apply keep_ite_fst | apply keepO_ite | apply keepOpt_ite)
    | (intro t ht; with_reducible (have _h : Keep K t := ht))
    | lift_lets -underBinder
    | (intro u; first
        | (refine (?_ : Keep K u → _) ?_; pick_goal 2; simp only [u]; pick_goal 2; intro hu; clear_value u)
        | clear_value u | skip)
    | split)

theorem keep_checkRange {K : Kept} (a : State × List Violation) (ha : Keep K a.1) :
    Keep K (checkRange a).1 := by
  unfold checkRange
  repeat' (first
    | (with_reducible assumption)
    | (with_reducible first | apply keep_fire | apply keep_ite | apply keep_ite_snd | apply keep_ite_fst | apply keepO_ite | apply keepOpt_ite)
    | (intro t a ht; with_reducible (have _h : Keep K t.2 := ht))
    | (intro t a ht; with_reducible (have _h : Keep K t.1 := ht))
    | (intro t a ht; with_reducible (have _h : Keep K t := ht))
    | (intro t ht; with_reducible (have _h : Keep K t := ht))
    | lift_lets -underBinder
    | (intro u; first
        | (refine (?_ : Keep K u → _) ?_; pick_goal 2; simp only [u]; pick_goal 2; intro hu; clear_value u)
        | (refine (?_ : Keep K u.2 → _) ?_; pick_goal 2; simp only [u]; pick_goal 2; intro hu; clear_value u)
        | (refine (?_ : Keep K u.1 → _) ?_; pick_goal 2; simp only [u]; pick_goal 2; intro hu; clear_value u)
        | (refine (?_ : Keep K u.st → _) ?_; pick_goal 2; simp only [u]; pick_goal 2; intro hu; clear_value u)
        | clear_value u | skip)
    | split
    | (intro t ht; with_reducible (have _h : Keep K t := ht))
    | (intro c t ht; with_reducible (have _h : Keep K t := ht))
    | dsimp -zeta only [id])

theorem keep_realFault {K : Kept} (s : State) (hs : Keep K s) :
    Keep K (State.realFault s) := by
  unfold State.realFault
  repeat' (first
    | (with_reducible first | assumption | apply keep_mTal | apply keep_wr | apply keep_wr | apply keep_ite | apply keep_ite_snd | apply keep_ite_fst | apply keepO_ite | apply keepOpt_ite)
    | (intro t ht; with_reducible (have _h : Keep K t := ht))
    | (intro (_ : _); show Keep K _)
    | split)

theorem keep_tallyFault {K : Kept} (s : State) (now : Tbl Int) (vs : List Violation) (hs : Keep K s) :
    Keep K (State.tallyFault s now vs) := by
  unfold State.tallyFault
  repeat' (first
    | (with_reducible first | assumption | apply keep_critical | apply keep_mTal | apply keep_realFault | apply keep_record | apply keep_set | apply keep_wr | apply keep_wr64 | apply keep_wr | apply keep_ite | apply keep_ite_snd | apply keep_ite_fst | apply keepO_ite | apply keepOpt_ite)
    | (intro t ht; with_reducible (have _h : Keep K t := ht))
    | lift_lets -underBinder
    | (intro u; first
        | (refine (?_ : Keep K u → _) ?_; pick_goal 2; simp only [u]; pick_goal 2; intro hu; clear_value u)
        | clear_value u | skip)
    | split)

theorem keep_tallyMore {K : Kept} (s : State) (vs : List Violation) (hs : Keep K s) :
    Keep K (State.tallyMore s vs) := by
  unfold State.tallyMore
  repeat' (first
    | (with_reducible first | assumption | apply keep_realFault | apply keep_wr | apply keep_wr | apply keep_ite | apply keep_ite_snd | apply keep_ite_fst | apply keepO_ite | apply keepOpt_ite)
    | (intro t ht; with_reducible (have _h : Keep K t := ht))
    | lift_lets -underBinder
    | (intro u; first
        | (refine (?_ : Keep K u → _) ?_; pick_goal 2; simp only [u]; pick_goal 2; intro hu; clear_value u)
        | clear_value u | skip)
    | split)

theorem keep_execTallyRound {K : Kept} (s : State) (hs : Keep K s) :
    KeepO K (execTallyRound s) := by
  unfold execTallyRound
  repeat' (first
    | (with_reducible first | assumption | apply keep_checkOne | apply keep_checkRange | apply keep_count | apply keep_mTal | apply keep_set | apply keep_tallyFault | apply keep_tallyMore | apply keep_ite | apply keepO_next | apply keep_ite_snd | apply keep_ite_fst | apply keepO_ite | apply keepOpt_ite | apply keep_foldl | apply keep_foldl2 | apply keep_foldl1)
    | (intro t a ht; with_reducible (have _h : Keep K t := ht))
    | (intro t ht; with_reducible (have _h : Keep K t := ht))
    | lift_lets -underBinder
    | (intro u; first
        | (refine (?_ : Keep K u → _) ?_; pick_goal 2; simp only [u]; pick_goal 2; intro hu; clear_value u)
        | clear_value u | skip)
    | split)

theorem keep_execTallyClr {K : Kept} (who : Initiator) (s : State) (hs : Keep K s) :
    KeepO K (execTallyClr who s) := by
  unfold execTallyClr
  repeat' (first
    | (with_reducible first | assumption | apply keep_denyUnder | apply keep_mTal | apply keep_record | apply keep_set | apply keep_ite | apply keepO_next | apply keep_ite_snd | apply keep_ite_fst | apply keepO_ite | apply keepOpt_ite)
    | (intro t ht; with_reducible (have _h : Keep K t := ht))
    | (intro (_ : _); show Keep K _)
    | split)

theorem keep_execHalfMoveReceipt {K : Kept} (index : Nat) (s : State) (hs : Keep K s) :
    KeepO K (execHalfMoveReceipt index s) := by
  unfold execHalfMoveReceipt
  repeat' (first
    | (with_reducible first | assumption | apply keep_mTal | apply keep_move | apply keepO_next)
    | (intro t ht; with_reducible (have _h : Keep K t := ht))
    | split)

theorem keep_creditMove {K : Kept} (src dst counter n : Nat) (s : State) (hs : Keep K s) :
    Keep K (creditMove src dst counter n s) := by
  unfold creditMove
  repeat' (first
    | (with_reducible first | assumption | apply keep_move | apply keep_ite | apply keep_ite_snd | apply keep_ite_fst | apply keepO_ite | apply keepOpt_ite)
    | (intro t ht; with_reducible (have _h : Keep K t := ht))
    | (intro (_ : _); show Keep K _)
    | split)

theorem keep_execCreditReceive {K : Kept} (counter n : Nat) (s : State) (hs : Keep K s) :
    KeepO K (execCreditReceive counter n s) := by
  unfold execCreditReceive
  repeat' (with_reducible first | assumption | apply keep_creditMove | apply keepO_next)

theorem keep_execCreditRelease {K : Kept} (counter n : Nat) (s : State) (hs : Keep K s) :
    KeepO K (execCreditRelease counter n s) := by
  unfold execCreditRelease
  repeat' (with_reducible first | assumption | apply keep_creditMove | apply keepO_next)

theorem keep_execCreditAdvertise {K : Kept} (counter n : Nat) (s : State) (hs : Keep K s) :
    KeepO K (execCreditAdvertise counter n s) := by
  unfold execCreditAdvertise
  repeat' (with_reducible first | assumption | apply keep_creditMove | apply keepO_next)

theorem keep_issueStamp {K : Kept} (s : State) (hs : Keep K s) :
    Keep K (State.issueStamp s).2 := by
  unfold State.issueStamp
  repeat' (first
    | (with_reducible first | assumption | apply keep_fire | apply keep_mTal | apply keep_move | apply keep_ite | apply keep_ite_snd | apply keep_ite_fst | apply keepO_ite | apply keepOpt_ite)
    | (intro t ht; with_reducible (have _h : Keep K t := ht))
    | lift_lets -underBinder
    | (intro u; first
        | (refine (?_ : Keep K u → _) ?_; pick_goal 2; simp only [u]; pick_goal 2; intro hu; clear_value u)
        | clear_value u | skip)
    | split)

theorem keep_eraseCount {K : Kept} (s : State) (ch key : Nat) (hs : Keep K s) :
    Keep K (State.eraseCount s ch key) := by
  unfold State.eraseCount
  repeat' (first
    | (with_reducible first | assumption | apply keep_fire | apply keep_mSw | apply keep_mTal | apply keep_set | apply keep_ite | apply keep_ite_snd | apply keep_ite_fst | apply keepO_ite | apply keepOpt_ite)
    | (intro t ht; with_reducible (have _h : Keep K t := ht))
    | lift_lets -underBinder
    | (intro u; first
        | (refine (?_ : Keep K u → _) ?_; pick_goal 2; simp only [u]; pick_goal 2; intro hu; clear_value u)
        | clear_value u | skip)
    | split)

end Sys2Proof.Laws
end

