-- ==== Sys2Proof/Laws/KeepYard.lean ====
section
/-! SUPPORT. The operations of Machine/Yard.lean keep the queue and the canonical forms. -/

namespace Sys2Proof.Laws

open Sys2Proof Sys2Proof.Machine

set_option linter.unusedTactic false
set_option linter.unreachableTactic false
set_option linter.unusedVariables false

/-- Placing bytes keeps the canonical form of a memory. -/
theorem wf_putBytes (m : List Host.Cell) (a : Nat) (l : List Nat) (h : Tbl.wf (0 : BitVec 8) m = true) :
    Tbl.wf (0 : BitVec 8) (putBytes m a l) = true := by
  induction l generalizing m a with
  | nil => exact h
  | cons b t ih => exact ih _ _ (tbl_wf_set _ _ _ _ h)

/-- Setting bytes to zero keeps the canonical form of a memory. -/
theorem wf_zeroBytes (m : List Host.Cell) (a n : Nat) (h : Tbl.wf (0 : BitVec 8) m = true) :
    Tbl.wf (0 : BitVec 8) (zeroBytes m a n) = true := tbl_wf_filter _ _ _ h


theorem keep_mCrate {K : Kept} (s : State) (n : Nat) (g : Crate → Crate) (hs : Keep K s) :
    Keep K (State.mCrate s n g) := by
  unfold State.mCrate
  repeat' (first
    | (with_reducible first | assumption | apply keep_set | refine keep_mCr _ _ ?_ (by rfl))
    | (intro t ht; with_reducible (have _h : Keep K t := ht)))

theorem keep_crateWrite {K : Kept} (hK : K.stores = true) (s : State) (a : Nat) (bs : List Nat) (hs : Keep K s) :
    Keep K (State.crateWrite s a bs) := by
  unfold State.crateWrite
  repeat' (first
    | (with_reducible first | assumption | refine keep_mCr _ _ ?_ (by rfl) | refine keep_mCrStore _ _ hK ?_ ?_ | apply keep_mem | apply wf_putBytes | apply wf_zeroBytes)
    | (intro t ht; with_reducible (have _h : Keep K t := ht)))

theorem keep_putUnit {K : Kept} (hK : K.stores = true) (s : State) (n u v : Nat) (hs : Keep K s) :
    Keep K (State.putUnit s n u v) := by
  unfold State.putUnit
  repeat' (first
    | (with_reducible first | assumption | apply keep_crateWrite | apply keep_ite | apply keep_ite_snd | apply keep_ite_fst | apply keepO_ite | apply keepOpt_ite | refine keep_mCr _ _ ?_ (by rfl) | refine keep_mCrStore _ _ hK ?_ ?_ | apply keep_mem | apply wf_putBytes | apply wf_zeroBytes)
    | (intro t ht; with_reducible (have _h : Keep K t := ht))
    | (intro (_ : _); show Keep K _)
    | split)

theorem keep_link {K : Kept} (hK : K.stores = true) (s : State) (n : Nat) (hs : Keep K s) :
    Keep K (State.link s n) := by
  unfold State.link
  repeat' (first
    | (with_reducible first | assumption | apply keep_crateWrite | apply keep_set | refine keep_mCr _ _ ?_ (by rfl))
    | (intro t ht; with_reducible (have _h : Keep K t := ht))
    | lift_lets -underBinder
    | (intro u; first
        | (refine (?_ : Keep K u → _) ?_; pick_goal 2; simp only [u]; pick_goal 2; intro hu; clear_value u)
        | clear_value u | skip))

theorem keep_checkLink {K : Kept} (s : State) (pool n : Nat) (hs : Keep K s) :
    Keep K (State.checkLink s pool n) := by
  unfold State.checkLink
  repeat' (first
    | (with_reducible first | assumption | apply keep_count | apply keep_fire | apply keep_record | apply keep_set | apply keep_ite | apply keep_ite_snd | apply keep_ite_fst | apply keepO_ite | apply keepOpt_ite | refine keep_mCr _ _ ?_ (by rfl))
    | (intro t ht; with_reducible (have _h : Keep K t := ht))
    | lift_lets -underBinder
    | (intro u; first
        | (refine (?_ : Keep K u → _) ?_; pick_goal 2; simp only [u]; pick_goal 2; intro hu; clear_value u)
        | clear_value u | skip)
    | split)

theorem keep_popCrate {K : Kept} (s : State) (pool : Nat) (r : CrateReq) (hs : Keep K s) :
    Keep K (State.popCrate s pool r).2 := by
  unfold State.popCrate
  repeat' (first
    | (with_reducible first | assumption | apply keep_checkLink | apply keep_count | apply keep_mCrate | apply keep_move | apply keep_set | apply keep_wr | apply keep_wr | apply keep_ite | apply keep_ite_snd | apply keep_ite_fst | apply keepO_ite | apply keepOpt_ite | refine keep_mCr _ _ ?_ (by rfl))
    | (intro t ht; with_reducible (have _h : Keep K t := ht))
    | lift_lets -underBinder
    | (intro u; first
        | (refine (?_ : Keep K u → _) ?_; pick_goal 2; simp only [u]; pick_goal 2; intro hu; clear_value u)
        | clear_value u | skip)
    | split)

theorem keep_popMany {K : Kept} (r : CrateReq) (pool k : Nat) (a : List Nat × State) (ha : Keep K a.2) : Keep K (popMany r pool k a).2 := by
  induction k generalizing a with
  | zero => exact ha
  | succ k ih =>
    rw [popMany]
    have := keep_popCrate a.2 pool r ha
    apply ih
    split
    · dsimp only; split
      · exact this
      · exact keep_count _ _ _ _ _ this
    · exact this


theorem keep_popAll {K : Kept} (s : State) (r : CrateReq) (e : List (Nat × Nat)) (hs : Keep K s) :
    Keep K (State.popAll s r e).2 := by
  unfold State.popAll
  repeat' (first
    | (with_reducible assumption)
    | (with_reducible first | apply keep_popMany | apply keep_foldl | apply keep_foldl2 | apply keep_foldl1)
    | (intro t a ht; with_reducible (have _h : Keep K t.2 := ht))
    | (intro t a ht; with_reducible (have _h : Keep K t.1 := ht))
    | (intro t a ht; with_reducible (have _h : Keep K t := ht))
    | (intro t ht; with_reducible (have _h : Keep K t := ht))
    | split
    | (intro t ht; with_reducible (have _h : Keep K t := ht))
    | (intro c t ht; with_reducible (have _h : Keep K t := ht))
    | dsimp -zeta only [id])

theorem keep_deliver {K : Kept} (s : State) (r : CrateReq) (l : List Nat) (hs : Keep K s) :
    Keep K (State.deliver s r l) := by
  unfold State.deliver
  repeat' (first
    | (with_reducible first | assumption | apply keep_mCmd | apply keep_ite | apply keep_ite_snd | apply keep_ite_fst | apply keepO_ite | apply keepOpt_ite | refine keep_mCr _ _ ?_ (by rfl))
    | (intro t ht; with_reducible (have _h : Keep K t := ht))
    | (intro (_ : _); show Keep K _)
    | split)

theorem keep_decideClass {K : Kept} (cls k : Nat) (s : State) (hs : Keep K s) : Keep K (decideClass cls k s) := by
  induction k generalizing s with
  | zero => exact hs
  | succ k ih =>
    rw [decideClass]
    split
    · exact hs
    · split
      · exact hs
      · exact ih _ (keep_deliver _ _ _ (keep_popAll _ _ _ (keep_mCr _ _ hs rfl)))


theorem keep_decideWaiting {K : Kept} (s : State) (hs : Keep K s) :
    Keep K (State.decideWaiting s) := by
  unfold State.decideWaiting
  repeat' (first
    | (with_reducible first | assumption | apply keep_decideClass | apply keep_ite | apply keep_ite_snd | apply keep_ite_fst | apply keepO_ite | apply keepOpt_ite | apply keep_foldl | apply keep_foldl2 | apply keep_foldl1)
    | (intro t a ht; with_reducible (have _h : Keep K t := ht))
    | (intro t ht; with_reducible (have _h : Keep K t := ht))
    | lift_lets -underBinder
    | (intro u; first
        | (refine (?_ : Keep K u → _) ?_; pick_goal 2; simp only [u]; pick_goal 2; intro hu; clear_value u)
        | clear_value u | skip)
    | split)

theorem keep_askCrates {K : Kept} (s : State) (r : CrateReq) (hs : Keep K s) :
    Keep K (State.askCrates s r).2 := by
  unfold State.askCrates
  repeat' (first
    | (with_reducible first | assumption | apply keep_count | apply keep_popAll | apply keep_ite | apply keep_ite_snd | apply keep_ite_fst | apply keepO_ite | apply keepOpt_ite | refine keep_mCr _ _ ?_ (by rfl))
    | (intro t ht; with_reducible (have _h : Keep K t := ht))
    | lift_lets -underBinder
    | (intro u; first
        | (refine (?_ : Keep K u → _) ?_; pick_goal 2; simp only [u]; pick_goal 2; intro hu; clear_value u)
        | clear_value u | skip)
    | split)

theorem keep_execCrateGrantRequest {K : Kept} (cls count pool kind owner otag who : Nat) (s : State) (hs : Keep K s) :
    KeepO K (execCrateGrantRequest cls count pool kind owner otag who s) := by
  unfold execCrateGrantRequest
  repeat' (first
    | (with_reducible assumption)
    | (with_reducible first | apply keep_askCrates | apply keep_count | apply keep_deliver | apply keep_ite | apply keepO_next | apply keep_ite_snd | apply keep_ite_fst | apply keepO_ite | apply keepOpt_ite)
    | (intro t ht; with_reducible (have _h : Keep K t := ht))
    | lift_lets -underBinder
    | (intro u; first
        | (refine (?_ : Keep K u → _) ?_; pick_goal 2; simp only [u]; pick_goal 2; intro hu; clear_value u)
        | (refine (?_ : Keep K u.2 → _) ?_; pick_goal 2; simp only [u]; pick_goal 2; intro hu; clear_value u)
        | (refine (?_ : Keep K u.1 → _) ?_; pick_goal 2; simp only [u]; pick_goal 2; intro hu; clear_value u)
        | (refine (?_ : Keep K u.st → _) ?_; pick_goal 2; simp only [u]; pick_goal 2; intro hu; clear_value u)
        | clear_value u | skip)
    | split
    | (intro t ht; with_reducible (have _h : Keep K t := ht))
    | (intro c t ht; with_reducible (have _h : Keep K t := ht))
    | dsimp -zeta only [id])

theorem keep_poisoned {K : Kept} (s : State) (hs : Keep K s) :
    Keep K (State.poisoned s) := by
  unfold State.poisoned
  repeat' (first
    | (with_reducible first | assumption | apply keep_wr | apply keep_wr)
    | (intro t ht; with_reducible (have _h : Keep K t := ht)))

theorem keep_freeCrate {K : Kept} (hK : K.stores = true) (s : State) (n : Nat) (hs : Keep K s) :
    Keep K (State.freeCrate s n) := by
  unfold State.freeCrate
  repeat' (first
    | (with_reducible first | assumption | apply keep_decideWaiting | apply keep_link | apply keep_mCrate | apply keep_mPor | apply keep_move | apply keep_poisoned | apply keep_ite | apply keep_ite_snd | apply keep_ite_fst | apply keepO_ite | apply keepOpt_ite | refine keep_mCr _ _ ?_ (by rfl))
    | (intro t ht; with_reducible (have _h : Keep K t := ht))
    | lift_lets -underBinder
    | (intro u; first
        | (refine (?_ : Keep K u → _) ?_; pick_goal 2; simp only [u]; pick_goal 2; intro hu; clear_value u)
        | clear_value u | skip)
    | split)

theorem keep_ownerFree {K : Kept} (hK : K.stores = true) (s : State) (n : Nat) (hs : Keep K s) :
    Keep K (State.ownerFree s n) := by
  unfold State.ownerFree
  repeat' (first
    | (with_reducible first | assumption | apply keep_freeCrate | apply keep_mCrate | apply keep_ite | apply keep_ite_snd | apply keep_ite_fst | apply keepO_ite | apply keepOpt_ite | refine keep_mCr _ _ ?_ (by rfl))
    | (intro t ht; with_reducible (have _h : Keep K t := ht))
    | (intro (_ : _); show Keep K _)
    | split)

theorem keep_takeRef {K : Kept} (s : State) (n : Nat) (hs : Keep K s) :
    Keep K (State.takeRef s n) := by
  unfold State.takeRef
  repeat' (first
    | (with_reducible first | assumption | apply keep_mCrate | refine keep_mCr _ _ ?_ (by rfl))
    | (intro t ht; with_reducible (have _h : Keep K t := ht)))

theorem keep_dropRef {K : Kept} (hK : K.stores = true) (s : State) (n : Nat) (hs : Keep K s) :
    Keep K (State.dropRef s n) := by
  unfold State.dropRef
  repeat' (first
    | (with_reducible first | assumption | apply keep_freeCrate | apply keep_mCrate | apply keep_ite | apply keep_ite_snd | apply keep_ite_fst | apply keepO_ite | apply keepOpt_ite | refine keep_mCr _ _ ?_ (by rfl))
    | (intro t ht; with_reducible (have _h : Keep K t := ht))
    | lift_lets -underBinder
    | (intro u; first
        | (refine (?_ : Keep K u → _) ?_; pick_goal 2; simp only [u]; pick_goal 2; intro hu; clear_value u)
        | clear_value u | skip)
    | split)

theorem keep_crateRefuse {K : Kept} (s : State) (h client cause : Nat) (hs : Keep K s) :
    Keep K (State.crateRefuse s h client cause) := by
  unfold State.crateRefuse
  repeat' (first
    | (with_reducible first | assumption | apply keep_count | apply keep_record)
    | (intro t ht; with_reducible (have _h : Keep K t := ht))
    | split)

theorem keep_execCrateFree {K : Kept} (hK : K.stores = true) (handle owner : Nat) (s : State) (hs : Keep K s) :
    KeepO K (execCrateFree handle owner s) := by
  unfold execCrateFree
  repeat' (first
    | (with_reducible first | assumption | apply keep_crateRefuse | apply keep_ownerFree | apply keepO_next)
    | (intro t ht; with_reducible (have _h : Keep K t := ht))
    | split)

theorem keep_execCrateReferenceRelease {K : Kept} (hK : K.stores = true) (handle owner : Nat) (s : State) (hs : Keep K s) :
    KeepO K (execCrateReferenceRelease handle owner s) := by
  unfold execCrateReferenceRelease
  repeat' (first
    | (with_reducible first | assumption | apply keep_crateRefuse | apply keep_dropRef | apply keepO_next)
    | (intro t ht; with_reducible (have _h : Keep K t := ht))
    | split)

theorem keep_poisonCrate {K : Kept} (s : State) (h : Nat) (hs : Keep K s) :
    Keep K (State.poisonCrate s h) := by
  unfold State.poisonCrate
  repeat' (first
    | (with_reducible first | assumption | apply keep_count | apply keep_mCrate | apply keep_poisoned | refine keep_mCr _ _ ?_ (by rfl))
    | (intro t ht; with_reducible (have _h : Keep K t := ht))
    | split)

theorem keep_execLendGo {K : Kept} (hK : K.stores = true) (who : Initiator) (pool : Nat) (s : State) (hs : Keep K s) :
    KeepO K (execLendGo who pool s) := by
  unfold execLendGo
  repeat' (first
    | (with_reducible assumption)
    | (with_reducible first | apply keep_access | apply keep_askCrates | apply keep_count | apply keep_denyWrite | apply keep_set | apply keep_wr | apply keep_wr | apply keep_ite | apply keepO_next | apply keep_ite_snd | apply keep_ite_fst | apply keepO_ite | apply keepOpt_ite | refine keep_mCr _ _ ?_ (by rfl) | refine keep_mCrStore _ _ hK ?_ ?_ | apply keep_mem | apply wf_putBytes | apply wf_zeroBytes)
    | (intro t a ht; with_reducible (have _h : Keep K t.2 := ht))
    | (intro t a ht; with_reducible (have _h : Keep K t.1 := ht))
    | (intro t a ht; with_reducible (have _h : Keep K t := ht))
    | (intro t ht; with_reducible (have _h : Keep K t := ht))
    | lift_lets -underBinder
    | (intro u; first
        | (refine (?_ : Keep K u → _) ?_; pick_goal 2; simp only [u]; pick_goal 2; intro hu; clear_value u)
        | (refine (?_ : Keep K u.2 → _) ?_; pick_goal 2; simp only [u]; pick_goal 2; intro hu; clear_value u)
        | (refine (?_ : Keep K u.1 → _) ?_; pick_goal 2; simp only [u]; pick_goal 2; intro hu; clear_value u)
        | (refine (?_ : Keep K u.st → _) ?_; pick_goal 2; simp only [u]; pick_goal 2; intro hu; clear_value u)
        | clear_value u | skip)
    | split
    | (intro t ht; with_reducible (have _h : Keep K t := ht))
    | (intro c t ht; with_reducible (have _h : Keep K t := ht))
    | dsimp -zeta only [id])

theorem keep_execReturnHandle {K : Kept} (hK : K.stores = true) (who : Initiator) (handle : Nat) (s : State) (hs : Keep K s) :
    KeepO K (execReturnHandle who handle s) := by
  unfold execReturnHandle
  repeat' (first
    | (with_reducible assumption)
    | (with_reducible first | apply keep_access | apply keep_crateRefuse | apply keep_denyWrite | apply keep_limFire | apply keep_ownerFree | apply keep_refuse | apply keep_set | apply keep_ite | apply keepO_next | apply keep_ite_snd | apply keep_ite_fst | apply keepO_ite | apply keepOpt_ite)
    | (intro t a ht; with_reducible (have _h : Keep K t.2 := ht))
    | (intro t a ht; with_reducible (have _h : Keep K t.1 := ht))
    | (intro t a ht; with_reducible (have _h : Keep K t := ht))
    | (intro t ht; with_reducible (have _h : Keep K t := ht))
    | lift_lets -underBinder
    | (intro u; first
        | (refine (?_ : Keep K u → _) ?_; pick_goal 2; simp only [u]; pick_goal 2; intro hu; clear_value u)
        | (refine (?_ : Keep K u.2 → _) ?_; pick_goal 2; simp only [u]; pick_goal 2; intro hu; clear_value u)
        | (refine (?_ : Keep K u.1 → _) ?_; pick_goal 2; simp only [u]; pick_goal 2; intro hu; clear_value u)
        | (refine (?_ : Keep K u.st → _) ?_; pick_goal 2; simp only [u]; pick_goal 2; intro hu; clear_value u)
        | clear_value u | skip)
    | split
    | (intro t ht; with_reducible (have _h : Keep K t := ht))
    | (intro c t ht; with_reducible (have _h : Keep K t := ht))
    | dsimp -zeta only [id])

theorem keep_winAccess {K : Kept} (hK : K.stores = true) (s : State) (who : Initiator) (write : Bool) (value : Nat) (hs : Keep K s) :
    Keep K (State.winAccess s who write value) := by
  unfold State.winAccess
  repeat' (first
    | (with_reducible assumption)
    | (with_reducible first | apply keep_answer | apply keep_count | apply keep_crateWrite | apply keep_denyWrite | apply keep_limFire | apply keep_refuse | apply keep_wr | apply keep_wr | apply keep_ite | apply keep_ite_snd | apply keep_ite_fst | apply keepO_ite | apply keepOpt_ite)
    | (intro t ht; with_reducible (have _h : Keep K t := ht))
    | lift_lets -underBinder
    | (intro u; first
        | (refine (?_ : Keep K u → _) ?_; pick_goal 2; simp only [u]; pick_goal 2; intro hu; clear_value u)
        | (refine (?_ : Keep K u.2 → _) ?_; pick_goal 2; simp only [u]; pick_goal 2; intro hu; clear_value u)
        | (refine (?_ : Keep K u.1 → _) ?_; pick_goal 2; simp only [u]; pick_goal 2; intro hu; clear_value u)
        | (refine (?_ : Keep K u.st → _) ?_; pick_goal 2; simp only [u]; pick_goal 2; intro hu; clear_value u)
        | clear_value u | skip)
    | split
    | (intro t ht; with_reducible (have _h : Keep K t := ht))
    | (intro c t ht; with_reducible (have _h : Keep K t := ht))
    | dsimp -zeta only [id])

theorem keep_execWinDataAccess {K : Kept} (hK : K.stores = true) (who : Initiator) (write : Bool) (value : Nat) (s : State) (hs : Keep K s) :
    KeepO K (execWinDataAccess who write value s) := by
  unfold execWinDataAccess
  repeat' (first
    | (with_reducible first | assumption | apply keep_access | apply keep_winAccess | apply keepO_next)
    | (intro t ht; with_reducible (have _h : Keep K t := ht)))

theorem keep_reclaimLent {K : Kept} (hK : K.stores = true) (s : State) (hs : Keep K s) :
    Keep K (State.reclaimLent s) := by
  unfold State.reclaimLent
  repeat' (first
    | (with_reducible first | assumption | apply keep_mCrate | apply keep_ownerFree | apply keep_foldl | apply keep_foldl2 | apply keep_foldl1 | refine keep_mCr _ _ ?_ (by rfl))
    | (intro t a ht; with_reducible (have _h : Keep K t := ht))
    | (intro t ht; with_reducible (have _h : Keep K t := ht))
    | lift_lets -underBinder
    | (intro u; first
        | (refine (?_ : Keep K u → _) ?_; pick_goal 2; simp only [u]; pick_goal 2; intro hu; clear_value u)
        | clear_value u | skip))

end Sys2Proof.Laws
end

