-- ==== Sys2Proof/Laws/KeepLCache.lean ====
section
/-! SUPPORT. The operations of Machine/LCache.lean keep the queue and the canonical forms. -/

namespace Sys2Proof.Laws

open Sys2Proof Sys2Proof.Machine

set_option linter.unusedTactic false
set_option linter.unreachableTactic false
set_option linter.unusedVariables false

theorem keep_setWay {K : Kept} (s : State) (set w : Nat) (c : Option CLine) (hs : Keep K s) :
    Keep K (State.setWay s set w c) := by
  unfold State.setWay
  repeat' (first
    | (with_reducible first | assumption | apply keep_mLc | apply keep_set)
    | (intro t ht; with_reducible (have _h : Keep K t := ht)))

theorem keep_logLine {K : Kept} (s : State) (line : Nat) (hs : Keep K s) :
    Keep K (State.logLine s line) := by
  unfold State.logLine
  repeat' (first
    | (with_reducible first | assumption | apply keep_mBell | apply keep_set | apply keep_ite | apply keep_ite_snd | apply keep_ite_fst | apply keepO_ite | apply keepOpt_ite | apply keep_foldl | apply keep_foldl2 | apply keep_foldl1)
    | (intro t a ht; with_reducible (have _h : Keep K t := ht))
    | (intro t ht; with_reducible (have _h : Keep K t := ht))
    | lift_lets -underBinder
    | (intro u; first
        | (refine (?_ : Keep K u → _) ?_; pick_goal 2; simp only [u]; pick_goal 2; intro hu; clear_value u)
        | clear_value u | skip)
    | split)

theorem keep_writeBack {K : Kept} (s : State) (c : CLine) (hs : Keep K s) :
    Keep K (State.writeBack s c) := by
  unfold State.writeBack
  repeat' (first
    | (with_reducible first | assumption | apply keep_count | apply keep_logLine | apply keep_ite | apply keep_ite_snd | apply keep_ite_fst | apply keepO_ite | apply keepOpt_ite)
    | (intro t ht; with_reducible (have _h : Keep K t := ht))
    | (intro (_ : _); show Keep K _)
    | split)

theorem keep_evict {K : Kept} (s : State) (set w : Nat) (hs : Keep K s) :
    Keep K (State.evict s set w) := by
  unfold State.evict
  repeat' (first
    | (with_reducible first | assumption | apply keep_set | apply keep_setWay | apply keep_writeBack)
    | (intro t ht; with_reducible (have _h : Keep K t := ht))
    | split)

theorem keep_clearRefs {K : Kept} (s : State) (set : Nat) (ws : List Nat) (hs : Keep K s) :
    Keep K (State.clearRefs s set ws) := by
  unfold State.clearRefs
  repeat' (first
    | (with_reducible first | assumption | apply keep_set | apply keep_setWay | apply keep_foldl | apply keep_foldl2 | apply keep_foldl1)
    | (intro t a ht; with_reducible (have _h : Keep K t := ht))
    | (intro t ht; with_reducible (have _h : Keep K t := ht))
    | split)

theorem keep_allocate {K : Kept} (s : State) (line : Nat) (dirty : Bool) (hs : Keep K s) :
    Keep K (State.allocate s line dirty) := by
  unfold State.allocate
  repeat' (first
    | (with_reducible first | assumption | apply keep_clearRefs | apply keep_evict | apply keep_set | apply keep_setWay | apply keep_ite | apply keep_ite_snd | apply keep_ite_fst | apply keepO_ite | apply keepOpt_ite)
    | (intro t ht; with_reducible (have _h : Keep K t := ht))
    | lift_lets -underBinder
    | (intro u; first
        | (refine (?_ : Keep K u → _) ?_; pick_goal 2; simp only [u]; pick_goal 2; intro hu; clear_value u)
        | clear_value u | skip)
    | split)

theorem keep_prefetch {K : Kept} (s : State) (line : Nat) (hs : Keep K s) :
    Keep K (State.prefetch s line) := by
  unfold State.prefetch
  repeat' (first
    | (with_reducible first | assumption | apply keep_count | apply keep_mLc | apply keep_ite | apply keep_ite_snd | apply keep_ite_fst | apply keepO_ite | apply keepOpt_ite)
    | (intro t ht; with_reducible (have _h : Keep K t := ht))
    | (intro (_ : _); show Keep K _)
    | split)

theorem keep_prefetchSpan {K : Kept} (s : State) (nsid : Nat) (ius : List Nat) (hs : Keep K s) :
    Keep K (State.prefetchSpan s nsid ius) := by
  unfold State.prefetchSpan
  repeat' (first
    | (with_reducible first | assumption | apply keep_prefetch | apply keep_foldl | apply keep_foldl2 | apply keep_foldl1)
    | (intro t a ht; with_reducible (have _h : Keep K t := ht))
    | (intro t ht; with_reducible (have _h : Keep K t := ht))
    | split)

theorem keep_stream {K : Kept} (s : State) (line : Nat) (hs : Keep K s) :
    Keep K (State.stream s line) := by
  unfold State.stream
  repeat' (first
    | (with_reducible first | assumption | apply keep_mLc | apply keep_prefetch | apply keep_ite | apply keep_ite_snd | apply keep_ite_fst | apply keepO_ite | apply keepOpt_ite | apply keep_foldl | apply keep_foldl2 | apply keep_foldl1)
    | (intro t a ht; with_reducible (have _h : Keep K t := ht))
    | (intro t ht; with_reducible (have _h : Keep K t := ht))
    | lift_lets -underBinder
    | (intro u; first
        | (refine (?_ : Keep K u → _) ?_; pick_goal 2; simp only [u]; pick_goal 2; intro hu; clear_value u)
        | clear_value u | skip)
    | split)

theorem keep_lookLine {K : Kept} (s : State) (line : Nat) (hs : Keep K s) :
    Keep K (State.lookLine s line) := by
  unfold State.lookLine
  repeat' (first
    | (with_reducible first | assumption | apply keep_allocate | apply keep_count | apply keep_fire | apply keep_mLc | apply keep_record | apply keep_setWay | apply keep_stream | apply keep_ite | apply keep_ite_snd | apply keep_ite_fst | apply keepO_ite | apply keepOpt_ite)
    | (intro t ht; with_reducible (have _h : Keep K t := ht))
    | lift_lets -underBinder
    | (intro u; first
        | (refine (?_ : Keep K u → _) ?_; pick_goal 2; simp only [u]; pick_goal 2; intro hu; clear_value u)
        | clear_value u | skip)
    | split)

theorem keep_touchLine {K : Kept} (s : State) (line : Nat) (hs : Keep K s) :
    Keep K (State.touchLine s line) := by
  unfold State.touchLine
  repeat' (first
    | (with_reducible first | assumption | apply keep_lookLine | apply keep_mLed | apply keep_set | apply keep_setWay | apply keep_ite | apply keep_ite_snd | apply keep_ite_fst | apply keepO_ite | apply keepOpt_ite)
    | (intro t ht; with_reducible (have _h : Keep K t := ht))
    | lift_lets -underBinder
    | (intro u; first
        | (refine (?_ : Keep K u → _) ?_; pick_goal 2; simp only [u]; pick_goal 2; intro hu; clear_value u)
        | clear_value u | skip)
    | split)

theorem keep_lineBad {K : Kept} (s : State) (line : Nat) (hs : Keep K s) :
    Keep K (State.lineBad s line) := by
  unfold State.lineBad
  repeat' (first
    | (with_reducible first | assumption | apply keep_count | apply keep_critical | apply keep_mLed | apply keep_record | apply keep_set)
    | (intro t ht; with_reducible (have _h : Keep K t := ht))
    | split)

theorem keep_execLcacheFill {K : Kept} (line : Nat) (crcOk : Bool) (s : State) (hs : Keep K s) :
    KeepO K (execLcacheFill line crcOk s) := by
  unfold execLcacheFill
  repeat' (first
    | (with_reducible first | assumption | apply keep_allocate | apply keep_count | apply keep_fire | apply keep_lineBad | apply keep_mLc | apply keep_record | apply keep_ite | apply keepO_next | apply keep_ite_snd | apply keep_ite_fst | apply keepO_ite | apply keepOpt_ite)
    | (intro t ht; with_reducible (have _h : Keep K t := ht))
    | lift_lets -underBinder
    | (intro u; first
        | (refine (?_ : Keep K u → _) ?_; pick_goal 2; simp only [u]; pick_goal 2; intro hu; clear_value u)
        | clear_value u | skip)
    | split)

theorem keep_execPrefetchArrival {K : Kept} (line : Nat) (crcOk : Bool) (s : State) (hs : Keep K s) :
    KeepO K (execPrefetchArrival line crcOk s) := by
  unfold execPrefetchArrival
  repeat' (first
    | (with_reducible first | assumption | apply keep_allocate | apply keep_count | apply keep_mLc | apply keep_ite | apply keepO_next | apply keep_ite_snd | apply keep_ite_fst | apply keepO_ite | apply keepOpt_ite)
    | (intro t ht; with_reducible (have _h : Keep K t := ht))
    | lift_lets -underBinder
    | (intro u; first
        | (refine (?_ : Keep K u → _) ?_; pick_goal 2; simp only [u]; pick_goal 2; intro hu; clear_value u)
        | clear_value u | skip)
    | split)

theorem keep_rangeStat {K : Kept} (s : State) (hs : Keep K s) :
    Keep K (State.rangeStat s) := by
  unfold State.rangeStat
  repeat' (first
    | (with_reducible first | assumption | apply keep_set | apply keep_wr | apply keep_wr)
    | (intro t ht; with_reducible (have _h : Keep K t := ht))
    | split)

theorem keep_startOp {K : Kept} (s : State) (o : RangeOp) (hs : Keep K s) :
    Keep K (State.startOp s o) := by
  unfold State.startOp
  repeat' (first
    | (with_reducible first | assumption | apply keep_mLc | apply keep_rangeStat)
    | (intro t ht; with_reducible (have _h : Keep K t := ht)))

theorem keep_nextOp {K : Kept} (s : State) (hs : Keep K s) :
    Keep K (State.nextOp s) := by
  unfold State.nextOp
  repeat' (first
    | (with_reducible first | assumption | apply keep_mLc | apply keep_rangeStat | apply keep_startOp | apply keep_ite | apply keep_ite_snd | apply keep_ite_fst | apply keepO_ite | apply keepOpt_ite)
    | (intro t ht; with_reducible (have _h : Keep K t := ht))
    | (intro (_ : _); show Keep K _)
    | split)

theorem keep_rangeCmd {K : Kept} (who : Initiator) (op : Nat) (force all : Bool) (s : State) (start : State → State) (hs : Keep K s) (hstart : ∀ (x0 : State), Keep K x0 → Keep K (start x0)) :
    Keep K (rangeCmd who op force all s start) := by
  unfold rangeCmd
  repeat' (first
    | (with_reducible first | assumption | apply keep_access | apply keep_count | apply keep_denyWrite | apply keep_startOp | apply keep_wr | apply hstart | apply keep_wr | apply keep_ite | apply keep_ite_snd | apply keep_ite_fst | apply keepO_ite | apply keepOpt_ite)
    | (intro t ht; with_reducible (have _h : Keep K t := ht))
    | lift_lets -underBinder
    | (intro u; first
        | (refine (?_ : Keep K u → _) ?_; pick_goal 2; simp only [u]; pick_goal 2; intro hu; clear_value u)
        | clear_value u | skip)
    | split)

theorem keep_execRangeClean {K : Kept} (who : Initiator) (force all : Bool) (s : State) (hs : Keep K s) :
    KeepO K (execRangeClean who force all s) := by
  unfold execRangeClean
  repeat' (first
    | (with_reducible assumption)
    | (with_reducible first | apply keep_rangeCmd | apply keepO_next)
    | split
    | (intro t ht; with_reducible (have _h : Keep K t := ht))
    | (intro c t ht; with_reducible (have _h : Keep K t := ht))
    | dsimp -zeta only [id])

theorem keep_execRangeInvalidate {K : Kept} (who : Initiator) (force all : Bool) (s : State) (hs : Keep K s) :
    KeepO K (execRangeInvalidate who force all s) := by
  unfold execRangeInvalidate
  repeat' (first
    | (with_reducible assumption)
    | (with_reducible first | apply keep_rangeCmd | apply keepO_next)
    | split
    | (intro t ht; with_reducible (have _h : Keep K t := ht))
    | (intro c t ht; with_reducible (have _h : Keep K t := ht))
    | dsimp -zeta only [id])

theorem keep_execRangeCleanInvalidate {K : Kept} (who : Initiator) (force all : Bool) (s : State) (hs : Keep K s) :
    KeepO K (execRangeCleanInvalidate who force all s) := by
  unfold execRangeCleanInvalidate
  repeat' (first
    | (with_reducible assumption)
    | (with_reducible first | apply keep_rangeCmd | apply keepO_next)
    | split
    | (intro t ht; with_reducible (have _h : Keep K t := ht))
    | (intro c t ht; with_reducible (have _h : Keep K t := ht))
    | dsimp -zeta only [id])

theorem keep_execRangePrefetch {K : Kept} (who : Initiator) (all : Bool) (s : State) (hs : Keep K s) :
    KeepO K (execRangePrefetch who all s) := by
  unfold execRangePrefetch
  repeat' (first
    | (with_reducible first | assumption | apply keep_prefetch | apply keep_rangeCmd | apply keep_wr | apply keep_wr | apply keepO_next | apply keep_foldl | apply keep_foldl2 | apply keep_foldl1)
    | (intro t a ht; with_reducible (have _h : Keep K t := ht))
    | (intro t ht; with_reducible (have _h : Keep K t := ht))
    | lift_lets -underBinder
    | (intro u; first
        | (refine (?_ : Keep K u → _) ?_; pick_goal 2; simp only [u]; pick_goal 2; intro hu; clear_value u)
        | clear_value u | skip))

theorem keep_walkLine {K : Kept} (o : RangeOp) (s : State) (k : Nat) (hs : Keep K s) :
    Keep K (walkLine o s k) := by
  unfold walkLine
  repeat' (first
    | (with_reducible first | assumption | apply keep_set | apply keep_setWay | apply keep_wr | apply keep_writeBack | apply keep_wr | apply keep_ite | apply keep_ite_snd | apply keep_ite_fst | apply keepO_ite | apply keepOpt_ite)
    | (intro t ht; with_reducible (have _h : Keep K t := ht))
    | lift_lets -underBinder
    | (intro u; first
        | (refine (?_ : Keep K u → _) ?_; pick_goal 2; simp only [u]; pick_goal 2; intro hu; clear_value u)
        | clear_value u | skip)
    | split)

theorem keep_execRangeOpComplete {K : Kept} (s : State) (hs : Keep K s) :
    KeepO K (execRangeOpComplete s) := by
  unfold execRangeOpComplete
  repeat' (first
    | (with_reducible first | assumption | apply keep_mLc | apply keep_nextOp | apply keep_walkLine | apply keep_wr | apply keep_wr | apply keep_ite | apply keepO_next | apply keep_ite_snd | apply keep_ite_fst | apply keepO_ite | apply keepOpt_ite | apply keep_foldl | apply keep_foldl2 | apply keep_foldl1)
    | (intro t a ht; with_reducible (have _h : Keep K t := ht))
    | (intro t ht; with_reducible (have _h : Keep K t := ht))
    | lift_lets -underBinder
    | (intro u; first
        | (refine (?_ : Keep K u → _) ?_; pick_goal 2; simp only [u]; pick_goal 2; intro hu; clear_value u)
        | clear_value u | skip)
    | split)

theorem keep_startSync {K : Kept} (s : State) (hs : Keep K s) :
    Keep K (State.startSync s) := by
  unfold State.startSync
  repeat' (with_reducible first | assumption | apply keep_startOp)

theorem keep_execLockApply {K : Kept} (who : Initiator) (s : State) (hs : Keep K s) :
    KeepO K (execLockApply who s) := by
  unfold execLockApply
  repeat' (first
    | (with_reducible first | assumption | apply keep_access | apply keep_count | apply keep_denyWrite | apply keep_mLc | apply keep_set | apply keep_startSync | apply keep_wr | apply keep_wr | apply keep_ite | apply keepO_next | apply keep_ite_snd | apply keep_ite_fst | apply keepO_ite | apply keepOpt_ite)
    | (intro t ht; with_reducible (have _h : Keep K t := ht))
    | lift_lets -underBinder
    | (intro u; first
        | (refine (?_ : Keep K u → _) ?_; pick_goal 2; simp only [u]; pick_goal 2; intro hu; clear_value u)
        | clear_value u | skip)
    | split)

theorem keep_syncOut {K : Kept} (s : State) (k : Nat) (hs : Keep K s) :
    Keep K (syncOut s k) := by
  unfold syncOut
  repeat' (first
    | (with_reducible first | assumption | apply keep_evict | apply keep_ite | apply keep_ite_snd | apply keep_ite_fst | apply keepO_ite | apply keepOpt_ite)
    | (intro t ht; with_reducible (have _h : Keep K t := ht))
    | (intro (_ : _); show Keep K _)
    | split)

theorem keep_syncLine {K : Kept} (a : State × Nat) (line : Nat) (ha : Keep K a.1) :
    Keep K (syncLine a line).1 := by
  unfold syncLine
  repeat' (first
    | (with_reducible first | assumption | apply keep_mLc | apply keep_set | apply keep_setWay | apply keep_ite | apply keep_ite_snd | apply keep_ite_fst | apply keepO_ite | apply keepOpt_ite)
    | (intro t ht; with_reducible (have _h : Keep K t := ht))
    | lift_lets -underBinder
    | (intro u; first
        | (refine (?_ : Keep K u → _) ?_; pick_goal 2; simp only [u]; pick_goal 2; intro hu; clear_value u)
        | clear_value u | skip)
    | split)

theorem keep_execLockSyncComplete {K : Kept} (s : State) (hs : Keep K s) :
    KeepO K (execLockSyncComplete s) := by
  unfold execLockSyncComplete
  repeat' (first
    | (with_reducible first | assumption | apply keep_nextOp | apply keep_syncLine | apply keep_syncOut | apply keep_wr | apply keep_wr | apply keep_ite | apply keepO_next | apply keep_ite_snd | apply keep_ite_fst | apply keepO_ite | apply keepOpt_ite | apply keep_foldl | apply keep_foldl2 | apply keep_foldl1)
    | (intro t a ht; with_reducible (have _h : Keep K t := ht))
    | (intro t ht; with_reducible (have _h : Keep K t := ht))
    | lift_lets -underBinder
    | (intro u; first
        | (refine (?_ : Keep K u → _) ?_; pick_goal 2; simp only [u]; pick_goal 2; intro hu; clear_value u)
        | clear_value u | skip)
    | split)

theorem keep_cacheDisable {K : Kept} (s : State) (hs : Keep K s) :
    Keep K (State.cacheDisable s) := by
  unfold State.cacheDisable
  repeat' (first
    | (with_reducible first | assumption | apply keep_mLc | apply keep_nextOp | apply keep_wr | apply keep_wr | apply keep_ite | apply keepO_next | apply keep_ite_snd | apply keep_ite_fst | apply keepO_ite | apply keepOpt_ite)
    | (intro t ht; with_reducible (have _h : Keep K t := ht))
    | lift_lets -underBinder
    | (intro u; first
        | (refine (?_ : Keep K u → _) ?_; pick_goal 2; simp only [u]; pick_goal 2; intro hu; clear_value u)
        | clear_value u | skip)
    | split)

theorem keep_execCacheDisable {K : Kept} (who : Initiator) (s : State) (hs : Keep K s) :
    KeepO K (execCacheDisable who s) := by
  unfold execCacheDisable
  repeat' (first
    | (with_reducible first | assumption | apply keep_access | apply keep_cacheDisable | apply keep_denyWrite | apply keep_ite | apply keepO_next | apply keep_ite_snd | apply keep_ite_fst | apply keepO_ite | apply keepOpt_ite)
    | (intro t ht; with_reducible (have _h : Keep K t := ht))
    | (intro (_ : _); show Keep K _)
    | split)

theorem keep_cacheOff {K : Kept} (s : State) (hs : Keep K s) :
    Keep K (State.cacheOff s) := by
  unfold State.cacheOff
  repeat' (first
    | (with_reducible first | assumption | apply keep_mLc | apply keep_nextOp | apply keep_wr | apply keep_writeBack | apply keep_wr | apply keepO_next | apply keep_foldl | apply keep_foldl2 | apply keep_foldl1)
    | (intro t a ht; with_reducible (have _h : Keep K t := ht))
    | (intro t ht; with_reducible (have _h : Keep K t := ht))
    | lift_lets -underBinder
    | (intro u; first
        | (refine (?_ : Keep K u → _) ?_; pick_goal 2; simp only [u]; pick_goal 2; intro hu; clear_value u)
        | clear_value u | skip)
    | split)

theorem keep_execCacheDisableComplete {K : Kept} (s : State) (hs : Keep K s) :
    KeepO K (execCacheDisableComplete s) := by
  unfold execCacheDisableComplete
  repeat' (first
    | (with_reducible first | assumption | apply keep_cacheOff | apply keep_ite | apply keepO_next | apply keep_ite_snd | apply keep_ite_fst | apply keepO_ite | apply keepOpt_ite)
    | (intro t ht; with_reducible (have _h : Keep K t := ht))
    | (intro (_ : _); show Keep K _)
    | split)

theorem keep_cacheEnableEmpty {K : Kept} (s : State) (hs : Keep K s) :
    Keep K (State.cacheEnableEmpty s) := by
  unfold State.cacheEnableEmpty
  repeat' (first
    | (with_reducible first | assumption | apply keep_startSync | apply keep_wr | apply keep_wr | apply keep_ite | apply keep_ite_snd | apply keep_ite_fst | apply keepO_ite | apply keepOpt_ite)
    | (intro t ht; with_reducible (have _h : Keep K t := ht))
    | lift_lets -underBinder
    | (intro u; first
        | (refine (?_ : Keep K u → _) ?_; pick_goal 2; simp only [u]; pick_goal 2; intro hu; clear_value u)
        | clear_value u | skip)
    | split)

theorem keep_execCacheEnable {K : Kept} (who : Initiator) (s : State) (hs : Keep K s) :
    KeepO K (execCacheEnable who s) := by
  unfold execCacheEnable
  repeat' (first
    | (with_reducible first | assumption | apply keep_access | apply keep_cacheEnableEmpty | apply keep_denyWrite | apply keep_mLc | apply keep_nextOp | apply keep_wr | apply keep_wr | apply keep_ite | apply keepO_next | apply keep_ite_snd | apply keep_ite_fst | apply keepO_ite | apply keepOpt_ite)
    | (intro t ht; with_reducible (have _h : Keep K t := ht))
    | lift_lets -underBinder
    | (intro u; first
        | (refine (?_ : Keep K u → _) ?_; pick_goal 2; simp only [u]; pick_goal 2; intro hu; clear_value u)
        | clear_value u | skip)
    | split)

theorem keep_execWayPowerOff {K : Kept} (who : Initiator) (way : Nat) (s : State) (hs : Keep K s) :
    KeepO K (execWayPowerOff who way s) := by
  unfold execWayPowerOff
  repeat' (first
    | (with_reducible first | assumption | apply keep_access | apply keep_count | apply keep_denyWrite | apply keep_mLc | apply keep_nextOp | apply keep_wr | apply keep_wr | apply keep_ite | apply keepO_next | apply keep_ite_snd | apply keep_ite_fst | apply keepO_ite | apply keepOpt_ite)
    | (intro t ht; with_reducible (have _h : Keep K t := ht))
    | lift_lets -underBinder
    | (intro u; first
        | (refine (?_ : Keep K u → _) ?_; pick_goal 2; simp only [u]; pick_goal 2; intro hu; clear_value u)
        | clear_value u | skip)
    | split)

theorem keep_execWayDrainComplete {K : Kept} (way : Nat) (s : State) (hs : Keep K s) :
    KeepO K (execWayDrainComplete way s) := by
  unfold execWayDrainComplete
  repeat' (first
    | (with_reducible first | assumption | apply keep_evict | apply keep_nextOp | apply keep_wr | apply keep_wr | apply keep_ite | apply keepO_next | apply keep_ite_snd | apply keep_ite_fst | apply keepO_ite | apply keepOpt_ite | apply keep_foldl | apply keep_foldl2 | apply keep_foldl1)
    | (intro t a ht; with_reducible (have _h : Keep K t := ht))
    | (intro t ht; with_reducible (have _h : Keep K t := ht))
    | lift_lets -underBinder
    | (intro u; first
        | (refine (?_ : Keep K u → _) ?_; pick_goal 2; simp only [u]; pick_goal 2; intro hu; clear_value u)
        | clear_value u | skip)
    | split)

theorem keep_execWayPowerOn {K : Kept} (who : Initiator) (way : Nat) (s : State) (hs : Keep K s) :
    KeepO K (execWayPowerOn who way s) := by
  unfold execWayPowerOn
  repeat' (first
    | (with_reducible first | assumption | apply keep_access | apply keep_denyWrite | apply keep_mLc | apply keep_nextOp | apply keep_wr | apply keep_wr | apply keep_ite | apply keepO_next | apply keep_ite_snd | apply keep_ite_fst | apply keepO_ite | apply keepOpt_ite)
    | (intro t ht; with_reducible (have _h : Keep K t := ht))
    | lift_lets -underBinder
    | (intro u; first
        | (refine (?_ : Keep K u → _) ?_; pick_goal 2; simp only [u]; pick_goal 2; intro hu; clear_value u)
        | clear_value u | skip)
    | split)

end Sys2Proof.Laws
end

