-- ==== Sys2Proof/Laws/KeepLedger.lean ====
section
/-! SUPPORT. The operations of Machine/Ledger.lean keep the queue and the canonical forms. -/

namespace Sys2Proof.Laws

open Sys2Proof Sys2Proof.Machine

set_option linter.unusedTactic false
set_option linter.unreachableTactic false
set_option linter.unusedVariables false

theorem keep_setEntry {K : Kept} (s : State) (nsid iu e : Nat) (u : Bool) (hs : Keep K s) :
    Keep K (State.setEntry s nsid iu e u) := by
  unfold State.setEntry
  repeat' (first
    | (with_reducible first | assumption | apply keep_logLine | apply keep_mLed | apply keep_set | apply keep_touchLine | apply keep_ite | apply keep_ite_snd | apply keep_ite_fst | apply keepO_ite | apply keepOpt_ite)
    | (intro t ht; with_reducible (have _h : Keep K t := ht))
    | lift_lets -underBinder
    | (intro u; first
        | (refine (?_ : Keep K u → _) ?_; pick_goal 2; simp only [u]; pick_goal 2; intro hu; clear_value u)
        | clear_value u | skip)
    | split)

theorem keep_mBlock {K : Kept} (s : State) (k : Nat) (g : Block → Block) (hs : Keep K s) :
    Keep K (State.mBlock s k g) := by
  unfold State.mBlock
  repeat' (first
    | (with_reducible first | assumption | apply keep_mSw | apply keep_set)
    | (intro t ht; with_reducible (have _h : Keep K t := ht)))

theorem keep_invalidate {K : Kept} (s : State) (nsid e : Nat) (hs : Keep K s) :
    Keep K (State.invalidate s nsid e) := by
  unfold State.invalidate
  repeat' (first
    | (with_reducible first | assumption | apply keep_mBlock | apply keep_ite | apply keep_ite_snd | apply keep_ite_fst | apply keepO_ite | apply keepOpt_ite)
    | (intro t ht; with_reducible (have _h : Keep K t := ht))
    | (intro (_ : _); show Keep K _)
    | split)

theorem keep_journal {K : Kept} (s : State) (kind : Nat) (f : List Nat) (hs : Keep K s) :
    Keep K (State.journal s kind f) := by
  unfold State.journal
  repeat' (first
    | (with_reducible first | assumption | apply keep_mBell | apply keep_wr | apply keep_wr | apply keep_ite | apply keep_ite_snd | apply keep_ite_fst | apply keepO_ite | apply keepOpt_ite)
    | (intro t ht; with_reducible (have _h : Keep K t := ht))
    | lift_lets -underBinder
    | (intro u; first
        | (refine (?_ : Keep K u → _) ?_; pick_goal 2; simp only [u]; pick_goal 2; intro hu; clear_value u)
        | clear_value u | skip)
    | split)

theorem keep_cixUse {K : Kept} (s : State) (hs : Keep K s) :
    Keep K (State.cixUse s) := by
  unfold State.cixUse
  repeat' (with_reducible first | assumption | apply keep_peak | apply keep_wr | apply keep_wr)

theorem keep_untake {K : Kept} (s : State) (row : Nat) (hs : Keep K s) :
    Keep K (State.untake s row) := by
  unfold State.untake
  repeat' (first
    | (with_reducible first | assumption | apply keep_mLed)
    | (intro t ht; with_reducible (have _h : Keep K t := ht)))

theorem keep_queueRow {K : Kept} (s : State) (nsid row : Nat) (hs : Keep K s) :
    Keep K (State.queueRow s nsid row) := by
  unfold State.queueRow
  repeat' (first
    | (with_reducible first | assumption | apply keep_mLed | apply keep_set | apply keep_untake)
    | (intro t ht; with_reducible (have _h : Keep K t := ht))
    | lift_lets -underBinder
    | (intro u; first
        | (refine (?_ : Keep K u → _) ?_; pick_goal 2; simp only [u]; pick_goal 2; intro hu; clear_value u)
        | clear_value u | skip))

theorem keep_flushMoved {K : Kept} (s : State) (nsid iu mask : Nat) (defer : Bool) (hs : Keep K s) :
    Keep K (State.flushMoved s nsid iu mask defer) := by
  unfold State.flushMoved
  repeat' (first
    | (with_reducible first | assumption | apply keep_mHost | apply keep_ite | apply keep_ite_snd | apply keep_ite_fst | apply keepO_ite | apply keepOpt_ite)
    | (intro t ht; with_reducible (have _h : Keep K t := ht))
    | lift_lets -underBinder
    | (intro u; first
        | (refine (?_ : Keep K u → _) ?_; pick_goal 2; simp only [u]; pick_goal 2; intro hu; clear_value u)
        | clear_value u | skip)
    | split)

theorem keep_dropRow {K : Kept} (s : State) (row : Nat) (hs : Keep K s) :
    Keep K (State.dropRow s row) := by
  unfold State.dropRow
  repeat' (first
    | (with_reducible first | assumption | apply keep_cixUse | apply keep_flushMoved | apply keep_mLed | apply keep_untake)
    | (intro t ht; with_reducible (have _h : Keep K t := ht))
    | lift_lets -underBinder
    | (intro u; first
        | (refine (?_ : Keep K u → _) ?_; pick_goal 2; simp only [u]; pick_goal 2; intro hu; clear_value u)
        | clear_value u | skip)
    | split)

theorem keep_mRow {K : Kept} (s : State) (row : Nat) (g : CixRow → CixRow) (hs : Keep K s) :
    Keep K (State.mRow s row g) := by
  unfold State.mRow
  repeat' (first
    | (with_reducible first | assumption | apply keep_mLed | apply keep_ite | apply keep_ite_snd | apply keep_ite_fst | apply keepO_ite | apply keepOpt_ite)
    | (intro t ht; with_reducible (have _h : Keep K t := ht))
    | (intro (_ : _); show Keep K _)
    | split)

theorem keep_lookIu {K : Kept} (s : State) (nsid iu : Nat) (hs : Keep K s) :
    Keep K (State.lookIu s nsid iu) := by
  unfold State.lookIu
  repeat' (first
    | (with_reducible first | assumption | apply keep_count | apply keep_critical | apply keep_lookLine | apply keep_record | apply keep_ite | apply keep_ite_snd | apply keep_ite_fst | apply keepO_ite | apply keepOpt_ite)
    | (intro t ht; with_reducible (have _h : Keep K t := ht))
    | lift_lets -underBinder
    | (intro u; first
        | (refine (?_ : Keep K u → _) ?_; pick_goal 2; simp only [u]; pick_goal 2; intro hu; clear_value u)
        | clear_value u | skip)
    | split)

theorem keep_supersede {K : Kept} (s : State) (n : Nat) (hs : Keep K s) :
    Keep K (State.supersede s n) := by
  unfold State.supersede
  repeat' (first
    | (with_reducible first | assumption | apply keep_move | apply keep_send | apply keep_ite | apply keep_ite_snd | apply keep_ite_fst | apply keepO_ite | apply keepOpt_ite)
    | (intro t ht; with_reducible (have _h : Keep K t := ht))
    | (intro (_ : _); show Keep K _)
    | split)

theorem keep_dropHold {K : Kept} (hK : K.stores = true) (s : State) (crate : Nat) (hs : Keep K s) :
    Keep K (State.dropHold s crate) := by
  unfold State.dropHold
  repeat' (with_reducible first | assumption | apply keep_ownerFree)

theorem keep_markRewritten {K : Kept} (s : State) (nsid iu : Nat) (hs : Keep K s) :
    Keep K (State.markRewritten s nsid iu) := by
  unfold State.markRewritten
  repeat' (first
    | (with_reducible first | assumption | apply keep_mHost | apply keep_ite | apply keep_ite_snd | apply keep_ite_fst | apply keepO_ite | apply keepOpt_ite)
    | (intro t ht; with_reducible (have _h : Keep K t := ht))
    | lift_lets -underBinder
    | (intro u; first
        | (refine (?_ : Keep K u → _) ?_; pick_goal 2; simp only [u]; pick_goal 2; intro hu; clear_value u)
        | clear_value u | skip)
    | split)

theorem keep_copyUnits {K : Kept} (hK : K.stores = true) (from_ dest units : Nat) (s : State) (hs : Keep K s) :
    Keep K (copyUnits from_ dest units s) := by
  unfold copyUnits
  repeat' (first
    | (with_reducible first | assumption | apply keep_putUnit | apply keep_ite | apply keep_ite_snd | apply keep_ite_fst | apply keepO_ite | apply keepOpt_ite | apply keep_foldl | apply keep_foldl2 | apply keep_foldl1)
    | (intro t a ht; with_reducible (have _h : Keep K t := ht))
    | (intro t ht; with_reducible (have _h : Keep K t := ht))
    | (intro (_ : _); show Keep K _)
    | split)

theorem keep_oweZero {K : Kept} (s : State) (crate unit : Nat) (hs : Keep K s) :
    Keep K (State.oweZero s crate unit) := by
  unfold State.oweZero
  repeat' (first
    | (with_reducible first | assumption | apply keep_mPor)
    | (intro t ht; with_reducible (have _h : Keep K t := ht)))

theorem keep_insertIu {K : Kept} (hK : K.stores = true) (s : State) (nsid iu units cover acc crate pitch : Nat) (hs : Keep K s) :
    Keep K (State.insertIu s nsid iu units cover acc crate pitch) := by
  unfold State.insertIu
  repeat' (first
    | (with_reducible assumption)
    | (with_reducible first | apply keep_cixUse | apply keep_copyUnits | apply keep_count | apply keep_dropHold | apply keep_flushMoved | apply keep_invalidate | apply keep_issueStamp | apply keep_mCrate | apply keep_mLed | apply keep_mRow | apply keep_markRewritten | apply keep_oweZero | apply keep_queueRow | apply keep_setEntry | apply keep_supersede | apply keep_ite | apply keep_ite_snd | apply keep_ite_fst | apply keepO_ite | apply keepOpt_ite | apply keep_foldl | apply keep_foldl2 | apply keep_foldl1 | refine keep_mCr _ _ ?_ (by rfl))
    | (intro t a ht; with_reducible (have _h : Keep K t.2 := ht))
    | (intro t a ht; with_reducible (have _h : Keep K t.1 := ht))
    | (intro t a ht; with_reducible (have _h : Keep K t := ht))
    | (intro t ht; with_reducible (have _h : Keep K t := ht))
    | lift_lets -underBinder
    | (intro u; first
        | (refine (?_ : Keep K u → _) ?_; pick_goal 2; simp only [u]; pick_goal 2; intro hu; clear_value u)
        | (refine (?_ : Keep K u.2 → _) ?_; pick_goal 2; simp only [u]; pick_goal 2; intro hu; clear_value u)
        | (refine (?_ : Keep K u.1 → _) ?_; pick_goal 2; simp only [u]; pick_goal 2; intro hu; clear_value u)
        | (refine (?_ : Keep K u.st → _) ?_; pick_goal 2; simp only [u]; pick_goal 2; intro hu; clear_value u)
        | clear_value u | skip)
    | split
    | (intro t ht; with_reducible (have _h : Keep K t := ht))
    | (intro c t ht; with_reducible (have _h : Keep K t := ht))
    | dsimp -zeta only [id])

theorem keep_clearIu {K : Kept} (hK : K.stores = true) (s : State) (nsid iu : Nat) (unc : Bool) (hs : Keep K s) :
    Keep K (State.clearIu s nsid iu unc) := by
  unfold State.clearIu
  repeat' (first
    | (with_reducible first | assumption | apply keep_count | apply keep_dropHold | apply keep_dropRow | apply keep_invalidate | apply keep_setEntry | apply keep_supersede)
    | (intro t ht; with_reducible (have _h : Keep K t := ht))
    | lift_lets -underBinder
    | (intro u; first
        | (refine (?_ : Keep K u → _) ?_; pick_goal 2; simp only [u]; pick_goal 2; intro hu; clear_value u)
        | clear_value u | skip)
    | split)

theorem keep_deallocIu {K : Kept} (hK : K.stores = true) (s : State) (nsid iu : Nat) (hs : Keep K s) :
    Keep K (State.deallocIu s nsid iu) := by
  unfold State.deallocIu
  repeat' (with_reducible first | assumption | apply keep_clearIu | apply keep_journal | apply keepO_next)

theorem keep_markUnc {K : Kept} (hK : K.stores = true) (s : State) (nsid iu : Nat) (hs : Keep K s) :
    Keep K (State.markUnc s nsid iu) := by
  unfold State.markUnc
  repeat' (with_reducible first | assumption | apply keep_clearIu | apply keep_journal | apply keepO_next)

theorem keep_settleIu {K : Kept} (hK : K.stores = true) (s : State) (nsid iu crate stamp addr : Nat) (hs : Keep K s) :
    Keep K (State.settleIu s nsid iu crate stamp addr) := by
  unfold State.settleIu
  repeat' (first
    | (with_reducible first | assumption | apply keep_count | apply keep_dropHold | apply keep_dropRef | apply keep_dropRow | apply keep_invalidate | apply keep_mBlock | apply keep_move | apply keep_send | apply keep_setEntry | apply keep_ite | apply keep_ite_snd | apply keep_ite_fst | apply keepO_ite | apply keepOpt_ite)
    | (intro t ht; with_reducible (have _h : Keep K t := ht))
    | lift_lets -underBinder
    | (intro u; first
        | (refine (?_ : Keep K u → _) ?_; pick_goal 2; simp only [u]; pick_goal 2; intro hu; clear_value u)
        | clear_value u | skip)
    | split)

theorem keep_sweepCopy {K : Kept} (s : State) (nsid iu src dst : Nat) (hs : Keep K s) :
    Keep K (State.sweepCopy s nsid iu src dst).2 := by
  unfold State.sweepCopy
  dsimp only
  repeat' (first
    | (with_reducible assumption)
    | (with_reducible first | apply keep_count | apply keep_mBlock | apply keep_mRow | apply keep_setEntry | apply keep_ite | apply keep_ite_snd | apply keep_ite_fst | apply keepO_ite | apply keepOpt_ite)
    | (intro t a ht; with_reducible (have _h : Keep K t.2 := ht))
    | (intro t a ht; with_reducible (have _h : Keep K t.1 := ht))
    | (intro t a ht; with_reducible (have _h : Keep K t := ht))
    | (intro t ht; with_reducible (have _h : Keep K t := ht))
    | lift_lets -underBinder
    | (intro u; first
        | (refine (?_ : Keep K u → _) ?_; pick_goal 2; simp only [u]; pick_goal 2; intro hu; clear_value u)
        | (refine (?_ : Keep K u.2 → _) ?_; pick_goal 2; simp only [u]; pick_goal 2; intro hu; clear_value u)
        | (refine (?_ : Keep K u.1 → _) ?_; pick_goal 2; simp only [u]; pick_goal 2; intro hu; clear_value u)
        | (refine (?_ : Keep K u.st → _) ?_; pick_goal 2; simp only [u]; pick_goal 2; intro hu; clear_value u)
        | clear_value u | skip)
    | split
    | (intro t ht; with_reducible (have _h : Keep K t := ht))
    | (intro c t ht; with_reducible (have _h : Keep K t := ht))
    | dsimp -zeta only [id])

theorem keep_deferRecord {K : Kept} (s : State) (nsid iu stamp cause : Nat) (inj : Bool) (hs : Keep K s) :
    Keep K (State.deferRecord s nsid iu stamp cause inj) := by
  unfold State.deferRecord
  repeat' (first
    | (with_reducible first | assumption | apply keep_asyncEvent | apply keep_mHost | apply keep_set | apply keep_wr | apply keep_wr | apply keep_ite | apply keep_ite_snd | apply keep_ite_fst | apply keepO_ite | apply keepOpt_ite)
    | (intro t ht; with_reducible (have _h : Keep K t := ht))
    | lift_lets -underBinder
    | (intro u; first
        | (refine (?_ : Keep K u → _) ?_; pick_goal 2; simp only [u]; pick_goal 2; intro hu; clear_value u)
        | clear_value u | skip)
    | split)

theorem keep_reportDeferred {K : Kept} (s : State) (c : Cmd) (nsid : Nat) (hs : Keep K s) :
    Keep K (State.reportDeferred s c nsid).2 := by
  unfold State.reportDeferred
  repeat' (first
    | (with_reducible first | assumption | apply keep_errorInfo | apply keep_mHost | apply keep_set | apply keep_wr | apply keep_wr | apply keep_ite | apply keep_ite_snd | apply keep_ite_fst | apply keepO_ite | apply keepOpt_ite)
    | (intro t ht; with_reducible (have _h : Keep K t := ht))
    | lift_lets -underBinder
    | (intro u; first
        | (refine (?_ : Keep K u → _) ?_; pick_goal 2; simp only [u]; pick_goal 2; intro hu; clear_value u)
        | clear_value u | skip)
    | split)

theorem keep_dropDeferred {K : Kept} (s : State) (nsid : Nat) (hs : Keep K s) :
    Keep K (State.dropDeferred s nsid) := by
  unfold State.dropDeferred
  repeat' (first
    | (with_reducible first | assumption | apply keep_mHost | apply keep_set | apply keep_wr | apply keep_wr)
    | (intro t ht; with_reducible (have _h : Keep K t := ht)))

theorem keep_deferIu {K : Kept} (hK : K.stores = true) (s : State) (nsid iu crate stamp cause : Nat) (hs : Keep K s) :
    Keep K (State.deferIu s nsid iu crate stamp cause) := by
  unfold State.deferIu
  repeat' (first
    | (with_reducible first | assumption | apply keep_count | apply keep_deferRecord | apply keep_dropHold | apply keep_dropRef | apply keep_dropRow | apply keep_flushMoved | apply keep_journal | apply keep_move | apply keep_send | apply keep_setEntry | apply keep_ite | apply keepO_next | apply keep_ite_snd | apply keep_ite_fst | apply keepO_ite | apply keepOpt_ite)
    | (intro t ht; with_reducible (have _h : Keep K t := ht))
    | lift_lets -underBinder
    | (intro u; first
        | (refine (?_ : Keep K u → _) ?_; pick_goal 2; simp only [u]; pick_goal 2; intro hu; clear_value u)
        | clear_value u | skip)
    | split)

theorem keep_moveRow {K : Kept} (s : State) (a b : Nat) (hs : Keep K s) :
    Keep K (State.moveRow s a b) := by
  unfold State.moveRow
  repeat' (first
    | (with_reducible first | assumption | apply keep_mLed | apply keep_ite | apply keep_ite_snd | apply keep_ite_fst | apply keepO_ite | apply keepOpt_ite)
    | (intro t ht; with_reducible (have _h : Keep K t := ht))
    | (intro (_ : _); show Keep K _)
    | split)

theorem keep_shiftGroups {K : Kept} (up : Bool) (k g : Nat) (s : State) (hs : Keep K s) : Keep K (shiftGroups up k g s) := by
  induction k generalizing g s with
  | zero => exact hs
  | succ k ih =>
    rw [shiftGroups]
    split
    · exact ih _ _ (keep_moveRow _ _ _ hs)
    · exact hs


theorem keep_execCixRebalance {K : Kept} (group : Nat) (s : State) (hs : Keep K s) :
    KeepO K (execCixRebalance group s) := by
  unfold execCixRebalance
  repeat' (first
    | (with_reducible first | assumption | apply keep_count | apply keep_shiftGroups | apply keep_ite | apply keepO_next | apply keep_ite_snd | apply keep_ite_fst | apply keepO_ite | apply keepOpt_ite)
    | (intro t ht; with_reducible (have _h : Keep K t := ht))
    | (intro (_ : _); show Keep K _)
    | split)

theorem keep_execCixProbeGo {K : Kept} (who : Initiator) (s : State) (hs : Keep K s) :
    KeepO K (execCixProbeGo who s) := by
  unfold execCixProbeGo
  repeat' (first
    | (with_reducible first | assumption | apply keep_access | apply keep_denyWrite | apply keep_wr | apply keep_wr | apply keep_ite | apply keepO_next | apply keep_ite_snd | apply keep_ite_fst | apply keepO_ite | apply keepOpt_ite)
    | (intro t ht; with_reducible (have _h : Keep K t := ht))
    | (intro (_ : _); show Keep K _)
    | split)

theorem keep_execDramWriteRefused {K : Kept} (who : Initiator) (addr : Nat) (s : State) (hs : Keep K s) :
    KeepO K (execDramWriteRefused who addr s) := by
  unfold execDramWriteRefused
  repeat' (first
    | (with_reducible first | assumption | apply keep_count | apply keep_record | apply keep_refuse | apply keep_ite | apply keepO_next | apply keep_ite_snd | apply keep_ite_fst | apply keepO_ite | apply keepOpt_ite)
    | (intro t ht; with_reducible (have _h : Keep K t := ht))
    | (intro (_ : _); show Keep K _)
    | split)

theorem keep_granFree {K : Kept} (s : State) (hs : Keep K s) :
    Keep K (State.granFree s) := by
  unfold State.granFree
  repeat' (with_reducible first | assumption | apply keep_wr | apply keep_wr)

theorem keep_nsStart {K : Kept} (s : State) (op nsid : Nat) (hs : Keep K s) :
    Keep K (State.nsStart s op nsid) := by
  unfold State.nsStart
  repeat' (first
    | (with_reducible first | assumption | apply keep_mLed | apply keep_set)
    | (intro t ht; with_reducible (have _h : Keep K t := ht)))

theorem keep_nsEnd {K : Kept} (s : State) (code : Nat) (hs : Keep K s) :
    Keep K (State.nsEnd s code) := by
  unfold State.nsEnd
  repeat' (first
    | (with_reducible first | assumption | apply keep_mLed | apply keep_set)
    | (intro t ht; with_reducible (have _h : Keep K t := ht)))

theorem keep_nsInit {K : Kept} (s : State) (nsid : Nat) (hs : Keep K s) :
    Keep K (State.nsInit s nsid) := by
  unfold State.nsInit
  repeat' (first
    | (with_reducible first | assumption | apply keep_granFree | apply keep_mNs | apply keep_nsEnd | apply keep_nsStart | apply keep_ite | apply keep_ite_snd | apply keep_ite_fst | apply keepO_ite | apply keepOpt_ite)
    | (intro t ht; with_reducible (have _h : Keep K t := ht))
    | lift_lets -underBinder
    | (intro u; first
        | (refine (?_ : Keep K u → _) ?_; pick_goal 2; simp only [u]; pick_goal 2; intro hu; clear_value u)
        | clear_value u | skip)
    | split)

theorem keep_nsRelease {K : Kept} (s : State) (nsid : Nat) (hs : Keep K s) :
    Keep K (State.nsRelease s nsid) := by
  unfold State.nsRelease
  repeat' (first
    | (with_reducible first | assumption | apply keep_mLc | apply keep_mNs | apply keep_nsEnd | apply keep_nsStart | apply keep_startSync | apply keep_wr | apply keep_wr | apply keep_ite | apply keep_ite_snd | apply keep_ite_fst | apply keepO_ite | apply keepOpt_ite | apply keep_foldl | apply keep_foldl2 | apply keep_foldl1)
    | (intro t a ht; with_reducible (have _h : Keep K t := ht))
    | (intro t ht; with_reducible (have _h : Keep K t := ht))
    | lift_lets -underBinder
    | (intro u; first
        | (refine (?_ : Keep K u → _) ?_; pick_goal 2; simp only [u]; pick_goal 2; intro hu; clear_value u)
        | clear_value u | skip)
    | split)

theorem keep_nsDealloc {K : Kept} (s : State) (nsid : Nat) (hs : Keep K s) :
    Keep K (State.nsDealloc s nsid) := by
  unfold State.nsDealloc
  repeat' (first
    | (with_reducible first | assumption | apply keep_nsEnd | apply keep_nsStart | apply keep_requestRow | apply keep_ite | apply keep_ite_snd | apply keep_ite_fst | apply keepO_ite | apply keepOpt_ite)
    | (intro t ht; with_reducible (have _h : Keep K t := ht))
    | lift_lets -underBinder
    | (intro u; first
        | (refine (?_ : Keep K u → _) ?_; pick_goal 2; simp only [u]; pick_goal 2; intro hu; clear_value u)
        | clear_value u | skip)
    | split)

theorem keep_nsCmd {K : Kept} (who : Initiator) (s : State) (f : State → Nat → State) (hs : Keep K s) (hf : ∀ (x0 : State) (x1 : Nat), Keep K x0 → Keep K (f x0 x1)) :
    Keep K (nsCmd who s f) := by
  unfold nsCmd
  repeat' (first
    | (with_reducible first | assumption | apply keep_access | apply keep_count | apply keep_denyWrite | apply hf | apply keep_ite | apply keep_ite_snd | apply keep_ite_fst | apply keepO_ite | apply keepOpt_ite)
    | (intro t ht; with_reducible (have _h : Keep K t := ht))
    | (intro (_ : _); show Keep K _)
    | split)

theorem keep_execNsCmdInit {K : Kept} (who : Initiator) (s : State) (hs : Keep K s) :
    KeepO K (execNsCmdInit who s) := by
  unfold execNsCmdInit
  repeat' (first
    | (with_reducible first | assumption | apply keep_nsCmd | apply keep_nsInit | apply keepO_next)
    | (intro t ht; with_reducible (have _h : Keep K t := ht)))

theorem keep_execNsCmdRelease {K : Kept} (who : Initiator) (s : State) (hs : Keep K s) :
    KeepO K (execNsCmdRelease who s) := by
  unfold execNsCmdRelease
  repeat' (first
    | (with_reducible first | assumption | apply keep_nsCmd | apply keep_nsRelease | apply keepO_next)
    | (intro t ht; with_reducible (have _h : Keep K t := ht)))

theorem keep_execNsCmdDeallocAll {K : Kept} (who : Initiator) (s : State) (hs : Keep K s) :
    KeepO K (execNsCmdDeallocAll who s) := by
  unfold execNsCmdDeallocAll
  repeat' (first
    | (with_reducible first | assumption | apply keep_nsCmd | apply keep_nsDealloc | apply keepO_next)
    | (intro t ht; with_reducible (have _h : Keep K t := ht)))

theorem keep_deallocAll {K : Kept} (hK : K.stores = true) (s : State) (nsid : Nat) (hs : Keep K s) :
    Keep K (State.deallocAll s nsid) := by
  unfold State.deallocAll
  repeat' (first
    | (with_reducible first | assumption | apply keep_clearIu | apply keep_journal | apply keepO_next | apply keep_foldl | apply keep_foldl2 | apply keep_foldl1)
    | (intro t a ht; with_reducible (have _h : Keep K t := ht))
    | (intro t ht; with_reducible (have _h : Keep K t := ht))
    | lift_lets -underBinder
    | (intro u; first
        | (refine (?_ : Keep K u → _) ?_; pick_goal 2; simp only [u]; pick_goal 2; intro hu; clear_value u)
        | clear_value u | skip))

theorem keep_dropLines {K : Kept} (s : State) (nsid : Nat) (hs : Keep K s) :
    Keep K (State.dropLines s nsid) := by
  unfold State.dropLines
  repeat' (first
    | (with_reducible first | assumption | apply keep_mLc)
    | (intro t ht; with_reducible (have _h : Keep K t := ht))
    | lift_lets -underBinder
    | (intro u; first
        | (refine (?_ : Keep K u → _) ?_; pick_goal 2; simp only [u]; pick_goal 2; intro hu; clear_value u)
        | clear_value u | skip)
    | split)

theorem keep_execNsCmdComplete {K : Kept} (hK : K.stores = true) (s : State) (hs : Keep K s) :
    KeepO K (execNsCmdComplete s) := by
  unfold execNsCmdComplete
  repeat' (first
    | (with_reducible first | assumption | apply keep_deallocAll | apply keep_dropLines | apply keep_granFree | apply keep_mLed | apply keep_mNs | apply keep_nsCmd | apply keep_nsDealloc | apply keep_nsEnd | apply keep_nsRelease | apply keep_releaseRows | apply keep_set | apply keep_ite | apply keepO_next | apply keep_ite_snd | apply keep_ite_fst | apply keepO_ite | apply keepOpt_ite)
    | (intro t ht; with_reducible (have _h : Keep K t := ht))
    | lift_lets -underBinder
    | (intro u; first
        | (refine (?_ : Keep K u → _) ?_; pick_goal 2; simp only [u]; pick_goal 2; intro hu; clear_value u)
        | clear_value u | skip)
    | split)

end Sys2Proof.Laws
end

