-- ==== Sys2Proof/Laws/KeepBands.lean ====
section
/-! SUPPORT. The operations of Machine/Bands.lean keep the queue and the canonical forms. -/

namespace Sys2Proof.Laws

open Sys2Proof Sys2Proof.Machine

set_option linter.unusedTactic false
set_option linter.unreachableTactic false
set_option linter.unusedVariables false

theorem keep_followFloor {K : Kept} (s : State) (hs : Keep K s) :
    Keep K (State.followFloor s) := by
  unfold State.followFloor
  repeat' (first
    | (with_reducible first | assumption | apply keep_count | apply keep_mWp | apply keep_ite | apply keep_ite_snd | apply keep_ite_fst | apply keepO_ite | apply keepOpt_ite)
    | (intro t ht; with_reducible (have _h : Keep K t := ht))
    | lift_lets -underBinder
    | (intro u; first
        | (refine (?_ : Keep K u → _) ?_; pick_goal 2; simp only [u]; pick_goal 2; intro hu; clear_value u)
        | clear_value u | skip)
    | split)

theorem keep_hwMode {K : Kept} (s : State) (set clear cause : Nat) (hs : Keep K s) :
    Keep K (State.hwMode s set clear cause) := by
  unfold State.hwMode
  repeat' (first
    | (with_reducible first | assumption | apply keep_mDev | apply keep_set)
    | (intro t ht; with_reducible (have _h : Keep K t := ht)))

theorem keep_reckonWear {K : Kept} (s : State) (hs : Keep K s) :
    Keep K (State.reckonWear s) := by
  unfold State.reckonWear
  repeat' (first
    | (with_reducible first | assumption | apply keep_wr | apply keep_wr)
    | (intro t ht; with_reducible (have _h : Keep K t := ht))
    | lift_lets -underBinder
    | (intro u; first
        | (refine (?_ : Keep K u → _) ?_; pick_goal 2; simp only [u]; pick_goal 2; intro hu; clear_value u)
        | clear_value u | skip))

theorem keep_reckonSpare {K : Kept} (hN : K.keeps = true) (s : State) (hs : Keep K s) :
    Keep K (State.reckonSpare s) := by
  unfold State.reckonSpare
  repeat' (first
    | (with_reducible first | assumption | apply keep_critical | apply keep_hwMode | apply keep_wr | apply keep_wr | apply keep_ite | apply keep_ite_snd | apply keep_ite_fst | apply keepO_ite | apply keepOpt_ite | refine keep_mNv _ _ hN ?_ (NvOk.mk rfl (List.prefix_refl _)) | refine keep_mNv _ _ hN ?_ (NvOk.mk rfl (List.prefix_append _ _)) | refine keep_mNv _ _ hN ?_ ?_ | exact NvOk.mk rfl (List.prefix_refl _) | apply nvOk_ite)
    | (intro t ht; with_reducible (have _h : Keep K t := ht))
    | lift_lets -underBinder
    | (intro u; first
        | (refine (?_ : Keep K u → _) ?_; pick_goal 2; simp only [u]; pick_goal 2; intro hu; clear_value u)
        | clear_value u | skip)
    | split)

theorem keep_retireBlock {K : Kept} (hN : K.keeps = true) (s : State) (k cause : Nat) (hs : Keep K s) :
    Keep K (State.retireBlock s k cause) := by
  unfold State.retireBlock
  repeat' (first
    | (with_reducible first | assumption | apply keep_count | apply keep_journal | apply keep_mBlock | apply keep_reckonSpare | apply keep_reckonWear | apply keep_record | apply keep_ite | apply keep_ite_snd | apply keep_ite_fst | apply keepO_ite | apply keepOpt_ite | refine keep_mNv _ _ hN ?_ (NvOk.mk rfl (List.prefix_refl _)) | refine keep_mNv _ _ hN ?_ (NvOk.mk rfl (List.prefix_append _ _)) | refine keep_mNv _ _ hN ?_ ?_ | exact NvOk.mk rfl (List.prefix_refl _) | apply nvOk_ite)
    | (intro t ht; with_reducible (have _h : Keep K t := ht))
    | lift_lets -underBinder
    | (intro u; first
        | (refine (?_ : Keep K u → _) ?_; pick_goal 2; simp only [u]; pick_goal 2; intro hu; clear_value u)
        | clear_value u | skip)
    | split)

theorem keep_addCand {K : Kept} (s : State) (k rank : Nat) (head : Bool) (hs : Keep K s) :
    Keep K (State.addCand s k rank head) := by
  unfold State.addCand
  repeat' (first
    | (with_reducible first | assumption | apply keep_count | apply keep_mInteg | apply keep_ite | apply keep_ite_snd | apply keep_ite_fst | apply keepO_ite | apply keepOpt_ite)
    | (intro t ht; with_reducible (have _h : Keep K t := ht))
    | lift_lets -underBinder
    | (intro u; first
        | (refine (?_ : Keep K u → _) ?_; pick_goal 2; simp only [u]; pick_goal 2; intro hu; clear_value u)
        | clear_value u | skip)
    | split)

theorem keep_mBand {K : Kept} (s : State) (num : Nat) (g : Band → Band) (hs : Keep K s) :
    Keep K (State.mBand s num g) := by
  unfold State.mBand
  repeat' (first
    | (with_reducible first | assumption | apply keep_mSw | apply keep_ite | apply keep_ite_snd | apply keep_ite_fst | apply keepO_ite | apply keepOpt_ite)
    | (intro t ht; with_reducible (have _h : Keep K t := ht))
    | (intro (_ : _); show Keep K _)
    | split)

theorem keep_startBand {K : Kept} (s : State) (kind group set : Nat) (hs : Keep K s) :
    Keep K (State.startBand s kind group set) := by
  unfold State.startBand
  repeat' (first
    | (with_reducible first | assumption | apply keep_journal | apply keep_mBlock | apply keep_mSw | apply keep_set | apply keep_ite | apply keepO_next | apply keep_ite_snd | apply keep_ite_fst | apply keepO_ite | apply keepOpt_ite | apply keep_foldl | apply keep_foldl2 | apply keep_foldl1)
    | (intro t a ht; with_reducible (have _h : Keep K t := ht))
    | (intro t ht; with_reducible (have _h : Keep K t := ht))
    | lift_lets -underBinder
    | (intro u; first
        | (refine (?_ : Keep K u → _) ?_; pick_goal 2; simp only [u]; pick_goal 2; intro hu; clear_value u)
        | clear_value u | skip)
    | split)

end Sys2Proof.Laws
end

