-- ==== Sys2Proof/Laws/KeepWritePath.lean ====
section
/-! SUPPORT. The operations of Machine/WritePath.lean keep the queue and the canonical forms. -/

namespace Sys2Proof.Laws

open Sys2Proof Sys2Proof.Machine

set_option linter.unusedTactic false
set_option linter.unreachableTactic false
set_option linter.unusedVariables false

theorem keep_startMates {K : Kept} (s : State) (id nsid iu unit : Nat) (mates : List Nat) (hs : Keep K s) :
    Keep K (State.startMates s id nsid iu unit mates) := by
  unfold State.startMates
  repeat' (first
    | (with_reducible first | assumption | apply keep_mSt | apply keepO_next)
    | (intro t ht; with_reducible (have _h : Keep K t := ht)))

theorem keep_addRead {K : Kept} (s : State) (src : ReadFor) (cls nsid iu unit addr : Nat) (hs : Keep K s) :
    Keep K (State.addRead s src cls nsid iu unit addr) := by
  unfold State.addRead
  dsimp only
  repeat' (first
    | (with_reducible assumption)
    | (with_reducible first | apply keep_mSt | apply keep_startMates | apply keep_takeRef | apply keep_ite | apply keepO_next | apply keep_ite_snd | apply keep_ite_fst | apply keepO_ite | apply keepOpt_ite | apply keep_foldl | apply keep_foldl2 | apply keep_foldl1)
    | (intro t a ht; with_reducible (have _h : Keep K t.2 := ht))
    | (intro t a ht; with_reducible (have _h : Keep K t.1 := ht))
    | (intro t a ht; with_reducible (have _h : Keep K t := ht))
    | (intro t ht; with_reducible (have _h : Keep K t := ht))
    | lift_lets -underBinder
    | (intro u; first
        | (refine (?_ : Keep K u → _) ?_; pick_goal 2; simp only [u]; pick_goal 2; intro hu; clear_value u)
        | (refine (?_ : Keep K u.2 → _) ?_; pick_goal 2; simp only [u]; pick_goal 2; intro hu; clear_value u)
        | (refine (?_ : Keep K u.1 → _) ?_; pick_goal 2; simp only [u]; pick_goal 2; intro hu; clear_value u)
        | (refine (?_ : Keep K u.st → _) ?_; pick_goal 2; simp only [u]; pick_goal 2; intro hu; clear_value u)
        | clear_value u | skip)
    | split
    | (intro t ht; with_reducible (have _h : Keep K t := ht))
    | (intro c t ht; with_reducible (have _h : Keep K t := ht))
    | dsimp -zeta only [id])

theorem keep_freeGrants {K : Kept} (hK : K.stores = true) (s : State) (cls who : Nat) (hs : Keep K s) :
    Keep K (State.freeGrants s cls who) := by
  unfold State.freeGrants
  repeat' (first
    | (with_reducible first | assumption | apply keep_ownerFree | apply keep_foldl | apply keep_foldl2 | apply keep_foldl1 | refine keep_mCr _ _ ?_ (by rfl))
    | (intro t a ht; with_reducible (have _h : Keep K t := ht))
    | (intro t ht; with_reducible (have _h : Keep K t := ht))
    | lift_lets -underBinder
    | (intro u; first
        | (refine (?_ : Keep K u → _) ?_; pick_goal 2; simp only [u]; pick_goal 2; intro hu; clear_value u)
        | clear_value u | skip))

theorem keep_mStripe {K : Kept} (s : State) (serial : Nat) (g : Stripe → Stripe) (hs : Keep K s) :
    Keep K (State.mStripe s serial g) := by
  unfold State.mStripe
  repeat' (first
    | (with_reducible first | assumption | apply keep_mWp | apply keep_ite | apply keep_ite_snd | apply keep_ite_fst | apply keepO_ite | apply keepOpt_ite)
    | (intro t ht; with_reducible (have _h : Keep K t := ht))
    | (intro (_ : _); show Keep K _)
    | split)

theorem keep_endStripe {K : Kept} (hK : K.stores = true) (s : State) (q : Stripe) (hs : Keep K s) :
    Keep K (State.endStripe s q) := by
  unfold State.endStripe
  repeat' (first
    | (with_reducible first | assumption | apply keep_mWp | apply keep_ownerFree | apply keep_foldl | apply keep_foldl2 | apply keep_foldl1)
    | (intro t a ht; with_reducible (have _h : Keep K t := ht))
    | (intro t ht; with_reducible (have _h : Keep K t := ht))
    | lift_lets -underBinder
    | (intro u; first
        | (refine (?_ : Keep K u → _) ?_; pick_goal 2; simp only [u]; pick_goal 2; intro hu; clear_value u)
        | clear_value u | skip))

theorem keep_parityCrates {K : Kept} (s : State) (key mode : Nat) (hs : Keep K s) :
    Keep K (State.parityCrates s key mode).2 := by
  unfold State.parityCrates
  repeat' (first
    | (with_reducible first | assumption | apply keep_askCrates | apply keep_count | apply keep_ite | apply keep_ite_snd | apply keep_ite_fst | apply keepO_ite | apply keepOpt_ite | refine keep_mCr _ _ ?_ (by rfl))
    | (intro t ht; with_reducible (have _h : Keep K t := ht))
    | lift_lets -underBinder
    | (intro u; first
        | (refine (?_ : Keep K u → _) ?_; pick_goal 2; simp only [u]; pick_goal 2; intro hu; clear_value u)
        | clear_value u | skip)
    | split)

theorem keep_newStripe {K : Kept} (s : State) (kind group : Nat) (want : Option Nat) (hs : Keep K s) :
    Keep K (State.newStripe s kind group want) := by
  unfold State.newStripe
  repeat' (first
    | (with_reducible first | assumption | apply keep_mWp | apply keep_parityCrates | apply keep_set | apply keep_startBand | apply keep_ite | apply keepO_next | apply keep_ite_snd | apply keep_ite_fst | apply keepO_ite | apply keepOpt_ite)
    | (intro t ht; with_reducible (have _h : Keep K t := ht))
    | lift_lets -underBinder
    | (intro u; first
        | (refine (?_ : Keep K u → _) ?_; pick_goal 2; simp only [u]; pick_goal 2; intro hu; clear_value u)
        | clear_value u | skip)
    | split)

theorem keep_assign {K : Kept} (s : State) (kind blk serial place : Nat) (ius : List UnitIu) (members : Nat) (hs : Keep K s) :
    Keep K (State.assign s kind blk serial place ius members) := by
  unfold State.assign
  repeat' (first
    | (with_reducible first | assumption | apply keep_count | apply keep_mBlock | apply keep_mStripe | apply keep_mWp | apply keep_ite | apply keepO_next | apply keep_ite_snd | apply keep_ite_fst | apply keepO_ite | apply keepOpt_ite)
    | (intro t ht; with_reducible (have _h : Keep K t := ht))
    | lift_lets -underBinder
    | (intro u; first
        | (refine (?_ : Keep K u → _) ?_; pick_goal 2; simp only [u]; pick_goal 2; intro hu; clear_value u)
        | clear_value u | skip)
    | split)

theorem keep_placeOne {K : Kept} (s : State) (kind group : Nat) (short : Bool) (hs : Keep K s) :
    KeepOpt K (State.placeOne s kind group short) := by
  unfold State.placeOne
  repeat' (first
    | (with_reducible assumption)
    | (with_reducible first | apply keep_assign | apply keep_mWp | apply keep_newStripe | apply keep_set | apply keep_ite | apply keepO_next | apply keep_ite_snd | apply keep_ite_fst | apply keepO_ite | apply keepOpt_ite | apply keepOpt_none | apply keepOpt_some | apply keepOpt_getD)
    | (intro t a ht; with_reducible (have _h : Keep K t.2 := ht))
    | (intro t a ht; with_reducible (have _h : Keep K t.1 := ht))
    | (intro t a ht; with_reducible (have _h : Keep K t := ht))
    | (intro t ht; with_reducible (have _h : Keep K t := ht))
    | lift_lets -underBinder
    | (intro u; first
        | (refine (?_ : Keep K u → _) ?_; pick_goal 2; simp only [u]; pick_goal 2; intro hu; clear_value u)
        | (refine (?_ : Keep K u.2 → _) ?_; pick_goal 2; simp only [u]; pick_goal 2; intro hu; clear_value u)
        | (refine (?_ : Keep K u.1 → _) ?_; pick_goal 2; simp only [u]; pick_goal 2; intro hu; clear_value u)
        | (refine (?_ : Keep K u.st → _) ?_; pick_goal 2; simp only [u]; pick_goal 2; intro hu; clear_value u)
        | clear_value u | skip)
    | split
    | (with_reducible refine keepOpt_elim ?_ (by assumption))
    | (intro t ht; with_reducible (have _h : Keep K t := ht))
    | (intro c t ht; with_reducible (have _h : Keep K t := ht))
    | dsimp -zeta only [id])

theorem keep_recall {K : Kept} (s : State) (u : UnitIu) (hs : Keep K s) :
    Keep K (State.recall s u) := by
  unfold State.recall
  repeat' (first
    | (with_reducible first | assumption | apply keep_mWp)
    | (intro t ht; with_reducible (have _h : Keep K t := ht))
    | lift_lets -underBinder
    | (intro u; first
        | (refine (?_ : Keep K u → _) ?_; pick_goal 2; simp only [u]; pick_goal 2; intro hu; clear_value u)
        | clear_value u | skip)
    | split)

theorem keep_rebuildFirst {K : Kept} (s : State) (key : Nat) (l : List UnitIu) (hs : Keep K s) :
    Keep K (State.rebuildFirst s key l) := by
  unfold State.rebuildFirst
  repeat' (first
    | (with_reducible first | assumption | apply keep_mWp | apply keep_set | apply keep_ite | apply keep_ite_snd | apply keep_ite_fst | apply keepO_ite | apply keepOpt_ite)
    | (intro t ht; with_reducible (have _h : Keep K t := ht))
    | (intro (_ : _); show Keep K _)
    | split)

theorem keep_closeBand {K : Kept} (s : State) (b : Band) (hs : Keep K s) :
    Keep K (State.closeBand s b) := by
  unfold State.closeBand
  repeat' (first
    | (with_reducible first | assumption | apply keep_assign | apply keep_journal | apply keep_mBand | apply keep_mBlock | apply keep_mSw | apply keep_newStripe | apply keep_rebuildFirst | apply keep_recall | apply keep_set | apply keep_ite | apply keep_ite_snd | apply keep_ite_fst | apply keepO_ite | apply keepOpt_ite | apply keep_foldl | apply keep_foldl2 | apply keep_foldl1)
    | (intro t a ht; with_reducible (have _h : Keep K t := ht))
    | (intro t ht; with_reducible (have _h : Keep K t := ht))
    | lift_lets -underBinder
    | (intro u; first
        | (refine (?_ : Keep K u → _) ?_; pick_goal 2; simp only [u]; pick_goal 2; intro hu; clear_value u)
        | clear_value u | skip)
    | split)

theorem keep_parityUnit {K : Kept} (hK : K.stores = true) (s : State) (q : Stripe) (hs : Keep K s) :
    Keep K (State.parityUnit s q) := by
  unfold State.parityUnit
  repeat' (first
    | (with_reducible first | assumption | apply keep_assign | apply keep_endStripe | apply keep_set | apply keep_startBand | apply keep_ite | apply keep_ite_snd | apply keep_ite_fst | apply keepO_ite | apply keepOpt_ite)
    | (intro t ht; with_reducible (have _h : Keep K t := ht))
    | lift_lets -underBinder
    | (intro u; first
        | (refine (?_ : Keep K u → _) ?_; pick_goal 2; simp only [u]; pick_goal 2; intro hu; clear_value u)
        | clear_value u | skip)
    | split)

theorem keep_tidy {K : Kept} (hK : K.stores = true) (k : Nat) (s : State) (hs : Keep K s) : Keep K (tidy k s) := by
  induction k generalizing s with
  | zero => exact hs
  | succ k ih =>
    rw [tidy]
    apply ih
    apply keep_foldl _ _ (fun t a ht => keep_parityUnit hK _ _ ht)
    exact keep_foldl _ _ (fun t a ht => keep_closeBand _ _ ht) hs


theorem keep_pump {K : Kept} (hK : K.stores = true) (kind group : Nat) (short : Bool) (k : Nat) (s : State) (hs : Keep K s) :
    Keep K (pump kind group short k s) := by
  induction k generalizing s with
  | zero => exact hs
  | succ k ih =>
    rw [pump]
    split
    · have ht := (keep_placeOne s kind group short hs).get _ ‹_›
      split
      · exact ht
      · exact ih _ (keep_tidy hK _ _ ht)
    · exact hs


theorem keep_build {K : Kept} (hK : K.stores = true) (s : State) (kind group : Nat) (short : Bool) (hs : Keep K s) :
    Keep K (State.build s kind group short) := by
  unfold State.build
  repeat' (with_reducible first | assumption | apply keep_pump)

theorem keep_buildHost {K : Kept} (hK : K.stores = true) (s : State) (group : Nat) (hs : Keep K s) :
    Keep K (State.buildHost s group) := by
  have h := keep_build hK s 0 group false hs
  unfold State.buildHost
  dsimp only
  split
  · exact keep_build hK _ _ _ _ h
  · exact h

theorem keep_takeIu {K : Kept} (hK : K.stores = true) (s : State) (r : CixRow) (hs : Keep K s) :
    Keep K (State.takeIu s r) := by
  unfold State.takeIu
  repeat' (first
    | (with_reducible first | assumption | apply keep_addRead | apply keep_askCrates | apply keep_count | apply keep_deferIu | apply keep_mWp | apply keep_set | apply keep_ite | apply keep_ite_snd | apply keep_ite_fst | apply keepO_ite | apply keepOpt_ite | apply keep_foldl | apply keep_foldl2 | apply keep_foldl1 | refine keep_mCr _ _ ?_ (by rfl))
    | (intro t a ht; with_reducible (have _h : Keep K t := ht))
    | (intro t ht; with_reducible (have _h : Keep K t := ht))
    | lift_lets -underBinder
    | (intro u; first
        | (refine (?_ : Keep K u → _) ?_; pick_goal 2; simp only [u]; pick_goal 2; intro hu; clear_value u)
        | clear_value u | skip)
    | split)

theorem keep_execRowTake {K : Kept} (hK : K.stores = true) (group : Nat) (s : State) (hs : Keep K s) :
    KeepO K (execRowTake group s) := by
  unfold execRowTake
  repeat' (first
    | (with_reducible first | assumption | apply keep_build | apply keep_buildHost | apply keep_deferIu | apply keep_mRow | apply keep_takeIu | apply keep_takeRef | apply keep_untake | apply keep_ite | apply keepO_next | apply keep_ite_snd | apply keep_ite_fst | apply keepO_ite | apply keepOpt_ite)
    | (intro t ht; with_reducible (have _h : Keep K t := ht))
    | lift_lets -underBinder
    | (intro u; first
        | (refine (?_ : Keep K u → _) ?_; pick_goal 2; simp only [u]; pick_goal 2; intro hu; clear_value u)
        | clear_value u | skip)
    | split)

theorem keep_execPadWaitExpiry {K : Kept} (hK : K.stores = true) (group : Nat) (s : State) (hs : Keep K s) :
    KeepO K (execPadWaitExpiry group s) := by
  unfold execPadWaitExpiry
  repeat' (first
    | (with_reducible first | assumption | apply keep_build | apply keep_buildHost | apply keepO_next | apply keep_foldl | apply keep_foldl2 | apply keep_foldl1)
    | (intro t a ht; with_reducible (have _h : Keep K t := ht))
    | (intro t ht; with_reducible (have _h : Keep K t := ht)))

theorem keep_closeShort {K : Kept} (hK : K.stores = true) (s : State) (q : Stripe) (hs : Keep K s) :
    Keep K (State.closeShort s q) := by
  unfold State.closeShort
  repeat' (first
    | (with_reducible first | assumption | apply keep_count | apply keep_mStripe | apply keep_tidy | apply keep_ite | apply keep_ite_snd | apply keep_ite_fst | apply keepO_ite | apply keepOpt_ite)
    | (intro t ht; with_reducible (have _h : Keep K t := ht))
    | lift_lets -underBinder
    | (intro u; first
        | (refine (?_ : Keep K u → _) ?_; pick_goal 2; simp only [u]; pick_goal 2; intro hu; clear_value u)
        | clear_value u | skip)
    | split)

theorem keep_execStripeWaitExpiry {K : Kept} (hK : K.stores = true) (serial : Nat) (s : State) (hs : Keep K s) :
    KeepO K (execStripeWaitExpiry serial s) := by
  unfold execStripeWaitExpiry
  repeat' (first
    | (with_reducible first | assumption | apply keep_closeShort | apply keepO_next)
    | (intro t ht; with_reducible (have _h : Keep K t := ht))
    | split)

theorem keep_dropRead {K : Kept} (hK : K.stores = true) (s : State) (r : MRead) (hs : Keep K s) :
    Keep K (State.dropRead s r) := by
  unfold State.dropRead
  repeat' (first
    | (with_reducible first | assumption | apply keep_dropRef | apply keep_mSt | apply keep_foldl | apply keep_foldl2 | apply keep_foldl1)
    | (intro t a ht; with_reducible (have _h : Keep K t := ht))
    | (intro t ht; with_reducible (have _h : Keep K t := ht))
    | lift_lets -underBinder
    | (intro u; first
        | (refine (?_ : Keep K u → _) ?_; pick_goal 2; simp only [u]; pick_goal 2; intro hu; clear_value u)
        | clear_value u | skip))

theorem keep_dropWhere {K : Kept} (hK : K.stores = true) (s : State) (q : MRead → Bool) (hs : Keep K s) :
    Keep K (State.dropWhere s q) := by
  unfold State.dropWhere
  repeat' (first
    | (with_reducible first | assumption | apply keep_dropRead | apply keep_foldl | apply keep_foldl2 | apply keep_foldl1)
    | (intro t a ht; with_reducible (have _h : Keep K t := ht))
    | (intro t ht; with_reducible (have _h : Keep K t := ht))
    | lift_lets -underBinder
    | (intro u; first
        | (refine (?_ : Keep K u → _) ?_; pick_goal 2; simp only [u]; pick_goal 2; intro hu; clear_value u)
        | clear_value u | skip))

theorem keep_endCopy {K : Kept} (hK : K.stores = true) (s : State) (slot : Nat) (hs : Keep K s) :
    Keep K (State.endCopy s slot) := by
  unfold State.endCopy
  repeat' (first
    | (with_reducible first | assumption | apply keep_dropWhere | apply keep_freeGrants | apply keep_mSw | apply keep_ite | apply keep_ite_snd | apply keep_ite_fst | apply keepO_ite | apply keepOpt_ite)
    | (intro t ht; with_reducible (have _h : Keep K t := ht))
    | lift_lets -underBinder
    | (intro u; first
        | (refine (?_ : Keep K u → _) ?_; pick_goal 2; simp only [u]; pick_goal 2; intro hu; clear_value u)
        | clear_value u | skip)
    | split)

theorem keep_chargeReloc {K : Kept} (s : State) (source bytes : Nat) (hs : Keep K s) :
    Keep K (State.chargeReloc s source bytes) := by
  unfold State.chargeReloc
  repeat' (first
    | (with_reducible first | assumption | apply keep_mPit | apply keep_set)
    | (intro t ht; with_reducible (have _h : Keep K t := ht))
    | lift_lets -underBinder
    | (intro u; first
        | (refine (?_ : Keep K u → _) ?_; pick_goal 2; simp only [u]; pick_goal 2; intro hu; clear_value u)
        | clear_value u | skip))

theorem keep_copyDone {K : Kept} (hK : K.stores = true) (s : State) (u : UnitIu) (addr : Nat) (hs : Keep K s) :
    Keep K (State.copyDone s u addr) := by
  unfold State.copyDone
  repeat' (first
    | (with_reducible first | assumption | apply keep_chargeReloc | apply keep_count | apply keep_endCopy | apply keep_sweepCopy | apply keep_ite | apply keep_ite_snd | apply keep_ite_fst | apply keepO_ite | apply keepOpt_ite)
    | (intro t ht; with_reducible (have _h : Keep K t := ht))
    | lift_lets -underBinder
    | (intro u; first
        | (refine (?_ : Keep K u → _) ?_; pick_goal 2; simp only [u]; pick_goal 2; intro hu; clear_value u)
        | clear_value u | skip)
    | split)

theorem keep_iuDone {K : Kept} (hK : K.stores = true) (s : State) (blk : Nat) (u : UnitIu) (hs : Keep K s) :
    Keep K (State.iuDone s blk u) := by
  unfold State.iuDone
  repeat' (first
    | (with_reducible first | assumption | apply keep_copyDone | apply keep_settleIu | apply keep_ite | apply keep_ite_snd | apply keep_ite_fst | apply keepO_ite | apply keepOpt_ite)
    | (intro t ht; with_reducible (have _h : Keep K t := ht))
    | (intro (_ : _); show Keep K _)
    | split)

theorem keep_unitGood {K : Kept} (hK : K.stores = true) (hN : K.keeps = true) (s : State) (p : ProgUnit) (hs : Keep K s) :
    Keep K (State.unitGood s p) := by
  unfold State.unitGood
  repeat' (first
    | (with_reducible first | assumption | apply keep_endStripe | apply keep_followFloor | apply keep_iuDone | apply keep_mStripe | apply keep_mWp | apply keep_set | apply keep_tidy | apply keep_ite | apply keep_ite_snd | apply keep_ite_fst | apply keepO_ite | apply keepOpt_ite | apply keep_foldl | apply keep_foldl2 | apply keep_foldl1 | refine keep_mNv _ _ hN ?_ (NvOk.mk rfl (List.prefix_refl _)) | refine keep_mNv _ _ hN ?_ (NvOk.mk rfl (List.prefix_append _ _)) | refine keep_mNv _ _ hN ?_ ?_ | exact NvOk.mk rfl (List.prefix_refl _) | apply nvOk_ite)
    | (intro t a ht; with_reducible (have _h : Keep K t := ht))
    | (intro t ht; with_reducible (have _h : Keep K t := ht))
    | lift_lets -underBinder
    | (intro u; first
        | (refine (?_ : Keep K u → _) ?_; pick_goal 2; simp only [u]; pick_goal 2; intro hu; clear_value u)
        | clear_value u | skip)
    | split)

theorem keep_abandon {K : Kept} (hK : K.stores = true) (s : State) (v : Victim) (nsid iu : Nat) (hs : Keep K s) :
    Keep K (State.abandon s v nsid iu) := by
  unfold State.abandon
  repeat' (first
    | (with_reducible first | assumption | apply keep_count | apply keep_endCopy | apply keep_mBand | apply keep_mSw | apply keep_mWp | apply keep_record | apply keep_ite | apply keep_ite_snd | apply keep_ite_fst | apply keepO_ite | apply keepOpt_ite | apply keep_foldl | apply keep_foldl2 | apply keep_foldl1)
    | (intro t a ht; with_reducible (have _h : Keep K t := ht))
    | (intro t ht; with_reducible (have _h : Keep K t := ht))
    | lift_lets -underBinder
    | (intro u; first
        | (refine (?_ : Keep K u → _) ?_; pick_goal 2; simp only [u]; pick_goal 2; intro hu; clear_value u)
        | clear_value u | skip)
    | split)

theorem keep_redoIu {K : Kept} (hK : K.stores = true) (s : State) (key die : Nat) (u : UnitIu) (hs : Keep K s) :
    Keep K (State.redoIu s key die u) := by
  unfold State.redoIu
  repeat' (first
    | (with_reducible first | assumption | apply keep_abandon | apply keep_count | apply keep_deferIu | apply keep_rebuildFirst | apply keep_recall | apply keep_ite | apply keep_ite_snd | apply keep_ite_fst | apply keepO_ite | apply keepOpt_ite)
    | (intro t ht; with_reducible (have _h : Keep K t := ht))
    | lift_lets -underBinder
    | (intro u; first
        | (refine (?_ : Keep K u → _) ?_; pick_goal 2; simp only [u]; pick_goal 2; intro hu; clear_value u)
        | clear_value u | skip)
    | split)

theorem keep_replaceOpen {K : Kept} (s : State) (k : Nat) (hs : Keep K s) :
    Keep K (State.replaceOpen s k) := by
  unfold State.replaceOpen
  repeat' (first
    | (with_reducible first | assumption | apply keep_journal | apply keep_mBand | apply keep_mBlock | apply keep_set)
    | (intro t ht; with_reducible (have _h : Keep K t := ht))
    | lift_lets -underBinder
    | (intro u; first
        | (refine (?_ : Keep K u → _) ?_; pick_goal 2; simp only [u]; pick_goal 2; intro hu; clear_value u)
        | clear_value u | skip)
    | split)

theorem keep_unitFail {K : Kept} (hK : K.stores = true) (hN : K.keeps = true) (s : State) (p : ProgUnit) (retire : Bool) (hs : Keep K s) :
    Keep K (State.unitFail s p retire) := by
  unfold State.unitFail
  repeat' (first
    | (with_reducible first | assumption | apply keep_build | apply keep_buildHost | apply keep_count | apply keep_endStripe | apply keep_mStripe | apply keep_mSw | apply keep_mWp | apply keep_redoIu | apply keep_replaceOpen | apply keep_retire | apply keep_retireBlock | apply keep_tidy | apply keep_ite | apply keep_ite_snd | apply keep_ite_fst | apply keepO_ite | apply keepOpt_ite | apply keep_foldl | apply keep_foldl2 | apply keep_foldl1)
    | (intro t a ht; with_reducible (have _h : Keep K t := ht))
    | (intro t ht; with_reducible (have _h : Keep K t := ht))
    | lift_lets -underBinder
    | (intro u; first
        | (refine (?_ : Keep K u → _) ?_; pick_goal 2; simp only [u]; pick_goal 2; intro hu; clear_value u)
        | clear_value u | skip)
    | split)

end Sys2Proof.Laws
end

