-- ==== Sys2Proof/Laws/KeepDataPath.lean ====
section
/-! SUPPORT. The operations of Machine/DataPath.lean keep the queue and the canonical forms. -/

namespace Sys2Proof.Laws

open Sys2Proof Sys2Proof.Machine

set_option linter.unusedTactic false
set_option linter.unreachableTactic false
set_option linter.unusedVariables false

theorem keep_slotBad {K : Kept} (s : State) (slot : Nat) (hs : Keep K s) :
    Keep K (State.slotBad s slot) := by
  unfold State.slotBad
  repeat' (first
    | (with_reducible first | assumption | apply keep_mCiph | apply keep_record | apply keep_set | apply keep_ite | apply keep_ite_snd | apply keep_ite_fst | apply keepO_ite | apply keepOpt_ite)
    | (intro t ht; with_reducible (have _h : Keep K t := ht))
    | lift_lets -underBinder
    | (intro u; first
        | (refine (?_ : Keep K u → _) ?_; pick_goal 2; simp only [u]; pick_goal 2; intro hu; clear_value u)
        | clear_value u | skip)
    | split)

theorem keep_takeUnit {K : Kept} (uid cls nsid iu : Nat) (a : State × IuWork) (e : Nat × UnitSrc) (ha : Keep K a.1) :
    Keep K (takeUnit uid cls nsid iu a e).1 := by
  unfold takeUnit
  repeat' (first
    | (with_reducible first | assumption | apply keep_addRead | apply keep_slotBad | apply keep_ite | apply keep_ite_snd | apply keep_ite_fst | apply keepO_ite | apply keepOpt_ite)
    | (intro t ht; with_reducible (have _h : Keep K t := ht))
    | (intro (_ : _); show Keep K _)
    | split)

theorem keep_takeIuWork {K : Kept} (c : Cmd) (a : State × List IuWork) (iu : Nat) (ha : Keep K a.1) :
    Keep K (takeIuWork c a iu).1 := by
  unfold takeIuWork
  repeat' (first
    | (with_reducible first | assumption | apply keep_lookIu | apply keep_takeUnit | apply keep_foldl | apply keep_foldl2 | apply keep_foldl1)
    | (intro t a ht; with_reducible (have _h : Keep K t := ht))
    | (intro t ht; with_reducible (have _h : Keep K t := ht))
    | lift_lets -underBinder
    | (intro u; first
        | (refine (?_ : Keep K u → _) ?_; pick_goal 2; simp only [u]; pick_goal 2; intro hu; clear_value u)
        | clear_value u | skip))

theorem keep_dropReads {K : Kept} (hK : K.stores = true) (s : State) (uid : Nat) (hs : Keep K s) :
    Keep K (State.dropReads s uid) := by
  unfold State.dropReads
  repeat' (first
    | (with_reducible first | assumption | apply keep_dropWhere | apply keep_mPor)
    | (intro t ht; with_reducible (have _h : Keep K t := ht))
    | lift_lets -underBinder
    | (intro u; first
        | (refine (?_ : Keep K u → _) ?_; pick_goal 2; simp only [u]; pick_goal 2; intro hu; clear_value u)
        | clear_value u | skip)
    | split)

theorem keep_readStep {K : Kept} (hK : K.stores = true) (s : State) (uid : Nat) (hs : Keep K s) :
    Keep K (State.readStep s uid) := by
  unfold State.readStep
  repeat' (first
    | (with_reducible first | assumption | apply keep_complete | apply keep_dropReads | apply keep_ite | apply keep_ite_snd | apply keep_ite_fst | apply keepO_ite | apply keepOpt_ite)
    | (intro t ht; with_reducible (have _h : Keep K t := ht))
    | lift_lets -underBinder
    | (intro u; first
        | (refine (?_ : Keep K u → _) ?_; pick_goal 2; simp only [u]; pick_goal 2; intro hu; clear_value u)
        | clear_value u | skip)
    | split)

theorem keep_startRead {K : Kept} (hK : K.stores = true) (s : State) (uid : Nat) (hs : Keep K s) :
    Keep K (State.startRead s uid) := by
  unfold State.startRead
  repeat' (first
    | (with_reducible first | assumption | apply keep_mCmd | apply keep_readStep | apply keep_takeIuWork | apply keep_foldl | apply keep_foldl2 | apply keep_foldl1)
    | (intro t a ht; with_reducible (have _h : Keep K t := ht))
    | (intro t ht; with_reducible (have _h : Keep K t := ht))
    | lift_lets -underBinder
    | (intro u; first
        | (refine (?_ : Keep K u → _) ?_; pick_goal 2; simp only [u]; pick_goal 2; intro hu; clear_value u)
        | clear_value u | skip)
    | split)

theorem keep_unitArrived {K : Kept} (hK : K.stores = true) (s : State) (uid iu unit value : Nat) (hs : Keep K s) :
    Keep K (State.unitArrived s uid iu unit value) := by
  unfold State.unitArrived
  repeat' (first
    | (with_reducible first | assumption | apply keep_mCmd | apply keep_readStep | apply keep_ite | apply keep_ite_snd | apply keep_ite_fst | apply keepO_ite | apply keepOpt_ite)
    | (intro t ht; with_reducible (have _h : Keep K t := ht))
    | (intro (_ : _); show Keep K _)
    | split)

theorem keep_unitFailed {K : Kept} (hK : K.stores = true) (s : State) (uid iu : Nat) (hs : Keep K s) :
    Keep K (State.unitFailed s uid iu) := by
  unfold State.unitFailed
  repeat' (first
    | (with_reducible first | assumption | apply keep_dropWhere | apply keep_mCmd | apply keep_readStep | apply keep_ite | apply keep_ite_snd | apply keep_ite_fst | apply keepO_ite | apply keepOpt_ite)
    | (intro t ht; with_reducible (have _h : Keep K t := ht))
    | lift_lets -underBinder
    | (intro u; first
        | (refine (?_ : Keep K u → _) ?_; pick_goal 2; simp only [u]; pick_goal 2; intro hu; clear_value u)
        | clear_value u | skip)
    | split)

theorem keep_withdrawWrite {K : Kept} (hK : K.stores = true) (s : State) (c : Cmd) (hs : Keep K s) :
    Keep K (State.withdrawWrite s c) := by
  unfold State.withdrawWrite
  repeat' (first
    | (with_reducible first | assumption | apply keep_mCmd | apply keep_move | apply keep_ownerFree | apply keep_send | apply keep_ite | apply keep_ite_snd | apply keep_ite_fst | apply keepO_ite | apply keepOpt_ite | apply keep_foldl | apply keep_foldl2 | apply keep_foldl1 | refine keep_mCr _ _ ?_ (by rfl))
    | (intro t a ht; with_reducible (have _h : Keep K t := ht))
    | (intro t ht; with_reducible (have _h : Keep K t := ht))
    | lift_lets -underBinder
    | (intro u; first
        | (refine (?_ : Keep K u → _) ?_; pick_goal 2; simp only [u]; pick_goal 2; intro hu; clear_value u)
        | clear_value u | skip)
    | split)

theorem keep_flushInsert {K : Kept} (s : State) (uid nsid iu acc : Nat) (hs : Keep K s) :
    Keep K (State.flushInsert s uid nsid iu acc) := by
  unfold State.flushInsert
  repeat' (first
    | (with_reducible first | assumption | apply keep_mHost | apply keep_ite | apply keep_ite_snd | apply keep_ite_fst | apply keepO_ite | apply keepOpt_ite)
    | (intro t ht; with_reducible (have _h : Keep K t := ht))
    | (intro (_ : _); show Keep K _)
    | split)

theorem keep_insertAll {K : Kept} (hK : K.stores = true) (c : Cmd) (zeroes : Bool) (l m : List Nat) (s : State) (hs : Keep K s) :
    Keep K (insertAll c zeroes l m s) := by
  induction l generalizing m s with
  | nil => cases m <;> exact hs
  | cons n t ih =>
    cases m with
    | nil => exact hs
    | cons k ks =>
      rw [insertAll]
      exact ih _ _ (keep_flushInsert _ _ _ _ _ (keep_insertIu hK _ _ _ _ _ _ _ _ hs))


theorem keep_writeStep {K : Kept} (hK : K.stores = true) (s : State) (uid : Nat) (hs : Keep K s) :
    Keep K (State.writeStep s uid) := by
  unfold State.writeStep
  repeat' (first
    | (with_reducible first | assumption | apply keep_complete | apply keep_insertAll | apply keep_mCmd | apply keep_ite | apply keep_ite_snd | apply keep_ite_fst | apply keepO_ite | apply keepOpt_ite)
    | (intro t ht; with_reducible (have _h : Keep K t := ht))
    | lift_lets -underBinder
    | (intro u; first
        | (refine (?_ : Keep K u → _) ?_; pick_goal 2; simp only [u]; pick_goal 2; intro hu; clear_value u)
        | clear_value u | skip)
    | split)

theorem keep_zeroesStep {K : Kept} (hK : K.stores = true) (s : State) (uid : Nat) (hs : Keep K s) :
    Keep K (State.zeroesStep s uid) := by
  unfold State.zeroesStep
  repeat' (first
    | (with_reducible first | assumption | apply keep_complete | apply keep_deallocIu | apply keep_insertAll | apply keep_mCmd | apply keep_ite | apply keep_ite_snd | apply keep_ite_fst | apply keepO_ite | apply keepOpt_ite | apply keep_foldl | apply keep_foldl2 | apply keep_foldl1)
    | (intro t a ht; with_reducible (have _h : Keep K t := ht))
    | (intro t ht; with_reducible (have _h : Keep K t := ht))
    | lift_lets -underBinder
    | (intro u; first
        | (refine (?_ : Keep K u → _) ?_; pick_goal 2; simp only [u]; pick_goal 2; intro hu; clear_value u)
        | clear_value u | skip)
    | split)

theorem keep_mergeUnit {K : Kept} (hK : K.stores = true) (s : State) (uid unit value : Nat) (hs : Keep K s) :
    Keep K (State.mergeUnit s uid unit value) := by
  unfold State.mergeUnit
  repeat' (first
    | (with_reducible first | assumption | apply keep_crateWrite | apply keep_mCmd | apply keep_writeStep | apply keep_zeroesStep | apply keep_ite | apply keep_ite_snd | apply keep_ite_fst | apply keepO_ite | apply keepOpt_ite | apply keep_foldl | apply keep_foldl2 | apply keep_foldl1)
    | (intro t a ht; with_reducible (have _h : Keep K t := ht))
    | (intro t ht; with_reducible (have _h : Keep K t := ht))
    | lift_lets -underBinder
    | (intro u; first
        | (refine (?_ : Keep K u → _) ?_; pick_goal 2; simp only [u]; pick_goal 2; intro hu; clear_value u)
        | clear_value u | skip)
    | split)

theorem keep_mergeFailed {K : Kept} (hK : K.stores = true) (s : State) (uid : Nat) (hs : Keep K s) :
    Keep K (State.mergeFailed s uid) := by
  unfold State.mergeFailed
  repeat' (first
    | (with_reducible first | assumption | apply keep_complete | apply keep_dropReads | apply keep_withdrawWrite)
    | (intro t ht; with_reducible (have _h : Keep K t := ht))
    | split)

theorem keep_startMerge {K : Kept} (hK : K.stores = true) (s : State) (uid : Nat) (hs : Keep K s) :
    Keep K (State.startMerge s uid) := by
  unfold State.startMerge
  repeat' (first
    | (with_reducible first | assumption | apply keep_addRead | apply keep_lookIu | apply keep_mCmd | apply keep_mergeFailed | apply keep_mergeUnit | apply keep_slotBad | apply keep_ite | apply keep_ite_snd | apply keep_ite_fst | apply keepO_ite | apply keepOpt_ite | apply keep_foldl | apply keep_foldl2 | apply keep_foldl1)
    | (intro t a ht; with_reducible (have _h : Keep K t := ht))
    | (intro t ht; with_reducible (have _h : Keep K t := ht))
    | lift_lets -underBinder
    | (intro u; first
        | (refine (?_ : Keep K u → _) ?_; pick_goal 2; simp only [u]; pick_goal 2; intro hu; clear_value u)
        | clear_value u | skip)
    | split)

end Sys2Proof.Laws
end

