-- ==== Sys2Proof/Laws/KeepCluster.lean ====
section
/-! SUPPORT. The operations of Machine/Cluster.lean keep the queue and the canonical forms. -/

namespace Sys2Proof.Laws

open Sys2Proof Sys2Proof.Machine

set_option linter.unusedTactic false
set_option linter.unreachableTactic false
set_option linter.unusedVariables false

theorem keep_mRead {K : Kept} (s : State) (id : Nat) (g : MRead → MRead) (hs : Keep K s) :
    Keep K (State.mRead s id g) := by
  unfold State.mRead
  repeat' (first
    | (with_reducible first | assumption | apply keep_mSt | apply keep_ite | apply keep_ite_snd | apply keep_ite_fst | apply keepO_ite | apply keepOpt_ite)
    | (intro t ht; with_reducible (have _h : Keep K t := ht))
    | (intro (_ : _); show Keep K _)
    | split)

theorem keep_mSoft {K : Kept} (s : State) (k : Nat) (g : List SoftJob → List SoftJob) (hs : Keep K s) :
    Keep K (State.mSoft s k g) := by
  unfold State.mSoft
  repeat' (first
    | (with_reducible first | assumption | apply keep_mInteg | apply keep_set)
    | (intro t ht; with_reducible (have _h : Keep K t := ht)))

theorem keep_runSoft {K : Kept} (k n : Nat) (s : State) (hs : Keep K s) : Keep K (runSoft k n s) := by
  induction n generalizing s with
  | zero => exact hs
  | succ n ih =>
    rw [runSoft]
    repeat' (first
      | (with_reducible assumption)
      | (with_reducible first | apply ih | apply keep_mSoft | apply keep_ite | apply keep_ite_snd | apply keep_ite_fst | apply keepO_ite | apply keepOpt_ite)
      | (intro t ht; with_reducible (have _h : Keep K t := ht))
      | lift_lets -underBinder
      | (intro u; first
          | (refine (?_ : Keep K u → _) ?_; pick_goal 2; simp only [u]; pick_goal 2; intro hu; clear_value u)
          | (refine (?_ : Keep K u.2 → _) ?_; pick_goal 2; simp only [u]; pick_goal 2; intro hu; clear_value u)
          | (refine (?_ : Keep K u.1 → _) ?_; pick_goal 2; simp only [u]; pick_goal 2; intro hu; clear_value u)
          | (refine (?_ : Keep K u.st → _) ?_; pick_goal 2; simp only [u]; pick_goal 2; intro hu; clear_value u)
          | clear_value u | skip)
      | split
      | (intro t ht; with_reducible (have _h : Keep K t := ht))
      | (intro c t ht; with_reducible (have _h : Keep K t := ht))
      | dsimp -zeta only [id])


theorem keep_preempt {K : Kept} (s : State) (k : Nat) (hs : Keep K s) :
    Keep K (State.preempt s k) := by
  unfold State.preempt
  repeat' (first
    | (with_reducible first | assumption | apply keep_count | apply keep_mSoft | apply keep_ite | apply keep_ite_snd | apply keep_ite_fst | apply keepO_ite | apply keepOpt_ite)
    | (intro t ht; with_reducible (have _h : Keep K t := ht))
    | lift_lets -underBinder
    | (intro u; first
        | (refine (?_ : Keep K u → _) ?_; pick_goal 2; simp only [u]; pick_goal 2; intro hu; clear_value u)
        | clear_value u | skip)
    | split)

theorem keep_pruneSoft {K : Kept} (s : State) (k : Nat) (hs : Keep K s) :
    Keep K (State.pruneSoft s k) := by
  unfold State.pruneSoft
  repeat' (first
    | (with_reducible first | assumption | apply keep_mSoft)
    | (intro t ht; with_reducible (have _h : Keep K t := ht)))

theorem keep_enterSoft {K : Kept} (s : State) (r : MRead) (full : Bool) (hs : Keep K s) :
    KeepOpt K (State.enterSoft s r full) := by
  unfold State.enterSoft
  repeat' (first
    | (with_reducible assumption)
    | (with_reducible first | apply keep_mRead | apply keep_mSoft | apply keep_preempt | apply keep_pruneSoft | apply keep_runSoft | apply keep_ite | apply keep_ite_snd | apply keep_ite_fst | apply keepO_ite | apply keepOpt_ite | apply keepOpt_none | apply keepOpt_some | apply keepOpt_getD)
    | (intro t a ht; with_reducible (have _h : Keep K t.2 := ht))
    | (intro t a ht; with_reducible (have _h : Keep K t.1 := ht))
    | (intro t a ht; with_reducible (have _h : Keep K t := ht))
    | (intro t ht; with_reducible (have _h : Keep K t := ht))
    | lift_lets -underBinder
    | (intro u; first
        | (refine (?_ : Keep K u → _) ?_; pick_goal 2; simp only [u]; pick_goal 2; intro hu; clear_value u)
        | (refine (?_ : Keep K u.2 → _) ?_; pick_goal 2; simp only [u]; pick_goal 2; intro hu; clear_value u)
        | (refine (?_ : Keep K u.1 → _) ?_; pick_goal 2; simp only [u]; pick_goal 2; intro hu; clear_value u)
        | (refine (?_ : Keep K u.st → _) ?_; pick_goal 2; simp only [u]; pick_goal 2; intro hu; clear_value u)
        | clear_value u | skip)
    | split
    | (with_reducible refine keepOpt_elim ?_ (by assumption))
    | (intro t ht; with_reducible (have _h : Keep K t := ht))
    | (intro c t ht; with_reducible (have _h : Keep K t := ht))
    | dsimp -zeta only [id])

theorem keep_seatSoft {K : Kept} (s : State) (k : Nat) (hs : Keep K s) :
    Keep K (State.seatSoft s k) := by
  unfold State.seatSoft
  repeat' (first
    | (with_reducible assumption)
    | (with_reducible first | apply keep_enterSoft | apply keep_ite | apply keep_ite_snd | apply keep_ite_fst | apply keepO_ite | apply keepOpt_ite | apply keepOpt_none | apply keepOpt_some | apply keepOpt_getD | apply keep_foldl | apply keep_foldl2 | apply keep_foldl1)
    | (intro t a ht; with_reducible (have _h : Keep K t.2 := ht))
    | (intro t a ht; with_reducible (have _h : Keep K t.1 := ht))
    | (intro t a ht; with_reducible (have _h : Keep K t := ht))
    | (intro t ht; with_reducible (have _h : Keep K t := ht))
    | (intro (_ : _); show Keep K _)
    | split
    | (with_reducible refine keepOpt_elim ?_ (by assumption))
    | (intro t ht; with_reducible (have _h : Keep K t := ht))
    | (intro c t ht; with_reducible (have _h : Keep K t := ht))
    | dsimp -zeta only [id])

theorem keep_leaveSoft {K : Kept} (s : State) (k id : Nat) (hs : Keep K s) :
    Keep K (State.leaveSoft s k id) := by
  unfold State.leaveSoft
  repeat' (first
    | (with_reducible first | assumption | apply keep_mSoft | apply keep_pruneSoft | apply keep_runSoft | apply keep_seatSoft)
    | (intro t ht; with_reducible (have _h : Keep K t := ht)))

theorem keep_askFull {K : Kept} (s : State) (r : MRead) (hs : Keep K s) :
    Keep K (State.askFull s r) := by
  unfold State.askFull
  repeat' (first
    | (with_reducible assumption)
    | (with_reducible first | apply keep_enterSoft | apply keep_mRead | apply keepOpt_none | apply keepOpt_some | apply keepOpt_getD)
    | (intro t a ht; with_reducible (have _h : Keep K t.2 := ht))
    | (intro t a ht; with_reducible (have _h : Keep K t.1 := ht))
    | (intro t a ht; with_reducible (have _h : Keep K t := ht))
    | (intro t ht; with_reducible (have _h : Keep K t := ht))
    | split
    | (with_reducible refine keepOpt_elim ?_ (by assumption))
    | (intro t ht; with_reducible (have _h : Keep K t := ht))
    | (intro c t ht; with_reducible (have _h : Keep K t := ht))
    | dsimp -zeta only [id])

theorem keep_scrubTime {K : Kept} (s : State) (hs : Keep K s) :
    Keep K (State.scrubTime s) := by
  unfold State.scrubTime
  repeat' (first
    | (with_reducible first | assumption | apply keep_mInteg | apply keep_ite | apply keep_ite_snd | apply keep_ite_fst | apply keepO_ite | apply keepOpt_ite)
    | (intro t ht; with_reducible (have _h : Keep K t := ht))
    | lift_lets -underBinder
    | (intro u; first
        | (refine (?_ : Keep K u → _) ?_; pick_goal 2; simp only [u]; pick_goal 2; intro hu; clear_value u)
        | clear_value u | skip)
    | split)

theorem keep_walk {K : Kept} (s : State) (ch n : Nat) (hs : Keep K s) :
    Keep K (State.walk s ch n) := by
  unfold State.walk
  repeat' (first
    | (with_reducible first | assumption | apply keep_addRead | apply keep_mInteg | apply keep_set | apply keep_foldl | apply keep_foldl2 | apply keep_foldl1)
    | (intro t a ht; with_reducible (have _h : Keep K t := ht))
    | (intro t ht; with_reducible (have _h : Keep K t := ht))
    | lift_lets -underBinder
    | (intro u; first
        | (refine (?_ : Keep K u → _) ?_; pick_goal 2; simp only [u]; pick_goal 2; intro hu; clear_value u)
        | clear_value u | skip)
    | split)

theorem keep_beginCycle {K : Kept} (s : State) (hs : Keep K s) :
    Keep K (State.beginCycle s) := by
  unfold State.beginCycle
  repeat' (first
    | (with_reducible first | assumption | apply keep_mInteg)
    | (intro t ht; with_reducible (have _h : Keep K t := ht))
    | lift_lets -underBinder
    | (intro u; first
        | (refine (?_ : Keep K u → _) ?_; pick_goal 2; simp only [u]; pick_goal 2; intro hu; clear_value u)
        | clear_value u | skip))

theorem keep_endCycle {K : Kept} (s : State) (hs : Keep K s) :
    Keep K (State.endCycle s) := by
  unfold State.endCycle
  repeat' (first
    | (with_reducible first | assumption | apply keep_addCand | apply keep_beginCycle | apply keep_count | apply keep_foldl | apply keep_foldl2 | apply keep_foldl1)
    | (intro t a ht; with_reducible (have _h : Keep K t := ht))
    | (intro t ht; with_reducible (have _h : Keep K t := ht))
    | lift_lets -underBinder
    | (intro u; first
        | (refine (?_ : Keep K u → _) ?_; pick_goal 2; simp only [u]; pick_goal 2; intro hu; clear_value u)
        | clear_value u | skip))

theorem keep_scrubbed {K : Kept} (s : State) (hs : Keep K s) :
    Keep K (State.scrubbed s) := by
  unfold State.scrubbed
  repeat' (first
    | (with_reducible first | assumption | apply keep_endCycle | apply keep_mInteg | apply keep_ite | apply keep_ite_snd | apply keep_ite_fst | apply keepO_ite | apply keepOpt_ite)
    | (intro t ht; with_reducible (have _h : Keep K t := ht))
    | lift_lets -underBinder
    | (intro u; first
        | (refine (?_ : Keep K u → _) ?_; pick_goal 2; simp only [u]; pick_goal 2; intro hu; clear_value u)
        | clear_value u | skip)
    | split)

theorem keep_scrubOutcome {K : Kept} (s : State) (r : MRead) (rank : Nat) (hs : Keep K s) :
    Keep K (State.scrubOutcome s r rank) := by
  unfold State.scrubOutcome
  repeat' (first
    | (with_reducible first | assumption | apply keep_addCand | apply keep_count | apply keep_ite | apply keep_ite_snd | apply keep_ite_fst | apply keepO_ite | apply keepOpt_ite)
    | (intro t ht; with_reducible (have _h : Keep K t := ht))
    | lift_lets -underBinder
    | (intro u; first
        | (refine (?_ : Keep K u → _) ?_; pick_goal 2; simp only [u]; pick_goal 2; intro hu; clear_value u)
        | clear_value u | skip)
    | split)

end Sys2Proof.Laws
end

