-- ==== Sys2Proof/Laws/KeepStall.lean ====
section
/-! SUPPORT. The operations of Machine/Stall.lean keep the queue and the canonical forms. -/

namespace Sys2Proof.Laws

open Sys2Proof Sys2Proof.Machine

set_option linter.unusedTactic false
set_option linter.unreachableTactic false
set_option linter.unusedVariables false

theorem keep_mDie {K : Kept} (s : State) (k : Nat) (g : Die → Die) (hs : Keep K s) :
    Keep K (State.mDie s k g) := by
  unfold State.mDie
  repeat' (first
    | (with_reducible first | assumption | apply keep_mSt | apply keep_set)
    | (intro t ht; with_reducible (have _h : Keep K t := ht)))

theorem keep_stallFire {K : Kept} (s : State) (ch die point param : Nat) (hs : Keep K s) :
    Keep K (State.stallFire s ch die point param).2 := by
  unfold State.stallFire
  repeat' (first
    | (with_reducible first | assumption | apply keep_fire)
    | (intro t ht; with_reducible (have _h : Keep K t := ht)))

theorem keep_anomaly {K : Kept} (s : State) (ch die row opcode value want : Nat) (inj : Bool) (hs : Keep K s) :
    Keep K (State.anomaly s ch die row opcode value want inj) := by
  unfold State.anomaly
  repeat' (with_reducible first | assumption | apply keep_record)

theorem keep_fillArrived {K : Kept} (hK : K.stores = true) (s : State) (crate stamp unit : Nat) (c : Cw) (hs : Keep K s) :
    Keep K (State.fillArrived s crate stamp unit c) := by
  unfold State.fillArrived
  repeat' (first
    | (with_reducible first | assumption | apply keep_build | apply keep_buildHost | apply keep_mWp | apply keep_set | apply keep_ite | apply keep_ite_snd | apply keep_ite_fst | apply keepO_ite | apply keepOpt_ite | apply keep_foldl | apply keep_foldl2 | apply keep_foldl1)
    | (intro t a ht; with_reducible (have _h : Keep K t := ht))
    | (intro t ht; with_reducible (have _h : Keep K t := ht))
    | lift_lets -underBinder
    | (intro u; first
        | (refine (?_ : Keep K u → _) ?_; pick_goal 2; simp only [u]; pick_goal 2; intro hu; clear_value u)
        | clear_value u | skip)
    | split)

theorem keep_fillLost {K : Kept} (hK : K.stores = true) (s : State) (r : MRead) (crate stamp : Nat) (hs : Keep K s) :
    Keep K (State.fillLost s r crate stamp) := by
  unfold State.fillLost
  repeat' (first
    | (with_reducible first | assumption | apply keep_deferIu | apply keep_dropWhere | apply keep_freeGrants | apply keep_mWp)
    | (intro t ht; with_reducible (have _h : Keep K t := ht))
    | lift_lets -underBinder
    | (intro u; first
        | (refine (?_ : Keep K u → _) ?_; pick_goal 2; simp only [u]; pick_goal 2; intro hu; clear_value u)
        | clear_value u | skip))

theorem keep_copyRead {K : Kept} (hK : K.stores = true) (s : State) (slot unit : Nat) (c : Cw) (hs : Keep K s) :
    Keep K (State.copyRead s slot unit c) := by
  unfold State.copyRead
  repeat' (first
    | (with_reducible first | assumption | apply keep_build | apply keep_buildHost | apply keep_mSw | apply keep_mWp | apply keep_set | apply keep_ite | apply keep_ite_snd | apply keep_ite_fst | apply keepO_ite | apply keepOpt_ite)
    | (intro t ht; with_reducible (have _h : Keep K t := ht))
    | lift_lets -underBinder
    | (intro u; first
        | (refine (?_ : Keep K u → _) ?_; pick_goal 2; simp only [u]; pick_goal 2; intro hu; clear_value u)
        | clear_value u | skip)
    | split)

theorem keep_copyLost {K : Kept} (hK : K.stores = true) (s : State) (slot : Nat) (hs : Keep K s) :
    Keep K (State.copyLost s slot) := by
  unfold State.copyLost
  repeat' (with_reducible first | assumption | apply keep_endCopy)

theorem keep_readGood {K : Kept} (hK : K.stores = true) (s : State) (r : MRead) (c : Cw) (hs : Keep K s) :
    Keep K (State.readGood s r c) := by
  unfold State.readGood
  repeat' (first
    | (with_reducible first | assumption | apply keep_copyRead | apply keep_dropRead | apply keep_dropRef | apply keep_fillArrived | apply keep_mRead | apply keep_scrubOutcome | apply keep_scrubbed | apply keep_ite | apply keep_ite_snd | apply keep_ite_fst | apply keepO_ite | apply keepOpt_ite | apply keep_foldl | apply keep_foldl2 | apply keep_foldl1)
    | (intro t a ht; with_reducible (have _h : Keep K t := ht))
    | (intro t ht; with_reducible (have _h : Keep K t := ht))
    | lift_lets -underBinder
    | (intro u; first
        | (refine (?_ : Keep K u → _) ?_; pick_goal 2; simp only [u]; pick_goal 2; intro hu; clear_value u)
        | clear_value u | skip)
    | split)

theorem keep_readLostOne {K : Kept} (hK : K.stores = true) (s : State) (r : MRead) (hs : Keep K s) :
    Keep K (State.readLostOne s r) := by
  unfold State.readLostOne
  repeat' (first
    | (with_reducible first | assumption | apply keep_copyLost | apply keep_count | apply keep_dropRead | apply keep_fillLost | apply keep_mBlock | apply keep_mergeFailed | apply keep_record | apply keep_scrubOutcome | apply keep_scrubbed | apply keep_unitFailed | apply keep_ite | apply keep_ite_snd | apply keep_ite_fst | apply keepO_ite | apply keepOpt_ite)
    | (intro t ht; with_reducible (have _h : Keep K t := ht))
    | lift_lets -underBinder
    | (intro u; first
        | (refine (?_ : Keep K u → _) ?_; pick_goal 2; simp only [u]; pick_goal 2; intro hu; clear_value u)
        | clear_value u | skip)
    | split)

theorem keep_readLost {K : Kept} (hK : K.stores = true) (s : State) (r : MRead) (hs : Keep K s) :
    Keep K (State.readLost s r) := by
  unfold State.readLost
  repeat' (first
    | (with_reducible first | assumption | apply keep_dropWhere | apply keep_readLostOne)
    | (intro t ht; with_reducible (have _h : Keep K t := ht))
    | lift_lets -underBinder
    | (intro u; first
        | (refine (?_ : Keep K u → _) ?_; pick_goal 2; simp only [u]; pick_goal 2; intro hu; clear_value u)
        | clear_value u | skip)
    | split)

theorem keep_startRebuild {K : Kept} (hK : K.stores = true) (s : State) (r : MRead) (hs : Keep K s) :
    Keep K (State.startRebuild s r) := by
  unfold State.startRebuild
  repeat' (first
    | (with_reducible first | assumption | apply keep_mBlock | apply keep_mRead | apply keep_readLost | apply keep_startMates | apply keep_takeRef | apply keep_ite | apply keep_ite_snd | apply keep_ite_fst | apply keepO_ite | apply keepOpt_ite | apply keep_foldl | apply keep_foldl2 | apply keep_foldl1)
    | (intro t a ht; with_reducible (have _h : Keep K t := ht))
    | (intro t ht; with_reducible (have _h : Keep K t := ht))
    | lift_lets -underBinder
    | (intro u; first
        | (refine (?_ : Keep K u → _) ?_; pick_goal 2; simp only [u]; pick_goal 2; intro hu; clear_value u)
        | clear_value u | skip)
    | split)

theorem keep_degrade {K : Kept} (s : State) (hs : Keep K s) :
    Keep K (State.degrade s) := by
  unfold State.degrade
  repeat' (first
    | (with_reducible first | assumption | apply keep_hwMode | apply keep_ite | apply keep_ite_snd | apply keep_ite_fst | apply keepO_ite | apply keepOpt_ite)
    | (intro t ht; with_reducible (have _h : Keep K t := ht))
    | (intro (_ : _); show Keep K _)
    | split)

theorem keep_rescueReads {K : Kept} (hK : K.stores = true) (s : State) (k : Nat) (hs : Keep K s) :
    Keep K (State.rescueReads s k) := by
  unfold State.rescueReads
  repeat' (first
    | (with_reducible first | assumption | apply keep_startRebuild | apply keep_foldl | apply keep_foldl2 | apply keep_foldl1)
    | (intro t a ht; with_reducible (have _h : Keep K t := ht))
    | (intro t ht; with_reducible (have _h : Keep K t := ht))
    | split)

theorem keep_finishBand {K : Kept} (s : State) (num : Nat) (hs : Keep K s) :
    Keep K (State.finishBand s num) := by
  unfold State.finishBand
  repeat' (first
    | (with_reducible first | assumption | apply keep_count | apply keep_mSw | apply keep_ite | apply keep_ite_snd | apply keep_ite_fst | apply keepO_ite | apply keepOpt_ite)
    | (intro t ht; with_reducible (have _h : Keep K t := ht))
    | (intro (_ : _); show Keep K _)
    | split)

theorem keep_eraseEnd {K : Kept} (hN : K.keeps = true) (s : State) (blk status : Nat) (hs : Keep K s) :
    Keep K (State.eraseEnd s blk status) := by
  unfold State.eraseEnd
  repeat' (first
    | (with_reducible first | assumption | apply keep_eraseCount | apply keep_finishBand | apply keep_followFloor | apply keep_journal | apply keep_mBlock | apply keep_mSw | apply keep_move | apply keep_reckonWear | apply keep_retireBlock | apply keep_send | apply keep_ite | apply keep_ite_snd | apply keep_ite_fst | apply keepO_ite | apply keepOpt_ite | refine keep_mNv _ _ hN ?_ (NvOk.mk rfl (List.prefix_refl _)) | refine keep_mNv _ _ hN ?_ (NvOk.mk rfl (List.prefix_append _ _)) | refine keep_mNv _ _ hN ?_ ?_ | exact NvOk.mk rfl (List.prefix_refl _) | apply nvOk_ite)
    | (intro t ht; with_reducible (have _h : Keep K t := ht))
    | lift_lets -underBinder
    | (intro u; first
        | (refine (?_ : Keep K u → _) ?_; pick_goal 2; simp only [u]; pick_goal 2; intro hu; clear_value u)
        | clear_value u | skip)
    | split)

theorem keep_failUnits {K : Kept} (hK : K.stores = true) (hN : K.keeps = true) (s : State) (k : Nat) (hs : Keep K s) :
    Keep K (State.failUnits s k) := by
  unfold State.failUnits
  repeat' (first
    | (with_reducible first | assumption | apply keep_unitFail | apply keep_foldl | apply keep_foldl2 | apply keep_foldl1)
    | (intro t a ht; with_reducible (have _h : Keep K t := ht))
    | (intro t ht; with_reducible (have _h : Keep K t := ht))
    | split)

theorem keep_dropDie {K : Kept} (hK : K.stores = true) (hN : K.keeps = true) (s : State) (ch a cause : Nat) (hs : Keep K s) :
    Keep K (State.dropDie s ch a cause) := by
  unfold State.dropDie
  repeat' (first
    | (with_reducible first | assumption | apply keep_closeShort | apply keep_eraseEnd | apply keep_failUnits | apply keep_mDie | apply keep_rescueReads | apply keep_set | apply keep_wr | apply keep_wr | apply keep_ite | apply keep_ite_snd | apply keep_ite_fst | apply keepO_ite | apply keepOpt_ite | apply keep_foldl | apply keep_foldl2 | apply keep_foldl1)
    | (intro t a ht; with_reducible (have _h : Keep K t := ht))
    | (intro t ht; with_reducible (have _h : Keep K t := ht))
    | lift_lets -underBinder
    | (intro u; first
        | (refine (?_ : Keep K u → _) ?_; pick_goal 2; simp only [u]; pick_goal 2; intro hu; clear_value u)
        | clear_value u | skip)
    | split)

theorem keep_dropChannel {K : Kept} (hK : K.stores = true) (hN : K.keeps = true) (s : State) (ch cause : Nat) (hs : Keep K s) :
    Keep K (State.dropChannel s ch cause) := by
  unfold State.dropChannel
  repeat' (first
    | (with_reducible first | assumption | apply keep_dropDie | apply keep_set | apply keep_wr | apply keep_wr | apply keep_ite | apply keep_ite_snd | apply keep_ite_fst | apply keepO_ite | apply keepOpt_ite | apply keep_foldl | apply keep_foldl2 | apply keep_foldl1)
    | (intro t a ht; with_reducible (have _h : Keep K t := ht))
    | (intro t ht; with_reducible (have _h : Keep K t := ht))
    | lift_lets -underBinder
    | (intro u; first
        | (refine (?_ : Keep K u → _) ?_; pick_goal 2; simp only [u]; pick_goal 2; intro hu; clear_value u)
        | clear_value u | skip)
    | split)

theorem keep_afterLoss {K : Kept} (hN : K.keeps = true) (s : State) (hs : Keep K s) :
    Keep K (State.afterLoss s) := by
  unfold State.afterLoss
  repeat' (with_reducible first | assumption | apply keep_degrade | apply keep_reckonSpare | apply keep_retest)

theorem keep_loseChannel {K : Kept} (hK : K.stores = true) (hN : K.keeps = true) (s : State) (ch cause : Nat) (hs : Keep K s) :
    Keep K (State.loseChannel s ch cause) := by
  unfold State.loseChannel
  repeat' (first
    | (with_reducible first | assumption | apply keep_afterLoss | apply keep_dropChannel | apply keep_record | apply keep_ite | apply keep_ite_snd | apply keep_ite_fst | apply keepO_ite | apply keepOpt_ite)
    | (intro t ht; with_reducible (have _h : Keep K t := ht))
    | (intro (_ : _); show Keep K _)
    | split)

theorem keep_loseDies {K : Kept} (hK : K.stores = true) (hN : K.keeps = true) (s : State) (ch : Nat) (l : List Nat) (cause : Nat) (hs : Keep K s) :
    Keep K (State.loseDies s ch l cause) := by
  unfold State.loseDies
  repeat' (first
    | (with_reducible first | assumption | apply keep_afterLoss | apply keep_dropDie | apply keep_loseChannel | apply keep_record | apply keep_ite | apply keep_ite_snd | apply keep_ite_fst | apply keepO_ite | apply keepOpt_ite | apply keep_foldl | apply keep_foldl2 | apply keep_foldl1)
    | (intro t a ht; with_reducible (have _h : Keep K t := ht))
    | (intro t ht; with_reducible (have _h : Keep K t := ht))
    | lift_lets -underBinder
    | (intro u; first
        | (refine (?_ : Keep K u → _) ?_; pick_goal 2; simp only [u]; pick_goal 2; intro hu; clear_value u)
        | clear_value u | skip)
    | split)

theorem keep_loseGroup {K : Kept} (hK : K.stores = true) (hN : K.keeps = true) (s : State) (g cause : Nat) (hs : Keep K s) :
    Keep K (State.loseGroup s g cause) := by
  unfold State.loseGroup
  repeat' (first
    | (with_reducible first | assumption | apply keep_afterLoss | apply keep_disarmThose | apply keep_dropChannel | apply keep_record | apply keep_wr | apply keep_wr | apply keep_ite | apply keep_ite_snd | apply keep_ite_fst | apply keepO_ite | apply keepOpt_ite | apply keep_foldl | apply keep_foldl2 | apply keep_foldl1)
    | (intro t a ht; with_reducible (have _h : Keep K t := ht))
    | (intro t ht; with_reducible (have _h : Keep K t := ht))
    | lift_lets -underBinder
    | (intro u; first
        | (refine (?_ : Keep K u → _) ?_; pick_goal 2; simp only [u]; pick_goal 2; intro hu; clear_value u)
        | clear_value u | skip)
    | split)

theorem keep_grantSlots {K : Kept} (s : State) (k : Nat) (hs : Keep K s) :
    Keep K (State.grantSlots s k) := by
  unfold State.grantSlots
  repeat' (first
    | (with_reducible first | assumption | apply keep_mRead | apply keep_ite | apply keep_ite_snd | apply keep_ite_fst | apply keepO_ite | apply keepOpt_ite | apply keep_foldl | apply keep_foldl2 | apply keep_foldl1)
    | (intro t a ht; with_reducible (have _h : Keep K t := ht))
    | (intro t ht; with_reducible (have _h : Keep K t := ht))
    | (intro (_ : _); show Keep K _)
    | split)

theorem keep_passSense {K : Kept} (s : State) (k cls : Nat) (hs : Keep K s) :
    Keep K (State.passSense s k cls) := by
  unfold State.passSense
  repeat' (first
    | (with_reducible first | assumption | apply keep_mSt | apply keep_ite | apply keep_ite_snd | apply keep_ite_fst | apply keepO_ite | apply keepOpt_ite)
    | (intro t ht; with_reducible (have _h : Keep K t := ht))
    | lift_lets -underBinder
    | (intro u; first
        | (refine (?_ : Keep K u → _) ?_; pick_goal 2; simp only [u]; pick_goal 2; intro hu; clear_value u)
        | clear_value u | skip)
    | split)

theorem keep_execSenseStart {K : Kept} (ch die : Nat) (s : State) (hs : Keep K s) :
    KeepO K (execSenseStart ch die s) := by
  unfold execSenseStart
  repeat' (first
    | (with_reducible first | assumption | apply keep_count | apply keep_grantSlots | apply keep_mDie | apply keep_mSt | apply keep_passSense | apply keep_ite | apply keepO_next | apply keep_ite_snd | apply keep_ite_fst | apply keepO_ite | apply keepOpt_ite)
    | (intro t ht; with_reducible (have _h : Keep K t := ht))
    | lift_lets -underBinder
    | (intro u; first
        | (refine (?_ : Keep K u → _) ?_; pick_goal 2; simp only [u]; pick_goal 2; intro hu; clear_value u)
        | clear_value u | skip)
    | split)

theorem keep_resumeDie {K : Kept} (s : State) (k : Nat) (hs : Keep K s) :
    Keep K (State.resumeDie s k) := by
  unfold State.resumeDie
  repeat' (first
    | (with_reducible first | assumption | apply keep_mDie | apply keep_ite | apply keep_ite_snd | apply keep_ite_fst | apply keepO_ite | apply keepOpt_ite)
    | (intro t ht; with_reducible (have _h : Keep K t := ht))
    | lift_lets -underBinder
    | (intro u; first
        | (refine (?_ : Keep K u → _) ?_; pick_goal 2; simp only [u]; pick_goal 2; intro hu; clear_value u)
        | clear_value u | skip)
    | split)

theorem keep_senseOver {K : Kept} (s : State) (k : Nat) (hs : Keep K s) :
    Keep K (State.senseOver s k) := by
  unfold State.senseOver
  repeat' (first
    | (with_reducible first | assumption | apply keep_mDie | apply keep_resumeDie | apply keep_ite | apply keep_ite_snd | apply keep_ite_fst | apply keepO_ite | apply keepOpt_ite)
    | (intro t ht; with_reducible (have _h : Keep K t := ht))
    | lift_lets -underBinder
    | (intro u; first
        | (refine (?_ : Keep K u → _) ?_; pick_goal 2; simp only [u]; pick_goal 2; intro hu; clear_value u)
        | clear_value u | skip)
    | split)

theorem keep_nextStep {K : Kept} (hK : K.stores = true) (s : State) (r : MRead) (hs : Keep K s) :
    Keep K (State.nextStep s r) := by
  unfold State.nextStep
  repeat' (first
    | (with_reducible first | assumption | apply keep_mRead | apply keep_startRebuild | apply keep_ite | apply keep_ite_snd | apply keep_ite_fst | apply keepO_ite | apply keepOpt_ite)
    | (intro t ht; with_reducible (have _h : Keep K t := ht))
    | lift_lets -underBinder
    | (intro u; first
        | (refine (?_ : Keep K u → _) ?_; pick_goal 2; simp only [u]; pick_goal 2; intro hu; clear_value u)
        | clear_value u | skip)
    | split)

theorem keep_sendLoad {K : Kept} (hK : K.stores = true) (s : State) (k : Nat) (u : ProgUnit) (hs : Keep K s) :
    Keep K (State.sendLoad s k u) := by
  unfold State.sendLoad
  repeat' (first
    | (with_reducible first | assumption | apply keep_count | apply keep_freeGrants | apply keep_mDie | apply keep_ite | apply keep_ite_snd | apply keep_ite_fst | apply keepO_ite | apply keepOpt_ite | apply keep_foldl | apply keep_foldl2 | apply keep_foldl1)
    | (intro t a ht; with_reducible (have _h : Keep K t := ht))
    | (intro t ht; with_reducible (have _h : Keep K t := ht))
    | lift_lets -underBinder
    | (intro u; first
        | (refine (?_ : Keep K u → _) ?_; pick_goal 2; simp only [u]; pick_goal 2; intro hu; clear_value u)
        | clear_value u | skip)
    | split)

theorem keep_passBurst {K : Kept} (s : State) (ch cls n : Nat) (hs : Keep K s) :
    Keep K (State.passBurst s ch cls n) := by
  unfold State.passBurst
  repeat' (first
    | (with_reducible first | assumption | apply keep_mDie | apply keep_mSt | apply keep_ite | apply keep_ite_snd | apply keep_ite_fst | apply keepO_ite | apply keepOpt_ite | apply keep_foldl | apply keep_foldl2 | apply keep_foldl1)
    | (intro t a ht; with_reducible (have _h : Keep K t := ht))
    | (intro t ht; with_reducible (have _h : Keep K t := ht))
    | lift_lets -underBinder
    | (intro u; first
        | (refine (?_ : Keep K u → _) ?_; pick_goal 2; simp only [u]; pick_goal 2; intro hu; clear_value u)
        | clear_value u | skip)
    | split)

theorem keep_sendRead {K : Kept} (s : State) (ch : Nat) (r : MRead) (hs : Keep K s) :
    Keep K (State.sendRead s ch r) := by
  unfold State.sendRead
  repeat' (first
    | (with_reducible first | assumption | apply keep_askFull | apply keep_mSt | apply keep_passBurst | apply keep_senseOver | apply keep_set | apply keep_ite | apply keep_ite_snd | apply keep_ite_fst | apply keepO_ite | apply keepOpt_ite | apply keep_foldl | apply keep_foldl2 | apply keep_foldl1)
    | (intro t a ht; with_reducible (have _h : Keep K t := ht))
    | (intro t ht; with_reducible (have _h : Keep K t := ht))
    | lift_lets -underBinder
    | (intro u; first
        | (refine (?_ : Keep K u → _) ?_; pick_goal 2; simp only [u]; pick_goal 2; intro hu; clear_value u)
        | clear_value u | skip)
    | split)

theorem keep_resetLun {K : Kept} (s : State) (k back : Nat) (hs : Keep K s) :
    Keep K (State.resetLun s k back) := by
  unfold State.resetLun
  repeat' (first
    | (with_reducible first | assumption | apply keep_mDie)
    | (intro t ht; with_reducible (have _h : Keep K t := ht)))

theorem keep_repeatSense {K : Kept} (s : State) (k : Nat) (hs : Keep K s) :
    Keep K (State.repeatSense s k) := by
  unfold State.repeatSense
  repeat' (first
    | (with_reducible first | assumption | apply keep_mSt | apply keep_ite | apply keep_ite_snd | apply keep_ite_fst | apply keepO_ite | apply keepOpt_ite)
    | (intro t ht; with_reducible (have _h : Keep K t := ht))
    | (intro (_ : _); show Keep K _)
    | split)

theorem keep_execChannelBurst {K : Kept} (hK : K.stores = true) (ch : Nat) (s : State) (hs : Keep K s) :
    KeepO K (execChannelBurst ch s) := by
  unfold execChannelBurst
  repeat' (first
    | (with_reducible first | assumption | apply keep_anomaly | apply keep_mSt | apply keep_repeatSense | apply keep_resetLun | apply keep_sendLoad | apply keep_sendRead | apply keep_set | apply keep_stallFire | apply keep_ite | apply keepO_next | apply keep_ite_snd | apply keep_ite_fst | apply keepO_ite | apply keepOpt_ite)
    | (intro t ht; with_reducible (have _h : Keep K t := ht))
    | lift_lets -underBinder
    | (intro u; first
        | (refine (?_ : Keep K u → _) ?_; pick_goal 2; simp only [u]; pick_goal 2; intro hu; clear_value u)
        | clear_value u | skip)
    | split)

theorem keep_opOver {K : Kept} (s : State) (k : Nat) (hs : Keep K s) :
    Keep K (State.opOver s k) := by
  unfold State.opOver
  repeat' (first
    | (with_reducible first | assumption | apply keep_mDie)
    | (intro t ht; with_reducible (have _h : Keep K t := ht)))

theorem keep_programOver {K : Kept} (hK : K.stores = true) (hN : K.keeps = true) (s : State) (k : Nat) (good retire : Bool) (hs : Keep K s) :
    Keep K (State.programOver s k good retire) := by
  unfold State.programOver
  repeat' (first
    | (with_reducible first | assumption | apply keep_opOver | apply keep_retire | apply keep_unitFail | apply keep_unitGood | apply keep_ite | apply keep_ite_snd | apply keep_ite_fst | apply keepO_ite | apply keepOpt_ite)
    | (intro t ht; with_reducible (have _h : Keep K t := ht))
    | lift_lets -underBinder
    | (intro u; first
        | (refine (?_ : Keep K u → _) ?_; pick_goal 2; simp only [u]; pick_goal 2; intro hu; clear_value u)
        | clear_value u | skip)
    | split)

theorem keep_eraseOver {K : Kept} (hN : K.keeps = true) (s : State) (k status : Nat) (hs : Keep K s) :
    Keep K (State.eraseOver s k status) := by
  unfold State.eraseOver
  repeat' (first
    | (with_reducible first | assumption | apply keep_eraseEnd | apply keep_opOver)
    | (intro t ht; with_reducible (have _h : Keep K t := ht))
    | lift_lets -underBinder
    | (intro u; first
        | (refine (?_ : Keep K u → _) ?_; pick_goal 2; simp only [u]; pick_goal 2; intro hu; clear_value u)
        | clear_value u | skip))

theorem keep_eraseAgain {K : Kept} (hN : K.keeps = true) (s : State) (k : Nat) (hs : Keep K s) :
    Keep K (State.eraseAgain s k) := by
  unfold State.eraseAgain
  repeat' (first
    | (with_reducible first | assumption | apply keep_eraseEnd | apply keep_mDie | apply keep_opOver)
    | (intro t ht; with_reducible (have _h : Keep K t := ht))
    | lift_lets -underBinder
    | (intro u; first
        | (refine (?_ : Keep K u → _) ?_; pick_goal 2; simp only [u]; pick_goal 2; intro hu; clear_value u)
        | clear_value u | skip))

theorem keep_suspended {K : Kept} (s : State) (k : Nat) (prog : Bool) (hs : Keep K s) :
    Keep K (State.suspended s k prog) := by
  unfold State.suspended
  repeat' (first
    | (with_reducible first | assumption | apply keep_count | apply keep_mDie | apply keep_resumeDie | apply keep_ite | apply keep_ite_snd | apply keep_ite_fst | apply keepO_ite | apply keepOpt_ite)
    | (intro t ht; with_reducible (have _h : Keep K t := ht))
    | lift_lets -underBinder
    | (intro u; first
        | (refine (?_ : Keep K u → _) ?_; pick_goal 2; simp only [u]; pick_goal 2; intro hu; clear_value u)
        | clear_value u | skip)
    | split)

theorem keep_oddStatus {K : Kept} (hK : K.stores = true) (hN : K.keeps = true) (s : State) (ch a status : Nat) (hs : Keep K s) :
    Keep K (State.oddStatus s ch a status) := by
  unfold State.oddStatus
  repeat' (first
    | (with_reducible first | assumption | apply keep_anomaly | apply keep_count | apply keep_loseDies | apply keep_mDie | apply keep_ite | apply keep_ite_snd | apply keep_ite_fst | apply keepO_ite | apply keepOpt_ite)
    | (intro t ht; with_reducible (have _h : Keep K t := ht))
    | lift_lets -underBinder
    | (intro u; first
        | (refine (?_ : Keep K u → _) ?_; pick_goal 2; simp only [u]; pick_goal 2; intro hu; clear_value u)
        | clear_value u | skip)
    | split)

theorem keep_readTimeout {K : Kept} (hK : K.stores = true) (hN : K.keeps = true) (s : State) (ch a : Nat) (inj : Bool) (hs : Keep K s) :
    Keep K (State.readTimeout s ch a inj) := by
  unfold State.readTimeout
  repeat' (first
    | (with_reducible first | assumption | apply keep_anomaly | apply keep_count | apply keep_loseChannel | apply keep_loseDies | apply keep_mSt | apply keep_repeatSense | apply keep_resetLun | apply keep_set | apply keep_ite | apply keep_ite_snd | apply keep_ite_fst | apply keepO_ite | apply keepOpt_ite)
    | (intro t ht; with_reducible (have _h : Keep K t := ht))
    | lift_lets -underBinder
    | (intro u; first
        | (refine (?_ : Keep K u → _) ?_; pick_goal 2; simp only [u]; pick_goal 2; intro hu; clear_value u)
        | clear_value u | skip)
    | split)

theorem keep_opTimeout {K : Kept} (hK : K.stores = true) (hN : K.keeps = true) (s : State) (ch a : Nat) (hs : Keep K s) :
    Keep K (State.opTimeout s ch a) := by
  unfold State.opTimeout
  repeat' (first
    | (with_reducible first | assumption | apply keep_loseDies | apply keep_mDie | apply keep_ite | apply keep_ite_snd | apply keep_ite_fst | apply keepO_ite | apply keepOpt_ite)
    | (intro t ht; with_reducible (have _h : Keep K t := ht))
    | lift_lets -underBinder
    | (intro u; first
        | (refine (?_ : Keep K u → _) ?_; pick_goal 2; simp only [u]; pick_goal 2; intro hu; clear_value u)
        | clear_value u | skip)
    | split)

theorem keep_programTimeout {K : Kept} (hK : K.stores = true) (hN : K.keeps = true) (s : State) (ch a : Nat) (inj : Bool) (hs : Keep K s) :
    Keep K (State.programTimeout s ch a inj) := by
  unfold State.programTimeout
  repeat' (first
    | (with_reducible first | assumption | apply keep_anomaly | apply keep_count | apply keep_opTimeout | apply keep_programOver | apply keep_resetLun | apply keep_ite | apply keep_ite_snd | apply keep_ite_fst | apply keepO_ite | apply keepOpt_ite)
    | (intro t ht; with_reducible (have _h : Keep K t := ht))
    | lift_lets -underBinder
    | (intro u; first
        | (refine (?_ : Keep K u → _) ?_; pick_goal 2; simp only [u]; pick_goal 2; intro hu; clear_value u)
        | clear_value u | skip)
    | split)

theorem keep_eraseTimeout {K : Kept} (hK : K.stores = true) (hN : K.keeps = true) (s : State) (ch a : Nat) (inj : Bool) (hs : Keep K s) :
    Keep K (State.eraseTimeout s ch a inj) := by
  unfold State.eraseTimeout
  repeat' (first
    | (with_reducible first | assumption | apply keep_anomaly | apply keep_count | apply keep_eraseEnd | apply keep_eraseOver | apply keep_mDie | apply keep_opOver | apply keep_opTimeout | apply keep_resetLun | apply keep_ite | apply keep_ite_snd | apply keep_ite_fst | apply keepO_ite | apply keepOpt_ite)
    | (intro t ht; with_reducible (have _h : Keep K t := ht))
    | lift_lets -underBinder
    | (intro u; first
        | (refine (?_ : Keep K u → _) ?_; pick_goal 2; simp only [u]; pick_goal 2; intro hu; clear_value u)
        | clear_value u | skip)
    | split)

theorem keep_suspendTimeout {K : Kept} (s : State) (ch a : Nat) (hs : Keep K s) :
    Keep K (State.suspendTimeout s ch a) := by
  unfold State.suspendTimeout
  repeat' (first
    | (with_reducible first | assumption | apply keep_count | apply keep_mDie | apply keep_ite | apply keep_ite_snd | apply keep_ite_fst | apply keepO_ite | apply keepOpt_ite)
    | (intro t ht; with_reducible (have _h : Keep K t := ht))
    | lift_lets -underBinder
    | (intro u; first
        | (refine (?_ : Keep K u → _) ?_; pick_goal 2; simp only [u]; pick_goal 2; intro hu; clear_value u)
        | clear_value u | skip)
    | split)

theorem keep_pollReal {K : Kept} (hK : K.stores = true) (hN : K.keeps = true) (s : State) (ch a status : Nat) (hs : Keep K s) :
    Keep K (State.pollReal s ch a status) := by
  unfold State.pollReal
  repeat' (first
    | (with_reducible first | assumption | apply keep_eraseOver | apply keep_mDie | apply keep_mSt | apply keep_nextStep | apply keep_oddStatus | apply keep_programOver | apply keep_resumeDie | apply keep_senseOver | apply keep_suspended | apply keep_ite | apply keepO_next | apply keep_ite_snd | apply keep_ite_fst | apply keepO_ite | apply keepOpt_ite | apply keep_foldl | apply keep_foldl2 | apply keep_foldl1)
    | (intro t a ht; with_reducible (have _h : Keep K t := ht))
    | (intro t ht; with_reducible (have _h : Keep K t := ht))
    | lift_lets -underBinder
    | (intro u; first
        | (refine (?_ : Keep K u → _) ?_; pick_goal 2; simp only [u]; pick_goal 2; intro hu; clear_value u)
        | clear_value u | skip)
    | split)

theorem keep_execStatusPoll {K : Kept} (hK : K.stores = true) (hN : K.keeps = true) (ch die status : Nat) (s : State) (hs : Keep K s) :
    KeepO K (execStatusPoll ch die status s) := by
  unfold execStatusPoll
  repeat' (first
    | (with_reducible first | assumption | apply keep_anomaly | apply keep_eraseEnd | apply keep_eraseTimeout | apply keep_mDie | apply keep_opOver | apply keep_pollReal | apply keep_programOver | apply keep_programTimeout | apply keep_readTimeout | apply keep_stallFire | apply keep_ite | apply keepO_next | apply keep_ite_snd | apply keep_ite_fst | apply keepO_ite | apply keepOpt_ite)
    | (intro t ht; with_reducible (have _h : Keep K t := ht))
    | lift_lets -underBinder
    | (intro u; first
        | (refine (?_ : Keep K u → _) ?_; pick_goal 2; simp only [u]; pick_goal 2; intro hu; clear_value u)
        | clear_value u | skip)
    | split)

theorem keep_execProgramSuspend {K : Kept} (ch die : Nat) (s : State) (hs : Keep K s) :
    KeepO K (execProgramSuspend ch die s) := by
  unfold execProgramSuspend
  repeat' (first
    | (with_reducible first | assumption | apply keep_grantSlots | apply keep_mDie | apply keep_ite | apply keepO_next | apply keep_ite_snd | apply keep_ite_fst | apply keepO_ite | apply keepOpt_ite)
    | (intro t ht; with_reducible (have _h : Keep K t := ht))
    | lift_lets -underBinder
    | (intro u; first
        | (refine (?_ : Keep K u → _) ?_; pick_goal 2; simp only [u]; pick_goal 2; intro hu; clear_value u)
        | clear_value u | skip)
    | split)

theorem keep_execEraseSuspend {K : Kept} (ch die : Nat) (s : State) (hs : Keep K s) :
    KeepO K (execEraseSuspend ch die s) := by
  unfold execEraseSuspend
  repeat' (first
    | (with_reducible first | assumption | apply keep_grantSlots | apply keep_mDie | apply keep_ite | apply keepO_next | apply keep_ite_snd | apply keep_ite_fst | apply keepO_ite | apply keepOpt_ite)
    | (intro t ht; with_reducible (have _h : Keep K t := ht))
    | lift_lets -underBinder
    | (intro u; first
        | (refine (?_ : Keep K u → _) ?_; pick_goal 2; simp only [u]; pick_goal 2; intro hu; clear_value u)
        | clear_value u | skip)
    | split)

theorem keep_execLoadAbandon {K : Kept} (ch die : Nat) (s : State) (hs : Keep K s) :
    KeepO K (execLoadAbandon ch die s) := by
  unfold execLoadAbandon
  repeat' (first
    | (with_reducible first | assumption | apply keep_count | apply keep_grantSlots | apply keep_mDie | apply keep_resetLun | apply keep_ite | apply keepO_next | apply keep_ite_snd | apply keep_ite_fst | apply keepO_ite | apply keepOpt_ite)
    | (intro t ht; with_reducible (have _h : Keep K t := ht))
    | lift_lets -underBinder
    | (intro u; first
        | (refine (?_ : Keep K u → _) ?_; pick_goal 2; simp only [u]; pick_goal 2; intro hu; clear_value u)
        | clear_value u | skip)
    | split)

theorem keep_askErase {K : Kept} (s : State) (blk : Nat) (hs : Keep K s) :
    Keep K (State.askErase s blk) := by
  unfold State.askErase
  repeat' (first
    | (with_reducible first | assumption | apply keep_mDie | apply keep_ite | apply keep_ite_snd | apply keep_ite_fst | apply keepO_ite | apply keepOpt_ite)
    | (intro t ht; with_reducible (have _h : Keep K t := ht))
    | (intro (_ : _); show Keep K _)
    | split)

theorem keep_sanNext {K : Kept} (s : State) (k : Nat) (hs : Keep K s) :
    Keep K (State.sanNext s k) := by
  unfold State.sanNext
  repeat' (first
    | (with_reducible first | assumption | apply keep_askErase | apply keep_mSw | apply keep_ite | apply keep_ite_snd | apply keep_ite_fst | apply keepO_ite | apply keepOpt_ite)
    | (intro t ht; with_reducible (have _h : Keep K t := ht))
    | (intro (_ : _); show Keep K _)
    | split)

theorem keep_execEraseStart {K : Kept} (ch die : Nat) (s : State) (hs : Keep K s) :
    KeepO K (execEraseStart ch die s) := by
  unfold execEraseStart
  repeat' (first
    | (with_reducible first | assumption | apply keep_count | apply keep_journal | apply keep_mDie | apply keep_sanNext | apply keep_ite | apply keepO_next | apply keep_ite_snd | apply keep_ite_fst | apply keepO_ite | apply keepOpt_ite)
    | (intro t ht; with_reducible (have _h : Keep K t := ht))
    | lift_lets -underBinder
    | (intro u; first
        | (refine (?_ : Keep K u → _) ?_; pick_goal 2; simp only [u]; pick_goal 2; intro hu; clear_value u)
        | clear_value u | skip)
    | split)

theorem keep_execErasePendingClose {K : Kept} (ch die : Nat) (s : State) (hs : Keep K s) :
    KeepO K (execErasePendingClose ch die s) := by
  unfold execErasePendingClose
  repeat' (first
    | (with_reducible first | assumption | apply keep_mDie | apply keep_ite | apply keepO_next | apply keep_ite_snd | apply keep_ite_fst | apply keepO_ite | apply keepOpt_ite)
    | (intro t ht; with_reducible (have _h : Keep K t := ht))
    | (intro (_ : _); show Keep K _)
    | split)

theorem keep_execReadTimeout {K : Kept} (hK : K.stores = true) (hN : K.keeps = true) (ch die : Nat) (s : State) (hs : Keep K s) :
    KeepO K (execReadTimeout ch die s) := by
  unfold execReadTimeout
  repeat' (with_reducible first | assumption | apply keep_readTimeout | apply keepO_next)

theorem keep_execProgramTimeout {K : Kept} (hK : K.stores = true) (hN : K.keeps = true) (ch die : Nat) (s : State) (hs : Keep K s) :
    KeepO K (execProgramTimeout ch die s) := by
  unfold execProgramTimeout
  repeat' (with_reducible first | assumption | apply keep_programTimeout | apply keepO_next)

theorem keep_execEraseTimeout {K : Kept} (hK : K.stores = true) (hN : K.keeps = true) (ch die : Nat) (s : State) (hs : Keep K s) :
    KeepO K (execEraseTimeout ch die s) := by
  unfold execEraseTimeout
  repeat' (with_reducible first | assumption | apply keep_eraseTimeout | apply keepO_next)

theorem keep_execSuspendTimeout {K : Kept} (ch die : Nat) (s : State) (hs : Keep K s) :
    KeepO K (execSuspendTimeout ch die s) := by
  unfold execSuspendTimeout
  repeat' (with_reducible first | assumption | apply keep_suspendTimeout | apply keepO_next)

theorem keep_execResetTimeout {K : Kept} (hK : K.stores = true) (hN : K.keeps = true) (ch die : Nat) (target : Bool) (s : State) (hs : Keep K s) :
    KeepO K (execResetTimeout ch die target s) := by
  unfold execResetTimeout
  repeat' (first
    | (with_reducible first | assumption | apply keep_count | apply keep_loseDies | apply keep_ite | apply keepO_next | apply keep_ite_snd | apply keep_ite_fst | apply keepO_ite | apply keepOpt_ite)
    | (intro t ht; with_reducible (have _h : Keep K t := ht))
    | (intro (_ : _); show Keep K _)
    | split)

theorem keep_execFeatureTimeout {K : Kept} (hK : K.stores = true) (hN : K.keeps = true) (ch die : Nat) (s : State) (hs : Keep K s) :
    KeepO K (execFeatureTimeout ch die s) := by
  unfold execFeatureTimeout
  repeat' (first
    | (with_reducible first | assumption | apply keep_count | apply keep_loseDies | apply keep_mDie | apply keep_resetLun | apply keep_ite | apply keepO_next | apply keep_ite_snd | apply keep_ite_fst | apply keepO_ite | apply keepOpt_ite)
    | (intro t ht; with_reducible (have _h : Keep K t := ht))
    | lift_lets -underBinder
    | (intro u; first
        | (refine (?_ : Keep K u → _) ?_; pick_goal 2; simp only [u]; pick_goal 2; intro hu; clear_value u)
        | clear_value u | skip)
    | split)

theorem keep_execZqIntervalExpiry {K : Kept} (hK : K.stores = true) (hN : K.keeps = true) (ch die : Nat) (ok : Bool) (s : State) (hs : Keep K s) :
    KeepO K (execZqIntervalExpiry ch die ok s) := by
  unfold execZqIntervalExpiry
  repeat' (first
    | (with_reducible first | assumption | apply keep_anomaly | apply keep_count | apply keep_loseDies | apply keep_mSt | apply keep_set | apply keep_stallFire | apply keep_ite | apply keepO_next | apply keep_ite_snd | apply keep_ite_fst | apply keepO_ite | apply keepOpt_ite)
    | (intro t ht; with_reducible (have _h : Keep K t := ht))
    | lift_lets -underBinder
    | (intro u; first
        | (refine (?_ : Keep K u → _) ?_; pick_goal 2; simp only [u]; pick_goal 2; intro hu; clear_value u)
        | clear_value u | skip)
    | split)

theorem keep_execIdentityCheck {K : Kept} (hK : K.stores = true) (hN : K.keeps = true) (ch die : Nat) (ok : Bool) (s : State) (hs : Keep K s) :
    KeepO K (execIdentityCheck ch die ok s) := by
  unfold execIdentityCheck
  repeat' (first
    | (with_reducible first | assumption | apply keep_anomaly | apply keep_count | apply keep_loseDies | apply keep_mDie | apply keep_resetLun | apply keep_stallFire | apply keep_ite | apply keepO_next | apply keep_ite_snd | apply keep_ite_fst | apply keepO_ite | apply keepOpt_ite | apply keep_foldl | apply keep_foldl2 | apply keep_foldl1)
    | (intro t a ht; with_reducible (have _h : Keep K t := ht))
    | (intro t ht; with_reducible (have _h : Keep K t := ht))
    | lift_lets -underBinder
    | (intro u; first
        | (refine (?_ : Keep K u → _) ?_; pick_goal 2; simp only [u]; pick_goal 2; intro hu; clear_value u)
        | clear_value u | skip)
    | split)

theorem keep_execVccqFlOutOfRange {K : Kept} (hK : K.stores = true) (hN : K.keeps = true) (group : Nat) (s : State) (hs : Keep K s) :
    KeepO K (execVccqFlOutOfRange group s) := by
  unfold execVccqFlOutOfRange
  repeat' (first
    | (with_reducible first | assumption | apply keep_loseGroup | apply keep_ite | apply keepO_next | apply keep_ite_snd | apply keep_ite_fst | apply keepO_ite | apply keepOpt_ite)
    | (intro t ht; with_reducible (have _h : Keep K t := ht))
    | (intro (_ : _); show Keep K _)
    | split)

end Sys2Proof.Laws
end

