-- ==== Sys2Proof/Laws/KeepIntegrity.lean ====
section
/-! SUPPORT. The operations of Machine/Integrity.lean keep the queue and the canonical forms. -/

namespace Sys2Proof.Laws

open Sys2Proof Sys2Proof.Machine

set_option linter.unusedTactic false
set_option linter.unreachableTactic false
set_option linter.unusedVariables false

theorem keep_tell {K : Kept} (s : State) (r : MRead) (g : Block → Block) (hs : Keep K s) :
    Keep K (State.tell s r g) := by
  unfold State.tell
  repeat' (first
    | (with_reducible first | assumption | apply keep_mBlock | apply keep_ite | apply keep_ite_snd | apply keep_ite_fst | apply keepO_ite | apply keepOpt_ite)
    | (intro t ht; with_reducible (have _h : Keep K t := ht))
    | (intro (_ : _); show Keep K _)
    | split)

theorem keep_markInjected {K : Kept} (s : State) (r : MRead) (hs : Keep K s) :
    Keep K (State.markInjected s r) := by
  unfold State.markInjected
  repeat' (first
    | (with_reducible first | assumption | apply keep_mCmd | apply keep_mRead)
    | (intro t ht; with_reducible (have _h : Keep K t := ht))
    | lift_lets -underBinder
    | (intro u; first
        | (refine (?_ : Keep K u → _) ?_; pick_goal 2; simp only [u]; pick_goal 2; intro hu; clear_value u)
        | clear_value u | skip)
    | split)

theorem keep_decoded {K : Kept} (hK : K.stores = true) (s : State) (r : MRead) (c : Cw) (plain : Bool) (hs : Keep K s) :
    Keep K (State.decoded s r c plain) := by
  unfold State.decoded
  repeat' (first
    | (with_reducible first | assumption | apply keep_count | apply keep_dropRead | apply keep_fillLost | apply keep_mergeFailed | apply keep_readGood | apply keep_scrubOutcome | apply keep_tell | apply keep_unitFailed | apply keep_ite | apply keep_ite_snd | apply keep_ite_fst | apply keepO_ite | apply keepOpt_ite)
    | (intro t ht; with_reducible (have _h : Keep K t := ht))
    | lift_lets -underBinder
    | (intro u; first
        | (refine (?_ : Keep K u → _) ?_; pick_goal 2; simp only [u]; pick_goal 2; intro hu; clear_value u)
        | clear_value u | skip)
    | split)

theorem keep_climb {K : Kept} (hK : K.stores = true) (s : State) (r : MRead) (hs : Keep K s) :
    Keep K (State.climb s r) := by
  unfold State.climb
  repeat' (first
    | (with_reducible first | assumption | apply keep_nextStep | apply keep_tell | apply keep_ite | apply keepO_next | apply keep_ite_snd | apply keep_ite_fst | apply keepO_ite | apply keepOpt_ite)
    | (intro t ht; with_reducible (have _h : Keep K t := ht))
    | lift_lets -underBinder
    | (intro u; first
        | (refine (?_ : Keep K u → _) ?_; pick_goal 2; simp only [u]; pick_goal 2; intro hu; clear_value u)
        | clear_value u | skip)
    | split)

theorem keep_needRetry {K : Kept} (hK : K.stores = true) (s : State) (r : MRead) (hs : Keep K s) :
    Keep K (State.needRetry s r) := by
  unfold State.needRetry
  repeat' (first
    | (with_reducible first | assumption | apply keep_climb | apply keep_dropRead | apply keep_mCmd | apply keep_unitFailed | apply keep_ite | apply keep_ite_snd | apply keep_ite_fst | apply keepO_ite | apply keepOpt_ite)
    | (intro t ht; with_reducible (have _h : Keep K t := ht))
    | (intro (_ : _); show Keep K _)
    | split)

theorem keep_ladderFire {K : Kept} (s : State) (r : MRead) (hs : Keep K s) :
    Keep K (State.ladderFire s r).2 := by
  unfold State.ladderFire
  repeat' (first
    | (with_reducible first | assumption | apply keep_fire | apply keep_mRead | apply keep_markInjected | apply keep_ite | apply keep_ite_snd | apply keep_ite_fst | apply keepO_ite | apply keepOpt_ite)
    | (intro t ht; with_reducible (have _h : Keep K t := ht))
    | lift_lets -underBinder
    | (intro u; first
        | (refine (?_ : Keep K u → _) ?_; pick_goal 2; simp only [u]; pick_goal 2; intro hu; clear_value u)
        | clear_value u | skip)
    | split)

theorem keep_hardFire {K : Kept} (s : State) (r : MRead) (hs : Keep K s) :
    Keep K (State.hardFire s r).2 := by
  unfold State.hardFire
  repeat' (first
    | (with_reducible first | assumption | apply keep_fire | apply keep_ladderFire | apply keep_markInjected | apply keep_ite | apply keep_ite_snd | apply keep_ite_fst | apply keepO_ite | apply keepOpt_ite)
    | (intro t ht; with_reducible (have _h : Keep K t := ht))
    | lift_lets -underBinder
    | (intro u; first
        | (refine (?_ : Keep K u → _) ?_; pick_goal 2; simp only [u]; pick_goal 2; intro hu; clear_value u)
        | clear_value u | skip)
    | split)

theorem keep_headerFire {K : Kept} (s : State) (r : MRead) (hs : Keep K s) :
    Keep K (State.headerFire s r).2 := by
  unfold State.headerFire
  repeat' (first
    | (with_reducible first | assumption | apply keep_fire | apply keep_markInjected | apply keep_ite | apply keep_ite_snd | apply keep_ite_fst | apply keepO_ite | apply keepOpt_ite)
    | (intro t ht; with_reducible (have _h : Keep K t := ht))
    | lift_lets -underBinder
    | (intro u; first
        | (refine (?_ : Keep K u → _) ?_; pick_goal 2; simp only [u]; pick_goal 2; intro hu; clear_value u)
        | clear_value u | skip)
    | split)

theorem keep_execHardDecodeComplete {K : Kept} (hK : K.stores = true) (read iters : Nat) (ok headerOk : Bool) (s : State) (hs : Keep K s) :
    KeepO K (execHardDecodeComplete read iters ok headerOk s) := by
  unfold execHardDecodeComplete
  repeat' (first
    | (with_reducible assumption)
    | (with_reducible first | apply keep_count | apply keep_decoded | apply keep_enterSoft | apply keep_hardFire | apply keep_headerFire | apply keep_mRead | apply keep_needRetry | apply keep_tell | apply keep_ite | apply keepO_next | apply keep_ite_snd | apply keep_ite_fst | apply keepO_ite | apply keepOpt_ite | apply keepOpt_none | apply keepOpt_some | apply keepOpt_getD)
    | (intro t a ht; with_reducible (have _h : Keep K t.2 := ht))
    | (intro t a ht; with_reducible (have _h : Keep K t.1 := ht))
    | (intro t a ht; with_reducible (have _h : Keep K t := ht))
    | (intro t ht; with_reducible (have _h : Keep K t := ht))
    | lift_lets -underBinder
    | (intro u; first
        | (refine (?_ : Keep K u → _) ?_; pick_goal 2; simp only [u]; pick_goal 2; intro hu; clear_value u)
        | (refine (?_ : Keep K u.2 → _) ?_; pick_goal 2; simp only [u]; pick_goal 2; intro hu; clear_value u)
        | (refine (?_ : Keep K u.1 → _) ?_; pick_goal 2; simp only [u]; pick_goal 2; intro hu; clear_value u)
        | (refine (?_ : Keep K u.st → _) ?_; pick_goal 2; simp only [u]; pick_goal 2; intro hu; clear_value u)
        | clear_value u | skip)
    | split
    | (with_reducible refine keepOpt_elim ?_ (by assumption))
    | (intro t ht; with_reducible (have _h : Keep K t := ht))
    | (intro c t ht; with_reducible (have _h : Keep K t := ht))
    | dsimp -zeta only [id])

theorem keep_softFire {K : Kept} (s : State) (r : MRead) (hs : Keep K s) :
    Keep K (State.softFire s r).2 := by
  unfold State.softFire
  repeat' (first
    | (with_reducible first | assumption | apply keep_fire | apply keep_ladderFire | apply keep_markInjected | apply keep_ite | apply keep_ite_snd | apply keep_ite_fst | apply keepO_ite | apply keepOpt_ite)
    | (intro t ht; with_reducible (have _h : Keep K t := ht))
    | lift_lets -underBinder
    | (intro u; first
        | (refine (?_ : Keep K u → _) ?_; pick_goal 2; simp only [u]; pick_goal 2; intro hu; clear_value u)
        | clear_value u | skip)
    | split)

theorem keep_softEnd {K : Kept} (hK : K.stores = true) (s : State) (r : MRead) (full ok : Bool) (hs : Keep K s) :
    Keep K (State.softEnd s r full ok) := by
  unfold State.softEnd
  repeat' (first
    | (with_reducible assumption)
    | (with_reducible first | apply keep_climb | apply keep_count | apply keep_decoded | apply keep_leaveSoft | apply keep_needRetry | apply keep_softFire | apply keep_tell | apply keep_ite | apply keep_ite_snd | apply keep_ite_fst | apply keepO_ite | apply keepOpt_ite)
    | (intro t a ht; with_reducible (have _h : Keep K t.2 := ht))
    | (intro t a ht; with_reducible (have _h : Keep K t.1 := ht))
    | (intro t a ht; with_reducible (have _h : Keep K t := ht))
    | (intro t ht; with_reducible (have _h : Keep K t := ht))
    | lift_lets -underBinder
    | (intro u; first
        | (refine (?_ : Keep K u → _) ?_; pick_goal 2; simp only [u]; pick_goal 2; intro hu; clear_value u)
        | (refine (?_ : Keep K u.2 → _) ?_; pick_goal 2; simp only [u]; pick_goal 2; intro hu; clear_value u)
        | (refine (?_ : Keep K u.1 → _) ?_; pick_goal 2; simp only [u]; pick_goal 2; intro hu; clear_value u)
        | (refine (?_ : Keep K u.st → _) ?_; pick_goal 2; simp only [u]; pick_goal 2; intro hu; clear_value u)
        | clear_value u | skip)
    | split
    | (intro t ht; with_reducible (have _h : Keep K t := ht))
    | (intro c t ht; with_reducible (have _h : Keep K t := ht))
    | dsimp -zeta only [id])

theorem keep_softDone {K : Kept} (hK : K.stores = true) (s : State) (read : Nat) (full ok : Bool) (hs : Keep K s) :
    Keep K (State.softDone s read full ok) := by
  unfold State.softDone
  repeat' (first
    | (with_reducible first | assumption | apply keep_softEnd | apply keep_ite | apply keep_ite_snd | apply keep_ite_fst | apply keepO_ite | apply keepOpt_ite)
    | (intro t ht; with_reducible (have _h : Keep K t := ht))
    | (intro (_ : _); show Keep K _)
    | split)

theorem keep_execSoftPassComplete {K : Kept} (hK : K.stores = true) (read : Nat) (ok : Bool) (s : State) (hs : Keep K s) :
    KeepO K (execSoftPassComplete read ok s) := by
  unfold execSoftPassComplete
  repeat' (with_reducible first | assumption | apply keep_softDone | apply keepO_next)

theorem keep_execFullSoftDecodeComplete {K : Kept} (hK : K.stores = true) (read : Nat) (ok : Bool) (s : State) (hs : Keep K s) :
    KeepO K (execFullSoftDecodeComplete read ok s) := by
  unfold execFullSoftDecodeComplete
  repeat' (with_reducible first | assumption | apply keep_softDone | apply keepO_next)

theorem keep_execSoftWaitExpiry {K : Kept} (hK : K.stores = true) (read : Nat) (s : State) (hs : Keep K s) :
    KeepO K (execSoftWaitExpiry read s) := by
  unfold execSoftWaitExpiry
  repeat' (first
    | (with_reducible first | assumption | apply keep_climb | apply keep_count | apply keep_leaveSoft | apply keep_needRetry | apply keep_ite | apply keepO_next | apply keep_ite_snd | apply keep_ite_fst | apply keepO_ite | apply keepOpt_ite)
    | (intro t ht; with_reducible (have _h : Keep K t := ht))
    | lift_lets -underBinder
    | (intro u; first
        | (refine (?_ : Keep K u → _) ?_; pick_goal 2; simp only [u]; pick_goal 2; intro hu; clear_value u)
        | clear_value u | skip)
    | split)

theorem keep_execDeadlineFirstExpiry {K : Kept} (hK : K.stores = true) (port sqid cid : Nat) (s : State) (hs : Keep K s) :
    KeepO K (execDeadlineFirstExpiry port sqid cid s) := by
  unfold execDeadlineFirstExpiry
  repeat' (first
    | (with_reducible first | assumption | apply keep_addCand | apply keep_complete | apply keep_dropReads | apply keep_pitchLog | apply keep_ite | apply keepO_next | apply keep_ite_snd | apply keep_ite_fst | apply keepO_ite | apply keepOpt_ite | apply keep_foldl | apply keep_foldl2 | apply keep_foldl1)
    | (intro t a ht; with_reducible (have _h : Keep K t := ht))
    | (intro t ht; with_reducible (have _h : Keep K t := ht))
    | lift_lets -underBinder
    | (intro u; first
        | (refine (?_ : Keep K u → _) ?_; pick_goal 2; simp only [u]; pick_goal 2; intro hu; clear_value u)
        | clear_value u | skip)
    | split)

theorem keep_paceOne {K : Kept} (s : State) (ch : Nat) (hs : Keep K s) :
    Keep K (State.paceOne s ch) := by
  unfold State.paceOne
  repeat' (first
    | (with_reducible first | assumption | apply keep_walk | apply keep_wr | apply keep_wr | apply keep_ite | apply keep_ite_snd | apply keep_ite_fst | apply keepO_ite | apply keepOpt_ite)
    | (intro t ht; with_reducible (have _h : Keep K t := ht))
    | lift_lets -underBinder
    | (intro u; first
        | (refine (?_ : Keep K u → _) ?_; pick_goal 2; simp only [u]; pick_goal 2; intro hu; clear_value u)
        | clear_value u | skip)
    | split)

theorem keep_execScrubPace {K : Kept} (s : State) (hs : Keep K s) :
    KeepO K (execScrubPace s) := by
  unfold execScrubPace
  repeat' (first
    | (with_reducible first | assumption | apply keep_paceOne | apply keep_scrubTime | apply keep_wr | apply keep_wr | apply keep_ite | apply keepO_next | apply keep_ite_snd | apply keep_ite_fst | apply keepO_ite | apply keepOpt_ite | apply keep_foldl | apply keep_foldl2 | apply keep_foldl1)
    | (intro t a ht; with_reducible (have _h : Keep K t := ht))
    | (intro t ht; with_reducible (have _h : Keep K t := ht))
    | lift_lets -underBinder
    | (intro u; first
        | (refine (?_ : Keep K u → _) ?_; pick_goal 2; simp only [u]; pick_goal 2; intro hu; clear_value u)
        | clear_value u | skip)
    | split)

theorem keep_execScrubCycleEnd {K : Kept} (s : State) (hs : Keep K s) :
    KeepO K (execScrubCycleEnd s) := by
  unfold execScrubCycleEnd
  repeat' (first
    | (with_reducible first | assumption | apply keep_count | apply keep_endCycle | apply keep_mInteg | apply keep_record | apply keep_scrubTime | apply keep_ite | apply keepO_next | apply keep_ite_snd | apply keep_ite_fst | apply keepO_ite | apply keepOpt_ite)
    | (intro t ht; with_reducible (have _h : Keep K t := ht))
    | lift_lets -underBinder
    | (intro u; first
        | (refine (?_ : Keep K u → _) ?_; pick_goal 2; simp only [u]; pick_goal 2; intro hu; clear_value u)
        | clear_value u | skip)
    | split)

theorem keep_saveState {K : Kept} (hN : K.keeps = true) (s : State) (hs : Keep K s) :
    Keep K (State.saveState s) := by
  unfold State.saveState
  repeat' (first
    | (with_reducible first | assumption | apply keep_scrubTime | apply keep_set | apply keep_foldl | apply keep_foldl2 | apply keep_foldl1 | refine keep_mNv _ _ hN ?_ (NvOk.mk rfl (List.prefix_refl _)) | refine keep_mNv _ _ hN ?_ (NvOk.mk rfl (List.prefix_append _ _)) | refine keep_mNv _ _ hN ?_ ?_ | exact NvOk.mk rfl (List.prefix_refl _) | apply nvOk_ite)
    | (intro t a ht; with_reducible (have _h : Keep K t := ht))
    | (intro t ht; with_reducible (have _h : Keep K t := ht))
    | lift_lets -underBinder
    | (intro u; first
        | (refine (?_ : Keep K u → _) ?_; pick_goal 2; simp only [u]; pick_goal 2; intro hu; clear_value u)
        | clear_value u | skip))

theorem keep_execScrubStateSave {K : Kept} (hN : K.keeps = true) (s : State) (hs : Keep K s) :
    KeepO K (execScrubStateSave s) := by
  unfold execScrubStateSave
  repeat' (first
    | (with_reducible first | assumption | apply keep_saveState | apply keep_ite | apply keepO_next | apply keep_ite_snd | apply keep_ite_fst | apply keepO_ite | apply keepOpt_ite)
    | (intro t ht; with_reducible (have _h : Keep K t := ht))
    | (intro (_ : _); show Keep K _)
    | split)

theorem keep_restoreState {K : Kept} (s : State) (hs : Keep K s) :
    Keep K (State.restoreState s) := by
  unfold State.restoreState
  repeat' (first
    | (with_reducible first | assumption | apply keep_beginCycle | apply keep_mInteg | apply keep_mSw | apply keep_record | apply keep_set | apply keep_wr | apply keep_wr | apply keep_ite | apply keep_ite_snd | apply keep_ite_fst | apply keepO_ite | apply keepOpt_ite | apply keep_foldl | apply keep_foldl2 | apply keep_foldl1)
    | (intro t a ht; with_reducible (have _h : Keep K t := ht))
    | (intro t ht; with_reducible (have _h : Keep K t := ht))
    | lift_lets -underBinder
    | (intro u; first
        | (refine (?_ : Keep K u → _) ?_; pick_goal 2; simp only [u]; pick_goal 2; intro hu; clear_value u)
        | clear_value u | skip)
    | split)

end Sys2Proof.Laws
end

