-- ==== Sys2Proof/Laws/KeepSweep.lean ====
section
/-! SUPPORT. The operations of Machine/Sweep.lean keep the queue and the canonical forms. -/

namespace Sys2Proof.Laws

open Sys2Proof Sys2Proof.Machine

set_option linter.unusedTactic false
set_option linter.unreachableTactic false
set_option linter.unusedVariables false

theorem keep_makeVictim {K : Kept} (s : State) (b : Band) (kind : Nat) (hard safety : Bool) (hs : Keep K s) :
    Keep K (State.makeVictim s b kind hard safety) := by
  unfold State.makeVictim
  repeat' (first
    | (with_reducible first | assumption | apply keep_mBand | apply keep_mBlock | apply keep_mInteg | apply keep_mSw | apply keep_ite | apply keep_ite_snd | apply keep_ite_fst | apply keepO_ite | apply keepOpt_ite | apply keep_foldl | apply keep_foldl2 | apply keep_foldl1)
    | (intro t a ht; with_reducible (have _h : Keep K t := ht))
    | (intro t ht; with_reducible (have _h : Keep K t := ht))
    | lift_lets -underBinder
    | (intro u; first
        | (refine (?_ : Keep K u → _) ?_; pick_goal 2; simp only [u]; pick_goal 2; intro hu; clear_value u)
        | clear_value u | skip)
    | split)

theorem keep_execVictimName {K : Kept} (who : Initiator) (s : State) (hs : Keep K s) :
    KeepO K (execVictimName who s) := by
  unfold execVictimName
  repeat' (first
    | (with_reducible first | assumption | apply keep_access | apply keep_count | apply keep_denyWrite | apply keep_limFire | apply keep_makeVictim | apply keep_refuse | apply keep_set | apply keep_ite | apply keepO_next | apply keep_ite_snd | apply keep_ite_fst | apply keepO_ite | apply keepOpt_ite)
    | (intro t ht; with_reducible (have _h : Keep K t := ht))
    | lift_lets -underBinder
    | (intro u; first
        | (refine (?_ : Keep K u → _) ?_; pick_goal 2; simp only [u]; pick_goal 2; intro hu; clear_value u)
        | clear_value u | skip)
    | split)

theorem keep_forced {K : Kept} (s : State) (band kind case_ : Nat) (hs : Keep K s) :
    Keep K (State.forced s band kind case_) := by
  unfold State.forced
  repeat' (with_reducible first | assumption | apply keep_count | apply keep_record)

theorem keep_execHardwareVictimNaming {K : Kept} (kind : Nat) (s : State) (hs : Keep K s) :
    KeepO K (execHardwareVictimNaming kind s) := by
  unfold execHardwareVictimNaming
  repeat' (first
    | (with_reducible first | assumption | apply keep_forced | apply keep_makeVictim | apply keep_ite | apply keepO_next | apply keep_ite_snd | apply keep_ite_fst | apply keepO_ite | apply keepOpt_ite)
    | (intro t ht; with_reducible (have _h : Keep K t := ht))
    | (intro (_ : _); show Keep K _)
    | split)

theorem keep_execVictimWalkTimeout {K : Kept} (band : Nat) (s : State) (hs : Keep K s) :
    KeepO K (execVictimWalkTimeout band s) := by
  unfold execVictimWalkTimeout
  repeat' (first
    | (with_reducible first | assumption | apply keep_forced | apply keep_mSw | apply keep_ite | apply keepO_next | apply keep_ite_snd | apply keep_ite_fst | apply keepO_ite | apply keepOpt_ite)
    | (intro t ht; with_reducible (have _h : Keep K t := ht))
    | (intro (_ : _); show Keep K _)
    | split)

theorem keep_execSweepCtrlResume {K : Kept} (who : Initiator) (s : State) (hs : Keep K s) :
    KeepO K (execSweepCtrlResume who s) := by
  unfold execSweepCtrlResume
  repeat' (first
    | (with_reducible first | assumption | apply keep_access | apply keep_denyWrite | apply keep_wr | apply keep_wr | apply keep_ite | apply keepO_next | apply keep_ite_snd | apply keep_ite_fst | apply keepO_ite | apply keepOpt_ite)
    | (intro t ht; with_reducible (have _h : Keep K t := ht))
    | (intro (_ : _); show Keep K _)
    | split)

theorem keep_showCredit {K : Kept} (s : State) (hs : Keep K s) :
    Keep K (State.showCredit s) := by
  unfold State.showCredit
  repeat' (with_reducible first | assumption | apply keep_wr64)

theorem keep_earnCredit {K : Kept} (s : State) (tax : Nat) (hs : Keep K s) :
    Keep K (State.earnCredit s tax) := by
  unfold State.earnCredit
  repeat' (first
    | (with_reducible first | assumption | apply keep_count | apply keep_mSw | apply keep_showCredit)
    | (intro t ht; with_reducible (have _h : Keep K t := ht))
    | lift_lets -underBinder
    | (intro u; first
        | (refine (?_ : Keep K u → _) ?_; pick_goal 2; simp only [u]; pick_goal 2; intro hu; clear_value u)
        | clear_value u | skip))

theorem keep_endWalk {K : Kept} (s : State) (v : Victim) (hs : Keep K s) :
    Keep K (State.endWalk s v) := by
  unfold State.endWalk
  repeat' (first
    | (with_reducible first | assumption | apply keep_count | apply keep_mSw | apply keep_record | apply keep_ite | apply keep_ite_snd | apply keep_ite_fst | apply keepO_ite | apply keepOpt_ite | apply keep_foldl | apply keep_foldl2 | apply keep_foldl1)
    | (intro t a ht; with_reducible (have _h : Keep K t := ht))
    | (intro t ht; with_reducible (have _h : Keep K t := ht))
    | lift_lets -underBinder
    | (intro u; first
        | (refine (?_ : Keep K u → _) ?_; pick_goal 2; simp only [u]; pick_goal 2; intro hu; clear_value u)
        | clear_value u | skip)
    | split)

theorem keep_sweepPrefetch {K : Kept} (s : State) (band : Nat) (hs : Keep K s) :
    Keep K (State.sweepPrefetch s band) := by
  unfold State.sweepPrefetch
  repeat' (first
    | (with_reducible first | assumption | apply keep_prefetch | apply keep_ite | apply keep_ite_snd | apply keep_ite_fst | apply keepO_ite | apply keepOpt_ite | apply keep_foldl | apply keep_foldl2 | apply keep_foldl1)
    | (intro t a ht; with_reducible (have _h : Keep K t := ht))
    | (intro t ht; with_reducible (have _h : Keep K t := ht))
    | (intro (_ : _); show Keep K _)
    | split)

theorem keep_startCopy {K : Kept} (hK : K.stores = true) (s : State) (v : Victim) (e : Nat × Nat × Nat × Nat) (hs : Keep K s) :
    Keep K (State.startCopy s v e) := by
  unfold State.startCopy
  repeat' (first
    | (with_reducible first | assumption | apply keep_addRead | apply keep_askCrates | apply keep_copyLost | apply keep_count | apply keep_lookIu | apply keep_mSw | apply keep_showCredit | apply keep_sweepPrefetch | apply keep_ite | apply keepO_next | apply keep_ite_snd | apply keep_ite_fst | apply keepO_ite | apply keepOpt_ite | apply keep_foldl | apply keep_foldl2 | apply keep_foldl1 | refine keep_mCr _ _ ?_ (by rfl))
    | (intro t a ht; with_reducible (have _h : Keep K t := ht))
    | (intro t ht; with_reducible (have _h : Keep K t := ht))
    | lift_lets -underBinder
    | (intro u; first
        | (refine (?_ : Keep K u → _) ?_; pick_goal 2; simp only [u]; pick_goal 2; intro hu; clear_value u)
        | clear_value u | skip)
    | split)

theorem keep_execSweepCopyStart {K : Kept} (hK : K.stores = true) (band : Nat) (s : State) (hs : Keep K s) :
    KeepO K (execSweepCopyStart band s) := by
  unfold execSweepCopyStart
  repeat' (first
    | (with_reducible first | assumption | apply keep_endWalk | apply keep_mSw | apply keep_startCopy | apply keep_ite | apply keepO_next | apply keep_ite_snd | apply keep_ite_fst | apply keepO_ite | apply keepOpt_ite)
    | (intro t ht; with_reducible (have _h : Keep K t := ht))
    | lift_lets -underBinder
    | (intro u; first
        | (refine (?_ : Keep K u → _) ?_; pick_goal 2; simp only [u]; pick_goal 2; intro hu; clear_value u)
        | clear_value u | skip)
    | split)

theorem keep_execVictimErase {K : Kept} (block : Nat) (s : State) (hs : Keep K s) :
    KeepO K (execVictimErase block s) := by
  unfold execVictimErase
  repeat' (first
    | (with_reducible first | assumption | apply keep_askErase | apply keep_endWalk | apply keep_ite | apply keepO_next | apply keep_ite_snd | apply keep_ite_fst | apply keepO_ite | apply keepOpt_ite)
    | (intro t ht; with_reducible (have _h : Keep K t := ht))
    | lift_lets -underBinder
    | (intro u; first
        | (refine (?_ : Keep K u → _) ?_; pick_goal 2; simp only [u]; pick_goal 2; intro hu; clear_value u)
        | clear_value u | skip)
    | split)

theorem keep_startLap {K : Kept} (s : State) (hs : Keep K s) :
    Keep K (State.startLap s) := by
  unfold State.startLap
  repeat' (first
    | (with_reducible first | assumption | apply keep_journal | apply keep_mBell | apply keep_setWay | apply keep_wr | apply keep_wr64 | apply keep_writeBack | apply keep_wr | apply keep_ite | apply keepO_next | apply keep_ite_snd | apply keep_ite_fst | apply keepO_ite | apply keepOpt_ite | apply keep_foldl | apply keep_foldl2 | apply keep_foldl1)
    | (intro t a ht; with_reducible (have _h : Keep K t := ht))
    | (intro t ht; with_reducible (have _h : Keep K t := ht))
    | lift_lets -underBinder
    | (intro u; first
        | (refine (?_ : Keep K u → _) ?_; pick_goal 2; simp only [u]; pick_goal 2; intro hu; clear_value u)
        | clear_value u | skip)
    | split)

theorem keep_updateAmps {K : Kept} (s : State) (hs : Keep K s) :
    Keep K (State.updateAmps s) := by
  unfold State.updateAmps
  repeat' (first
    | (with_reducible first | assumption | apply keep_mPit)
    | (intro t ht; with_reducible (have _h : Keep K t := ht)))

theorem keep_wearRoll {K : Kept} (s : State) (hs : Keep K s) :
    Keep K (State.wearRoll s) := by
  unfold State.wearRoll
  repeat' (first
    | (with_reducible first | assumption | apply keep_count | apply keep_mCf | apply keep_mSw | apply keep_reckonWear | apply keep_ite | apply keep_ite_snd | apply keep_ite_fst | apply keepO_ite | apply keepOpt_ite)
    | (intro t ht; with_reducible (have _h : Keep K t := ht))
    | lift_lets -underBinder
    | (intro u; first
        | (refine (?_ : Keep K u → _) ?_; pick_goal 2; simp only [u]; pick_goal 2; intro hu; clear_value u)
        | clear_value u | skip)
    | split)

theorem keep_execSweepEpoch {K : Kept} (hN : K.keeps = true) (s : State) (hs : Keep K s) :
    KeepO K (execSweepEpoch s) := by
  unfold execSweepEpoch
  repeat' (first
    | (with_reducible first | assumption | apply keep_mBell | apply keep_startLap | apply keep_updateAmps | apply keep_wearRoll | apply keep_wr | apply keep_wr | apply keepO_next | refine keep_mNv _ _ hN ?_ (NvOk.mk rfl (List.prefix_refl _)) | refine keep_mNv _ _ hN ?_ (NvOk.mk rfl (List.prefix_append _ _)) | refine keep_mNv _ _ hN ?_ ?_ | exact NvOk.mk rfl (List.prefix_refl _) | apply nvOk_ite)
    | (intro t ht; with_reducible (have _h : Keep K t := ht))
    | lift_lets -underBinder
    | (intro u; first
        | (refine (?_ : Keep K u → _) ?_; pick_goal 2; simp only [u]; pick_goal 2; intro hu; clear_value u)
        | clear_value u | skip))

end Sys2Proof.Laws
end

