-- ==== Sys2Proof/Laws/KeepLaps.lean ====
section
/-! SUPPORT. The operations of Machine/Laps.lean keep the queue and the canonical forms. -/

namespace Sys2Proof.Laws

open Sys2Proof Sys2Proof.Machine

set_option linter.unusedTactic false
set_option linter.unreachableTactic false
set_option linter.unusedVariables false

theorem keep_flushed {K : Kept} (hN : K.keeps = true) (s : State) (n : Nat) (hs : Keep K s) :
    Keep K (State.flushed s n) := by
  unfold State.flushed
  repeat' (first
    | (with_reducible first | assumption | apply keep_journal | apply keep_mBell | apply keep_wr | apply keep_wr | refine keep_mNv _ _ hN ?_ (NvOk.mk rfl (List.prefix_refl _)) | refine keep_mNv _ _ hN ?_ (NvOk.mk rfl (List.prefix_append _ _)) | refine keep_mNv _ _ hN ?_ ?_ | exact NvOk.mk rfl (List.prefix_refl _) | apply nvOk_ite)
    | (intro t ht; with_reducible (have _h : Keep K t := ht))
    | lift_lets -underBinder
    | (intro u; first
        | (refine (?_ : Keep K u → _) ?_; pick_goal 2; simp only [u]; pick_goal 2; intro hu; clear_value u)
        | clear_value u | skip))

theorem keep_lapOver {K : Kept} (s : State) (start : Nat) (hs : Keep K s) :
    Keep K (State.lapOver s start) := by
  unfold State.lapOver
  repeat' (first
    | (with_reducible first | assumption | apply keep_count | apply keep_mBell | apply keep_ite | apply keep_ite_snd | apply keep_ite_fst | apply keepO_ite | apply keepOpt_ite)
    | (intro t ht; with_reducible (have _h : Keep K t := ht))
    | lift_lets -underBinder
    | (intro u; first
        | (refine (?_ : Keep K u → _) ?_; pick_goal 2; simp only [u]; pick_goal 2; intro hu; clear_value u)
        | clear_value u | skip)
    | split)

theorem keep_execLapComplete {K : Kept} (hN : K.keeps = true) (s : State) (hs : Keep K s) :
    KeepO K (execLapComplete s) := by
  unfold execLapComplete
  repeat' (first
    | (with_reducible first | assumption | apply keep_flushed | apply keep_journal | apply keep_lapOver | apply keep_mBell | apply keep_wr | apply keep_wr64 | apply keep_wr | apply keepO_next | refine keep_mNv _ _ hN ?_ (NvOk.mk rfl (List.prefix_refl _)) | refine keep_mNv _ _ hN ?_ (NvOk.mk rfl (List.prefix_append _ _)) | refine keep_mNv _ _ hN ?_ ?_ | exact NvOk.mk rfl (List.prefix_refl _) | apply nvOk_ite)
    | (intro t ht; with_reducible (have _h : Keep K t := ht))
    | lift_lets -underBinder
    | (intro u; first
        | (refine (?_ : Keep K u → _) ?_; pick_goal 2; simp only [u]; pick_goal 2; intro hu; clear_value u)
        | clear_value u | skip)
    | split)

theorem keep_execLapLate {K : Kept} (s : State) (hs : Keep K s) :
    KeepO K (execLapLate s) := by
  unfold execLapLate
  repeat' (first
    | (with_reducible first | assumption | apply keep_count | apply keep_mBell | apply keep_ite | apply keepO_next | apply keep_ite_snd | apply keep_ite_fst | apply keepO_ite | apply keepOpt_ite)
    | (intro t ht; with_reducible (have _h : Keep K t := ht))
    | (intro (_ : _); show Keep K _)
    | split)

theorem keep_execRollingWalk {K : Kept} (s : State) (hs : Keep K s) :
    KeepO K (execRollingWalk s) := by
  unfold execRollingWalk
  repeat' (first
    | (with_reducible first | assumption | apply keep_logLine | apply keep_lookLine | apply keep_mBell | apply keep_wr | apply keep_ite | apply keepO_next | apply keep_ite_snd | apply keep_ite_fst | apply keepO_ite | apply keepOpt_ite)
    | (intro t ht; with_reducible (have _h : Keep K t := ht))
    | lift_lets -underBinder
    | (intro u; first
        | (refine (?_ : Keep K u → _) ?_; pick_goal 2; simp only [u]; pick_goal 2; intro hu; clear_value u)
        | clear_value u | skip)
    | split)

theorem keep_execJournalFlush {K : Kept} (hN : K.keeps = true) (s : State) (hs : Keep K s) :
    KeepO K (execJournalFlush s) := by
  unfold execJournalFlush
  repeat' (first
    | (with_reducible first | assumption | apply keep_flushed | apply keep_journal | apply keep_ite | apply keepO_next | apply keep_ite_snd | apply keep_ite_fst | apply keepO_ite | apply keepOpt_ite)
    | (intro t ht; with_reducible (have _h : Keep K t := ht))
    | (intro (_ : _); show Keep K _)
    | split)

theorem keep_execRecordsSave {K : Kept} (hN : K.keeps = true) (s : State) (hs : Keep K s) :
    KeepO K (execRecordsSave s) := by
  unfold execRecordsSave
  repeat' (first
    | (with_reducible first | assumption | apply keep_ite | apply keepO_next | apply keep_ite_snd | apply keep_ite_fst | apply keepO_ite | apply keepOpt_ite | refine keep_mNv _ _ hN ?_ (NvOk.mk rfl (List.prefix_refl _)) | refine keep_mNv _ _ hN ?_ (NvOk.mk rfl (List.prefix_append _ _)) | refine keep_mNv _ _ hN ?_ ?_ | exact NvOk.mk rfl (List.prefix_refl _) | apply nvOk_ite)
    | (intro t ht; with_reducible (have _h : Keep K t := ht))
    | (intro (_ : _); show Keep K _)
    | split)

end Sys2Proof.Laws
end

