-- ==== Sys2Proof/Laws/KeepCipher.lean ====
section
/-! SUPPORT. The operations of Machine/Cipher.lean keep the queue and the canonical forms. -/

namespace Sys2Proof.Laws

open Sys2Proof Sys2Proof.Machine

set_option linter.unusedTactic false
set_option linter.unreachableTactic false
set_option linter.unusedVariables false

theorem keep_toEgress {K : Kept} (s : State) (r : MRead) (uid : Nat) (hs : Keep K s) :
    Keep K (State.toEgress s r uid) := by
  unfold State.toEgress
  repeat' (first
    | (with_reducible first | assumption | apply keep_mPor)
    | (intro t ht; with_reducible (have _h : Keep K t := ht))
    | lift_lets -underBinder
    | (intro u; first
        | (refine (?_ : Keep K u → _) ?_; pick_goal 2; simp only [u]; pick_goal 2; intro hu; clear_value u)
        | clear_value u | skip)
    | split)

theorem keep_unitDeciphered {K : Kept} (hK : K.stores = true) (s : State) (r : MRead) (c : Cw) (hs : Keep K s) :
    Keep K (State.unitDeciphered s r c) := by
  unfold State.unitDeciphered
  repeat' (first
    | (with_reducible first | assumption | apply keep_count | apply keep_dropRead | apply keep_mRead | apply keep_mergeFailed | apply keep_mergeUnit | apply keep_peak | apply keep_slotBad | apply keep_toEgress | apply keep_unitArrived | apply keep_unitFailed | apply keep_ite | apply keep_ite_snd | apply keep_ite_fst | apply keepO_ite | apply keepOpt_ite)
    | (intro t ht; with_reducible (have _h : Keep K t := ht))
    | lift_lets -underBinder
    | (intro u; first
        | (refine (?_ : Keep K u → _) ?_; pick_goal 2; simp only [u]; pick_goal 2; intro hu; clear_value u)
        | clear_value u | skip)
    | split)

theorem keep_slotFire {K : Kept} (s : State) (slot : Nat) (hs : Keep K s) :
    Keep K (State.slotFire s slot) := by
  unfold State.slotFire
  repeat' (first
    | (with_reducible first | assumption | apply keep_count | apply keep_fire | apply keep_ite | apply keep_ite_snd | apply keep_ite_fst | apply keepO_ite | apply keepOpt_ite)
    | (intro t ht; with_reducible (have _h : Keep K t := ht))
    | lift_lets -underBinder
    | (intro u; first
        | (refine (?_ : Keep K u → _) ?_; pick_goal 2; simp only [u]; pick_goal 2; intro hu; clear_value u)
        | clear_value u | skip)
    | split)

theorem keep_execCipherUnitComplete {K : Kept} (hK : K.stores = true) (encipher : Bool) (id : Nat) (s : State) (hs : Keep K s) :
    KeepO K (execCipherUnitComplete encipher id s) := by
  unfold execCipherUnitComplete
  repeat' (first
    | (with_reducible first | assumption | apply keep_count | apply keep_deferIu | apply keep_mWp | apply keep_slotFire | apply keep_unitDeciphered | apply keep_ite | apply keepO_next | apply keep_ite_snd | apply keep_ite_fst | apply keepO_ite | apply keepOpt_ite | apply keep_foldl | apply keep_foldl2 | apply keep_foldl1)
    | (intro t a ht; with_reducible (have _h : Keep K t := ht))
    | (intro t ht; with_reducible (have _h : Keep K t := ht))
    | lift_lets -underBinder
    | (intro u; first
        | (refine (?_ : Keep K u → _) ?_; pick_goal 2; simp only [u]; pick_goal 2; intro hu; clear_value u)
        | clear_value u | skip)
    | split)

theorem keep_drawKey {K : Kept} (s : State) (hs : Keep K s) :
    Keep K (State.drawKey s).2 := by
  unfold State.drawKey
  repeat' (first
    | (with_reducible first | assumption | apply keep_fresh)
    | (intro t ht; with_reducible (have _h : Keep K t := ht))
    | lift_lets -underBinder
    | (intro u; first
        | (refine (?_ : Keep K u → _) ?_; pick_goal 2; simp only [u]; pick_goal 2; intro hu; clear_value u)
        | clear_value u | skip))

theorem keep_execMediaKeyGenerate {K : Kept} (who : Initiator) (s : State) (hs : Keep K s) :
    KeepO K (execMediaKeyGenerate who s) := by
  unfold execMediaKeyGenerate
  repeat' (first
    | (with_reducible first | assumption | apply keep_access | apply keep_count | apply keep_denyWrite | apply keep_drawKey | apply keep_mCiph | apply keep_set | apply keep_ite | apply keepO_next | apply keep_ite_snd | apply keep_ite_fst | apply keepO_ite | apply keepOpt_ite)
    | (intro t ht; with_reducible (have _h : Keep K t := ht))
    | lift_lets -underBinder
    | (intro u; first
        | (refine (?_ : Keep K u → _) ?_; pick_goal 2; simp only [u]; pick_goal 2; intro hu; clear_value u)
        | clear_value u | skip)
    | split)

theorem keep_takeWrap {K : Kept} (hN : K.keeps = true) (s : State) (hs : Keep K s) :
    Keep K (State.takeWrap s).2 := by
  unfold State.takeWrap
  repeat' (first
    | (with_reducible first | assumption | apply keep_mDev | apply keep_ite | apply keep_ite_snd | apply keep_ite_fst | apply keepO_ite | apply keepOpt_ite | refine keep_mNv _ _ hN ?_ (NvOk.mk rfl (List.prefix_refl _)) | refine keep_mNv _ _ hN ?_ (NvOk.mk rfl (List.prefix_append _ _)) | refine keep_mNv _ _ hN ?_ ?_ | exact NvOk.mk rfl (List.prefix_refl _) | apply nvOk_ite)
    | (intro t ht; with_reducible (have _h : Keep K t := ht))
    | lift_lets -underBinder
    | (intro u; first
        | (refine (?_ : Keep K u → _) ?_; pick_goal 2; simp only [u]; pick_goal 2; intro hu; clear_value u)
        | clear_value u | skip)
    | split)

theorem keep_execKeyRecordWritten {K : Kept} (hN : K.keeps = true) (ok : Bool) (s : State) (hs : Keep K s) :
    KeepO K (execKeyRecordWritten ok s) := by
  unfold execKeyRecordWritten
  repeat' (first
    | (with_reducible first | assumption | apply keep_mCiph | apply keep_set | apply keep_takeWrap | apply keep_ite | apply keepO_next | apply keep_ite_snd | apply keep_ite_fst | apply keepO_ite | apply keepOpt_ite | refine keep_mNv _ _ hN ?_ (NvOk.mk rfl (List.prefix_refl _)) | refine keep_mNv _ _ hN ?_ (NvOk.mk rfl (List.prefix_append _ _)) | refine keep_mNv _ _ hN ?_ ?_ | exact NvOk.mk rfl (List.prefix_refl _) | apply nvOk_ite)
    | (intro t ht; with_reducible (have _h : Keep K t := ht))
    | lift_lets -underBinder
    | (intro u; first
        | (refine (?_ : Keep K u → _) ?_; pick_goal 2; simp only [u]; pick_goal 2; intro hu; clear_value u)
        | clear_value u | skip)
    | split)

theorem keep_loadSlots {K : Kept} (s : State) (hs : Keep K s) :
    Keep K (State.loadSlots s) := by
  unfold State.loadSlots
  repeat' (first
    | (with_reducible first | assumption | apply keep_mCiph | apply keep_record | apply keep_set | apply keep_ite | apply keep_ite_snd | apply keep_ite_fst | apply keepO_ite | apply keepOpt_ite | apply keep_foldl | apply keep_foldl2 | apply keep_foldl1)
    | (intro t a ht; with_reducible (have _h : Keep K t := ht))
    | (intro t ht; with_reducible (have _h : Keep K t := ht))
    | lift_lets -underBinder
    | (intro u; first
        | (refine (?_ : Keep K u → _) ?_; pick_goal 2; simp only [u]; pick_goal 2; intro hu; clear_value u)
        | clear_value u | skip)
    | split)

theorem keep_isoRefuse {K : Kept} (s : State) (who : Initiator) (p off : Nat) (inj : Bool) (hs : Keep K s) :
    Keep K (State.isoRefuse s who p off inj) := by
  unfold State.isoRefuse
  repeat' (with_reducible first | assumption | apply keep_count | apply keep_record | apply keep_refuse)

theorem keep_onPage {K : Kept} (s : State) (who : Initiator) (p off : Nat) (f : State → State) (hs : Keep K s) (hf : ∀ (x0 : State), Keep K x0 → Keep K (f x0)) :
    Keep K (State.onPage s who p off f) := by
  unfold State.onPage
  repeat' (first
    | (with_reducible first | assumption | apply keep_access | apply keep_count | apply keep_isoRefuse | apply keep_limFire | apply hf | apply keep_ite | apply keep_ite_snd | apply keep_ite_fst | apply keepO_ite | apply keepOpt_ite)
    | (intro t ht; with_reducible (have _h : Keep K t := ht))
    | lift_lets -underBinder
    | (intro u; first
        | (refine (?_ : Keep K u → _) ?_; pick_goal 2; simp only [u]; pick_goal 2; intro hu; clear_value u)
        | clear_value u | skip)
    | split)

theorem keep_setChain {K : Kept} (s : State) (p : Nat) (c : Option Chain) (hs : Keep K s) :
    Keep K (State.setChain s p c) := by
  unfold State.setChain
  repeat' (first
    | (with_reducible first | assumption | apply keep_mCiph | apply keep_set | apply keep_wr | apply keep_wr)
    | (intro t ht; with_reducible (have _h : Keep K t := ht)))

theorem keep_endJob {K : Kept} (s : State) (p code : Nat) (hs : Keep K s) :
    Keep K (State.endJob s p code) := by
  unfold State.endJob
  repeat' (first
    | (with_reducible first | assumption | apply keep_mCiph | apply keep_set)
    | (intro t ht; with_reducible (have _h : Keep K t := ht)))

theorem keep_dstBytes {K : Kept} (hK : K.stores = true) (s : State) (kind v : Nat) (bs : List Nat) (hs : Keep K s) :
    Keep K (State.dstBytes s kind v bs) := by
  unfold State.dstBytes
  repeat' (first
    | (with_reducible assumption)
    | (with_reducible first | apply keep_crateWrite | refine keep_mCrStore _ _ hK ?_ ?_ | apply keep_mem | apply wf_putBytes | apply wf_zeroBytes)
    | split
    | (intro t ht; with_reducible (have _h : Keep K t := ht))
    | (intro c t ht; with_reducible (have _h : Keep K t := ht))
    | dsimp -zeta only [id]
    | (with_reducible first | refine keep_dram _ hK ?_ (wf_putBytes _ _ _ (Keep.dram (K := K) ?_)) | refine keep_regs _ ?_ (tbl_sorted_filter _ _ (Keep.regs (K := K) ?_))))

theorem keep_putTag {K : Kept} (s : State) (p : Nat) (tag : List Nat) (hs : Keep K s) :
    Keep K (State.putTag s p tag) := by
  unfold State.putTag
  repeat' (first
    | (with_reducible first | assumption | apply keep_wr | apply keep_wr | apply keep_foldl | apply keep_foldl2 | apply keep_foldl1)
    | (intro t a ht; with_reducible (have _h : Keep K t := ht))
    | (intro t ht; with_reducible (have _h : Keep K t := ht)))

theorem keep_runChunk {K : Kept} (hN : K.keeps = true) (s : State) (p : Nat) (j : Job) (k : Nat) (aad body : List Nat) (hs : Keep K s) :
    Keep K (State.runChunk s p j k aad body).2.2 := by
  unfold State.runChunk
  repeat' (first
    | (with_reducible assumption)
    | (with_reducible first | apply keep_fire | apply keep_keep | apply keep_putTag | apply keep_setChain | apply keep_wr | apply keep_wr | apply keep_ite | apply keep_ite_snd | apply keep_ite_fst | apply keepO_ite | apply keepOpt_ite)
    | (intro t a ht; with_reducible (have _h : Keep K t.2 := ht))
    | (intro t a ht; with_reducible (have _h : Keep K t.1 := ht))
    | (intro t a ht; with_reducible (have _h : Keep K t := ht))
    | (intro t ht; with_reducible (have _h : Keep K t := ht))
    | lift_lets -underBinder
    | (intro u; first
        | (refine (?_ : Keep K u → _) ?_; pick_goal 2; simp only [u]; pick_goal 2; intro hu; clear_value u)
        | (refine (?_ : Keep K u.2 → _) ?_; pick_goal 2; simp only [u]; pick_goal 2; intro hu; clear_value u)
        | (refine (?_ : Keep K u.1 → _) ?_; pick_goal 2; simp only [u]; pick_goal 2; intro hu; clear_value u)
        | (refine (?_ : Keep K u.st → _) ?_; pick_goal 2; simp only [u]; pick_goal 2; intro hu; clear_value u)
        | clear_value u | skip)
    | split
    | (intro t ht; with_reducible (have _h : Keep K t := ht))
    | (intro c t ht; with_reducible (have _h : Keep K t := ht))
    | dsimp -zeta only [id])

theorem keep_runJob {K : Kept} (hN : K.keeps = true) (s : State) (p : Nat) (j : Job) (input : List Nat) (hs : Keep K s) :
    Keep K (State.runJob s p j input).2.2 := by
  unfold State.runJob
  repeat' (first
    | (with_reducible first | assumption | apply keep_runChunk | apply keep_ite | apply keep_ite_snd | apply keep_ite_fst | apply keepO_ite | apply keepOpt_ite)
    | (intro t ht; with_reducible (have _h : Keep K t := ht))
    | (intro (_ : _); show Keep K _)
    | split)

theorem keep_jobDone {K : Kept} (s : State) (p bytes : Nat) (hs : Keep K s) :
    Keep K (State.jobDone s p bytes) := by
  unfold State.jobDone
  repeat' (with_reducible first | assumption | apply keep_count | apply keep_wr | apply keep_wr)

theorem keep_execJobGo {K : Kept} (who : Initiator) (page flags : Nat) (s : State) (hs : Keep K s) :
    KeepO K (execJobGo who page flags s) := by
  unfold execJobGo
  repeat' (first
    | (with_reducible first | assumption | apply keep_mCiph | apply keep_onPage | apply keep_set | apply keep_wr | apply keep_wr | apply keepO_next)
    | (intro t ht; with_reducible (have _h : Keep K t := ht))
    | lift_lets -underBinder
    | (intro u; first
        | (refine (?_ : Keep K u → _) ?_; pick_goal 2; simp only [u]; pick_goal 2; intro hu; clear_value u)
        | clear_value u | skip)
    | split)

theorem keep_execJobComplete {K : Kept} (hK : K.stores = true) (hN : K.keeps = true) (page : Nat) (s : State) (hs : Keep K s) :
    KeepO K (execJobComplete page s) := by
  unfold execJobComplete
  repeat' (first
    | (with_reducible first | assumption | apply keep_dstBytes | apply keep_endJob | apply keep_jobDone | apply keep_runJob | apply keep_ite | apply keepO_next | apply keep_ite_snd | apply keep_ite_fst | apply keepO_ite | apply keepOpt_ite)
    | (intro t ht; with_reducible (have _h : Keep K t := ht))
    | lift_lets -underBinder
    | (intro u; first
        | (refine (?_ : Keep K u → _) ?_; pick_goal 2; simp only [u]; pick_goal 2; intro hu; clear_value u)
        | clear_value u | skip)
    | split)

theorem keep_abortJob {K : Kept} (hK : K.stores = true) (hN : K.keeps = true) (s : State) (page : Nat) (hs : Keep K s) :
    Keep K (State.abortJob s page) := by
  unfold State.abortJob
  repeat' (first
    | (with_reducible first | assumption | apply keep_dstBytes | apply keep_endJob | apply keep_fresh | apply keep_jobDone | apply keep_runJob | apply keep_setChain)
    | (intro t ht; with_reducible (have _h : Keep K t := ht))
    | lift_lets -underBinder
    | (intro u; first
        | (refine (?_ : Keep K u → _) ?_; pick_goal 2; simp only [u]; pick_goal 2; intro hu; clear_value u)
        | clear_value u | skip)
    | split)

theorem keep_execJobAbort {K : Kept} (hK : K.stores = true) (hN : K.keeps = true) (who : Initiator) (page : Nat) (s : State) (hs : Keep K s) :
    KeepO K (execJobAbort who page s) := by
  unfold execJobAbort
  repeat' (first
    | (with_reducible first | assumption | apply keep_abortJob | apply keep_access | apply keep_isoRefuse | apply keep_ite | apply keepO_next | apply keep_ite_snd | apply keep_ite_fst | apply keepO_ite | apply keepOpt_ite)
    | (intro t ht; with_reducible (have _h : Keep K t := ht))
    | (intro (_ : _); show Keep K _)
    | split)

theorem keep_wrapBlob {K : Kept} (hN : K.keeps = true) (s : State) (purpose index : Nat) (payload : List Nat) (hs : Keep K s) :
    Keep K (State.wrapBlob s purpose index payload).2 := by
  unfold State.wrapBlob
  repeat' (first
    | (with_reducible first | assumption | apply keep_takeWrap)
    | (intro t ht; with_reducible (have _h : Keep K t := ht))
    | lift_lets -underBinder
    | (intro u; first
        | (refine (?_ : Keep K u → _) ?_; pick_goal 2; simp only [u]; pick_goal 2; intro hu; clear_value u)
        | clear_value u | skip))

theorem keep_execJobSave {K : Kept} (hK : K.stores = true) (hN : K.keeps = true) (who : Initiator) (page : Nat) (s : State) (hs : Keep K s) :
    KeepO K (execJobSave who page s) := by
  unfold execJobSave
  repeat' (first
    | (with_reducible first | assumption | apply keep_dstBytes | apply keep_onPage | apply keep_set | apply keep_setChain | apply keep_wrapBlob | apply keep_ite | apply keepO_next | apply keep_ite_snd | apply keep_ite_fst | apply keepO_ite | apply keepOpt_ite)
    | (intro t ht; with_reducible (have _h : Keep K t := ht))
    | lift_lets -underBinder
    | (intro u; first
        | (refine (?_ : Keep K u → _) ?_; pick_goal 2; simp only [u]; pick_goal 2; intro hu; clear_value u)
        | clear_value u | skip)
    | split)

theorem keep_execJobRestore {K : Kept} (who : Initiator) (page : Nat) (s : State) (hs : Keep K s) :
    KeepO K (execJobRestore who page s) := by
  unfold execJobRestore
  repeat' (first
    | (with_reducible first | assumption | apply keep_onPage | apply keep_set | apply keep_setChain | apply keep_ite | apply keepO_next | apply keep_ite_snd | apply keep_ite_fst | apply keepO_ite | apply keepOpt_ite)
    | (intro t ht; with_reducible (have _h : Keep K t := ht))
    | lift_lets -underBinder
    | (intro u; first
        | (refine (?_ : Keep K u → _) ?_; pick_goal 2; simp only [u]; pick_goal 2; intro hu; clear_value u)
        | clear_value u | skip)
    | split)

theorem keep_clearStaging {K : Kept} (s : State) (page : Nat) (hs : Keep K s) :
    Keep K (State.clearStaging s page) := by
  unfold State.clearStaging
  repeat' (first
    | (with_reducible first | assumption | apply keep_wr | apply keep_wr | apply keep_foldl | apply keep_foldl2 | apply keep_foldl1)
    | (intro t a ht; with_reducible (have _h : Keep K t := ht))
    | (intro t ht; with_reducible (have _h : Keep K t := ht)))

theorem keep_setGen {K : Kept} (s : State) (slot : Nat) (g : Option GSlot) (hs : Keep K s) :
    Keep K (State.setGen s slot g) := by
  unfold State.setGen
  repeat' (first
    | (with_reducible first | assumption | apply keep_mCiph | apply keep_set)
    | (intro t ht; with_reducible (have _h : Keep K t := ht)))

theorem keep_keyCmd {K : Kept} (s : State) (who : Initiator) (page slot : Nat) (f : State → State) (hs : Keep K s) (hf : ∀ (x0 : State), Keep K x0 → Keep K (f x0)) :
    Keep K (State.keyCmd s who page slot f) := by
  unfold State.keyCmd
  repeat' (first
    | (with_reducible first | assumption | apply keep_clearStaging | apply keep_onPage | apply keep_set | apply hf | apply keep_ite | apply keep_ite_snd | apply keep_ite_fst | apply keepO_ite | apply keepOpt_ite)
    | (intro t ht; with_reducible (have _h : Keep K t := ht))
    | lift_lets -underBinder
    | (intro u; first
        | (refine (?_ : Keep K u → _) ?_; pick_goal 2; simp only [u]; pick_goal 2; intro hu; clear_value u)
        | clear_value u | skip)
    | split)

theorem keep_loadPair {K : Kept} (s : State) (page slot k1 k2 : Nat) (hs : Keep K s) :
    Keep K (State.loadPair s page slot k1 k2) := by
  unfold State.loadPair
  repeat' (first
    | (with_reducible first | assumption | apply keep_set | apply keep_setGen | apply keep_ite | apply keep_ite_snd | apply keep_ite_fst | apply keepO_ite | apply keepOpt_ite)
    | (intro t ht; with_reducible (have _h : Keep K t := ht))
    | (intro (_ : _); show Keep K _)
    | split)

theorem keep_execLoadPlain {K : Kept} (who : Initiator) (page slot : Nat) (s : State) (hs : Keep K s) :
    KeepO K (execLoadPlain who page slot s) := by
  unfold execLoadPlain
  repeat' (first
    | (with_reducible first | assumption | apply keep_keyCmd | apply keep_loadPair | apply keepO_next)
    | (intro t ht; with_reducible (have _h : Keep K t := ht)))

theorem keep_execGenerate {K : Kept} (hK : K.stores = true) (hN : K.keeps = true) (who : Initiator) (page slot : Nat) (s : State) (hs : Keep K s) :
    KeepO K (execGenerate who page slot s) := by
  unfold execGenerate
  repeat' (first
    | (with_reducible first | assumption | apply keep_drawKey | apply keep_dstBytes | apply keep_keyCmd | apply keep_loadPair | apply keep_set | apply keep_wrapBlob | apply keep_ite | apply keepO_next | apply keep_ite_snd | apply keep_ite_fst | apply keepO_ite | apply keepOpt_ite)
    | (intro t ht; with_reducible (have _h : Keep K t := ht))
    | lift_lets -underBinder
    | (intro u; first
        | (refine (?_ : Keep K u → _) ?_; pick_goal 2; simp only [u]; pick_goal 2; intro hu; clear_value u)
        | clear_value u | skip)
    | split)

theorem keep_execLoadWrapped {K : Kept} (who : Initiator) (page slot : Nat) (s : State) (hs : Keep K s) :
    KeepO K (execLoadWrapped who page slot s) := by
  unfold execLoadWrapped
  repeat' (first
    | (with_reducible first | assumption | apply keep_keyCmd | apply keep_loadPair | apply keep_set | apply keep_ite | apply keepO_next | apply keep_ite_snd | apply keep_ite_fst | apply keepO_ite | apply keepOpt_ite)
    | (intro t ht; with_reducible (have _h : Keep K t := ht))
    | lift_lets -underBinder
    | (intro u; first
        | (refine (?_ : Keep K u → _) ?_; pick_goal 2; simp only [u]; pick_goal 2; intro hu; clear_value u)
        | clear_value u | skip)
    | split)

theorem keep_execClear {K : Kept} (who : Initiator) (page slot : Nat) (s : State) (hs : Keep K s) :
    KeepO K (execClear who page slot s) := by
  unfold execClear
  repeat' (first
    | (with_reducible first | assumption | apply keep_keyCmd | apply keep_set | apply keep_setGen | apply keepO_next)
    | (intro t ht; with_reducible (have _h : Keep K t := ht)))

theorem keep_clearGeneral {K : Kept} (s : State) (hs : Keep K s) :
    Keep K (State.clearGeneral s) := by
  unfold State.clearGeneral
  repeat' (first
    | (with_reducible first | assumption | apply keep_endJob | apply keep_mCiph | apply keep_setChain | apply keep_foldl | apply keep_foldl2 | apply keep_foldl1)
    | (intro t a ht; with_reducible (have _h : Keep K t := ht))
    | (intro t ht; with_reducible (have _h : Keep K t := ht))
    | lift_lets -underBinder
    | (intro u; first
        | (refine (?_ : Keep K u → _) ?_; pick_goal 2; simp only [u]; pick_goal 2; intro hu; clear_value u)
        | clear_value u | skip)
    | split)

theorem keep_endJobs {K : Kept} (hK : K.stores = true) (hN : K.keeps = true) (s : State) (which : Nat → Bool) (hs : Keep K s) :
    Keep K (State.endJobs s which) := by
  unfold State.endJobs
  repeat' (first
    | (with_reducible first | assumption | apply keep_abortJob | apply keep_foldl | apply keep_foldl2 | apply keep_foldl1)
    | (intro t ht; with_reducible (have _h : Keep K t := ht)))

theorem keep_cipherCoreReset {K : Kept} (hK : K.stores = true) (hN : K.keeps = true) (s : State) (hs : Keep K s) :
    Keep K (State.cipherCoreReset s) := by
  unfold State.cipherCoreReset
  repeat' (first
    | (with_reducible assumption)
    | (with_reducible first | apply keep_endJobs | apply keep_mCiph | apply keep_setChain | apply keep_foldl | apply keep_foldl2 | apply keep_foldl1)
    | (intro t a ht; with_reducible (have _h : Keep K t.2 := ht))
    | (intro t a ht; with_reducible (have _h : Keep K t.1 := ht))
    | (intro t a ht; with_reducible (have _h : Keep K t := ht))
    | (intro t ht; with_reducible (have _h : Keep K t := ht))
    | lift_lets -underBinder
    | (intro u; first
        | (refine (?_ : Keep K u → _) ?_; pick_goal 2; simp only [u]; pick_goal 2; intro hu; clear_value u)
        | (refine (?_ : Keep K u.2 → _) ?_; pick_goal 2; simp only [u]; pick_goal 2; intro hu; clear_value u)
        | (refine (?_ : Keep K u.1 → _) ?_; pick_goal 2; simp only [u]; pick_goal 2; intro hu; clear_value u)
        | (refine (?_ : Keep K u.st → _) ?_; pick_goal 2; simp only [u]; pick_goal 2; intro hu; clear_value u)
        | clear_value u | skip)
    | split
    | (intro t ht; with_reducible (have _h : Keep K t := ht))
    | (intro c t ht; with_reducible (have _h : Keep K t := ht))
    | dsimp -zeta only [id]
    | (with_reducible first | refine keep_dram _ hK ?_ (wf_putBytes _ _ _ (Keep.dram (K := K) ?_)) | refine keep_regs _ ?_ (tbl_sorted_filter _ _ (Keep.regs (K := K) ?_))))

theorem keep_cipherKeep {K : Kept} (s : State) (hs : Keep K s) :
    Keep K (State.cipherKeep s) := by
  unfold State.cipherKeep
  repeat' (first
    | (with_reducible first | assumption | apply keep_mCiph)
    | (intro t ht; with_reducible (have _h : Keep K t := ht)))

theorem keep_cipherRestore {K : Kept} (s : State) (hs : Keep K s) :
    Keep K (State.cipherRestore s) := by
  unfold State.cipherRestore
  repeat' (first
    | (with_reducible first | assumption | apply keep_loadSlots | apply keep_mCiph | apply keep_wr | apply keep_wr | apply keep_foldl | apply keep_foldl2 | apply keep_foldl1)
    | (intro t a ht; with_reducible (have _h : Keep K t := ht))
    | (intro t ht; with_reducible (have _h : Keep K t := ht))
    | lift_lets -underBinder
    | (intro u; first
        | (refine (?_ : Keep K u → _) ?_; pick_goal 2; simp only [u]; pick_goal 2; intro hu; clear_value u)
        | clear_value u | skip))

end Sys2Proof.Laws
end

