-- ==== Sys2Proof/Laws/KeepPorter.lean ====
section
/-! SUPPORT. The operations of Machine/Porter.lean keep the queue and the canonical forms. -/

namespace Sys2Proof.Laws

open Sys2Proof Sys2Proof.Machine

set_option linter.unusedTactic false
set_option linter.unreachableTactic false
set_option linter.unusedVariables false

theorem keep_mCh {K : Kept} (s : State) (k : Nat) (g : PChan → PChan) (hs : Keep K s) :
    Keep K (State.mCh s k g) := by
  unfold State.mCh
  repeat' (first
    | (with_reducible first | assumption | apply keep_mPor | apply keep_set)
    | (intro t ht; with_reducible (have _h : Keep K t := ht)))

theorem keep_porterIso {K : Kept} (s : State) (who : Initiator) (p off : Nat) (inj : Bool) (hs : Keep K s) :
    Keep K (State.porterIso s who p off inj) := by
  unfold State.porterIso
  repeat' (with_reducible first | assumption | apply keep_count | apply keep_record | apply keep_refuse)

theorem keep_onChan {K : Kept} (s : State) (who : Initiator) (k off : Nat) (f : State → State) (hs : Keep K s) (hf : ∀ (x0 : State), Keep K x0 → Keep K (f x0)) :
    Keep K (State.onChan s who k off f) := by
  unfold State.onChan
  repeat' (first
    | (with_reducible first | assumption | apply keep_access | apply keep_limFire | apply keep_porterIso | apply hf | apply keep_ite | apply keep_ite_snd | apply keep_ite_fst | apply keepO_ite | apply keepOpt_ite)
    | (intro t ht; with_reducible (have _h : Keep K t := ht))
    | lift_lets -underBinder
    | (intro u; first
        | (refine (?_ : Keep K u → _) ?_; pick_goal 2; simp only [u]; pick_goal 2; intro hu; clear_value u)
        | clear_value u | skip)
    | split)

theorem keep_chRest {K : Kept} (s : State) (k : Nat) (hs : Keep K s) :
    Keep K (State.chRest s k) := by
  unfold State.chRest
  repeat' (first
    | (with_reducible first | assumption | apply keep_set | apply keep_ite | apply keep_ite_snd | apply keep_ite_fst | apply keepO_ite | apply keepOpt_ite)
    | (intro t ht; with_reducible (have _h : Keep K t := ht))
    | (intro (_ : _); show Keep K _)
    | split)

theorem keep_addToken {K : Kept} (s : State) (k : Nat) (hs : Keep K s) :
    Keep K (State.addToken s k) := by
  unfold State.addToken
  repeat' (first
    | (with_reducible first | assumption | apply keep_chRest | apply keep_count | apply keep_wr | apply keep_wr | apply keep_ite | apply keep_ite_snd | apply keep_ite_fst | apply keepO_ite | apply keepOpt_ite)
    | (intro t ht; with_reducible (have _h : Keep K t := ht))
    | lift_lets -underBinder
    | (intro u; first
        | (refine (?_ : Keep K u → _) ?_; pick_goal 2; simp only [u]; pick_goal 2; intro hu; clear_value u)
        | clear_value u | skip)
    | split)

theorem keep_dropCrates {K : Kept} (hK : K.stores = true) (s : State) (d : PDesc) (hs : Keep K s) :
    Keep K (State.dropCrates s d) := by
  unfold State.dropCrates
  repeat' (first
    | (with_reducible first | assumption | apply keep_dropRef | apply keep_foldl | apply keep_foldl2 | apply keep_foldl1)
    | (intro t ht; with_reducible (have _h : Keep K t := ht)))

theorem keep_pushCpl {K : Kept} (s : State) (k : Nat) (r : PCpl) (hs : Keep K s) :
    Keep K (State.pushCpl s k r) := by
  unfold State.pushCpl
  repeat' (first
    | (with_reducible first | assumption | apply keep_count | apply keep_mCh | apply keep_wr | apply keep_wr | apply keep_ite | apply keep_ite_snd | apply keep_ite_fst | apply keepO_ite | apply keepOpt_ite)
    | (intro t ht; with_reducible (have _h : Keep K t := ht))
    | lift_lets -underBinder
    | (intro u; first
        | (refine (?_ : Keep K u → _) ?_; pick_goal 2; simp only [u]; pick_goal 2; intro hu; clear_value u)
        | clear_value u | skip)
    | split)

theorem keep_makeRecord {K : Kept} (hK : K.stores = true) (s : State) (k : Nat) (d : PDesc) (code : Nat) (inj : Bool) (hs : Keep K s) :
    Keep K (State.makeRecord s k d code inj) := by
  unfold State.makeRecord
  repeat' (first
    | (with_reducible first | assumption | apply keep_addToken | apply keep_chRest | apply keep_count | apply keep_dropCrates | apply keep_mCh | apply keep_poisoned | apply keep_pushCpl | apply keep_raise | apply keep_set | apply keep_wr | apply keep_wr | apply keep_ite | apply keep_ite_snd | apply keep_ite_fst | apply keepO_ite | apply keepOpt_ite | apply keep_foldl | apply keep_foldl2 | apply keep_foldl1)
    | (intro t a ht; with_reducible (have _h : Keep K t := ht))
    | (intro t ht; with_reducible (have _h : Keep K t := ht))
    | lift_lets -underBinder
    | (intro u; first
        | (refine (?_ : Keep K u → _) ?_; pick_goal 2; simp only [u]; pick_goal 2; intro hu; clear_value u)
        | clear_value u | skip)
    | split)

theorem keep_endDesc {K : Kept} (hK : K.stores = true) (s : State) (k code : Nat) (inj : Bool) (hs : Keep K s) :
    Keep K (State.endDesc s k code inj) := by
  unfold State.endDesc
  repeat' (first
    | (with_reducible first | assumption | apply keep_mCh | apply keep_makeRecord | apply keep_ite | apply keep_ite_snd | apply keep_ite_fst | apply keepO_ite | apply keepOpt_ite)
    | (intro t ht; with_reducible (have _h : Keep K t := ht))
    | lift_lets -underBinder
    | (intro u; first
        | (refine (?_ : Keep K u → _) ?_; pick_goal 2; simp only [u]; pick_goal 2; intro hu; clear_value u)
        | clear_value u | skip)
    | split)

theorem keep_tryOwed {K : Kept} (hK : K.stores = true) (s : State) (k : Nat) (hs : Keep K s) :
    Keep K (State.tryOwed s k) := by
  unfold State.tryOwed
  repeat' (first
    | (with_reducible first | assumption | apply keep_endDesc)
    | (intro t ht; with_reducible (have _h : Keep K t := ht))
    | split)

theorem keep_execDescriptorStart {K : Kept} (hK : K.stores = true) (ch : Nat) (s : State) (hs : Keep K s) :
    KeepO K (execDescriptorStart ch s) := by
  unfold execDescriptorStart
  repeat' (first
    | (with_reducible assumption)
    | (with_reducible first | apply keep_endDesc | apply keep_fire | apply keep_limFire | apply keep_mCh | apply keep_poisoned | apply keep_refuse | apply keep_set | apply keep_takeRef | apply keep_wr | apply keep_wr | apply keep_ite | apply keepO_next | apply keep_ite_snd | apply keep_ite_fst | apply keepO_ite | apply keepOpt_ite | apply keep_foldl | apply keep_foldl2 | apply keep_foldl1)
    | (intro t a ht; with_reducible (have _h : Keep K t.2 := ht))
    | (intro t a ht; with_reducible (have _h : Keep K t.1 := ht))
    | (intro t a ht; with_reducible (have _h : Keep K t := ht))
    | (intro t ht; with_reducible (have _h : Keep K t := ht))
    | lift_lets -underBinder
    | (intro u; first
        | (refine (?_ : Keep K u → _) ?_; pick_goal 2; simp only [u]; pick_goal 2; intro hu; clear_value u)
        | (refine (?_ : Keep K u.2 → _) ?_; pick_goal 2; simp only [u]; pick_goal 2; intro hu; clear_value u)
        | (refine (?_ : Keep K u.1 → _) ?_; pick_goal 2; simp only [u]; pick_goal 2; intro hu; clear_value u)
        | (refine (?_ : Keep K u.st → _) ?_; pick_goal 2; simp only [u]; pick_goal 2; intro hu; clear_value u)
        | clear_value u | skip)
    | split
    | (intro t ht; with_reducible (have _h : Keep K t := ht))
    | (intro c t ht; with_reducible (have _h : Keep K t := ht))
    | dsimp -zeta only [id])

theorem keep_passPort {K : Kept} (s : State) (prt : Nat) (e : Nat × Nat) (aged : Bool) (hs : Keep K s) :
    Keep K (State.passPort s prt e aged) := by
  unfold State.passPort
  repeat' (first
    | (with_reducible first | assumption | apply keep_count | apply keep_mCh | apply keep_mPor | apply keep_set | apply keep_ite | apply keep_ite_snd | apply keep_ite_fst | apply keepO_ite | apply keepOpt_ite | apply keep_foldl | apply keep_foldl2 | apply keep_foldl1)
    | (intro t a ht; with_reducible (have _h : Keep K t := ht))
    | (intro t ht; with_reducible (have _h : Keep K t := ht))
    | lift_lets -underBinder
    | (intro u; first
        | (refine (?_ : Keep K u → _) ?_; pick_goal 2; simp only [u]; pick_goal 2; intro hu; clear_value u)
        | clear_value u | skip)
    | split)

theorem keep_egressBurst {K : Kept} (hK : K.stores = true) (s : State) (c : Nat) (hs : Keep K s) :
    Keep K (State.egressBurst s c) := by
  unfold State.egressBurst
  repeat' (first
    | (with_reducible first | assumption | apply keep_count | apply keep_dropRead | apply keep_mPor | apply keep_peak | apply keep_unitArrived | apply keep_ite | apply keep_ite_snd | apply keep_ite_fst | apply keepO_ite | apply keepOpt_ite)
    | (intro t ht; with_reducible (have _h : Keep K t := ht))
    | lift_lets -underBinder
    | (intro u; first
        | (refine (?_ : Keep K u → _) ?_; pick_goal 2; simp only [u]; pick_goal 2; intro hu; clear_value u)
        | clear_value u | skip)
    | split)

theorem keep_fillBurst {K : Kept} (hK : K.stores = true) (s : State) (hs : Keep K s) :
    Keep K (State.fillBurst s) := by
  unfold State.fillBurst
  repeat' (first
    | (with_reducible first | assumption | apply keep_count | apply keep_mPor | apply keep_putUnit | apply keep_zeroesStep | apply keep_ite | apply keep_ite_snd | apply keep_ite_fst | apply keepO_ite | apply keepOpt_ite | apply keep_foldl | apply keep_foldl2 | apply keep_foldl1 | refine keep_mCr _ _ ?_ (by rfl) | refine keep_mCrStore _ _ hK ?_ ?_ | apply keep_mem | apply wf_putBytes | apply wf_zeroBytes)
    | (intro t a ht; with_reducible (have _h : Keep K t := ht))
    | (intro t ht; with_reducible (have _h : Keep K t := ht))
    | lift_lets -underBinder
    | (intro u; first
        | (refine (?_ : Keep K u → _) ?_; pick_goal 2; simp only [u]; pick_goal 2; intro hu; clear_value u)
        | clear_value u | skip)
    | split)

theorem keep_porterJob {K : Kept} (hK : K.stores = true) (hN : K.keeps = true) (s : State) (k : Nat) (d : PDesc) (hs : Keep K s) :
    Keep K (State.porterJob s k d) := by
  unfold State.porterJob
  repeat' (first
    | (with_reducible first | assumption | apply keep_dstBytes | apply keep_endDesc | apply keep_fresh | apply keep_jobDone | apply keep_runJob | apply keep_set | apply keep_ite | apply keep_ite_snd | apply keep_ite_fst | apply keepO_ite | apply keepOpt_ite)
    | (intro t ht; with_reducible (have _h : Keep K t := ht))
    | lift_lets -underBinder
    | (intro u; first
        | (refine (?_ : Keep K u → _) ?_; pick_goal 2; simp only [u]; pick_goal 2; intro hu; clear_value u)
        | clear_value u | skip)
    | split)

theorem keep_earlyError {K : Kept} (hK : K.stores = true) (s : State) (k : Nat) (d : PDesc) (inj : Bool) (hs : Keep K s) :
    Keep K (State.earlyError s k d inj) := by
  unfold State.earlyError
  repeat' (first
    | (with_reducible first | assumption | apply keep_endDesc | apply keep_poisonCrate | apply keep_ite | apply keep_ite_snd | apply keep_ite_fst | apply keepO_ite | apply keepOpt_ite)
    | (intro t ht; with_reducible (have _h : Keep K t := ht))
    | lift_lets -underBinder
    | (intro u; first
        | (refine (?_ : Keep K u → _) ?_; pick_goal 2; simp only [u]; pick_goal 2; intro hu; clear_value u)
        | clear_value u | skip)
    | split)

theorem keep_fwBurst {K : Kept} (hK : K.stores = true) (hN : K.keeps = true) (s : State) (k : Nat) (hs : Keep K s) :
    Keep K (State.fwBurst s k) := by
  unfold State.fwBurst
  repeat' (first
    | (with_reducible assumption)
    | (with_reducible first | apply keep_crateWrite | apply keep_earlyError | apply keep_endDesc | apply keep_fire | apply keep_fresh | apply keep_mCh | apply keep_poisoned | apply keep_porterJob | apply keep_ite | apply keep_ite_snd | apply keep_ite_fst | apply keepO_ite | apply keepOpt_ite | refine keep_mCrStore _ _ hK ?_ ?_ | apply keep_mem | apply wf_putBytes | apply wf_zeroBytes)
    | (intro t a ht; with_reducible (have _h : Keep K t.2 := ht))
    | (intro t a ht; with_reducible (have _h : Keep K t.1 := ht))
    | (intro t a ht; with_reducible (have _h : Keep K t := ht))
    | (intro t ht; with_reducible (have _h : Keep K t := ht))
    | lift_lets -underBinder
    | (intro u; first
        | (refine (?_ : Keep K u → _) ?_; pick_goal 2; simp only [u]; pick_goal 2; intro hu; clear_value u)
        | (refine (?_ : Keep K u.2 → _) ?_; pick_goal 2; simp only [u]; pick_goal 2; intro hu; clear_value u)
        | (refine (?_ : Keep K u.1 → _) ?_; pick_goal 2; simp only [u]; pick_goal 2; intro hu; clear_value u)
        | (refine (?_ : Keep K u.st → _) ?_; pick_goal 2; simp only [u]; pick_goal 2; intro hu; clear_value u)
        | clear_value u | skip)
    | split
    | (intro t ht; with_reducible (have _h : Keep K t := ht))
    | (intro c t ht; with_reducible (have _h : Keep K t := ht))
    | dsimp -zeta only [id]
    | (with_reducible first | refine keep_dram _ hK ?_ (wf_putBytes _ _ _ (Keep.dram (K := K) ?_)) | refine keep_regs _ ?_ (tbl_sorted_filter _ _ (Keep.regs (K := K) ?_))))

theorem keep_execPorterBurst {K : Kept} (hK : K.stores = true) (hN : K.keeps = true) (prt : Nat) (s : State) (hs : Keep K s) :
    KeepO K (execPorterBurst prt s) := by
  unfold execPorterBurst
  repeat' (first
    | (with_reducible first | assumption | apply keep_egressBurst | apply keep_fillBurst | apply keep_fwBurst | apply keep_passPort | apply keep_ite | apply keepO_next | apply keep_ite_snd | apply keep_ite_fst | apply keepO_ite | apply keepOpt_ite)
    | (intro t ht; with_reducible (have _h : Keep K t := ht))
    | lift_lets -underBinder
    | (intro u; first
        | (refine (?_ : Keep K u → _) ?_; pick_goal 2; simp only [u]; pick_goal 2; intro hu; clear_value u)
        | clear_value u | skip)
    | split)

theorem keep_prevResponse {K : Kept} (hK : K.stores = true) (s : State) (k : Nat) (hs : Keep K s) :
    Keep K (State.prevResponse s k) := by
  unfold State.prevResponse
  repeat' (first
    | (with_reducible first | assumption | apply keep_dropCrates | apply keep_mCh | apply keep_ite | apply keep_ite_snd | apply keep_ite_fst | apply keepO_ite | apply keepOpt_ite)
    | (intro t ht; with_reducible (have _h : Keep K t := ht))
    | lift_lets -underBinder
    | (intro u; first
        | (refine (?_ : Keep K u → _) ?_; pick_goal 2; simp only [u]; pick_goal 2; intro hu; clear_value u)
        | clear_value u | skip)
    | split)

theorem keep_lateError {K : Kept} (hK : K.stores = true) (s : State) (k : Nat) (d : PDesc) (inj : Bool) (hs : Keep K s) :
    Keep K (State.lateError s k d inj) := by
  unfold State.lateError
  repeat' (first
    | (with_reducible first | assumption | apply keep_count | apply keep_mCh | apply keep_poisonCrate | apply keep_prevResponse | apply keep_pushCpl | apply keep_tryOwed | apply keep_ite | apply keep_ite_snd | apply keep_ite_fst | apply keepO_ite | apply keepOpt_ite)
    | (intro t ht; with_reducible (have _h : Keep K t := ht))
    | lift_lets -underBinder
    | (intro u; first
        | (refine (?_ : Keep K u → _) ?_; pick_goal 2; simp only [u]; pick_goal 2; intro hu; clear_value u)
        | clear_value u | skip)
    | split)

theorem keep_beatLost {K : Kept} (hK : K.stores = true) (s : State) (d : PDesc) (hs : Keep K s) :
    Keep K (State.beatLost s d) := by
  unfold State.beatLost
  repeat' (first
    | (with_reducible assumption)
    | (with_reducible first | apply keep_fresh | apply keep_ite | apply keep_ite_snd | apply keep_ite_fst | apply keepO_ite | apply keepOpt_ite | refine keep_mCrStore _ _ hK ?_ ?_ | apply keep_mem | apply wf_putBytes | apply wf_zeroBytes)
    | (intro t ht; with_reducible (have _h : Keep K t := ht))
    | lift_lets -underBinder
    | (intro u; first
        | (refine (?_ : Keep K u → _) ?_; pick_goal 2; simp only [u]; pick_goal 2; intro hu; clear_value u)
        | (refine (?_ : Keep K u.2 → _) ?_; pick_goal 2; simp only [u]; pick_goal 2; intro hu; clear_value u)
        | (refine (?_ : Keep K u.1 → _) ?_; pick_goal 2; simp only [u]; pick_goal 2; intro hu; clear_value u)
        | (refine (?_ : Keep K u.st → _) ?_; pick_goal 2; simp only [u]; pick_goal 2; intro hu; clear_value u)
        | clear_value u | skip)
    | split
    | (intro t ht; with_reducible (have _h : Keep K t := ht))
    | (intro c t ht; with_reducible (have _h : Keep K t := ht))
    | dsimp -zeta only [id]
    | (with_reducible first | refine keep_dram _ hK ?_ (wf_putBytes _ _ _ (Keep.dram (K := K) ?_)) | refine keep_regs _ ?_ (tbl_sorted_filter _ _ (Keep.regs (K := K) ?_))))

theorem keep_execPorterWriteResponse {K : Kept} (hK : K.stores = true) (ch : Nat) (s : State) (hs : Keep K s) :
    KeepO K (execPorterWriteResponse ch s) := by
  unfold execPorterWriteResponse
  repeat' (first
    | (with_reducible first | assumption | apply keep_fire | apply keep_lateError | apply keep_mCh | apply keep_prevResponse | apply keep_tryOwed | apply keep_ite | apply keepO_next | apply keep_ite_snd | apply keep_ite_fst | apply keepO_ite | apply keepOpt_ite)
    | (intro t ht; with_reducible (have _h : Keep K t := ht))
    | lift_lets -underBinder
    | (intro u; first
        | (refine (?_ : Keep K u → _) ?_; pick_goal 2; simp only [u]; pick_goal 2; intro hu; clear_value u)
        | clear_value u | skip)
    | split)

theorem keep_execWriteResponseError {K : Kept} (hK : K.stores = true) (ch : Nat) (s : State) (hs : Keep K s) :
    KeepO K (execWriteResponseError ch s) := by
  unfold execWriteResponseError
  repeat' (first
    | (with_reducible first | assumption | apply keep_beatLost | apply keep_earlyError | apply keep_lateError | apply keep_mCh | apply keep_ite | apply keepO_next | apply keep_ite_snd | apply keep_ite_fst | apply keepO_ite | apply keepOpt_ite)
    | (intro t ht; with_reducible (have _h : Keep K t := ht))
    | lift_lets -underBinder
    | (intro u; first
        | (refine (?_ : Keep K u → _) ?_; pick_goal 2; simp only [u]; pick_goal 2; intro hu; clear_value u)
        | clear_value u | skip)
    | split)

theorem keep_execPorterTimerExpiry {K : Kept} (timer : Nat) (s : State) (hs : Keep K s) :
    KeepO K (execPorterTimerExpiry timer s) := by
  unfold execPorterTimerExpiry
  repeat' (first
    | (with_reducible first | assumption | apply keep_addToken | apply keep_count | apply keep_mPor | apply keep_set | apply keep_wr | apply keep_wr | apply keep_ite | apply keepO_next | apply keep_ite_snd | apply keep_ite_fst | apply keepO_ite | apply keepOpt_ite | apply keep_foldl | apply keep_foldl2 | apply keep_foldl1)
    | (intro t a ht; with_reducible (have _h : Keep K t := ht))
    | (intro t ht; with_reducible (have _h : Keep K t := ht))
    | lift_lets -underBinder
    | (intro u; first
        | (refine (?_ : Keep K u → _) ?_; pick_goal 2; simp only [u]; pick_goal 2; intro hu; clear_value u)
        | clear_value u | skip)
    | split)

theorem keep_chEnable {K : Kept} (s : State) (ch : Nat) (on : Bool) (hs : Keep K s) :
    Keep K (State.chEnable s ch on) := by
  unfold State.chEnable
  repeat' (first
    | (with_reducible first | assumption | apply keep_chRest | apply keep_set | apply keep_wr | apply keep_wr | apply keep_ite | apply keep_ite_snd | apply keep_ite_fst | apply keepO_ite | apply keepOpt_ite)
    | (intro t ht; with_reducible (have _h : Keep K t := ht))
    | lift_lets -underBinder
    | (intro u; first
        | (refine (?_ : Keep K u → _) ?_; pick_goal 2; simp only [u]; pick_goal 2; intro hu; clear_value u)
        | clear_value u | skip)
    | split)

theorem keep_popRecord {K : Kept} (hK : K.stores = true) (s : State) (ch : Nat) (hs : Keep K s) :
    Keep K (State.popRecord s ch) := by
  unfold State.popRecord
  repeat' (first
    | (with_reducible first | assumption | apply keep_mCh | apply keep_tryOwed | apply keep_wr | apply keep_wr)
    | (intro t ht; with_reducible (have _h : Keep K t := ht))
    | lift_lets -underBinder
    | (intro u; first
        | (refine (?_ : Keep K u → _) ?_; pick_goal 2; simp only [u]; pick_goal 2; intro hu; clear_value u)
        | clear_value u | skip))

theorem keep_execChCtrlGo {K : Kept} (who : Initiator) (ch : Nat) (s : State) (hs : Keep K s) :
    KeepO K (execChCtrlGo who ch s) := by
  unfold execChCtrlGo
  repeat' (first
    | (with_reducible first | assumption | apply keep_addToken | apply keep_onChan | apply keepO_next)
    | (intro t ht; with_reducible (have _h : Keep K t := ht)))

theorem keep_stopChan {K : Kept} (s : State) (k : Nat) (hs : Keep K s) :
    Keep K (State.stopChan s k) := by
  unfold State.stopChan
  repeat' (first
    | (with_reducible first | assumption | apply keep_set | apply keep_wr | apply keep_wr | apply keep_ite | apply keep_ite_snd | apply keep_ite_fst | apply keepO_ite | apply keepOpt_ite)
    | (intro t ht; with_reducible (have _h : Keep K t := ht))
    | lift_lets -underBinder
    | (intro u; first
        | (refine (?_ : Keep K u → _) ?_; pick_goal 2; simp only [u]; pick_goal 2; intro hu; clear_value u)
        | clear_value u | skip)
    | split)

theorem keep_execChCtrlStop {K : Kept} (who : Initiator) (ch : Nat) (s : State) (hs : Keep K s) :
    KeepO K (execChCtrlStop who ch s) := by
  unfold execChCtrlStop
  repeat' (first
    | (with_reducible first | assumption | apply keep_onChan | apply keep_stopChan | apply keepO_next)
    | (intro t ht; with_reducible (have _h : Keep K t := ht)))

theorem keep_execChannelStopComplete {K : Kept} (hK : K.stores = true) (ch : Nat) (s : State) (hs : Keep K s) :
    KeepO K (execChannelStopComplete ch s) := by
  unfold execChannelStopComplete
  repeat' (first
    | (with_reducible first | assumption | apply keep_makeRecord | apply keep_poisonCrate | apply keep_set | apply keep_wr | apply keep_wr | apply keep_ite | apply keepO_next | apply keep_ite_snd | apply keep_ite_fst | apply keepO_ite | apply keepOpt_ite)
    | (intro t ht; with_reducible (have _h : Keep K t := ht))
    | lift_lets -underBinder
    | (intro u; first
        | (refine (?_ : Keep K u → _) ?_; pick_goal 2; simp only [u]; pick_goal 2; intro hu; clear_value u)
        | clear_value u | skip)
    | split)

theorem keep_execChCtrlEnable {K : Kept} (who : Initiator) (ch : Nat) (on : Bool) (s : State) (hs : Keep K s) :
    KeepO K (execChCtrlEnable who ch on s) := by
  unfold execChCtrlEnable
  repeat' (first
    | (with_reducible first | assumption | apply keep_chEnable | apply keep_onChan | apply keepO_next)
    | (intro t ht; with_reducible (have _h : Keep K t := ht)))

theorem keep_execCplPop {K : Kept} (hK : K.stores = true) (who : Initiator) (ch : Nat) (s : State) (hs : Keep K s) :
    KeepO K (execCplPop who ch s) := by
  unfold execCplPop
  repeat' (first
    | (with_reducible first | assumption | apply keep_onChan | apply keep_popRecord | apply keepO_next)
    | (intro t ht; with_reducible (have _h : Keep K t := ht)))

theorem keep_porterCoreReset {K : Kept} (s : State) (hs : Keep K s) :
    Keep K (State.porterCoreReset s) := by
  unfold State.porterCoreReset
  repeat' (first
    | (with_reducible first | assumption | apply keep_stopChan | apply keep_wr | apply keep_wr | apply keep_foldl | apply keep_foldl2 | apply keep_foldl1)
    | (intro t a ht; with_reducible (have _h : Keep K t := ht))
    | (intro t ht; with_reducible (have _h : Keep K t := ht))
    | lift_lets -underBinder
    | (intro u; first
        | (refine (?_ : Keep K u → _) ?_; pick_goal 2; simp only [u]; pick_goal 2; intro hu; clear_value u)
        | clear_value u | skip))

theorem keep_porterClosing {K : Kept} (s : State) (hs : Keep K s) :
    Keep K (State.porterClosing s) := by
  unfold State.porterClosing
  repeat' (first
    | (with_reducible first | assumption | apply keep_stopChan | apply keep_foldl | apply keep_foldl2 | apply keep_foldl1)
    | (intro t ht; with_reducible (have _h : Keep K t := ht)))

end Sys2Proof.Laws
end

