-- ==== Sys2Proof/Laws/KeepMemory.lean ====
section
/-! SUPPORT. The operations of Machine/Memory.lean keep the queue and the canonical forms. -/

namespace Sys2Proof.Laws

open Sys2Proof Sys2Proof.Machine

set_option linter.unusedTactic false
set_option linter.unreachableTactic false
set_option linter.unusedVariables false

theorem keep_tabled {K : Kept} (s : State) (g addr syndrome : Nat) (hs : Keep K s) :
    Keep K (State.tabled s g addr syndrome) := by
  unfold State.tabled
  repeat' (first
    | (with_reducible first | assumption | apply keep_count | apply keep_fresh | apply keep_mInteg | apply keep_record | apply keep_set | apply keep_ite | apply keep_ite_snd | apply keep_ite_fst | apply keepO_ite | apply keepOpt_ite)
    | (intro t ht; with_reducible (have _h : Keep K t := ht))
    | lift_lets -underBinder
    | (intro u; first
        | (refine (?_ : Keep K u → _) ?_; pick_goal 2; simp only [u]; pick_goal 2; intro hu; clear_value u)
        | clear_value u | skip)
    | split)

theorem keep_corrected {K : Kept} (s : State) (g addr syndrome : Nat) (hs : Keep K s) :
    Keep K (State.corrected s g addr syndrome) := by
  unfold State.corrected
  repeat' (with_reducible first | assumption | apply keep_count | apply keep_tabled)

theorem keep_execCorrectableError {K : Kept} (group addr syndrome : Nat) (s : State) (hs : Keep K s) :
    KeepO K (execCorrectableError group addr syndrome s) := by
  unfold execCorrectableError
  repeat' (first
    | (with_reducible first | assumption | apply keep_corrected | apply keep_ite | apply keepO_next | apply keep_ite_snd | apply keep_ite_fst | apply keepO_ite | apply keepOpt_ite)
    | (intro t ht; with_reducible (have _h : Keep K t := ht))
    | (intro (_ : _); show Keep K _)
    | split)

theorem keep_crateBad {K : Kept} (s : State) (a : Nat) (hs : Keep K s) :
    Keep K (State.crateBad s a) := by
  unfold State.crateBad
  repeat' (first
    | (with_reducible first | assumption | apply keep_set | apply keep_ite | apply keep_ite_snd | apply keep_ite_fst | apply keepO_ite | apply keepOpt_ite | refine keep_mCr _ _ ?_ (by rfl))
    | (intro t ht; with_reducible (have _h : Keep K t := ht))
    | lift_lets -underBinder
    | (intro u; first
        | (refine (?_ : Keep K u → _) ?_; pick_goal 2; simp only [u]; pick_goal 2; intro hu; clear_value u)
        | clear_value u | skip)
    | split)

theorem keep_lineLost {K : Kept} (s : State) (line : Nat) (hs : Keep K s) :
    Keep K (State.lineLost s line) := by
  unfold State.lineLost
  repeat' (first
    | (with_reducible first | assumption | apply keep_count | apply keep_critical | apply keep_mLed | apply keep_record | apply keep_set | apply keep_foldl | apply keep_foldl2 | apply keep_foldl1)
    | (intro t a ht; with_reducible (have _h : Keep K t := ht))
    | (intro t ht; with_reducible (have _h : Keep K t := ht))
    | lift_lets -underBinder
    | (intro u; first
        | (refine (?_ : Keep K u → _) ?_; pick_goal 2; simp only [u]; pick_goal 2; intro hu; clear_value u)
        | clear_value u | skip)
    | split)

theorem keep_cacheBad {K : Kept} (s : State) (line : Nat) (hs : Keep K s) :
    Keep K (State.cacheBad s line) := by
  unfold State.cacheBad
  repeat' (first
    | (with_reducible first | assumption | apply keep_count | apply keep_lineLost | apply keep_mLc | apply keep_setWay | apply keep_ite | apply keep_ite_snd | apply keep_ite_fst | apply keepO_ite | apply keepOpt_ite)
    | (intro t ht; with_reducible (have _h : Keep K t := ht))
    | lift_lets -underBinder
    | (intro u; first
        | (refine (?_ : Keep K u → _) ?_; pick_goal 2; simp only [u]; pick_goal 2; intro hu; clear_value u)
        | clear_value u | skip)
    | split)

theorem keep_tagBad {K : Kept} (s : State) (place : Nat) (hs : Keep K s) :
    Keep K (State.tagBad s place) := by
  unfold State.tagBad
  repeat' (first
    | (with_reducible first | assumption | apply keep_cacheDisable | apply keep_mLc | apply keep_record)
    | (intro t ht; with_reducible (have _h : Keep K t := ht)))

theorem keep_stopAdmission {K : Kept} (s : State) (hs : Keep K s) :
    Keep K (State.stopAdmission s) := by
  unfold State.stopAdmission
  repeat' (first
    | (with_reducible first | assumption | apply keep_mPit)
    | (intro t ht; with_reducible (have _h : Keep K t := ht)))

theorem keep_rowBad {K : Kept} (s : State) (row : Nat) (hs : Keep K s) :
    Keep K (State.rowBad s row) := by
  unfold State.rowBad
  repeat' (first
    | (with_reducible first | assumption | apply keep_count | apply keep_critical | apply keep_mLed | apply keep_record | apply keep_stopAdmission | apply keep_untake | apply keep_ite | apply keep_ite_snd | apply keep_ite_fst | apply keepO_ite | apply keepOpt_ite)
    | (intro t ht; with_reducible (have _h : Keep K t := ht))
    | lift_lets -underBinder
    | (intro u; first
        | (refine (?_ : Keep K u → _) ?_; pick_goal 2; simp only [u]; pick_goal 2; intro hu; clear_value u)
        | clear_value u | skip)
    | split)

theorem keep_dramBad {K : Kept} (s : State) (a : Nat) (hs : Keep K s) :
    Keep K (State.dramBad s a) := by
  unfold State.dramBad
  repeat' (first
    | (with_reducible first | assumption | apply keep_lineBad | apply keep_ite | apply keep_ite_snd | apply keep_ite_fst | apply keepO_ite | apply keepOpt_ite)
    | (intro t ht; with_reducible (have _h : Keep K t := ht))
    | (intro (_ : _); show Keep K _)
    | split)

theorem keep_reloadSlot {K : Kept} (s : State) (slot : Nat) (hs : Keep K s) :
    Keep K (State.reloadSlot s slot) := by
  unfold State.reloadSlot
  repeat' (first
    | (with_reducible first | assumption | apply keep_count | apply keep_mCiph | apply keep_record | apply keep_set)
    | (intro t ht; with_reducible (have _h : Keep K t := ht))
    | lift_lets -underBinder
    | (intro u; first
        | (refine (?_ : Keep K u → _) ?_; pick_goal 2; simp only [u]; pick_goal 2; intro hu; clear_value u)
        | clear_value u | skip)
    | split)

theorem keep_cipherBad {K : Kept} (hK : K.stores = true) (s : State) (addr what : Nat) (hs : Keep K s) :
    Keep K (State.cipherBad s addr what) := by
  unfold State.cipherBad
  repeat' (first
    | (with_reducible first | assumption | apply keep_count | apply keep_dropRead | apply keep_endJob | apply keep_mergeFailed | apply keep_reloadSlot | apply keep_setChain | apply keep_setGen | apply keep_unitFailed | apply keep_ite | apply keep_ite_snd | apply keep_ite_fst | apply keepO_ite | apply keepOpt_ite | apply keep_foldl | apply keep_foldl2 | apply keep_foldl1)
    | (intro t a ht; with_reducible (have _h : Keep K t := ht))
    | (intro t ht; with_reducible (have _h : Keep K t := ht))
    | lift_lets -underBinder
    | (intro u; first
        | (refine (?_ : Keep K u → _) ?_; pick_goal 2; simp only [u]; pick_goal 2; intro hu; clear_value u)
        | clear_value u | skip)
    | split)

theorem keep_porterBad {K : Kept} (hK : K.stores = true) (s : State) (addr : Nat) (hs : Keep K s) :
    Keep K (State.porterBad s addr) := by
  unfold State.porterBad
  repeat' (first
    | (with_reducible first | assumption | apply keep_dropRead | apply keep_endDesc | apply keep_mPor | apply keep_unitFailed | apply keep_ite | apply keep_ite_snd | apply keep_ite_fst | apply keepO_ite | apply keepOpt_ite)
    | (intro t ht; with_reducible (have _h : Keep K t := ht))
    | lift_lets -underBinder
    | (intro u; first
        | (refine (?_ : Keep K u → _) ?_; pick_goal 2; simp only [u]; pick_goal 2; intro hu; clear_value u)
        | clear_value u | skip)
    | split)

theorem keep_recordLost {K : Kept} (s : State) (slot : Nat) (hs : Keep K s) :
    Keep K (State.recordLost s slot) := by
  unfold State.recordLost
  repeat' (first
    | (with_reducible first | assumption | apply keep_count | apply keep_mLog | apply keep_record | apply keep_ite | apply keep_ite_snd | apply keep_ite_fst | apply keepO_ite | apply keepOpt_ite)
    | (intro t ht; with_reducible (have _h : Keep K t := ht))
    | (intro (_ : _); show Keep K _)
    | split)

theorem keep_uncorrected {K : Kept} (hK : K.stores = true) (hN : K.keeps = true) (s : State) (g addr what : Nat) (hs : Keep K s) :
    Keep K (State.uncorrected s g addr what) := by
  unfold State.uncorrected
  repeat' (first
    | (with_reducible first | assumption | apply keep_cacheBad | apply keep_cipherBad | apply keep_crateBad | apply keep_dramBad | apply keep_loseGroup | apply keep_porterBad | apply keep_recordLost | apply keep_rowBad | apply keep_stopAdmission | apply keep_tagBad | apply keep_ite | apply keep_ite_snd | apply keep_ite_fst | apply keepO_ite | apply keepOpt_ite)
    | (intro t ht; with_reducible (have _h : Keep K t := ht))
    | (intro (_ : _); show Keep K _)
    | split)

theorem keep_execUncorrectableError {K : Kept} (hK : K.stores = true) (hN : K.keeps = true) (group addr what : Nat) (s : State) (hs : Keep K s) :
    KeepO K (execUncorrectableError group addr what s) := by
  unfold execUncorrectableError
  repeat' (first
    | (with_reducible first | assumption | apply keep_count | apply keep_tabled | apply keep_uncorrected | apply keep_ite | apply keepO_next | apply keep_ite_snd | apply keep_ite_fst | apply keepO_ite | apply keepOpt_ite)
    | (intro t ht; with_reducible (have _h : Keep K t := ht))
    | (intro (_ : _); show Keep K _)
    | split)

theorem keep_execMemoryScrubWalk {K : Kept} (group addr : Nat) (bad : Bool) (s : State) (hs : Keep K s) :
    KeepO K (execMemoryScrubWalk group addr bad s) := by
  unfold execMemoryScrubWalk
  repeat' (first
    | (with_reducible first | assumption | apply keep_corrected | apply keep_count | apply keep_fire | apply keep_fresh | apply keep_ite | apply keepO_next | apply keep_ite_snd | apply keep_ite_fst | apply keepO_ite | apply keepOpt_ite)
    | (intro t ht; with_reducible (have _h : Keep K t := ht))
    | lift_lets -underBinder
    | (intro u; first
        | (refine (?_ : Keep K u → _) ?_; pick_goal 2; simp only [u]; pick_goal 2; intro hu; clear_value u)
        | clear_value u | skip)
    | split)

theorem keep_camRow {K : Kept} (s : State) (e : Nat × Nat) (hs : Keep K s) :
    Keep K (camRow s e) := by
  unfold camRow
  repeat' (first
    | (with_reducible first | assumption | apply keep_count | apply keep_rowBad | apply keep_tabled | apply keep_ite | apply keep_ite_snd | apply keep_ite_fst | apply keepO_ite | apply keepOpt_ite)
    | (intro t ht; with_reducible (have _h : Keep K t := ht))
    | (intro (_ : _); show Keep K _)
    | split)

theorem keep_execCamParityWalk {K : Kept} (bad : List (Nat × Nat)) (s : State) (hs : Keep K s) :
    KeepO K (execCamParityWalk bad s) := by
  unfold execCamParityWalk
  repeat' (first
    | (with_reducible first | assumption | apply keep_camRow | apply keep_count | apply keep_fire | apply keep_ite | apply keepO_next | apply keep_ite_snd | apply keep_ite_fst | apply keepO_ite | apply keepOpt_ite | apply keep_foldl | apply keep_foldl2 | apply keep_foldl1)
    | (intro t a ht; with_reducible (have _h : Keep K t := ht))
    | (intro t ht; with_reducible (have _h : Keep K t := ht))
    | lift_lets -underBinder
    | (intro u; first
        | (refine (?_ : Keep K u → _) ?_; pick_goal 2; simp only [u]; pick_goal 2; intro hu; clear_value u)
        | clear_value u | skip)
    | split)

end Sys2Proof.Laws
end

