-- ==== Sys2Proof/Laws/KeepFlash.lean ====
section
/-! SUPPORT. The operations of Machine/Flash.lean keep the queue and the canonical forms. -/

namespace Sys2Proof.Laws

open Sys2Proof Sys2Proof.Machine

set_option linter.unusedTactic false
set_option linter.unreachableTactic false
set_option linter.unusedVariables false

theorem nvOk_eraseSector (v : Nv) (n : Nat) : NvOk v (v.eraseSector n) := NvOk.mk rfl (List.prefix_refl _)

theorem nvOk_programWords (v : Nv) (a : Nat) (l : List Nat) : NvOk v (v.programWords a l) := by
  induction l generalizing v a with
  | nil => exact NvOk.mk rfl (List.prefix_refl _)
  | cons w t ih =>
    rw [Nv.programWords]
    have hx : NvOk v (if v.words.get erasedWord a = erasedWord ∧ v.undef.contains a = false then
        { v with words := v.words.set erasedWord a w } else v) :=
      nvOk_ite (NvOk.mk rfl (List.prefix_refl _)) (NvOk.mk rfl (List.prefix_refl _))
    have h := ih (if v.words.get erasedWord a = erasedWord ∧ v.undef.contains a = false then
      { v with words := v.words.set erasedWord a w } else v) (a + 1)
    exact NvOk.mk (h.epoch.trans hx.epoch) (hx.perm.trans h.perm)

theorem keep_permDone {K : Kept} (hN : K.keeps = true) (s : State) (good : Bool) (hs : Keep K s) :
    Keep K (State.permDone s good) := by
  unfold State.permDone
  repeat' (first
    | (with_reducible first | assumption | apply keep_mLog | apply keep_wr | apply keep_wr | apply keep_ite | apply keep_ite_snd | apply keep_ite_fst | apply keepO_ite | apply keepOpt_ite | refine keep_mNv _ _ hN ?_ (NvOk.mk rfl (List.prefix_refl _)) | refine keep_mNv _ _ hN ?_ (NvOk.mk rfl (List.prefix_append _ _)) | refine keep_mNv _ _ hN ?_ ?_ | exact NvOk.mk rfl (List.prefix_refl _) | apply nvOk_ite)
    | (intro t ht; with_reducible (have _h : Keep K t := ht))
    | lift_lets -underBinder
    | (intro u; first
        | (refine (?_ : Keep K u → _) ?_; pick_goal 2; simp only [u]; pick_goal 2; intro hu; clear_value u)
        | clear_value u | skip)
    | split)

theorem keep_flCut {K : Kept} (hN : K.keeps = true) (s : State) (o : FlOp) (hs : Keep K s) :
    Keep K (State.flCut s o) := by
  unfold State.flCut
  repeat' (first
    | (with_reducible first | assumption | apply keep_permDone | apply keep_ite | apply keep_ite_snd | apply keep_ite_fst | apply keepO_ite | apply keepOpt_ite | refine keep_mNv _ _ hN ?_ (NvOk.mk rfl (List.prefix_refl _)) | refine keep_mNv _ _ hN ?_ (NvOk.mk rfl (List.prefix_append _ _)) | refine keep_mNv _ _ hN ?_ ?_ | exact NvOk.mk rfl (List.prefix_refl _) | apply nvOk_ite)
    | (intro t ht; with_reducible (have _h : Keep K t := ht))
    | lift_lets -underBinder
    | (intro u; first
        | (refine (?_ : Keep K u → _) ?_; pick_goal 2; simp only [u]; pick_goal 2; intro hu; clear_value u)
        | clear_value u | skip)
    | split)

theorem keep_flIdle {K : Kept} (s : State) (bank : Nat) (hs : Keep K s) :
    Keep K (State.flIdle s bank) := by
  unfold State.flIdle
  repeat' (first
    | (with_reducible first | assumption | apply keep_mCf | apply keep_set | apply keep_wr)
    | (intro t ht; with_reducible (have _h : Keep K t := ht)))

theorem keep_flStop {K : Kept} (hN : K.keeps = true) (s : State) (bank : Nat) (perm : Bool) (hs : Keep K s) :
    Keep K (State.flStop s bank perm) := by
  unfold State.flStop
  repeat' (first
    | (with_reducible first | assumption | apply keep_flCut | apply keep_flIdle | apply keep_ite | apply keep_ite_snd | apply keep_ite_fst | apply keepO_ite | apply keepOpt_ite)
    | (intro t ht; with_reducible (have _h : Keep K t := ht))
    | (intro (_ : _); show Keep K _)
    | split)

theorem keep_flAbandon {K : Kept} (hN : K.keeps = true) (s : State) (hs : Keep K s) :
    Keep K (State.flAbandon s) := by
  unfold State.flAbandon
  repeat' (first
    | (with_reducible first | assumption | apply keep_flNext | apply keep_flStop | apply keep_mCf | apply keep_set | apply keep_wr | apply keep_wr | apply keep_ite | apply keep_ite_snd | apply keep_ite_fst | apply keepO_ite | apply keepOpt_ite)
    | (intro t ht; with_reducible (have _h : Keep K t := ht))
    | lift_lets -underBinder
    | (intro u; first
        | (refine (?_ : Keep K u → _) ?_; pick_goal 2; simp only [u]; pick_goal 2; intro hu; clear_value u)
        | clear_value u | skip)
    | split)

theorem keep_flAsk {K : Kept} (hN : K.keeps = true) (s : State) (o : FlOp) (hs : Keep K s) :
    Keep K (State.flAsk s o) := by
  unfold State.flAsk
  repeat' (first
    | (with_reducible first | assumption | apply keep_flNext | apply keep_mCf | apply keep_set)
    | (intro t ht; with_reducible (have _h : Keep K t := ht))
    | lift_lets -underBinder
    | (intro u; first
        | (refine (?_ : Keep K u → _) ?_; pick_goal 2; simp only [u]; pick_goal 2; intro hu; clear_value u)
        | clear_value u | skip))

theorem keep_execFlashOperationSuspend {K : Kept} (bank : Nat) (s : State) (hs : Keep K s) :
    KeepO K (execFlashOperationSuspend bank s) := by
  unfold execFlashOperationSuspend
  repeat' (first
    | (with_reducible first | assumption | apply keep_mCf | apply keep_set | apply keep_ite | apply keepO_next | apply keep_ite_snd | apply keep_ite_fst | apply keepO_ite | apply keepOpt_ite)
    | (intro t ht; with_reducible (have _h : Keep K t := ht))
    | (intro (_ : _); show Keep K _)
    | split)

theorem keep_flCommand {K : Kept} (hN : K.keeps = true) (s : State) (who : Initiator) (erase : Bool) (hs : Keep K s) :
    Keep K (State.flCommand s who erase) := by
  unfold State.flCommand
  repeat' (first
    | (with_reducible first | assumption | apply keep_count | apply keep_denyWrite | apply keep_flAsk | apply keep_limFire | apply keep_refuse | apply keep_set | apply keep_wr | apply keep_wr | apply keep_ite | apply keep_ite_snd | apply keep_ite_fst | apply keepO_ite | apply keepOpt_ite)
    | (intro t ht; with_reducible (have _h : Keep K t := ht))
    | lift_lets -underBinder
    | (intro u; first
        | (refine (?_ : Keep K u → _) ?_; pick_goal 2; simp only [u]; pick_goal 2; intro hu; clear_value u)
        | clear_value u | skip)
    | split)

theorem keep_execFlCmdErase {K : Kept} (hN : K.keeps = true) (who : Initiator) (s : State) (hs : Keep K s) :
    KeepO K (execFlCmdErase who s) := by
  unfold execFlCmdErase
  repeat' (with_reducible first | assumption | apply keep_flCommand | apply keepO_next)

theorem keep_execFlCmdProgram {K : Kept} (hN : K.keeps = true) (who : Initiator) (s : State) (hs : Keep K s) :
    KeepO K (execFlCmdProgram who s) := by
  unfold execFlCmdProgram
  repeat' (with_reducible first | assumption | apply keep_flCommand | apply keepO_next)

theorem keep_flashEcc {K : Kept} (s : State) (a : Nat) (ue : Bool) (hs : Keep K s) :
    Keep K (State.flashEcc s a ue) := by
  unfold State.flashEcc
  repeat' (first
    | (with_reducible first | assumption | apply keep_count | apply keep_wr | apply keep_wr | apply keep_ite | apply keep_ite_snd | apply keep_ite_fst | apply keepO_ite | apply keepOpt_ite)
    | (intro t ht; with_reducible (have _h : Keep K t := ht))
    | (intro (_ : _); show Keep K _)
    | split)

theorem keep_flashNote {K : Kept} (s : State) (code a : Nat) (who : Initiator) (hs : Keep K s) :
    Keep K (State.flashNote s code a who) := by
  unfold State.flashNote
  repeat' (with_reducible first | assumption | apply keep_record)

theorem keep_execCodeFlashDataRead {K : Kept} (who : Initiator) (addr : Nat) (s : State) (hs : Keep K s) :
    KeepO K (execCodeFlashDataRead who addr s) := by
  unfold execCodeFlashDataRead
  repeat' (first
    | (with_reducible first | assumption | apply keep_answer | apply keep_busError | apply keep_count | apply keep_fire | apply keep_flashEcc | apply keep_flashNote | apply keep_fresh | apply keep_ite | apply keepO_next | apply keep_ite_snd | apply keep_ite_fst | apply keepO_ite | apply keepOpt_ite)
    | (intro t ht; with_reducible (have _h : Keep K t := ht))
    | lift_lets -underBinder
    | (intro u; first
        | (refine (?_ : Keep K u → _) ?_; pick_goal 2; simp only [u]; pick_goal 2; intro hu; clear_value u)
        | clear_value u | skip)
    | split)

end Sys2Proof.Laws
end

