-- ==== Sys2Proof/Laws/KeepCores.lean ====
section
/-! SUPPORT. The operations of Machine/Cores.lean keep the queue and the canonical forms. -/

namespace Sys2Proof.Laws

open Sys2Proof Sys2Proof.Machine

set_option linter.unusedTactic false
set_option linter.unreachableTactic false
set_option linter.unusedVariables false

theorem keep_showDesc {K : Kept} (s : State) (hs : Keep K s) :
    Keep K (State.showDesc s) := by
  unfold State.showDesc
  repeat' (first
    | (with_reducible first | assumption | apply keep_wr | apply keep_wr | apply keepO_next)
    | (intro t ht; with_reducible (have _h : Keep K t := ht))
    | lift_lets -underBinder
    | (intro u; first
        | (refine (?_ : Keep K u → _) ?_; pick_goal 2; simp only [u]; pick_goal 2; intro hu; clear_value u)
        | clear_value u | skip))

theorem keep_appendDesc {K : Kept} (hN : K.keeps = true) (s : State) (g : SlotDesc → SlotDesc) (hs : Keep K s) :
    Keep K (State.appendDesc s g) := by
  unfold State.appendDesc
  repeat' (first
    | (with_reducible first | assumption | apply keep_showDesc | refine keep_mNv _ _ hN ?_ (NvOk.mk rfl (List.prefix_refl _)) | refine keep_mNv _ _ hN ?_ (NvOk.mk rfl (List.prefix_append _ _)) | refine keep_mNv _ _ hN ?_ ?_ | exact NvOk.mk rfl (List.prefix_refl _) | apply nvOk_ite)
    | (intro t ht; with_reducible (have _h : Keep K t := ht))
    | lift_lets -underBinder
    | (intro u; first
        | (refine (?_ : Keep K u → _) ?_; pick_goal 2; simp only [u]; pick_goal 2; intro hu; clear_value u)
        | clear_value u | skip))

theorem keep_fallBack {K : Kept} (hN : K.keeps = true) (s : State) (slot cause : Nat) (clearTrial : Bool) (hs : Keep K s) :
    Keep K (State.fallBack s slot cause clearTrial) := by
  unfold State.fallBack
  repeat' (first
    | (with_reducible first | assumption | apply keep_appendDesc | apply keep_record | apply keep_wr | apply keep_wr | apply keep_ite | apply keep_ite_snd | apply keep_ite_fst | apply keepO_ite | apply keepOpt_ite | refine keep_mNv _ _ hN ?_ (NvOk.mk rfl (List.prefix_refl _)) | refine keep_mNv _ _ hN ?_ (NvOk.mk rfl (List.prefix_append _ _)) | refine keep_mNv _ _ hN ?_ ?_ | exact NvOk.mk rfl (List.prefix_refl _) | apply nvOk_ite)
    | (intro t ht; with_reducible (have _h : Keep K t := ht))
    | lift_lets -underBinder
    | (intro u; first
        | (refine (?_ : Keep K u → _) ?_; pick_goal 2; simp only [u]; pick_goal 2; intro hu; clear_value u)
        | clear_value u | skip)
    | split)

theorem keep_trialFail {K : Kept} (hN : K.keeps = true) (s : State) (cause : Nat) (hs : Keep K s) :
    Keep K (State.trialFail s cause) := by
  unfold State.trialFail
  repeat' (first
    | (with_reducible first | assumption | apply keep_fallBack | apply keep_ite | apply keep_ite_snd | apply keep_ite_fst | apply keepO_ite | apply keepOpt_ite)
    | (intro t ht; with_reducible (have _h : Keep K t := ht))
    | lift_lets -underBinder
    | (intro u; first
        | (refine (?_ : Keep K u → _) ?_; pick_goal 2; simp only [u]; pick_goal 2; intro hu; clear_value u)
        | clear_value u | skip)
    | split)

theorem keep_dropStaging {K : Kept} (s : State) (src : Nat) (hs : Keep K s) :
    Keep K (State.dropStaging s src) := by
  unfold State.dropStaging
  repeat' (first
    | (with_reducible first | assumption | apply keep_mCf | apply keep_set | apply keep_wr | apply keep_wr)
    | (intro t ht; with_reducible (have _h : Keep K t := ht)))

theorem keep_releaseLock {K : Kept} (s : State) (src : Nat) (hs : Keep K s) :
    Keep K (State.releaseLock s src) := by
  unfold State.releaseLock
  repeat' (first
    | (with_reducible first | assumption | apply keep_dropStaging | apply keep_wr | apply keep_wr | apply keep_ite | apply keep_ite_snd | apply keep_ite_fst | apply keepO_ite | apply keepOpt_ite)
    | (intro t ht; with_reducible (have _h : Keep K t := ht))
    | (intro (_ : _); show Keep K _)
    | split)

theorem keep_admShow {K : Kept} (s : State) (hs : Keep K s) :
    Keep K (State.admShow s) := by
  unfold State.admShow
  repeat' (first
    | (with_reducible first | assumption | apply keep_wr | apply keep_wr)
    | (intro t ht; with_reducible (have _h : Keep K t := ht))
    | lift_lets -underBinder
    | (intro u; first
        | (refine (?_ : Keep K u → _) ?_; pick_goal 2; simp only [u]; pick_goal 2; intro hu; clear_value u)
        | clear_value u | skip)
    | split)

theorem keep_seatAdm {K : Kept} (s : State) (l : List AdmSlot) (hs : Keep K s) : Keep K (seatAdm s l) := by
  induction l generalizing s with
  | nil => exact hs
  | cons n t ih =>
    rw [seatAdm]
    repeat' (first
      | (with_reducible assumption)
      | (with_reducible first | apply ih | apply keep_mCore | apply keep_ite | apply keep_ite_snd | apply keep_ite_fst | apply keepO_ite | apply keepOpt_ite)
      | (intro t ht; with_reducible (have _h : Keep K t := ht))
      | lift_lets -underBinder
      | (intro u; first
          | (refine (?_ : Keep K u → _) ?_; pick_goal 2; simp only [u]; pick_goal 2; intro hu; clear_value u)
          | (refine (?_ : Keep K u.2 → _) ?_; pick_goal 2; simp only [u]; pick_goal 2; intro hu; clear_value u)
          | (refine (?_ : Keep K u.1 → _) ?_; pick_goal 2; simp only [u]; pick_goal 2; intro hu; clear_value u)
          | (refine (?_ : Keep K u.st → _) ?_; pick_goal 2; simp only [u]; pick_goal 2; intro hu; clear_value u)
          | clear_value u | skip)
      | split
      | (intro t ht; with_reducible (have _h : Keep K t := ht))
      | (intro c t ht; with_reducible (have _h : Keep K t := ht))
      | dsimp -zeta only [id])


theorem keep_admSettle {K : Kept} (s : State) (hs : Keep K s) :
    Keep K (State.admSettle s) := by
  unfold State.admSettle
  repeat' (first
    | (with_reducible first | assumption | apply keep_admShow | apply keep_mCore | apply keep_seatAdm)
    | (intro t ht; with_reducible (have _h : Keep K t := ht))
    | lift_lets -underBinder
    | (intro u; first
        | (refine (?_ : Keep K u → _) ?_; pick_goal 2; simp only [u]; pick_goal 2; intro hu; clear_value u)
        | clear_value u | skip))

theorem keep_handOver {K : Kept} (s : State) (c : Cmd) (hs : Keep K s) :
    Keep K (State.handOver s c) := by
  unfold State.handOver
  repeat' (first
    | (with_reducible first | assumption | apply keep_admSettle | apply keep_mCmd | apply keep_mCore)
    | (intro t ht; with_reducible (have _h : Keep K t := ht))
    | lift_lets -underBinder
    | (intro u; first
        | (refine (?_ : Keep K u → _) ?_; pick_goal 2; simp only [u]; pick_goal 2; intro hu; clear_value u)
        | clear_value u | skip))

theorem keep_dropAdm {K : Kept} (s : State) (uid : Nat) (hs : Keep K s) :
    Keep K (State.dropAdm s uid) := by
  unfold State.dropAdm
  repeat' (first
    | (with_reducible first | assumption | apply keep_admSettle | apply keep_mCore)
    | (intro t ht; with_reducible (have _h : Keep K t := ht))
    | split)

theorem keep_execAdmTake {K : Kept} (who : Initiator) (s : State) (hs : Keep K s) :
    KeepO K (execAdmTake who s) := by
  unfold execAdmTake
  repeat' (first
    | (with_reducible first | assumption | apply keep_access | apply keep_admShow | apply keep_denyWrite | apply keep_mCore | apply keep_set | apply keep_ite | apply keepO_next | apply keep_ite_snd | apply keep_ite_fst | apply keepO_ite | apply keepOpt_ite)
    | (intro t ht; with_reducible (have _h : Keep K t := ht))
    | (intro (_ : _); show Keep K _)
    | split)

theorem keep_execAdmCplGo {K : Kept} (who : Initiator) (value : Nat) (s : State) (hs : Keep K s) :
    KeepO K (execAdmCplGo who value s) := by
  unfold execAdmCplGo
  repeat' (first
    | (with_reducible first | assumption | apply keep_access | apply keep_complete | apply keep_denyWrite | apply keep_dropAdm | apply keep_limFire | apply keep_refuse | apply keep_set | apply keep_ite | apply keepO_next | apply keep_ite_snd | apply keep_ite_fst | apply keepO_ite | apply keepOpt_ite)
    | (intro t ht; with_reducible (have _h : Keep K t := ht))
    | lift_lets -underBinder
    | (intro u; first
        | (refine (?_ : Keep K u → _) ?_; pick_goal 2; simp only [u]; pick_goal 2; intro hu; clear_value u)
        | clear_value u | skip)
    | split)

theorem keep_markReplay {K : Kept} (s : State) (hs : Keep K s) :
    Keep K (State.markReplay s) := by
  unfold State.markReplay
  repeat' (first
    | (with_reducible first | assumption | apply keep_admShow | apply keep_mCore)
    | (intro t ht; with_reducible (have _h : Keep K t := ht)))

theorem keep_coreReset {K : Kept} (hK : K.stores = true) (hN : K.keeps = true) (s : State) (cause hart : Nat) (hs : Keep K s) :
    Keep K (State.coreReset s cause hart) := by
  unfold State.coreReset
  repeat' (first
    | (with_reducible first | assumption | apply keep_cipherCoreReset | apply keep_count | apply keep_mCore | apply keep_mDev | apply keep_markReplay | apply keep_porterCoreReset | apply keep_reclaimLent | apply keep_set | apply keep_wr | apply keep_wr64 | apply keep_wr | apply keep_ite | apply keep_ite_snd | apply keep_ite_fst | apply keepO_ite | apply keepOpt_ite)
    | (intro t ht; with_reducible (have _h : Keep K t := ht))
    | lift_lets -underBinder
    | (intro u; first
        | (refine (?_ : Keep K u → _) ?_; pick_goal 2; simp only [u]; pick_goal 2; intro hu; clear_value u)
        | clear_value u | skip)
    | split)

theorem keep_coreRelease {K : Kept} (s : State) (hs : Keep K s) :
    Keep K (State.coreRelease s) := by
  unfold State.coreRelease
  repeat' (first
    | (with_reducible first | assumption | apply keep_admShow | apply keep_mCore | apply keep_mDev | apply keep_set | apply keep_wr | apply keep_wr | apply keep_foldl | apply keep_foldl2 | apply keep_foldl1)
    | (intro t a ht; with_reducible (have _h : Keep K t := ht))
    | (intro t ht; with_reducible (have _h : Keep K t := ht))
    | lift_lets -underBinder
    | (intro u; first
        | (refine (?_ : Keep K u → _) ?_; pick_goal 2; simp only [u]; pick_goal 2; intro hu; clear_value u)
        | clear_value u | skip))

theorem keep_execCoreResetRelease {K : Kept} (s : State) (hs : Keep K s) :
    KeepO K (execCoreResetRelease s) := by
  unfold execCoreResetRelease
  repeat' (first
    | (with_reducible first | assumption | apply keep_coreRelease | apply keep_ite | apply keepO_next | apply keep_ite_snd | apply keep_ite_fst | apply keepO_ite | apply keepOpt_ite)
    | (intro t ht; with_reducible (have _h : Keep K t := ht))
    | (intro (_ : _); show Keep K _)
    | split)

theorem keep_execCoreRstGo {K : Kept} (hK : K.stores = true) (hN : K.keeps = true) (who : Initiator) (s : State) (hs : Keep K s) :
    KeepO K (execCoreRstGo who s) := by
  unfold execCoreRstGo
  repeat' (first
    | (with_reducible first | assumption | apply keep_coreReset | apply keep_denyWrite | apply keep_ite | apply keepO_next | apply keep_ite_snd | apply keep_ite_fst | apply keepO_ite | apply keepOpt_ite)
    | (intro t ht; with_reducible (have _h : Keep K t := ht))
    | (intro (_ : _); show Keep K _)
    | split)

theorem keep_execWdogKick {K : Kept} (who : Initiator) (key : Nat) (s : State) (hs : Keep K s) :
    KeepO K (execWdogKick who key s) := by
  unfold execWdogKick
  repeat' (first
    | (with_reducible first | assumption | apply keep_count | apply keep_mCore | apply keep_set | apply keep_wr | apply keep_wr | apply keep_ite | apply keepO_next | apply keep_ite_snd | apply keep_ite_fst | apply keepO_ite | apply keepOpt_ite)
    | (intro t ht; with_reducible (have _h : Keep K t := ht))
    | (intro (_ : _); show Keep K _)
    | split)

theorem keep_execWdogWarning {K : Kept} (hart : Nat) (s : State) (hs : Keep K s) :
    KeepO K (execWdogWarning hart s) := by
  unfold execWdogWarning
  repeat' (first
    | (with_reducible first | assumption | apply keep_wr | apply keep_wr | apply keep_ite | apply keepO_next | apply keep_ite_snd | apply keep_ite_fst | apply keepO_ite | apply keepOpt_ite)
    | (intro t ht; with_reducible (have _h : Keep K t := ht))
    | (intro (_ : _); show Keep K _)
    | split)

theorem keep_wdogFire {K : Kept} (hK : K.stores = true) (hN : K.keeps = true) (s : State) (hart : Nat) (inj : Bool) (hs : Keep K s) :
    Keep K (State.wdogFire s hart inj) := by
  unfold State.wdogFire
  repeat' (first
    | (with_reducible first | assumption | apply keep_coreReset | apply keep_mCore | apply keep_trialFail | apply keep_ite | apply keep_ite_snd | apply keep_ite_fst | apply keepO_ite | apply keepOpt_ite)
    | (intro t ht; with_reducible (have _h : Keep K t := ht))
    | lift_lets -underBinder
    | (intro u; first
        | (refine (?_ : Keep K u → _) ?_; pick_goal 2; simp only [u]; pick_goal 2; intro hu; clear_value u)
        | clear_value u | skip)
    | split)

theorem keep_execWdogExpiry {K : Kept} (hK : K.stores = true) (hN : K.keeps = true) (hart : Nat) (s : State) (hs : Keep K s) :
    KeepO K (execWdogExpiry hart s) := by
  unfold execWdogExpiry
  repeat' (first
    | (with_reducible first | assumption | apply keep_wdogFire | apply keep_ite | apply keepO_next | apply keep_ite_snd | apply keep_ite_fst | apply keepO_ite | apply keepOpt_ite)
    | (intro t ht; with_reducible (have _h : Keep K t := ht))
    | (intro (_ : _); show Keep K _)
    | split)

theorem keep_mgmtRestart {K : Kept} (hN : K.keeps = true) (s : State) (inj : Bool) (hs : Keep K s) :
    Keep K (State.mgmtRestart s inj) := by
  unfold State.mgmtRestart
  repeat' (first
    | (with_reducible first | assumption | apply keep_count | apply keep_mCore | apply keep_record | apply keep_releaseLock | apply keep_trialFail | apply keep_wr | apply keep_wr | apply keep_ite | apply keep_ite_snd | apply keep_ite_fst | apply keepO_ite | apply keepOpt_ite)
    | (intro t ht; with_reducible (have _h : Keep K t := ht))
    | lift_lets -underBinder
    | (intro u; first
        | (refine (?_ : Keep K u → _) ?_; pick_goal 2; simp only [u]; pick_goal 2; intro hu; clear_value u)
        | clear_value u | skip)
    | split)

theorem keep_execMwdogKick {K : Kept} (who : Initiator) (key : Nat) (s : State) (hs : Keep K s) :
    KeepO K (execMwdogKick who key s) := by
  unfold execMwdogKick
  repeat' (first
    | (with_reducible first | assumption | apply keep_denyWrite | apply keep_mCore | apply keep_ite | apply keepO_next | apply keep_ite_snd | apply keep_ite_fst | apply keepO_ite | apply keepOpt_ite)
    | (intro t ht; with_reducible (have _h : Keep K t := ht))
    | (intro (_ : _); show Keep K _)
    | split)

theorem keep_execMwdogExpiry {K : Kept} (hN : K.keeps = true) (s : State) (hs : Keep K s) :
    KeepO K (execMwdogExpiry s) := by
  unfold execMwdogExpiry
  repeat' (with_reducible first | assumption | apply keep_mgmtRestart | apply keepO_next)

theorem keep_execMachineTimerInterrupt {K : Kept} (hart : Nat) (s : State) (hs : Keep K s) :
    KeepO K (execMachineTimerInterrupt hart s) := by
  unfold execMachineTimerInterrupt
  repeat' (first
    | (with_reducible first | assumption | apply keep_mCore | apply keep_ite | apply keepO_next | apply keep_ite_snd | apply keep_ite_fst | apply keepO_ite | apply keepOpt_ite)
    | (intro t ht; with_reducible (have _h : Keep K t := ht))
    | (intro (_ : _); show Keep K _)
    | split)

end Sys2Proof.Laws
end

