-- ==== Sys2Proof/Laws/KeepPower.lean ====
section
/-! SUPPORT. The operations of Machine/Power.lean keep the queue and the canonical forms. -/

namespace Sys2Proof.Laws

open Sys2Proof Sys2Proof.Machine

set_option linter.unusedTactic false
set_option linter.unreachableTactic false
set_option linter.unusedVariables false

theorem keep_execIslandGate {K : Kept} (island : Nat) (s : State) (hs : Keep K s) :
    KeepO K (execIslandGate island s) := by
  unfold execIslandGate
  repeat' (first
    | (with_reducible first | assumption | apply keep_mIsl | apply keep_ite | apply keepO_next | apply keep_ite_snd | apply keep_ite_fst | apply keepO_ite | apply keepOpt_ite)
    | (intro t ht; with_reducible (have _h : Keep K t := ht))
    | (intro (_ : _); show Keep K _)
    | split)

theorem keep_execIslandWake {K : Kept} (island ns : Nat) (s : State) (hs : Keep K s) :
    KeepO K (execIslandWake island ns s) := by
  unfold execIslandWake
  repeat' (with_reducible first | assumption | apply keep_wakeIsland | apply keepO_next)

theorem keep_crossingLost {K : Kept} (hK : K.stores = true) (hN : K.keeps = true) (s : State) (src dst : Nat) (hs : Keep K s) :
    Keep K (State.crossingLost s src dst) := by
  unfold State.crossingLost
  repeat' (first
    | (with_reducible first | assumption | apply keep_count | apply keep_loseChannel | apply keep_loseGroup | apply keep_stopAdmission | apply keep_ite | apply keep_ite_snd | apply keep_ite_fst | apply keepO_ite | apply keepOpt_ite)
    | (intro t ht; with_reducible (have _h : Keep K t := ht))
    | (intro (_ : _); show Keep K _)
    | split)

theorem keep_execWakeFailure {K : Kept} (hK : K.stores = true) (hN : K.keeps = true) (src dst : Nat) (s : State) (hs : Keep K s) :
    KeepO K (execWakeFailure src dst s) := by
  unfold execWakeFailure
  repeat' (first
    | (with_reducible first | assumption | apply keep_crossingLost | apply keep_xwdReport | apply keep_ite | apply keepO_next | apply keep_ite_snd | apply keep_ite_fst | apply keepO_ite | apply keepOpt_ite)
    | (intro t ht; with_reducible (have _h : Keep K t := ht))
    | (intro (_ : _); show Keep K _)
    | split)

theorem keep_execCrossingWatchdogExpiry {K : Kept} (hK : K.stores = true) (hN : K.keeps = true) (src dst : Nat) (s : State) (hs : Keep K s) :
    KeepO K (execCrossingWatchdogExpiry src dst s) := by
  unfold execCrossingWatchdogExpiry
  repeat' (first
    | (with_reducible first | assumption | apply keep_crossingLost | apply keep_xwdReport | apply keep_ite | apply keepO_next | apply keep_ite_snd | apply keep_ite_fst | apply keepO_ite | apply keepOpt_ite)
    | (intro t ht; with_reducible (have _h : Keep K t := ht))
    | (intro (_ : _); show Keep K _)
    | split)

theorem keep_drainMoves {K : Kept} (s : State) (d : Nat) (hs : Keep K s) :
    Keep K (State.drainMoves s d) := by
  unfold State.drainMoves
  repeat' (first
    | (with_reducible first | assumption | apply keep_mTal | apply keep_move | apply keep_foldl | apply keep_foldl2 | apply keep_foldl1)
    | (intro t a ht; with_reducible (have _h : Keep K t := ht))
    | (intro t ht; with_reducible (have _h : Keep K t := ht))
    | lift_lets -underBinder
    | (intro u; first
        | (refine (?_ : Keep K u → _) ?_; pick_goal 2; simp only [u]; pick_goal 2; intro hu; clear_value u)
        | clear_value u | skip))

theorem keep_domainOff {K : Kept} (s : State) (d : Nat) (hs : Keep K s) : Keep K (s.domainOff d) := by
  unfold State.domainOff
  apply keep_ite
  · intro _; exact hs
  intro _
  have h1 : Keep K (if d = 2 then s.cacheOff.cipherKeep.drainMoves 2 else s.drainMoves d) :=
    keep_ite (fun _ => keep_drainMoves _ _ (keep_cipherKeep _ (keep_cacheOff _ hs))) (fun _ => keep_drainMoves _ _ hs)
  generalize (if d = 2 then s.cacheOff.cipherKeep.drainMoves 2 else s.drainMoves d) = s1 at h1
  have h2 : Keep K (if d = 4 then s1.mDev fun x => { x with policyUp := false } else s1) :=
    keep_ite (fun _ => keep_mDev _ _ h1) (fun _ => h1)
  dsimp only
  generalize (if d = 4 then s1.mDev fun x => { x with policyUp := false } else s1) = s2 at h2
  apply keep_driveClocks
  apply keep_wr
  apply keep_mIsl
  refine keep_regs _ (keep_mTal _ _ (keep_disarmThose _ _ _ h2)) ?_
  have h3 := tbl_sorted_filter (fun e => decide (islandDomain (pageIsland (keyPage e.1)) ≠ d) || keptKey e.1) _
    (keep_disarmThose s2 (fun p => decide (islandDomain (pageIsland p) = d)) 5 h2).regs
  split
  · exact tbl_sorted_foldl_set _ _ _ _ _ h3
  · exact h3


theorem keep_domainOn {K : Kept} (hK : K.stores = true) (hN : K.keeps = true) (s : State) (d : Nat) (hs : Keep K s) :
    Keep K (State.domainOn s d) := by
  unfold State.domainOn
  repeat' (first
    | (with_reducible first | assumption | apply keep_cacheEnableEmpty | apply keep_cipherRestore | apply keep_coreReset | apply keep_driveClocks | apply keep_wr | apply keep_wr | apply keep_ite | apply keep_ite_snd | apply keep_ite_fst | apply keepO_ite | apply keepOpt_ite)
    | (intro t ht; with_reducible (have _h : Keep K t := ht))
    | lift_lets -underBinder
    | (intro u; first
        | (refine (?_ : Keep K u → _) ?_; pick_goal 2; simp only [u]; pick_goal 2; intro hu; clear_value u)
        | clear_value u | skip)
    | split)

theorem keep_nonopExit {K : Kept} (s : State) (hs : Keep K s) :
    Keep K (State.nonopExit s) := by
  unfold State.nonopExit
  repeat' (first
    | (with_reducible first | assumption | apply keep_followPower | apply keep_mPwr | apply keep_set | apply keep_wr | apply keep_wr | apply keep_ite | apply keep_ite_snd | apply keep_ite_fst | apply keepO_ite | apply keepOpt_ite | apply keep_foldl | apply keep_foldl2 | apply keep_foldl1)
    | (intro t a ht; with_reducible (have _h : Keep K t := ht))
    | (intro t ht; with_reducible (have _h : Keep K t := ht))
    | lift_lets -underBinder
    | (intro u; first
        | (refine (?_ : Keep K u → _) ?_; pick_goal 2; simp only [u]; pick_goal 2; intro hu; clear_value u)
        | clear_value u | skip)
    | split)

theorem keep_heedVotes {K : Kept} (s : State) (hs : Keep K s) :
    Keep K (State.heedVotes s) := by
  unfold State.heedVotes
  repeat' (first
    | (with_reducible first | assumption | apply keep_count | apply keep_nonopExit | apply keep_ite | apply keep_ite_snd | apply keep_ite_fst | apply keepO_ite | apply keepOpt_ite)
    | (intro t ht; with_reducible (have _h : Keep K t := ht))
    | (intro (_ : _); show Keep K _)
    | split)

theorem keep_execNonopExitComplete {K : Kept} (hK : K.stores = true) (hN : K.keeps = true) (s : State) (hs : Keep K s) :
    KeepO K (execNonopExitComplete s) := by
  unfold execNonopExitComplete
  repeat' (first
    | (with_reducible first | assumption | apply keep_domainOn | apply keep_enterPs | apply keep_followPower | apply keep_mBell | apply keep_mPwr | apply keep_peak | apply keep_retest | apply keep_startLap | apply keep_wr | apply keep_wr | apply keep_ite | apply keepO_next | apply keep_ite_snd | apply keep_ite_fst | apply keepO_ite | apply keepOpt_ite | apply keep_foldl | apply keep_foldl2 | apply keep_foldl1)
    | (intro t a ht; with_reducible (have _h : Keep K t := ht))
    | (intro t ht; with_reducible (have _h : Keep K t := ht))
    | lift_lets -underBinder
    | (intro u; first
        | (refine (?_ : Keep K u → _) ?_; pick_goal 2; simp only [u]; pick_goal 2; intro hu; clear_value u)
        | clear_value u | skip)
    | split)

theorem keep_voteWrite {K : Kept} (s : State) (who : Initiator) (f : Field) (domains : Nat) (hs : Keep K s) :
    Keep K (State.voteWrite s who f domains) := by
  unfold State.voteWrite
  repeat' (first
    | (with_reducible first | assumption | apply keep_count | apply keep_heedVotes | apply keep_limFire | apply keep_refuse | apply keep_wr | apply keep_wr | apply keep_ite | apply keep_ite_snd | apply keep_ite_fst | apply keepO_ite | apply keepOpt_ite)
    | (intro t ht; with_reducible (have _h : Keep K t := ht))
    | lift_lets -underBinder
    | (intro u; first
        | (refine (?_ : Keep K u → _) ?_; pick_goal 2; simp only [u]; pick_goal 2; intro hu; clear_value u)
        | clear_value u | skip)
    | split)

theorem keep_execPolVoteWrite {K : Kept} (who : Initiator) (domains : Nat) (s : State) (hs : Keep K s) :
    KeepO K (execPolVoteWrite who domains s) := by
  unfold execPolVoteWrite
  repeat' (with_reducible first | assumption | apply keep_voteWrite | apply keepO_next)

theorem keep_execMgtVoteWrite {K : Kept} (who : Initiator) (domains : Nat) (s : State) (hs : Keep K s) :
    KeepO K (execMgtVoteWrite who domains s) := by
  unfold execMgtVoteWrite
  repeat' (with_reducible first | assumption | apply keep_voteWrite | apply keepO_next)

theorem keep_execDomainPowerOn {K : Kept} (hK : K.stores = true) (hN : K.keeps = true) (domain : Nat) (s : State) (hs : Keep K s) :
    KeepO K (execDomainPowerOn domain s) := by
  unfold execDomainPowerOn
  repeat' (first
    | (with_reducible first | assumption | apply keep_domainOn | apply keep_heedVotes | apply keep_ite | apply keepO_next | apply keep_ite_snd | apply keep_ite_fst | apply keepO_ite | apply keepOpt_ite)
    | (intro t ht; with_reducible (have _h : Keep K t := ht))
    | (intro (_ : _); show Keep K _)
    | split)

theorem keep_execDomainPowerOff {K : Kept} (domain : Nat) (s : State) (hs : Keep K s) :
    KeepO K (execDomainPowerOff domain s) := by
  unfold execDomainPowerOff
  repeat' (first
    | (with_reducible first | assumption | apply keep_domainOff | apply keep_ite | apply keepO_next | apply keep_ite_snd | apply keep_ite_fst | apply keepO_ite | apply keepOpt_ite)
    | (intro t ht; with_reducible (have _h : Keep K t := ht))
    | (intro (_ : _); show Keep K _)
    | split)

theorem keep_execDvfsReq {K : Kept} (who : Initiator) (clk vdd : Nat) (s : State) (hs : Keep K s) :
    KeepO K (execDvfsReq who clk vdd s) := by
  unfold execDvfsReq
  repeat' (first
    | (with_reducible first | assumption | apply keep_count | apply keep_denyWrite | apply keep_driveClocks | apply keep_limFire | apply keep_mPwr | apply keep_rangeRecord | apply keep_refuse | apply keep_wr | apply keep_wr | apply keep_ite | apply keepO_next | apply keep_ite_snd | apply keep_ite_fst | apply keepO_ite | apply keepOpt_ite)
    | (intro t ht; with_reducible (have _h : Keep K t := ht))
    | lift_lets -underBinder
    | (intro u; first
        | (refine (?_ : Keep K u → _) ?_; pick_goal 2; simp only [u]; pick_goal 2; intro hu; clear_value u)
        | clear_value u | skip)
    | split)

theorem keep_execVddSettled {K : Kept} (s : State) (hs : Keep K s) :
    KeepO K (execVddSettled s) := by
  unfold execVddSettled
  repeat' (first
    | (with_reducible first | assumption | apply keep_driveClocks | apply keep_mPwr | apply keep_wr | apply keepO_next)
    | (intro t ht; with_reducible (have _h : Keep K t := ht)))

theorem keep_enterNonop {K : Kept} (hN : K.keeps = true) (s : State) (w : Nat) (hs : Keep K s) :
    Keep K (State.enterNonop s w) := by
  unfold State.enterNonop
  repeat' (first
    | (with_reducible first | assumption | apply keep_cacheOff | apply keep_domainOff | apply keep_enterPs | apply keep_flushed | apply keep_journal | apply keep_mBell | apply keep_mPwr | apply keep_retest | apply keep_wr | apply keep_wr | apply keep_ite | apply keep_ite_snd | apply keep_ite_fst | apply keepO_ite | apply keepOpt_ite | apply keep_foldl | apply keep_foldl2 | apply keep_foldl1 | refine keep_mNv _ _ hN ?_ (NvOk.mk rfl (List.prefix_refl _)) | refine keep_mNv _ _ hN ?_ (NvOk.mk rfl (List.prefix_append _ _)) | refine keep_mNv _ _ hN ?_ ?_ | exact NvOk.mk rfl (List.prefix_refl _) | apply nvOk_ite)
    | (intro t a ht; with_reducible (have _h : Keep K t := ht))
    | (intro t ht; with_reducible (have _h : Keep K t := ht))
    | lift_lets -underBinder
    | (intro u; first
        | (refine (?_ : Keep K u → _) ?_; pick_goal 2; simp only [u]; pick_goal 2; intro hu; clear_value u)
        | clear_value u | skip)
    | split)

theorem keep_execNonopEntry {K : Kept} (hN : K.keeps = true) (s : State) (hs : Keep K s) :
    KeepO K (execNonopEntry s) := by
  unfold execNonopEntry
  repeat' (first
    | (with_reducible first | assumption | apply keep_count | apply keep_enterNonop | apply keep_mPwr | apply keep_wr | apply keep_ite | apply keepO_next | apply keep_ite_snd | apply keep_ite_fst | apply keepO_ite | apply keepOpt_ite)
    | (intro t ht; with_reducible (have _h : Keep K t := ht))
    | lift_lets -underBinder
    | (intro u; first
        | (refine (?_ : Keep K u → _) ?_; pick_goal 2; simp only [u]; pick_goal 2; intro hu; clear_value u)
        | clear_value u | skip)
    | split)

theorem keep_execApstItptExpiry {K : Kept} (s : State) (hs : Keep K s) :
    KeepO K (execApstItptExpiry s) := by
  unfold execApstItptExpiry
  repeat' (first
    | (with_reducible first | assumption | apply keep_count | apply keep_followPower | apply keep_mPwr | apply keep_set | apply keep_wr | apply keep_wr | apply keep_ite | apply keepO_next | apply keep_ite_snd | apply keep_ite_fst | apply keepO_ite | apply keepOpt_ite | apply keep_foldl | apply keep_foldl2 | apply keep_foldl1)
    | (intro t a ht; with_reducible (have _h : Keep K t := ht))
    | (intro t ht; with_reducible (have _h : Keep K t := ht))
    | lift_lets -underBinder
    | (intro u; first
        | (refine (?_ : Keep K u → _) ?_; pick_goal 2; simp only [u]; pick_goal 2; intro hu; clear_value u)
        | clear_value u | skip)
    | split)

end Sys2Proof.Laws
end

