-- ==== Sys2Proof/Laws/KeepClosing.lean ====
section
/-! SUPPORT. The operations of Machine/Closing.lean keep the queue and the canonical forms. -/

namespace Sys2Proof.Laws

open Sys2Proof Sys2Proof.Machine

set_option linter.unusedTactic false
set_option linter.unreachableTactic false
set_option linter.unusedVariables false

theorem keep_goState {K : Kept} (hN : K.keeps = true) (s : State) (to_ : Nat) (who : Requester) (cause : Nat) (hs : Keep K s) :
    Keep K (State.goState s to_ who cause) := by
  unfold State.goState
  repeat' (first
    | (with_reducible first | assumption | apply keep_mDev | apply keep_recordNow | apply keep_set | apply keep_wr | apply keep_wr | apply keep_ite | apply keep_ite_snd | apply keep_ite_fst | apply keepO_ite | apply keepOpt_ite)
    | (intro t ht; with_reducible (have _h : Keep K t := ht))
    | lift_lets -underBinder
    | (intro u; first
        | (refine (?_ : Keep K u → _) ?_; pick_goal 2; simp only [u]; pick_goal 2; intro hu; clear_value u)
        | clear_value u | skip)
    | split)

theorem keep_modeRefused {K : Kept} (s : State) (code bits_ : Nat) (hs : Keep K s) :
    Keep K (State.modeRefused s code bits_) := by
  unfold State.modeRefused
  repeat' (with_reducible first | assumption | apply keep_count | apply keep_set | apply keep_wr | apply keep_wr)

theorem keep_refuseModes {K : Kept} (s : State) (hs : Keep K s) :
    Keep K (State.refuseModes s) := by
  unfold State.refuseModes
  repeat' (first
    | (with_reducible first | assumption | apply keep_mDev | apply keep_modeRefused | apply keep_set | apply keep_foldl | apply keep_foldl2 | apply keep_foldl1)
    | (intro t a ht; with_reducible (have _h : Keep K t := ht))
    | (intro t ht; with_reducible (have _h : Keep K t := ht))
    | lift_lets -underBinder
    | (intro u; first
        | (refine (?_ : Keep K u → _) ?_; pick_goal 2; simp only [u]; pick_goal 2; intro hu; clear_value u)
        | clear_value u | skip))

theorem keep_huCount {K : Kept} (s : State) (hs : Keep K s) :
    Keep K (State.huCount s) := by
  unfold State.huCount
  repeat' (first
    | (with_reducible first | assumption | apply keep_count | apply keep_mDev)
    | (intro t ht; with_reducible (have _h : Keep K t := ht))
    | lift_lets -underBinder
    | (intro u; first
        | (refine (?_ : Keep K u → _) ?_; pick_goal 2; simp only [u]; pick_goal 2; intro hu; clear_value u)
        | clear_value u | skip)
    | split)

theorem keep_holdup {K : Kept} (s : State) (hs : Keep K s) :
    Keep K (State.holdup s) := by
  unfold State.holdup
  repeat' (first
    | (with_reducible first | assumption | apply keep_critical | apply keep_huCount | apply keep_mDev | apply keep_wr | apply keep_wr | apply keep_ite | apply keep_ite_snd | apply keep_ite_fst | apply keepO_ite | apply keepOpt_ite)
    | (intro t ht; with_reducible (have _h : Keep K t := ht))
    | lift_lets -underBinder
    | (intro u; first
        | (refine (?_ : Keep K u → _) ?_; pick_goal 2; simp only [u]; pick_goal 2; intro hu; clear_value u)
        | clear_value u | skip)
    | split)

theorem keep_execHoldupThresholdCrossing {K : Kept} (fail up : Bool) (s : State) (hs : Keep K s) :
    KeepO K (execHoldupThresholdCrossing fail up s) := by
  unfold execHoldupThresholdCrossing
  repeat' (first
    | (with_reducible first | assumption | apply keep_holdup | apply keep_mDev | apply keep_record | apply keep_wr | apply keep_wr | apply keep_ite | apply keepO_next | apply keep_ite_snd | apply keep_ite_fst | apply keepO_ite | apply keepOpt_ite)
    | (intro t ht; with_reducible (have _h : Keep K t := ht))
    | lift_lets -underBinder
    | (intro u; first
        | (refine (?_ : Keep K u → _) ?_; pick_goal 2; simp only [u]; pick_goal 2; intro hu; clear_value u)
        | clear_value u | skip)
    | split)

theorem keep_linksDown {K : Kept} (s : State) (hs : Keep K s) :
    Keep K (State.linksDown s) := by
  unfold State.linksDown
  repeat' (first
    | (with_reducible first | assumption | apply keep_mHost)
    | (intro t ht; with_reducible (have _h : Keep K t := ht)))

theorem keep_enterHalt {K : Kept} (hN : K.keeps = true) (s : State) (cause code : Nat) (hs : Keep K s) :
    Keep K (State.enterHalt s cause code) := by
  unfold State.enterHalt
  repeat' (first
    | (with_reducible first | assumption | apply keep_domainOff | apply keep_goState | apply keep_huCount | apply keep_linksDown | apply keep_mDev | apply keep_refuseModes | apply keep_wr | apply keep_wr | apply keep_foldl | apply keep_foldl2 | apply keep_foldl1)
    | (intro t a ht; with_reducible (have _h : Keep K t := ht))
    | (intro t ht; with_reducible (have _h : Keep K t := ht))
    | lift_lets -underBinder
    | (intro u; first
        | (refine (?_ : Keep K u → _) ?_; pick_goal 2; simp only [u]; pick_goal 2; intro hu; clear_value u)
        | clear_value u | skip))

theorem keep_showBell {K : Kept} (s : State) (which : Nat) (i : BellImage) (hs : Keep K s) :
    Keep K (State.showBell s which i) := by
  unfold State.showBell
  repeat' (with_reducible first | assumption | apply keep_complete | apply keep_wr | apply keep_wr)

theorem keep_bellWrite {K : Kept} (hN : K.keeps = true) (s : State) (complete : Bool) (hs : Keep K s) :
    Keep K (State.bellWrite s complete) := by
  unfold State.bellWrite
  repeat' (first
    | (with_reducible first | assumption | apply keep_complete | apply keep_journal | apply keep_saveState | apply keep_showBell | apply keep_ite | apply keep_ite_snd | apply keep_ite_fst | apply keepO_ite | apply keepOpt_ite | refine keep_mNv _ _ hN ?_ (NvOk.mk rfl (List.prefix_refl _)) | refine keep_mNv _ _ hN ?_ (NvOk.mk rfl (List.prefix_append _ _)) | refine keep_mNv _ _ hN ?_ ?_ | exact NvOk.mk rfl (List.prefix_refl _) | apply nvOk_ite)
    | (intro t ht; with_reducible (have _h : Keep K t := ht))
    | lift_lets -underBinder
    | (intro u; first
        | (refine (?_ : Keep K u → _) ?_; pick_goal 2; simp only [u]; pick_goal 2; intro hu; clear_value u)
        | clear_value u | skip)
    | split)

theorem keep_closeDie {K : Kept} (hN : K.keeps = true) (s : State) (k : Nat) (hs : Keep K s) :
    Keep K (State.closeDie s k) := by
  unfold State.closeDie
  repeat' (first
    | (with_reducible first | assumption | apply keep_eraseEnd | apply keep_mDie | apply keep_ite | apply keep_ite_snd | apply keep_ite_fst | apply keepO_ite | apply keepOpt_ite)
    | (intro t ht; with_reducible (have _h : Keep K t := ht))
    | lift_lets -underBinder
    | (intro u; first
        | (refine (?_ : Keep K u → _) ?_; pick_goal 2; simp only [u]; pick_goal 2; intro hu; clear_value u)
        | clear_value u | skip)
    | split)

theorem keep_stopEngines {K : Kept} (hK : K.stores = true) (hN : K.keeps = true) (s : State) (hs : Keep K s) :
    Keep K (State.stopEngines s) := by
  unfold State.stopEngines
  repeat' (first
    | (with_reducible first | assumption | apply keep_dropWhere | apply keep_endJobs | apply keep_mBell | apply keep_mHost | apply keep_mInteg | apply keep_mLc | apply keep_mLed | apply keep_mPor | apply keep_mSw | apply keep_mWp | apply keep_nsCmd | apply keep_porterClosing | apply keep_withdrawWrite | apply keep_foldl | apply keep_foldl2 | apply keep_foldl1 | refine keep_mCr _ _ ?_ (by rfl))
    | (intro t a ht; with_reducible (have _h : Keep K t := ht))
    | (intro t ht; with_reducible (have _h : Keep K t := ht))
    | lift_lets -underBinder
    | (intro u; first
        | (refine (?_ : Keep K u → _) ?_; pick_goal 2; simp only [u]; pick_goal 2; intro hu; clear_value u)
        | clear_value u | skip)
    | split)

theorem keep_enterClosing {K : Kept} (hK : K.stores = true) (hN : K.keeps = true) (s : State) (who : Requester) (cause : Nat) (hs : Keep K s) :
    Keep K (State.enterClosing s who cause) := by
  unfold State.enterClosing
  repeat' (first
    | (with_reducible first | assumption | apply keep_closeDie | apply keep_disarmThose | apply keep_domainOff | apply keep_domainOn | apply keep_flAbandon | apply keep_goState | apply keep_huCount | apply keep_linksDown | apply keep_mBell | apply keep_mDev | apply keep_mLog | apply keep_mPwr | apply keep_mSw | apply keep_mWp | apply keep_move | apply keep_recordNow | apply keep_refuseModes | apply keep_stopEngines | apply keep_wr | apply keep_wr | apply keep_ite | apply keep_ite_snd | apply keep_ite_fst | apply keepO_ite | apply keepOpt_ite | apply keep_foldl | apply keep_foldl2 | apply keep_foldl1)
    | (intro t a ht; with_reducible (have _h : Keep K t := ht))
    | (intro t ht; with_reducible (have _h : Keep K t := ht))
    | lift_lets -underBinder
    | (intro u; first
        | (refine (?_ : Keep K u → _) ?_; pick_goal 2; simp only [u]; pick_goal 2; intro hu; clear_value u)
        | clear_value u | skip)
    | split)

theorem keep_execPowerFailDetect {K : Kept} (hK : K.stores = true) (hN : K.keeps = true) (comparator : Bool) (s : State) (hs : Keep K s) :
    KeepO K (execPowerFailDetect comparator s) := by
  unfold execPowerFailDetect
  repeat' (first
    | (with_reducible first | assumption | apply keep_enterClosing | apply keep_enterHalt | apply keep_ite | apply keepO_next | apply keep_ite_snd | apply keep_ite_fst | apply keepO_ite | apply keepOpt_ite)
    | (intro t ht; with_reducible (have _h : Keep K t := ht))
    | (intro (_ : _); show Keep K _)
    | split)

theorem keep_execHaltCtrlOrderly {K : Kept} (hK : K.stores = true) (hN : K.keeps = true) (who : Initiator) (s : State) (hs : Keep K s) :
    KeepO K (execHaltCtrlOrderly who s) := by
  unfold execHaltCtrlOrderly
  repeat' (first
    | (with_reducible first | assumption | apply keep_denyUnder | apply keep_enterClosing | apply keep_ite | apply keepO_next | apply keep_ite_snd | apply keep_ite_fst | apply keepO_ite | apply keepOpt_ite)
    | (intro t ht; with_reducible (have _h : Keep K t := ht))
    | (intro (_ : _); show Keep K _)
    | split)

theorem keep_mBellUnit {K : Kept} (s : State) (id : Nat) (g : BellUnit → BellUnit) (hs : Keep K s) :
    Keep K (State.mBellUnit s id g) := by
  unfold State.mBellUnit
  repeat' (first
    | (with_reducible first | assumption | apply keep_mBell | apply keep_ite | apply keep_ite_snd | apply keep_ite_fst | apply keepO_ite | apply keepOpt_ite)
    | (intro t ht; with_reducible (have _h : Keep K t := ht))
    | (intro (_ : _); show Keep K _)
    | split)

theorem keep_bellDurable {K : Kept} (s : State) (n : Nat) (hs : Keep K s) :
    Keep K (State.bellDurable s n) := by
  unfold State.bellDurable
  repeat' (with_reducible first | assumption | apply keep_move)

theorem keep_execBellUnitDurable {K : Kept} (unit : Nat) (s : State) (hs : Keep K s) :
    KeepO K (execBellUnitDurable unit s) := by
  unfold execBellUnitDurable
  repeat' (first
    | (with_reducible first | assumption | apply keep_bellDurable | apply keep_mBellUnit | apply keepO_next)
    | (intro t ht; with_reducible (have _h : Keep K t := ht))
    | split)

theorem keep_execBellUnitFail {K : Kept} (hN : K.keeps = true) (unit : Nat) (s : State) (hs : Keep K s) :
    KeepO K (execBellUnitFail unit s) := by
  unfold execBellUnitFail
  repeat' (first
    | (with_reducible first | assumption | apply keep_count | apply keep_journal | apply keep_mBell | apply keep_mBellUnit | apply keep_retireBlock | apply keep_ite | apply keepO_next | apply keep_ite_snd | apply keep_ite_fst | apply keepO_ite | apply keepOpt_ite)
    | (intro t ht; with_reducible (have _h : Keep K t := ht))
    | lift_lets -underBinder
    | (intro u; first
        | (refine (?_ : Keep K u → _) ?_; pick_goal 2; simp only [u]; pick_goal 2; intro hu; clear_value u)
        | clear_value u | skip)
    | split)

theorem keep_execClosingBellComplete {K : Kept} (hN : K.keeps = true) (s : State) (hs : Keep K s) :
    KeepO K (execClosingBellComplete s) := by
  unfold execClosingBellComplete
  repeat' (first
    | (with_reducible first | assumption | apply keep_bellDurable | apply keep_bellWrite | apply keep_enterHalt | apply keep_wr | apply keep_wr | apply keep_ite | apply keepO_next | apply keep_ite_snd | apply keep_ite_fst | apply keepO_ite | apply keepOpt_ite)
    | (intro t ht; with_reducible (have _h : Keep K t := ht))
    | lift_lets -underBinder
    | (intro u; first
        | (refine (?_ : Keep K u → _) ?_; pick_goal 2; simp only [u]; pick_goal 2; intro hu; clear_value u)
        | clear_value u | skip)
    | split)

theorem keep_execClosingBellTimerExpiry {K : Kept} (hN : K.keeps = true) (s : State) (hs : Keep K s) :
    KeepO K (execClosingBellTimerExpiry s) := by
  unfold execClosingBellTimerExpiry
  repeat' (first
    | (with_reducible first | assumption | apply keep_bellWrite | apply keep_enterHalt | apply keep_wr | apply keep_wr | apply keep_ite | apply keepO_next | apply keep_ite_snd | apply keep_ite_fst | apply keepO_ite | apply keepOpt_ite)
    | (intro t ht; with_reducible (have _h : Keep K t := ht))
    | (intro (_ : _); show Keep K _)
    | split)

end Sys2Proof.Laws
end

