-- ==== Sys2Proof/Laws/KeepThermal.lean ====
section
/-! SUPPORT. The operations of Machine/Thermal.lean keep the queue and the canonical forms. -/

namespace Sys2Proof.Laws

open Sys2Proof Sys2Proof.Machine

set_option linter.unusedTactic false
set_option linter.unreachableTactic false
set_option linter.unusedVariables false

theorem keep_cross {K : Kept} (s : State) (n : Nat) (up : Bool) (v : Int) (hs : Keep K s) :
    Keep K (State.cross s n up v) := by
  unfold State.cross
  repeat' (first
    | (with_reducible first | assumption | apply keep_count | apply keep_driveClocks | apply keep_mPwr | apply keep_record | apply keep_wr | apply keep_wr | apply keep_ite | apply keep_ite_snd | apply keep_ite_fst | apply keepO_ite | apply keepOpt_ite)
    | (intro t ht; with_reducible (have _h : Keep K t := ht))
    | lift_lets -underBinder
    | (intro u; first
        | (refine (?_ : Keep K u → _) ?_; pick_goal 2; simp only [u]; pick_goal 2; intro hu; clear_value u)
        | clear_value u | skip)
    | split)

theorem keep_thresholds {K : Kept} (s : State) (v : Int) (hs : Keep K s) :
    Keep K (State.thresholds s v) := by
  unfold State.thresholds
  repeat' (first
    | (with_reducible first | assumption | apply keep_cross | apply keep_ite | apply keep_ite_snd | apply keep_ite_fst | apply keepO_ite | apply keepOpt_ite | apply keep_foldl | apply keep_foldl2 | apply keep_foldl1)
    | (intro t a ht; with_reducible (have _h : Keep K t := ht))
    | (intro t ht; with_reducible (have _h : Keep K t := ht))
    | lift_lets -underBinder
    | (intro u; first
        | (refine (?_ : Keep K u → _) ?_; pick_goal 2; simp only [u]; pick_goal 2; intro hu; clear_value u)
        | clear_value u | skip)
    | split)

theorem keep_injectedReading {K : Kept} (s : State) (v real : Int) (hs : Keep K s) :
    Keep K (State.injectedReading s v real) := by
  unfold State.injectedReading
  repeat' (first
    | (with_reducible first | assumption | apply keep_mPwr | apply keep_record | apply keep_wr | apply keep_ite | apply keep_ite_snd | apply keep_ite_fst | apply keepO_ite | apply keepOpt_ite | apply keep_foldl | apply keep_foldl2 | apply keep_foldl1)
    | (intro t a ht; with_reducible (have _h : Keep K t := ht))
    | (intro t ht; with_reducible (have _h : Keep K t := ht))
    | lift_lets -underBinder
    | (intro u; first
        | (refine (?_ : Keep K u → _) ?_; pick_goal 2; simp only [u]; pick_goal 2; intro hu; clear_value u)
        | clear_value u | skip)
    | split)

theorem keep_thermalWarning {K : Kept} (s : State) (hs : Keep K s) :
    Keep K (State.thermalWarning s) := by
  unfold State.thermalWarning
  repeat' (first
    | (with_reducible first | assumption | apply keep_critical | apply keep_wr | apply keep_wr | apply keep_ite | apply keep_ite_snd | apply keep_ite_fst | apply keepO_ite | apply keepOpt_ite)
    | (intro t ht; with_reducible (have _h : Keep K t := ht))
    | (intro (_ : _); show Keep K _)
    | split)

theorem keep_zqByTemp {K : Kept} (s : State) (ch : Nat) (hs : Keep K s) :
    Keep K (State.zqByTemp s ch) := by
  unfold State.zqByTemp
  repeat' (first
    | (with_reducible first | assumption | apply keep_count | apply keep_mSt | apply keep_set | apply keep_ite | apply keep_ite_snd | apply keep_ite_fst | apply keepO_ite | apply keepOpt_ite | apply keep_foldl | apply keep_foldl2 | apply keep_foldl1)
    | (intro t a ht; with_reducible (have _h : Keep K t := ht))
    | (intro t ht; with_reducible (have _h : Keep K t := ht))
    | (intro (_ : _); show Keep K _)
    | split)

theorem keep_execTemperatureSample {K : Kept} (hK : K.stores = true) (hN : K.keeps = true) (readings : List Int) (s : State) (hs : Keep K s) :
    KeepO K (execTemperatureSample readings s) := by
  unfold execTemperatureSample
  repeat' (first
    | (with_reducible assumption)
    | (with_reducible first | apply keep_enterClosing | apply keep_fire | apply keep_injectedReading | apply keep_mPwr | apply keep_set | apply keep_thermalWarning | apply keep_thresholds | apply keep_zqByTemp | apply keep_wr | apply keep_ite | apply keepO_next | apply keep_ite_snd | apply keep_ite_fst | apply keepO_ite | apply keepOpt_ite | apply keep_foldl | apply keep_foldl2 | apply keep_foldl1)
    | (intro t a ht; with_reducible (have _h : Keep K t.2 := ht))
    | (intro t a ht; with_reducible (have _h : Keep K t.1 := ht))
    | (intro t a ht; with_reducible (have _h : Keep K t := ht))
    | (intro t ht; with_reducible (have _h : Keep K t := ht))
    | lift_lets -underBinder
    | (intro u; first
        | (refine (?_ : Keep K u → _) ?_; pick_goal 2; simp only [u]; pick_goal 2; intro hu; clear_value u)
        | (refine (?_ : Keep K u.2 → _) ?_; pick_goal 2; simp only [u]; pick_goal 2; intro hu; clear_value u)
        | (refine (?_ : Keep K u.1 → _) ?_; pick_goal 2; simp only [u]; pick_goal 2; intro hu; clear_value u)
        | (refine (?_ : Keep K u.st → _) ?_; pick_goal 2; simp only [u]; pick_goal 2; intro hu; clear_value u)
        | clear_value u | skip)
    | split
    | (intro t ht; with_reducible (have _h : Keep K t := ht))
    | (intro c t ht; with_reducible (have _h : Keep K t := ht))
    | dsimp -zeta only [id])

theorem keep_execTempHistorySample {K : Kept} (s : State) (hs : Keep K s) :
    KeepO K (execTempHistorySample s) := by
  unfold execTempHistorySample
  repeat' (first
    | (with_reducible first | assumption | apply keep_count | apply keep_mSw | apply keep_wr | apply keep_wr | apply keep_ite | apply keepO_next | apply keep_ite_snd | apply keep_ite_fst | apply keepO_ite | apply keepOpt_ite)
    | (intro t ht; with_reducible (have _h : Keep K t := ht))
    | lift_lets -underBinder
    | (intro u; first
        | (refine (?_ : Keep K u → _) ?_; pick_goal 2; simp only [u]; pick_goal 2; intro hu; clear_value u)
        | clear_value u | skip)
    | split)

end Sys2Proof.Laws
end

