-- ==== Sys2Proof/Laws/KeepModes.lean ====
section
/-! SUPPORT. The operations of Machine/Modes.lean keep the queue and the canonical forms. -/

namespace Sys2Proof.Laws

open Sys2Proof Sys2Proof.Machine

set_option linter.unusedTactic false
set_option linter.unreachableTactic false
set_option linter.unusedVariables false

theorem keep_setPolicyRo {K : Kept} (hN : K.keeps = true) (s : State) (on : Bool) (hs : Keep K s) :
    Keep K (State.setPolicyRo s on) := by
  unfold State.setPolicyRo
  repeat' (first
    | (with_reducible first | assumption | apply keep_wr | apply keep_wr | apply keep_ite | apply keep_ite_snd | apply keep_ite_fst | apply keepO_ite | apply keepOpt_ite | refine keep_mNv _ _ hN ?_ (NvOk.mk rfl (List.prefix_refl _)) | refine keep_mNv _ _ hN ?_ (NvOk.mk rfl (List.prefix_append _ _)) | refine keep_mNv _ _ hN ?_ ?_ | exact NvOk.mk rfl (List.prefix_refl _) | apply nvOk_ite)
    | (intro t ht; with_reducible (have _h : Keep K t := ht))
    | (intro (_ : _); show Keep K _)
    | split)

theorem keep_modeActions {K : Kept} (s : State) (old : Nat) (hs : Keep K s) :
    Keep K (State.modeActions s old) := by
  unfold State.modeActions
  repeat' (first
    | (with_reducible first | assumption | apply keep_critical | apply keep_disarmThose | apply keep_followPower | apply keep_retest | apply keep_traceOff | apply keep_wr | apply keep_wr | apply keep_ite | apply keep_ite_snd | apply keep_ite_fst | apply keepO_ite | apply keepOpt_ite)
    | (intro t ht; with_reducible (have _h : Keep K t := ht))
    | lift_lets -underBinder
    | (intro u; first
        | (refine (?_ : Keep K u → _) ?_; pick_goal 2; simp only [u]; pick_goal 2; intro hu; clear_value u)
        | clear_value u | skip)
    | split)

theorem keep_decideMode {K : Kept} (hN : K.keeps = true) (s : State) (r : ModeReq) (hs : Keep K s) :
    Keep K (State.decideMode s r) := by
  unfold State.decideMode
  repeat' (first
    | (with_reducible first | assumption | apply keep_complete | apply keep_count | apply keep_modeActions | apply keep_recordNow | apply keep_set | apply keep_setPolicyRo | apply keep_wr | apply keep_wr | apply keep_ite | apply keep_ite_snd | apply keep_ite_fst | apply keepO_ite | apply keepOpt_ite)
    | (intro t ht; with_reducible (have _h : Keep K t := ht))
    | lift_lets -underBinder
    | (intro u; first
        | (refine (?_ : Keep K u → _) ?_; pick_goal 2; simp only [u]; pick_goal 2; intro hu; clear_value u)
        | clear_value u | skip)
    | split)

theorem keep_askMode {K : Kept} (s : State) (who : Requester) (set clear uid : Nat) (hs : Keep K s) :
    Keep K (State.askMode s who set clear uid) := by
  unfold State.askMode
  repeat' (first
    | (with_reducible first | assumption | apply keep_mDev | apply keep_modeRefused | apply keep_set | apply keep_wr | apply keep_wr | apply keep_ite | apply keep_ite_snd | apply keep_ite_fst | apply keepO_ite | apply keepOpt_ite)
    | (intro t ht; with_reducible (have _h : Keep K t := ht))
    | lift_lets -underBinder
    | (intro u; first
        | (refine (?_ : Keep K u → _) ?_; pick_goal 2; simp only [u]; pick_goal 2; intro hu; clear_value u)
        | clear_value u | skip)
    | split)

theorem keep_applyHeld {K : Kept} (hN : K.keeps = true) (s : State) (hs : Keep K s) :
    Keep K (State.applyHeld s) := by
  unfold State.applyHeld
  repeat' (first
    | (with_reducible first | assumption | apply keep_decideMode | apply keep_mDev | apply keep_foldl | apply keep_foldl2 | apply keep_foldl1)
    | (intro t ht; with_reducible (have _h : Keep K t := ht)))

theorem keep_execModeReq {K : Kept} (who : Initiator) (set clear : Nat) (s : State) (hs : Keep K s) :
    KeepO K (execModeReq who set clear s) := by
  unfold execModeReq
  repeat' (first
    | (with_reducible first | assumption | apply keep_askMode | apply keep_limFire | apply keep_modeRefused | apply keep_refuse | apply keep_set | apply keep_ite | apply keepO_next | apply keep_ite_snd | apply keep_ite_fst | apply keepO_ite | apply keepOpt_ite)
    | (intro t ht; with_reducible (have _h : Keep K t := ht))
    | lift_lets -underBinder
    | (intro u; first
        | (refine (?_ : Keep K u → _) ?_; pick_goal 2; simp only [u]; pick_goal 2; intro hu; clear_value u)
        | clear_value u | skip)
    | split)

theorem keep_execModeInstant {K : Kept} (hN : K.keeps = true) (s : State) (hs : Keep K s) :
    KeepO K (execModeInstant s) := by
  unfold execModeInstant
  repeat' (first
    | (with_reducible first | assumption | apply keep_decideMode | apply keep_mDev | apply keep_ite | apply keepO_next | apply keep_ite_snd | apply keep_ite_fst | apply keepO_ite | apply keepOpt_ite)
    | (intro t ht; with_reducible (have _h : Keep K t := ht))
    | (intro (_ : _); show Keep K _)
    | split)

theorem keep_execInServiceRise {K : Kept} (level : Bool) (s : State) (hs : Keep K s) :
    KeepO K (execInServiceRise level s) := by
  unfold execInServiceRise
  repeat' (first
    | (with_reducible first | assumption | apply keep_disarmThose | apply keep_hwMode | apply keep_mDev | apply keep_ite | apply keepO_next | apply keep_ite_snd | apply keep_ite_fst | apply keepO_ite | apply keepOpt_ite)
    | (intro t ht; with_reducible (have _h : Keep K t := ht))
    | lift_lets -underBinder
    | (intro u; first
        | (refine (?_ : Keep K u → _) ?_; pick_goal 2; simp only [u]; pick_goal 2; intro hu; clear_value u)
        | clear_value u | skip)
    | split)

theorem keep_serve {K : Kept} (hN : K.keeps = true) (s : State) (cause : Nat) (hs : Keep K s) :
    Keep K (State.serve s cause) := by
  unfold State.serve
  repeat' (with_reducible first | assumption | apply keep_applyHeld | apply keep_goState | apply keep_holdup)

end Sys2Proof.Laws
end

