-- ==== Sys2Proof/Laws/KeepGate.lean ====
section
/-! SUPPORT. The operations of Machine/Gate.lean keep the queue and the canonical forms. -/

namespace Sys2Proof.Laws

open Sys2Proof Sys2Proof.Machine

set_option linter.unusedTactic false
set_option linter.unreachableTactic false
set_option linter.unusedVariables false

theorem keep_showSlot {K : Kept} (s : State) (slot : Nat) (valid : Bool) (hs : Keep K s) :
    Keep K (State.showSlot s slot valid) := by
  unfold State.showSlot
  repeat' (first
    | (with_reducible first | assumption | apply keep_wr | apply keep_wr64 | apply keep_wr | apply keep_ite | apply keep_ite_snd | apply keep_ite_fst | apply keepO_ite | apply keepOpt_ite)
    | (intro t ht; with_reducible (have _h : Keep K t := ht))
    | lift_lets -underBinder
    | (intro u; first
        | (refine (?_ : Keep K u → _) ?_; pick_goal 2; simp only [u]; pick_goal 2; intro hu; clear_value u)
        | clear_value u | skip)
    | split)

theorem keep_showTested {K : Kept} (s : State) (hs : Keep K s) :
    Keep K (State.showTested s) := by
  unfold State.showTested
  repeat' (first
    | (with_reducible first | assumption | apply keep_wr | apply keep_wr | apply keep_foldl | apply keep_foldl2 | apply keep_foldl1)
    | (intro t a ht; with_reducible (have _h : Keep K t := ht))
    | (intro t ht; with_reducible (have _h : Keep K t := ht)))

theorem keep_loadWindow {K : Kept} (s : State) (w : Nat) (hs : Keep K s) :
    Keep K (State.loadWindow s w) := by
  unfold State.loadWindow
  repeat' (first
    | (with_reducible first | assumption | apply keep_wr | apply keep_wr | apply keep_ite | apply keep_ite_snd | apply keep_ite_fst | apply keepO_ite | apply keepOpt_ite)
    | (intro t ht; with_reducible (have _h : Keep K t := ht))
    | lift_lets -underBinder
    | (intro u; first
        | (refine (?_ : Keep K u → _) ?_; pick_goal 2; simp only [u]; pick_goal 2; intro hu; clear_value u)
        | clear_value u | skip)
    | split)

theorem keep_pieceRes {K : Kept} (s : State) (code reason : Nat) (complete : Bool) (hs : Keep K s) :
    Keep K (State.pieceRes s code reason complete) := by
  unfold State.pieceRes
  repeat' (first
    | (with_reducible first | assumption | apply keep_complete | apply keep_count | apply keep_set | apply keep_wr | apply keep_wr | apply keep_ite | apply keep_ite_snd | apply keep_ite_fst | apply keepO_ite | apply keepOpt_ite)
    | (intro t ht; with_reducible (have _h : Keep K t := ht))
    | lift_lets -underBinder
    | (intro u; first
        | (refine (?_ : Keep K u → _) ?_; pick_goal 2; simp only [u]; pick_goal 2; intro hu; clear_value u)
        | clear_value u | skip)
    | split)

theorem keep_reportPiece {K : Kept} (s : State) (src : Nat) (hs : Keep K s) :
    Keep K (State.reportPiece s src) := by
  unfold State.reportPiece
  repeat' (first
    | (with_reducible first | assumption | apply keep_dropStaging | apply keep_mCf | apply keep_pieceRes | apply keep_set | apply keep_wr | apply keep_wr | apply keep_ite | apply keep_ite_snd | apply keep_ite_fst | apply keepO_ite | apply keepOpt_ite)
    | (intro t ht; with_reducible (have _h : Keep K t := ht))
    | lift_lets -underBinder
    | (intro u; first
        | (refine (?_ : Keep K u → _) ?_; pick_goal 2; simp only [u]; pick_goal 2; intro hu; clear_value u)
        | clear_value u | skip)
    | split)

theorem keep_execPieceReport {K : Kept} (who : Initiator) (s : State) (hs : Keep K s) :
    KeepO K (execPieceReport who s) := by
  unfold execPieceReport
  repeat' (first
    | (with_reducible first | assumption | apply keep_denyWrite | apply keep_reportPiece | apply keep_ite | apply keepO_next | apply keep_ite_snd | apply keep_ite_fst | apply keepO_ite | apply keepOpt_ite)
    | (intro t ht; with_reducible (have _h : Keep K t := ht))
    | lift_lets -underBinder
    | (intro u; first
        | (refine (?_ : Keep K u → _) ?_; pick_goal 2; simp only [u]; pick_goal 2; intro hu; clear_value u)
        | clear_value u | skip)
    | split)

theorem keep_execSlotLockHoldExpiry {K : Kept} (s : State) (hs : Keep K s) :
    KeepO K (execSlotLockHoldExpiry s) := by
  unfold execSlotLockHoldExpiry
  repeat' (first
    | (with_reducible first | assumption | apply keep_releaseLock | apply keep_ite | apply keepO_next | apply keep_ite_snd | apply keep_ite_fst | apply keepO_ite | apply keepOpt_ite)
    | (intro t ht; with_reducible (have _h : Keep K t := ht))
    | (intro (_ : _); show Keep K _)
    | split)

theorem keep_commitDone {K : Kept} (s : State) (src code reason : Nat) (uses : Bool) (hs : Keep K s) :
    Keep K (State.commitDone s src code reason uses) := by
  unfold State.commitDone
  repeat' (first
    | (with_reducible first | assumption | apply keep_count | apply keep_mCf | apply keep_releaseLock | apply keep_set | apply keep_wr | apply keep_wr | apply keep_ite | apply keep_ite_snd | apply keep_ite_fst | apply keepO_ite | apply keepOpt_ite)
    | (intro t ht; with_reducible (have _h : Keep K t := ht))
    | lift_lets -underBinder
    | (intro u; first
        | (refine (?_ : Keep K u → _) ?_; pick_goal 2; simp only [u]; pick_goal 2; intro hu; clear_value u)
        | clear_value u | skip)
    | split)

theorem keep_gateGo {K : Kept} (hN : K.keeps = true) (s : State) (hs : Keep K s) :
    Keep K (State.gateGo s) := by
  unfold State.gateGo
  repeat' (first
    | (with_reducible first | assumption | apply keep_flAsk | apply keep_mCf | apply keep_wr | apply keep_wr | apply keep_ite | apply keep_ite_snd | apply keep_ite_fst | apply keepO_ite | apply keepOpt_ite)
    | (intro t ht; with_reducible (have _h : Keep K t := ht))
    | lift_lets -underBinder
    | (intro u; first
        | (refine (?_ : Keep K u → _) ?_; pick_goal 2; simp only [u]; pick_goal 2; intro hu; clear_value u)
        | clear_value u | skip)
    | split)

theorem keep_commitImage {K : Kept} (hN : K.keeps = true) (s : State) (src slot action : Nat) (hs : Keep K s) :
    Keep K (State.commitImage s src slot action) := by
  unfold State.commitImage
  repeat' (first
    | (with_reducible first | assumption | apply keep_commitDone | apply keep_flAsk | apply keep_mCf | apply keep_wr | apply keep_wr | apply keep_ite | apply keep_ite_snd | apply keep_ite_fst | apply keepO_ite | apply keepOpt_ite)
    | (intro t ht; with_reducible (have _h : Keep K t := ht))
    | lift_lets -underBinder
    | (intro u; first
        | (refine (?_ : Keep K u → _) ?_; pick_goal 2; simp only [u]; pick_goal 2; intro hu; clear_value u)
        | clear_value u | skip)
    | split)

theorem keep_commitRole {K : Kept} (hN : K.keeps = true) (s : State) (src slot : Nat) (hs : Keep K s) :
    Keep K (State.commitRole s src slot) := by
  unfold State.commitRole
  repeat' (first
    | (with_reducible first | assumption | apply keep_appendDesc | apply keep_commitDone | apply keep_ite | apply keep_ite_snd | apply keep_ite_fst | apply keepO_ite | apply keepOpt_ite)
    | (intro t ht; with_reducible (have _h : Keep K t := ht))
    | lift_lets -underBinder
    | (intro u; first
        | (refine (?_ : Keep K u → _) ?_; pick_goal 2; simp only [u]; pick_goal 2; intro hu; clear_value u)
        | clear_value u | skip)
    | split)

theorem keep_commitGo {K : Kept} (hN : K.keeps = true) (s : State) (who : Initiator) (slot action : Nat) (hs : Keep K s) :
    Keep K (State.commitGo s who slot action) := by
  unfold State.commitGo
  repeat' (first
    | (with_reducible first | assumption | apply keep_commitDone | apply keep_commitImage | apply keep_commitRole | apply keep_count | apply keep_denyWrite | apply keep_ite | apply keep_ite_snd | apply keep_ite_fst | apply keepO_ite | apply keepOpt_ite)
    | (intro t ht; with_reducible (have _h : Keep K t := ht))
    | lift_lets -underBinder
    | (intro u; first
        | (refine (?_ : Keep K u → _) ?_; pick_goal 2; simp only [u]; pick_goal 2; intro hu; clear_value u)
        | clear_value u | skip)
    | split)

theorem keep_execCommitAction000b {K : Kept} (hN : K.keeps = true) (who : Initiator) (s : State) (hs : Keep K s) :
    KeepO K (execCommitAction000b who s) := by
  unfold execCommitAction000b
  repeat' (with_reducible first | assumption | apply keep_commitGo | apply keepO_next)

theorem keep_execCommitAction001b {K : Kept} (hN : K.keeps = true) (who : Initiator) (s : State) (hs : Keep K s) :
    KeepO K (execCommitAction001b who s) := by
  unfold execCommitAction001b
  repeat' (with_reducible first | assumption | apply keep_commitGo | apply keepO_next)

theorem keep_execCommitAction010b {K : Kept} (hN : K.keeps = true) (who : Initiator) (s : State) (hs : Keep K s) :
    KeepO K (execCommitAction010b who s) := by
  unfold execCommitAction010b
  repeat' (with_reducible first | assumption | apply keep_commitGo | apply keepO_next)

theorem keep_execCommitAction011b {K : Kept} (hN : K.keeps = true) (who : Initiator) (s : State) (hs : Keep K s) :
    KeepO K (execCommitAction011b who s) := by
  unfold execCommitAction011b
  repeat' (with_reducible first | assumption | apply keep_commitGo | apply keepO_next)

theorem keep_execPumpWrite {K : Kept} (hN : K.keeps = true) (who : Initiator) (hi : Nat) (s : State) (hs : Keep K s) :
    KeepO K (execPumpWrite who hi s) := by
  unfold execPumpWrite
  repeat' (first
    | (with_reducible first | assumption | apply keep_denyWrite | apply keep_gateGo | apply keep_mCf | apply keep_wr | apply keep_wr | apply keep_ite | apply keepO_next | apply keep_ite_snd | apply keep_ite_fst | apply keepO_ite | apply keepOpt_ite)
    | (intro t ht; with_reducible (have _h : Keep K t := ht))
    | lift_lets -underBinder
    | (intro u; first
        | (refine (?_ : Keep K u → _) ?_; pick_goal 2; simp only [u]; pick_goal 2; intro hu; clear_value u)
        | clear_value u | skip)
    | split)

theorem keep_gateStep {K : Kept} (hN : K.keeps = true) (s : State) (o : FlOp) (hs : Keep K s) :
    Keep K (State.gateStep s o) := by
  unfold State.gateStep
  repeat' (first
    | (with_reducible first | assumption | apply keep_gateGo | apply keep_mCf | apply keep_showSlot | apply keep_showTested | apply keep_ite | apply keep_ite_snd | apply keep_ite_fst | apply keepO_ite | apply keepOpt_ite)
    | (intro t ht; with_reducible (have _h : Keep K t := ht))
    | lift_lets -underBinder
    | (intro u; first
        | (refine (?_ : Keep K u → _) ?_; pick_goal 2; simp only [u]; pick_goal 2; intro hu; clear_value u)
        | clear_value u | skip)
    | split)

theorem keep_execFlashOperationComplete {K : Kept} (hN : K.keeps = true) (bank : Nat) (s : State) (hs : Keep K s) :
    KeepO K (execFlashOperationComplete bank s) := by
  unfold execFlashOperationComplete
  repeat' (first
    | (with_reducible first | assumption | apply keep_flIdle | apply keep_flNext | apply keep_gateStep | apply keep_permDone | apply keep_set | apply keep_ite | apply keepO_next | apply keep_ite_snd | apply keep_ite_fst | apply keepO_ite | apply keepOpt_ite | refine keep_mNv _ _ hN ?_ (NvOk.mk rfl (List.prefix_refl _)) | refine keep_mNv _ _ hN ?_ (NvOk.mk rfl (List.prefix_append _ _)) | refine keep_mNv _ _ hN ?_ ?_ | exact NvOk.mk rfl (List.prefix_refl _) | apply nvOk_ite | apply nvOk_eraseSector | apply nvOk_programWords)
    | (intro t ht; with_reducible (have _h : Keep K t := ht))
    | lift_lets -underBinder
    | (intro u; first
        | (refine (?_ : Keep K u → _) ?_; pick_goal 2; simp only [u]; pick_goal 2; intro hu; clear_value u)
        | clear_value u | skip)
    | split)

theorem keep_startImage {K : Kept} (hK : K.stores = true) (hN : K.keeps = true) (s : State) (policy mgmt micro : Nat) (hs : Keep K s) :
    Keep K (State.startImage s policy mgmt micro) := by
  unfold State.startImage
  repeat' (first
    | (with_reducible first | assumption | apply keep_coreReset | apply keep_mCf | apply keep_mCore | apply keep_wr | apply keep_wr)
    | (intro t ht; with_reducible (have _h : Keep K t := ht))
    | lift_lets -underBinder
    | (intro u; first
        | (refine (?_ : Keep K u → _) ?_; pick_goal 2; simp only [u]; pick_goal 2; intro hu; clear_value u)
        | clear_value u | skip))

theorem keep_activate {K : Kept} (hK : K.stores = true) (hN : K.keeps = true) (s : State) (c : Commit) (hs : Keep K s) :
    Keep K (State.activate s c) := by
  unfold State.activate
  repeat' (first
    | (with_reducible first | assumption | apply keep_asyncEvent | apply keep_goState | apply keep_mCf | apply keep_startImage | apply keep_wr | apply keep_wr | apply keep_ite | apply keep_ite_snd | apply keep_ite_fst | apply keepO_ite | apply keepOpt_ite)
    | (intro t ht; with_reducible (have _h : Keep K t := ht))
    | lift_lets -underBinder
    | (intro u; first
        | (refine (?_ : Keep K u → _) ?_; pick_goal 2; simp only [u]; pick_goal 2; intro hu; clear_value u)
        | clear_value u | skip)
    | split)

theorem keep_execSlotWriteComplete {K : Kept} (hK : K.stores = true) (hN : K.keeps = true) (s : State) (hs : Keep K s) :
    KeepO K (execSlotWriteComplete s) := by
  unfold execSlotWriteComplete
  repeat' (first
    | (with_reducible first | assumption | apply keep_activate | apply keep_appendDesc | apply keep_commitDone | apply keep_fire | apply keep_showSlot | apply keep_showTested | apply keep_ite | apply keepO_next | apply keep_ite_snd | apply keep_ite_fst | apply keepO_ite | apply keepOpt_ite)
    | (intro t ht; with_reducible (have _h : Keep K t := ht))
    | lift_lets -underBinder
    | (intro u; first
        | (refine (?_ : Keep K u → _) ?_; pick_goal 2; simp only [u]; pick_goal 2; intro hu; clear_value u)
        | clear_value u | skip)
    | split)

theorem keep_execActReady {K : Kept} (hN : K.keeps = true) (who : Initiator) (s : State) (hs : Keep K s) :
    KeepO K (execActReady who s) := by
  unfold execActReady
  repeat' (first
    | (with_reducible first | assumption | apply keep_appendDesc | apply keep_commitDone | apply keep_denyWrite | apply keep_serve | apply keep_wr | apply keep_wr | apply keep_ite | apply keepO_next | apply keep_ite_snd | apply keep_ite_fst | apply keepO_ite | apply keepOpt_ite)
    | (intro t ht; with_reducible (have _h : Keep K t := ht))
    | lift_lets -underBinder
    | (intro u; first
        | (refine (?_ : Keep K u → _) ?_; pick_goal 2; simp only [u]; pick_goal 2; intro hu; clear_value u)
        | clear_value u | skip)
    | split)

theorem keep_execActivationAllowanceExpiry {K : Kept} (hK : K.stores = true) (hN : K.keeps = true) (s : State) (hs : Keep K s) :
    KeepO K (execActivationAllowanceExpiry s) := by
  unfold execActivationAllowanceExpiry
  repeat' (first
    | (with_reducible first | assumption | apply keep_commitDone | apply keep_mCore | apply keep_record | apply keep_serve | apply keep_startImage | apply keep_wr | apply keep_wr | apply keep_ite | apply keepO_next | apply keep_ite_snd | apply keep_ite_fst | apply keepO_ite | apply keepOpt_ite)
    | (intro t ht; with_reducible (have _h : Keep K t := ht))
    | lift_lets -underBinder
    | (intro u; first
        | (refine (?_ : Keep K u → _) ?_; pick_goal 2; simp only [u]; pick_goal 2; intro hu; clear_value u)
        | clear_value u | skip)
    | split)

theorem keep_cfgCompact {K : Kept} (hN : K.keeps = true) (s : State) (hs : Keep K s) :
    Keep K (State.cfgCompact s) := by
  unfold State.cfgCompact
  repeat' (first
    | (with_reducible first | assumption | apply keep_countErase | apply keep_keep | apply keep_foldl | apply keep_foldl2 | apply keep_foldl1 | refine keep_mNv _ _ hN ?_ (NvOk.mk rfl (List.prefix_refl _)) | refine keep_mNv _ _ hN ?_ (NvOk.mk rfl (List.prefix_append _ _)) | refine keep_mNv _ _ hN ?_ ?_ | exact NvOk.mk rfl (List.prefix_refl _) | apply nvOk_ite)
    | (intro t a ht; with_reducible (have _h : Keep K t := ht))
    | (intro t ht; with_reducible (have _h : Keep K t := ht))
    | lift_lets -underBinder
    | (intro u; first
        | (refine (?_ : Keep K u → _) ?_; pick_goal 2; simp only [u]; pick_goal 2; intro hu; clear_value u)
        | clear_value u | skip))

theorem keep_execRecCmdBegin {K : Kept} (who : Initiator) (s : State) (hs : Keep K s) :
    KeepO K (execRecCmdBegin who s) := by
  unfold execRecCmdBegin
  repeat' (first
    | (with_reducible first | assumption | apply keep_count | apply keep_denyWrite | apply keep_mCf | apply keep_set | apply keep_wr | apply keep_wr | apply keep_ite | apply keepO_next | apply keep_ite_snd | apply keep_ite_fst | apply keepO_ite | apply keepOpt_ite)
    | (intro t ht; with_reducible (have _h : Keep K t := ht))
    | lift_lets -underBinder
    | (intro u; first
        | (refine (?_ : Keep K u → _) ?_; pick_goal 2; simp only [u]; pick_goal 2; intro hu; clear_value u)
        | clear_value u | skip)
    | split)

theorem keep_recDone {K : Kept} (s : State) (code : Nat) (hs : Keep K s) :
    Keep K (State.recDone s code) := by
  unfold State.recDone
  repeat' (first
    | (with_reducible first | assumption | apply keep_count | apply keep_mCf | apply keep_set | apply keep_ite | apply keep_ite_snd | apply keep_ite_fst | apply keepO_ite | apply keepOpt_ite)
    | (intro t ht; with_reducible (have _h : Keep K t := ht))
    | lift_lets -underBinder
    | (intro u; first
        | (refine (?_ : Keep K u → _) ?_; pick_goal 2; simp only [u]; pick_goal 2; intro hu; clear_value u)
        | clear_value u | skip)
    | split)

theorem keep_execRecCmdEnd {K : Kept} (hN : K.keeps = true) (who : Initiator) (s : State) (hs : Keep K s) :
    KeepO K (execRecCmdEnd who s) := by
  unfold execRecCmdEnd
  repeat' (first
    | (with_reducible first | assumption | apply keep_cfgCompact | apply keep_count | apply keep_denyWrite | apply keep_recDone | apply keep_ite | apply keepO_next | apply keep_ite_snd | apply keep_ite_fst | apply keepO_ite | apply keepOpt_ite | refine keep_mNv _ _ hN ?_ (NvOk.mk rfl (List.prefix_refl _)) | refine keep_mNv _ _ hN ?_ (NvOk.mk rfl (List.prefix_append _ _)) | refine keep_mNv _ _ hN ?_ ?_ | exact NvOk.mk rfl (List.prefix_refl _) | apply nvOk_ite)
    | (intro t ht; with_reducible (have _h : Keep K t := ht))
    | lift_lets -underBinder
    | (intro u; first
        | (refine (?_ : Keep K u → _) ?_; pick_goal 2; simp only [u]; pick_goal 2; intro hu; clear_value u)
        | clear_value u | skip)
    | split)

theorem keep_execRecCmdCancel {K : Kept} (who : Initiator) (s : State) (hs : Keep K s) :
    KeepO K (execRecCmdCancel who s) := by
  unfold execRecCmdCancel
  repeat' (first
    | (with_reducible first | assumption | apply keep_count | apply keep_denyWrite | apply keep_recDone | apply keep_ite | apply keepO_next | apply keep_ite_snd | apply keep_ite_fst | apply keepO_ite | apply keepOpt_ite)
    | (intro t ht; with_reducible (have _h : Keep K t := ht))
    | (intro (_ : _); show Keep K _)
    | split)

theorem keep_execOwnerLockWrite {K : Kept} (hN : K.keeps = true) (who : Initiator) (value : Bool) (s : State) (hs : Keep K s) :
    KeepO K (execOwnerLockWrite who value s) := by
  unfold execOwnerLockWrite
  repeat' (first
    | (with_reducible first | assumption | apply keep_denyWrite | apply keep_hwMode | apply keep_wr | apply keep_wr | apply keep_ite | apply keepO_next | apply keep_ite_snd | apply keep_ite_fst | apply keepO_ite | apply keepOpt_ite | refine keep_mNv _ _ hN ?_ (NvOk.mk rfl (List.prefix_refl _)) | refine keep_mNv _ _ hN ?_ (NvOk.mk rfl (List.prefix_append _ _)) | refine keep_mNv _ _ hN ?_ ?_ | exact NvOk.mk rfl (List.prefix_refl _) | apply nvOk_ite)
    | (intro t ht; with_reducible (have _h : Keep K t := ht))
    | lift_lets -underBinder
    | (intro u; first
        | (refine (?_ : Keep K u → _) ?_; pick_goal 2; simp only [u]; pick_goal 2; intro hu; clear_value u)
        | clear_value u | skip)
    | split)

end Sys2Proof.Laws
end

