-- ==== Sys2Proof/Laws/KeepPitch.lean ====
section
/-! SUPPORT. The operations of Machine/Pitch.lean keep the queue and the canonical forms. -/

namespace Sys2Proof.Laws

open Sys2Proof Sys2Proof.Machine

set_option linter.unusedTactic false
set_option linter.unreachableTactic false
set_option linter.unusedVariables false

theorem keep_admin {K : Kept} (s : State) (port cid opcode : Nat) (f : Cmd → State → State) (hs : Keep K s) (hf : ∀ (x0 : Cmd) (x1 : State), Keep K x1 → Keep K (f x0 x1)) :
    Keep K (State.admin s port cid opcode f) := by
  unfold State.admin
  repeat' (first
    | (with_reducible first | assumption | apply hf | apply keep_ite | apply keep_ite_snd | apply keep_ite_fst | apply keepO_ite | apply keepOpt_ite)
    | (intro t ht; with_reducible (have _h : Keep K t := ht))
    | (intro (_ : _); show Keep K _)
    | split)

theorem keep_rentCmd {K : Kept} (c : Cmd) (s : State) (hs : Keep K s) :
    Keep K (rentCmd c s) := by
  unfold rentCmd
  repeat' (first
    | (with_reducible first | assumption | apply keep_complete | apply keep_rentAt | apply keep_ite | apply keep_ite_snd | apply keep_ite_fst | apply keepO_ite | apply keepOpt_ite)
    | (intro t ht; with_reducible (have _h : Keep K t := ht))
    | lift_lets -underBinder
    | (intro u; first
        | (refine (?_ : Keep K u → _) ?_; pick_goal 2; simp only [u]; pick_goal 2; intro hu; clear_value u)
        | clear_value u | skip)
    | split)

theorem keep_execPitchRent {K : Kept} (port cid : Nat) (s : State) (hs : Keep K s) :
    KeepO K (execPitchRent port cid s) := by
  unfold execPitchRent
  repeat' (with_reducible first | assumption | apply keep_admin | apply keep_rentCmd | apply keepO_next)

theorem keep_returnCmd {K : Kept} (c : Cmd) (s : State) (hs : Keep K s) :
    Keep K (returnCmd c s) := by
  unfold returnCmd
  repeat' (first
    | (with_reducible first | assumption | apply keep_complete | apply keep_returnPitch | apply keep_ite | apply keep_ite_snd | apply keep_ite_fst | apply keepO_ite | apply keepOpt_ite)
    | (intro t ht; with_reducible (have _h : Keep K t := ht))
    | lift_lets -underBinder
    | (intro u; first
        | (refine (?_ : Keep K u → _) ?_; pick_goal 2; simp only [u]; pick_goal 2; intro hu; clear_value u)
        | clear_value u | skip)
    | split)

theorem keep_execPitchReturn {K : Kept} (port cid : Nat) (s : State) (hs : Keep K s) :
    KeepO K (execPitchReturn port cid s) := by
  unfold execPitchReturn
  repeat' (with_reducible first | assumption | apply keep_admin | apply keep_returnCmd | apply keepO_next)

theorem keep_bindQueue {K : Kept} (s : State) (b v : Nat) (hs : Keep K s) :
    Keep K (State.bindQueue s b v) := by
  unfold State.bindQueue
  repeat' (with_reducible first | assumption | apply keep_wr | apply keep_wr)

theorem keep_bindCmd {K : Kept} (c : Cmd) (s : State) (hs : Keep K s) :
    Keep K (bindCmd c s) := by
  unfold bindCmd
  repeat' (first
    | (with_reducible first | assumption | apply keep_bindQueue | apply keep_complete | apply keep_ite | apply keep_ite_snd | apply keep_ite_fst | apply keepO_ite | apply keepOpt_ite)
    | (intro t ht; with_reducible (have _h : Keep K t := ht))
    | lift_lets -underBinder
    | (intro u; first
        | (refine (?_ : Keep K u → _) ?_; pick_goal 2; simp only [u]; pick_goal 2; intro hu; clear_value u)
        | clear_value u | skip)
    | split)

theorem keep_execPitchBind {K : Kept} (port cid : Nat) (s : State) (hs : Keep K s) :
    KeepO K (execPitchBind port cid s) := by
  unfold execPitchBind
  repeat' (with_reducible first | assumption | apply keep_admin | apply keep_bindCmd | apply keepO_next)

theorem keep_pitchCmd {K : Kept} (who : Initiator) (s : State) (f : State → State) (hs : Keep K s) (hf : ∀ (x0 : State), Keep K x0 → Keep K (f x0)) :
    Keep K (pitchCmd who s f) := by
  unfold pitchCmd
  repeat' (first
    | (with_reducible first | assumption | apply keep_access | apply keep_count | apply keep_denyWrite | apply hf | apply keep_ite | apply keep_ite_snd | apply keep_ite_fst | apply keepO_ite | apply keepOpt_ite)
    | (intro t ht; with_reducible (have _h : Keep K t := ht))
    | (intro (_ : _); show Keep K _)
    | split)

theorem keep_pitchResult {K : Kept} (s : State) (code res : Nat) (hs : Keep K s) :
    Keep K (State.pitchResult s code res) := by
  unfold State.pitchResult
  repeat' (with_reducible first | assumption | apply keep_set | apply keep_wr | apply keep_wr)

theorem keep_execPitchCmdRent {K : Kept} (who : Initiator) (s : State) (hs : Keep K s) :
    KeepO K (execPitchCmdRent who s) := by
  unfold execPitchCmdRent
  repeat' (first
    | (with_reducible first | assumption | apply keep_pitchCmd | apply keep_pitchResult | apply keep_rentAt | apply keepO_next)
    | (intro t ht; with_reducible (have _h : Keep K t := ht))
    | lift_lets -underBinder
    | (intro u; first
        | (refine (?_ : Keep K u → _) ?_; pick_goal 2; simp only [u]; pick_goal 2; intro hu; clear_value u)
        | clear_value u | skip)
    | split)

theorem keep_execPitchCmdReturn {K : Kept} (who : Initiator) (s : State) (hs : Keep K s) :
    KeepO K (execPitchCmdReturn who s) := by
  unfold execPitchCmdReturn
  repeat' (first
    | (with_reducible first | assumption | apply keep_pitchCmd | apply keep_pitchResult | apply keep_returnPitch | apply keep_ite | apply keepO_next | apply keep_ite_snd | apply keep_ite_fst | apply keepO_ite | apply keepOpt_ite)
    | (intro t ht; with_reducible (have _h : Keep K t := ht))
    | lift_lets -underBinder
    | (intro u; first
        | (refine (?_ : Keep K u → _) ?_; pick_goal 2; simp only [u]; pick_goal 2; intro hu; clear_value u)
        | clear_value u | skip)
    | split)

theorem keep_execPitchCmdLoad {K : Kept} (who : Initiator) (s : State) (hs : Keep K s) :
    KeepO K (execPitchCmdLoad who s) := by
  unfold execPitchCmdLoad
  repeat' (first
    | (with_reducible first | assumption | apply keep_pitchCmd | apply keep_pitchResult | apply keep_wr | apply keep_wr | apply keepO_next)
    | (intro t ht; with_reducible (have _h : Keep K t := ht))
    | lift_lets -underBinder
    | (intro u; first
        | (refine (?_ : Keep K u → _) ?_; pick_goal 2; simp only [u]; pick_goal 2; intro hu; clear_value u)
        | clear_value u | skip))

theorem keep_execPitchCmdTest {K : Kept} (who : Initiator) (s : State) (hs : Keep K s) :
    KeepO K (execPitchCmdTest who s) := by
  unfold execPitchCmdTest
  repeat' (first
    | (with_reducible first | assumption | apply keep_pitchCmd | apply keep_pitchResult | apply keepO_next)
    | (intro t ht; with_reducible (have _h : Keep K t := ht))
    | lift_lets -underBinder
    | (intro u; first
        | (refine (?_ : Keep K u → _) ?_; pick_goal 2; simp only [u]; pick_goal 2; intro hu; clear_value u)
        | clear_value u | skip))

theorem keep_execQbCfgWrite {K : Kept} (who : Initiator) (value : Nat) (s : State) (hs : Keep K s) :
    KeepO K (execQbCfgWrite who value s) := by
  unfold execQbCfgWrite
  repeat' (first
    | (with_reducible first | assumption | apply keep_access | apply keep_bindQueue | apply keep_denyWrite | apply keep_pitchResult | apply keep_ite | apply keepO_next | apply keep_ite_snd | apply keep_ite_fst | apply keepO_ite | apply keepOpt_ite)
    | (intro t ht; with_reducible (have _h : Keep K t := ht))
    | lift_lets -underBinder
    | (intro u; first
        | (refine (?_ : Keep K u → _) ?_; pick_goal 2; simp only [u]; pick_goal 2; intro hu; clear_value u)
        | clear_value u | skip)
    | split)

theorem keep_refillPitch {K : Kept} (s : State) (n : Nat) (hs : Keep K s) :
    Keep K (State.refillPitch s n) := by
  unfold State.refillPitch
  repeat' (first
    | (with_reducible first | assumption | apply keep_refillOne | apply keep_foldl | apply keep_foldl2 | apply keep_foldl1)
    | (intro t a ht; with_reducible (have _h : Keep K t := ht))
    | (intro t ht; with_reducible (have _h : Keep K t := ht)))

theorem keep_refillAll {K : Kept} (s : State) (l : List Nat) (hs : Keep K s) :
    Keep K (refillAll s l) := by
  unfold refillAll
  repeat' (first
    | (with_reducible first | assumption | apply keep_refillPitch | apply keep_foldl | apply keep_foldl2 | apply keep_foldl1)
    | (intro t ht; with_reducible (have _h : Keep K t := ht)))

theorem keep_execTokenRefill {K : Kept} (s : State) (hs : Keep K s) :
    KeepO K (execTokenRefill s) := by
  unfold execTokenRefill
  repeat' (first
    | (with_reducible first | assumption | apply keep_followPower | apply keep_mPit | apply keep_refillAll | apply keep_ite | apply keepO_next | apply keep_ite_snd | apply keep_ite_fst | apply keepO_ite | apply keepOpt_ite)
    | (intro t ht; with_reducible (have _h : Keep K t := ht))
    | lift_lets -underBinder
    | (intro u; first
        | (refine (?_ : Keep K u → _) ?_; pick_goal 2; simp only [u]; pick_goal 2; intro hu; clear_value u)
        | clear_value u | skip)
    | split)

end Sys2Proof.Laws
end

