-- ==== Sys2Proof/Laws/KeepLogbook.lean ====
section
/-! SUPPORT. The operations of Machine/Logbook.lean keep the queue and the canonical forms. -/

namespace Sys2Proof.Laws

open Sys2Proof Sys2Proof.Machine

set_option linter.unusedTactic false
set_option linter.unreachableTactic false
set_option linter.unusedVariables false

theorem keep_execRecordStore {K : Kept} (hN : K.keeps = true) (s : State) (hs : Keep K s) :
    KeepO K (execRecordStore s) := by
  unfold execRecordStore
  repeat' (first
    | (with_reducible first | assumption | apply keep_mLog | apply keep_set | apply keep_store | apply keepO_next)
    | (intro t ht; with_reducible (have _h : Keep K t := ht))
    | lift_lets -underBinder
    | (intro u; first
        | (refine (?_ : Keep K u → _) ?_; pick_goal 2; simp only [u]; pick_goal 2; intro hu; clear_value u)
        | clear_value u | skip)
    | split)

theorem keep_execRingSave {K : Kept} (hN : K.keeps = true) (ok : Bool) (s : State) (hs : Keep K s) :
    KeepO K (execRingSave ok s) := by
  unfold execRingSave
  repeat' (first
    | (with_reducible first | assumption | apply keep_mLog | apply keep_record | apply keep_set | apply keep_wr | apply keep_wr | apply keep_ite | apply keepO_next | apply keep_ite_snd | apply keep_ite_fst | apply keepO_ite | apply keepOpt_ite | refine keep_mNv _ _ hN ?_ (NvOk.mk rfl (List.prefix_refl _)) | refine keep_mNv _ _ hN ?_ (NvOk.mk rfl (List.prefix_append _ _)) | refine keep_mNv _ _ hN ?_ ?_ | exact NvOk.mk rfl (List.prefix_refl _) | apply nvOk_ite)
    | (intro t ht; with_reducible (have _h : Keep K t := ht))
    | lift_lets -underBinder
    | (intro u; first
        | (refine (?_ : Keep K u → _) ?_; pick_goal 2; simp only [u]; pick_goal 2; intro hu; clear_value u)
        | clear_value u | skip)
    | split)

theorem keep_execFaultRelease {K : Kept} (who : Initiator) (s : State) (hs : Keep K s) :
    KeepO K (execFaultRelease who s) := by
  unfold execFaultRelease
  repeat' (first
    | (with_reducible first | assumption | apply keep_denyWrite | apply keep_mLog | apply keep_record | apply keep_wr | apply keep_wr | apply keep_ite | apply keepO_next | apply keep_ite_snd | apply keep_ite_fst | apply keepO_ite | apply keepOpt_ite)
    | (intro t ht; with_reducible (have _h : Keep K t := ht))
    | lift_lets -underBinder
    | (intro u; first
        | (refine (?_ : Keep K u → _) ?_; pick_goal 2; simp only [u]; pick_goal 2; intro hu; clear_value u)
        | clear_value u | skip)
    | split)

theorem keep_endStretch {K : Kept} (s : State) (byMax : Bool) (hs : Keep K s) :
    Keep K (endStretch s byMax) := by
  unfold endStretch
  repeat' (first
    | (with_reducible first | assumption | apply keep_mLog | apply keep_record | apply keep_wr | apply keep_wr)
    | (intro t ht; with_reducible (have _h : Keep K t := ht))
    | lift_lets -underBinder
    | (intro u; first
        | (refine (?_ : Keep K u → _) ?_; pick_goal 2; simp only [u]; pick_goal 2; intro hu; clear_value u)
        | clear_value u | skip))

theorem keep_execLogCtrlFreeze {K : Kept} (who : Initiator) (on : Bool) (s : State) (hs : Keep K s) :
    KeepO K (execLogCtrlFreeze who on s) := by
  unfold execLogCtrlFreeze
  repeat' (first
    | (with_reducible first | assumption | apply keep_endStretch | apply keep_fresh | apply keep_mLog | apply keep_wr | apply keep_wr | apply keep_ite | apply keepO_next | apply keep_ite_snd | apply keep_ite_fst | apply keepO_ite | apply keepOpt_ite)
    | (intro t ht; with_reducible (have _h : Keep K t := ht))
    | lift_lets -underBinder
    | (intro u; first
        | (refine (?_ : Keep K u → _) ?_; pick_goal 2; simp only [u]; pick_goal 2; intro hu; clear_value u)
        | clear_value u | skip)
    | split)

theorem keep_execFreezeMaxExpiry {K : Kept} (s : State) (hs : Keep K s) :
    KeepO K (execFreezeMaxExpiry s) := by
  unfold execFreezeMaxExpiry
  repeat' (first
    | (with_reducible first | assumption | apply keep_endStretch | apply keep_ite | apply keepO_next | apply keep_ite_snd | apply keep_ite_fst | apply keepO_ite | apply keepOpt_ite)
    | (intro t ht; with_reducible (have _h : Keep K t := ht))
    | (intro (_ : _); show Keep K _)
    | split)

theorem keep_execFwPost {K : Kept} (who : Initiator) (s : State) (hs : Keep K s) :
    KeepO K (execFwPost who s) := by
  unfold execFwPost
  repeat' (first
    | (with_reducible first | assumption | apply keep_count | apply keep_denyWrite | apply keep_post | apply keep_set | apply keep_wr | apply keep_wr | apply keep_ite | apply keepO_next | apply keep_ite_snd | apply keep_ite_fst | apply keepO_ite | apply keepOpt_ite)
    | (intro t ht; with_reducible (have _h : Keep K t := ht))
    | lift_lets -underBinder
    | (intro u; first
        | (refine (?_ : Keep K u → _) ?_; pick_goal 2; simp only [u]; pick_goal 2; intro hu; clear_value u)
        | clear_value u | skip)
    | split)

theorem keep_cursorTo {K : Kept} (s : State) (b epoch seq : Nat) (hs : Keep K s) :
    Keep K (cursorTo s b epoch seq) := by
  unfold cursorTo
  repeat' (with_reducible first | assumption | apply keep_wr | apply keep_wr64 | apply keep_wr)

theorem keep_execCurCmdOldest {K : Kept} (who : Initiator) (s : State) (hs : Keep K s) :
    KeepO K (execCurCmdOldest who s) := by
  unfold execCurCmdOldest
  repeat' (first
    | (with_reducible first | assumption | apply keep_cursorTo | apply keep_wr | apply keep_wr | apply keep_ite | apply keepO_next | apply keep_ite_snd | apply keep_ite_fst | apply keepO_ite | apply keepOpt_ite)
    | (intro t ht; with_reducible (have _h : Keep K t := ht))
    | lift_lets -underBinder
    | (intro u; first
        | (refine (?_ : Keep K u → _) ?_; pick_goal 2; simp only [u]; pick_goal 2; intro hu; clear_value u)
        | clear_value u | skip)
    | split)

theorem keep_execCurCmdNewest {K : Kept} (who : Initiator) (s : State) (hs : Keep K s) :
    KeepO K (execCurCmdNewest who s) := by
  unfold execCurCmdNewest
  repeat' (first
    | (with_reducible first | assumption | apply keep_cursorTo | apply keep_wr | apply keep_wr | apply keep_ite | apply keepO_next | apply keep_ite_snd | apply keep_ite_fst | apply keepO_ite | apply keepOpt_ite)
    | (intro t ht; with_reducible (have _h : Keep K t := ht))
    | lift_lets -underBinder
    | (intro u; first
        | (refine (?_ : Keep K u → _) ?_; pick_goal 2; simp only [u]; pick_goal 2; intro hu; clear_value u)
        | clear_value u | skip)
    | split)

theorem keep_holdWords {K : Kept} (s : State) (b n : Nat) (l : List Nat) (hs : Keep K s) : Keep K (holdWords s b n l) := by
  induction l generalizing n s with
  | nil => exact hs
  | cons w t ih => exact ih _ _ (keep_wr _ _ _ _ _ hs)


theorem keep_win0 {K : Kept} (s : State) (b : Nat) (hs : Keep K s) : Keep K (s.win0 b) := by
  unfold State.win0
  apply keep_ite
  · intro _
    have h1 := keep_wr s R.LOG.CUR_STAT_VALID (b2n (s.nv.perm[s.rd R.LOG.CUR_INDEX_INDEX 0 b]?).isSome) 0 b hs
    apply keep_ite
    · intro _; exact keep_holdWords _ _ _ _ (keep_free _ h1)
    · intro _; exact keep_holdWords _ _ _ _ h1
  · intro _
    dsimp only
    repeat' (first
      | (with_reducible first | assumption | apply keep_holdWords | apply keep_wr | apply keep_cursorTo | apply keep_ite)
      | (intro (_ : _); show Keep K _)
      | split)


theorem keep_execWin0Read {K : Kept} (who : Initiator) (s : State) (hs : Keep K s) :
    KeepO K (execWin0Read who s) := by
  unfold execWin0Read
  repeat' (first
    | (with_reducible first | assumption | apply keep_answer | apply keep_win0 | apply keepO_next)
    | (intro t ht; with_reducible (have _h : Keep K t := ht))
    | lift_lets -underBinder
    | (intro u; first
        | (refine (?_ : Keep K u → _) ?_; pick_goal 2; simp only [u]; pick_goal 2; intro hu; clear_value u)
        | clear_value u | skip))

theorem keep_win15 {K : Kept} (s : State) (b : Nat) (hs : Keep K s) :
    Keep K (State.win15 s b) := by
  unfold State.win15
  repeat' (first
    | (with_reducible first | assumption | apply keep_cursorTo | apply keep_wr | apply keep_wr | apply keep_ite | apply keep_ite_snd | apply keep_ite_fst | apply keepO_ite | apply keepOpt_ite)
    | (intro t ht; with_reducible (have _h : Keep K t := ht))
    | lift_lets -underBinder
    | (intro u; first
        | (refine (?_ : Keep K u → _) ?_; pick_goal 2; simp only [u]; pick_goal 2; intro hu; clear_value u)
        | clear_value u | skip)
    | split)

theorem keep_execWin15Read {K : Kept} (who : Initiator) (s : State) (hs : Keep K s) :
    KeepO K (execWin15Read who s) := by
  unfold execWin15Read
  repeat' (first
    | (with_reducible first | assumption | apply keep_answer | apply keep_win15 | apply keepO_next)
    | (intro t ht; with_reducible (have _h : Keep K t := ht))
    | lift_lets -underBinder
    | (intro u; first
        | (refine (?_ : Keep K u → _) ?_; pick_goal 2; simp only [u]; pick_goal 2; intro hu; clear_value u)
        | clear_value u | skip))

theorem keep_setWall {K : Kept} (hN : K.keeps = true) (s : State) (who : Initiator) (ms : Nat) (hs : Keep K s) :
    Keep K (setWall s who ms) := by
  unfold setWall
  repeat' (first
    | (with_reducible first | assumption | apply keep_count | apply keep_mLog | apply keep_recordNow | apply keep_wr | apply keep_wr | apply keep_ite | apply keep_ite_snd | apply keep_ite_fst | apply keepO_ite | apply keepOpt_ite)
    | (intro t ht; with_reducible (have _h : Keep K t := ht))
    | lift_lets -underBinder
    | (intro u; first
        | (refine (?_ : Keep K u → _) ?_; pick_goal 2; simp only [u]; pick_goal 2; intro hu; clear_value u)
        | clear_value u | skip)
    | split)

theorem keep_execWallSetHi {K : Kept} (hN : K.keeps = true) (who : Initiator) (ms : Nat) (s : State) (hs : Keep K s) :
    KeepO K (execWallSetHi who ms s) := by
  unfold execWallSetHi
  repeat' (first
    | (with_reducible first | assumption | apply keep_denyWrite | apply keep_setWall | apply keep_ite | apply keepO_next | apply keep_ite_snd | apply keep_ite_fst | apply keepO_ite | apply keepOpt_ite)
    | (intro t ht; with_reducible (have _h : Keep K t := ht))
    | (intro (_ : _); show Keep K _)
    | split)

theorem keep_execRateBucketRefill {K : Kept} (code : Nat) (s : State) (hs : Keep K s) :
    KeepO K (execRateBucketRefill code s) := by
  unfold execRateBucketRefill
  repeat' (first
    | (with_reducible first | assumption | apply keep_mLog | apply keep_set | apply keepO_next)
    | (intro t ht; with_reducible (have _h : Keep K t := ht)))

end Sys2Proof.Laws
end

