-- ==== Sys2Proof/Laws/KeepIntake.lean ====
section
/-! SUPPORT. The operations of Machine/Intake.lean keep the queue and the canonical forms. -/

namespace Sys2Proof.Laws

open Sys2Proof Sys2Proof.Machine

set_option linter.unusedTactic false
set_option linter.unreachableTactic false
set_option linter.unusedVariables false

theorem keep_hostRequest {K : Kept} (s : State) (hs : Keep K s) :
    Keep K (State.hostRequest s) := by
  unfold State.hostRequest
  repeat' (first
    | (with_reducible first | assumption | apply keep_fire | apply keep_foldl | apply keep_foldl2 | apply keep_foldl1)
    | (intro t a ht; with_reducible (have _h : Keep K t := ht))
    | (intro t ht; with_reducible (have _h : Keep K t := ht)))

theorem keep_execSqDoorbell {K : Kept} (port sqid tail : Nat) (s : State) (hs : Keep K s) :
    KeepO K (execSqDoorbell port sqid tail s) := by
  unfold execSqDoorbell
  repeat' (first
    | (with_reducible first | assumption | apply keep_hostRequest | apply keep_mSq | apply keep_nonopExit | apply keep_ite | apply keepO_next | apply keep_ite_snd | apply keep_ite_fst | apply keepO_ite | apply keepOpt_ite)
    | (intro t ht; with_reducible (have _h : Keep K t := ht))
    | lift_lets -underBinder
    | (intro u; first
        | (refine (?_ : Keep K u → _) ?_; pick_goal 2; simp only [u]; pick_goal 2; intro hu; clear_value u)
        | clear_value u | skip)
    | split)

theorem keep_execSqeArrival {K : Kept} (port sqid cid opcode flags nsid : Nat) (dw : List Nat) (ranges : List (Nat × Nat)) (payload : List Nat) (s : State) (hs : Keep K s) :
    KeepO K (execSqeArrival port sqid cid opcode flags nsid dw ranges payload s) := by
  unfold execSqeArrival
  repeat' (first
    | (with_reducible first | assumption | apply keep_ctxUse | apply keep_mHost | apply keep_mSq | apply keep_ite | apply keepO_next | apply keep_ite_snd | apply keep_ite_fst | apply keepO_ite | apply keepOpt_ite)
    | (intro t ht; with_reducible (have _h : Keep K t := ht))
    | lift_lets -underBinder
    | (intro u; first
        | (refine (?_ : Keep K u → _) ?_; pick_goal 2; simp only [u]; pick_goal 2; intro hu; clear_value u)
        | clear_value u | skip)
    | split)

theorem keep_askLocks {K : Kept} (s : State) (c : Cmd) (hs : Keep K s) :
    Keep K (State.askLocks s c) := by
  unfold State.askLocks
  repeat' (first
    | (with_reducible first | assumption | apply keep_requestRow | apply keep_ite | apply keep_ite_snd | apply keep_ite_fst | apply keepO_ite | apply keepOpt_ite | apply keep_foldl | apply keep_foldl2 | apply keep_foldl1)
    | (intro t a ht; with_reducible (have _h : Keep K t := ht))
    | (intro t ht; with_reducible (have _h : Keep K t := ht))
    | (intro (_ : _); show Keep K _)
    | split)

theorem keep_execRltBlockShift {K : Kept} (s : State) (hs : Keep K s) :
    KeepO K (execRltBlockShift s) := by
  unfold execRltBlockShift
  repeat' (first
    | (with_reducible first | assumption | apply keep_mHost | apply keep_putRow | apply keep_seatWaiting | apply keep_wr | apply keep_wr | apply keep_ite | apply keepO_next | apply keep_ite_snd | apply keep_ite_fst | apply keepO_ite | apply keepOpt_ite)
    | (intro t ht; with_reducible (have _h : Keep K t := ht))
    | lift_lets -underBinder
    | (intro u; first
        | (refine (?_ : Keep K u → _) ?_; pick_goal 2; simp only [u]; pick_goal 2; intro hu; clear_value u)
        | clear_value u | skip)
    | split)

theorem keep_beginWait {K : Kept} (s : State) (c : Cmd) (why : Nat) (hs : Keep K s) :
    Keep K (State.beginWait s c why) := by
  unfold State.beginWait
  repeat' (first
    | (with_reducible first | assumption | apply keep_mCmd | apply keep_pitchLog | apply keep_ite | apply keep_ite_snd | apply keep_ite_fst | apply keepO_ite | apply keepOpt_ite)
    | (intro t ht; with_reducible (have _h : Keep K t := ht))
    | lift_lets -underBinder
    | (intro u; first
        | (refine (?_ : Keep K u → _) ?_; pick_goal 2; simp only [u]; pick_goal 2; intro hu; clear_value u)
        | clear_value u | skip)
    | split)

theorem keep_pay {K : Kept} (s : State) (c : Cmd) (a : Admission) (hs : Keep K s) :
    Keep K (State.pay s c a) := by
  unfold State.pay
  repeat' (first
    | (with_reducible first | assumption | apply keep_mPit | apply keep_pitchLog | apply keep_set | apply keep_spend | apply keep_ite | apply keep_ite_snd | apply keep_ite_fst | apply keepO_ite | apply keepOpt_ite)
    | (intro t ht; with_reducible (have _h : Keep K t := ht))
    | lift_lets -underBinder
    | (intro u; first
        | (refine (?_ : Keep K u → _) ?_; pick_goal 2; simp only [u]; pick_goal 2; intro hu; clear_value u)
        | clear_value u | skip)
    | split)

theorem keep_accept {K : Kept} (s : State) (c : Cmd) (a : Admission) (hs : Keep K s) :
    Keep K (State.accept s c a) := by
  unfold State.accept
  repeat' (first
    | (with_reducible first | assumption | apply keep_earnCredit | apply keep_mCmd | apply keep_move | apply keep_pay | apply keep_send | apply keep_traceCmd | apply keep_unstage | apply keep_ite | apply keep_ite_snd | apply keep_ite_fst | apply keepO_ite | apply keepOpt_ite)
    | (intro t ht; with_reducible (have _h : Keep K t := ht))
    | lift_lets -underBinder
    | (intro u; first
        | (refine (?_ : Keep K u → _) ?_; pick_goal 2; simp only [u]; pick_goal 2; intro hu; clear_value u)
        | clear_value u | skip)
    | split)

theorem keep_askHostCrates {K : Kept} (s : State) (c : Cmd) (a : Admission) (k : Nat) (hs : Keep K s) :
    Keep K (State.askHostCrates s c a k) := by
  unfold State.askHostCrates
  repeat' (first
    | (with_reducible assumption)
    | (with_reducible first | apply keep_askCrates | apply keep_count | apply keep_deliver | apply keep_ite | apply keep_ite_snd | apply keep_ite_fst | apply keepO_ite | apply keepOpt_ite)
    | (intro t ht; with_reducible (have _h : Keep K t := ht))
    | lift_lets -underBinder
    | (intro u; first
        | (refine (?_ : Keep K u → _) ?_; pick_goal 2; simp only [u]; pick_goal 2; intro hu; clear_value u)
        | (refine (?_ : Keep K u.2 → _) ?_; pick_goal 2; simp only [u]; pick_goal 2; intro hu; clear_value u)
        | (refine (?_ : Keep K u.1 → _) ?_; pick_goal 2; simp only [u]; pick_goal 2; intro hu; clear_value u)
        | (refine (?_ : Keep K u.st → _) ?_; pick_goal 2; simp only [u]; pick_goal 2; intro hu; clear_value u)
        | clear_value u | skip)
    | split
    | (intro t ht; with_reducible (have _h : Keep K t := ht))
    | (intro c t ht; with_reducible (have _h : Keep K t := ht))
    | dsimp -zeta only [id])

theorem keep_startWrite {K : Kept} (hK : K.stores = true) (s : State) (c : Cmd) (hs : Keep K s) :
    Keep K (State.startWrite s c) := by
  unfold State.startWrite
  repeat' (first
    | (with_reducible first | assumption | apply keep_mCmd | apply keep_mPor | apply keep_mPort | apply keep_startMerge | apply keep_zeroesStep | apply keep_ite | apply keep_ite_snd | apply keep_ite_fst | apply keepO_ite | apply keepOpt_ite)
    | (intro t ht; with_reducible (have _h : Keep K t := ht))
    | lift_lets -underBinder
    | (intro u; first
        | (refine (?_ : Keep K u → _) ?_; pick_goal 2; simp only [u]; pick_goal 2; intro hu; clear_value u)
        | clear_value u | skip)
    | split)

theorem keep_startGranted {K : Kept} (hK : K.stores = true) (s : State) (hs : Keep K s) :
    Keep K (State.startGranted s) := by
  unfold State.startGranted
  repeat' (first
    | (with_reducible first | assumption | apply keep_startWrite | apply keep_foldl | apply keep_foldl2 | apply keep_foldl1)
    | (intro t ht; with_reducible (have _h : Keep K t := ht)))

theorem keep_flushStep {K : Kept} (s : State) (uid : Nat) (hs : Keep K s) :
    Keep K (State.flushStep s uid) := by
  unfold State.flushStep
  repeat' (first
    | (with_reducible first | assumption | apply keep_complete | apply keep_reportDeferred | apply keep_ite | apply keep_ite_snd | apply keep_ite_fst | apply keepO_ite | apply keepOpt_ite)
    | (intro t ht; with_reducible (have _h : Keep K t := ht))
    | lift_lets -underBinder
    | (intro u; first
        | (refine (?_ : Keep K u → _) ?_; pick_goal 2; simp only [u]; pick_goal 2; intro hu; clear_value u)
        | clear_value u | skip)
    | split)

theorem keep_flushFirst {K : Kept} (s : State) (l : List (Nat × Nat × Nat)) (hs : Keep K s) :
    Keep K (State.flushFirst s l) := by
  unfold State.flushFirst
  repeat' (first
    | (with_reducible first | assumption | apply keep_mLed)
    | (intro t ht; with_reducible (have _h : Keep K t := ht))
    | lift_lets -underBinder
    | (intro u; first
        | (refine (?_ : Keep K u → _) ?_; pick_goal 2; simp only [u]; pick_goal 2; intro hu; clear_value u)
        | clear_value u | skip)
    | split)

theorem keep_writePrefetch {K : Kept} (s : State) (c : Cmd) (hs : Keep K s) :
    Keep K (State.writePrefetch s c) := by
  unfold State.writePrefetch
  repeat' (first
    | (with_reducible first | assumption | apply keep_prefetchSpan | apply keep_ite | apply keep_ite_snd | apply keep_ite_fst | apply keepO_ite | apply keepOpt_ite | apply keep_foldl | apply keep_foldl2 | apply keep_foldl1)
    | (intro t a ht; with_reducible (have _h : Keep K t := ht))
    | (intro t ht; with_reducible (have _h : Keep K t := ht))
    | lift_lets -underBinder
    | (intro u; first
        | (refine (?_ : Keep K u → _) ?_; pick_goal 2; simp only [u]; pick_goal 2; intro hu; clear_value u)
        | clear_value u | skip)
    | split)

theorem keep_launch {K : Kept} (hK : K.stores = true) (s : State) (c : Cmd) (a : Admission) (hs : Keep K s) :
    Keep K (State.launch s c a) := by
  unfold State.launch
  dsimp only
  repeat' (first
    | (with_reducible assumption)
    | (with_reducible first | apply keep_askHostCrates | apply keep_buildHost | apply keep_complete | apply keep_deallocIu | apply keep_flushFirst | apply keep_flushStep | apply keep_mCmd | apply keep_mSt | apply keep_markUnc | apply keep_startGranted | apply keep_startRead | apply keep_zeroesStep | apply keep_ite | apply keep_ite_snd | apply keep_ite_fst | apply keepO_ite | apply keepOpt_ite | apply keep_foldl | apply keep_foldl2 | apply keep_foldl1)
    | (intro t a ht; with_reducible (have _h : Keep K t.2 := ht))
    | (intro t a ht; with_reducible (have _h : Keep K t.1 := ht))
    | (intro t a ht; with_reducible (have _h : Keep K t := ht))
    | (intro t ht; with_reducible (have _h : Keep K t := ht))
    | lift_lets -underBinder
    | (intro u; first
        | (refine (?_ : Keep K u → _) ?_; pick_goal 2; simp only [u]; pick_goal 2; intro hu; clear_value u)
        | (refine (?_ : Keep K u.2 → _) ?_; pick_goal 2; simp only [u]; pick_goal 2; intro hu; clear_value u)
        | (refine (?_ : Keep K u.1 → _) ?_; pick_goal 2; simp only [u]; pick_goal 2; intro hu; clear_value u)
        | (refine (?_ : Keep K u.st → _) ?_; pick_goal 2; simp only [u]; pick_goal 2; intro hu; clear_value u)
        | clear_value u | skip)
    | split
    | (intro t ht; with_reducible (have _h : Keep K t := ht))
    | (intro c t ht; with_reducible (have _h : Keep K t := ht))
    | dsimp -zeta only [id])

theorem keep_evalIo {K : Kept} (hK : K.stores = true) (s : State) (c : Cmd) (hs : Keep K s) :
    Keep K (State.evalIo s c) := by
  unfold State.evalIo
  repeat' (first
    | (with_reducible first | assumption | apply keep_accept | apply keep_askLocks | apply keep_beginWait | apply keep_complete | apply keep_launch | apply keep_mCmd | apply keep_reportDeferred | apply keep_slotBad | apply keep_writePrefetch | apply keep_ite | apply keep_ite_snd | apply keep_ite_fst | apply keepO_ite | apply keepOpt_ite)
    | (intro t ht; with_reducible (have _h : Keep K t := ht))
    | lift_lets -underBinder
    | (intro u; first
        | (refine (?_ : Keep K u → _) ?_; pick_goal 2; simp only [u]; pick_goal 2; intro hu; clear_value u)
        | clear_value u | skip)
    | split)

theorem keep_levelTwo {K : Kept} (s : State) (l : List (Nat × Cmd)) (hs : Keep K s) :
    Keep K (State.levelTwo s l).2 := by
  unfold State.levelTwo
  dsimp only
  repeat' (first
    | (with_reducible assumption)
    | (with_reducible first | apply keep_mHost | apply keep_set | apply keep_ite | apply keep_ite_snd | apply keep_ite_fst | apply keepO_ite | apply keepOpt_ite | apply keep_foldl | apply keep_foldl2 | apply keep_foldl1)
    | (intro t a ht; with_reducible (have _h : Keep K t.2 := ht))
    | (intro t a ht; with_reducible (have _h : Keep K t.1 := ht))
    | (intro t a ht; with_reducible (have _h : Keep K t := ht))
    | (intro t ht; with_reducible (have _h : Keep K t := ht))
    | lift_lets -underBinder
    | (intro u; first
        | (refine (?_ : Keep K u → _) ?_; pick_goal 2; simp only [u]; pick_goal 2; intro hu; clear_value u)
        | (refine (?_ : Keep K u.2 → _) ?_; pick_goal 2; simp only [u]; pick_goal 2; intro hu; clear_value u)
        | (refine (?_ : Keep K u.1 → _) ?_; pick_goal 2; simp only [u]; pick_goal 2; intro hu; clear_value u)
        | (refine (?_ : Keep K u.st → _) ?_; pick_goal 2; simp only [u]; pick_goal 2; intro hu; clear_value u)
        | clear_value u | skip)
    | split
    | (intro t ht; with_reducible (have _h : Keep K t := ht))
    | (intro c t ht; with_reducible (have _h : Keep K t := ht))
    | dsimp -zeta only [id])

theorem keep_arbitrate {K : Kept} (s : State) (hs : Keep K s) :
    Keep K (State.arbitrate s).2 := by
  unfold State.arbitrate
  repeat' (first
    | (with_reducible first | assumption | apply keep_levelTwo | apply keep_mHost | apply keep_set | apply keep_ite | apply keep_ite_snd | apply keep_ite_fst | apply keepO_ite | apply keepOpt_ite)
    | (intro t ht; with_reducible (have _h : Keep K t := ht))
    | lift_lets -underBinder
    | (intro u; first
        | (refine (?_ : Keep K u → _) ?_; pick_goal 2; simp only [u]; pick_goal 2; intro hu; clear_value u)
        | clear_value u | skip)
    | split)

theorem keep_serveIo {K : Kept} (hK : K.stores = true) (s : State) (port sqid cid : Nat) (k : Kind) (hs : Keep K s) :
    Keep K (State.serveIo s port sqid cid k) := by
  unfold State.serveIo
  repeat' (first
    | (with_reducible first | assumption | apply keep_evalIo | apply keep_ite | apply keep_ite_snd | apply keep_ite_fst | apply keepO_ite | apply keepOpt_ite)
    | (intro t ht; with_reducible (have _h : Keep K t := ht))
    | (intro (_ : _); show Keep K _)
    | split)

theorem keep_execRead {K : Kept} (hK : K.stores = true) (port sqid cid : Nat) (s : State) (hs : Keep K s) :
    KeepO K (execRead port sqid cid s) := by
  unfold execRead
  repeat' (with_reducible first | assumption | apply keep_serveIo | apply keepO_next)

theorem keep_execWrite {K : Kept} (hK : K.stores = true) (port sqid cid : Nat) (s : State) (hs : Keep K s) :
    KeepO K (execWrite port sqid cid s) := by
  unfold execWrite
  repeat' (with_reducible first | assumption | apply keep_serveIo | apply keepO_next)

theorem keep_execFlush {K : Kept} (hK : K.stores = true) (port sqid cid : Nat) (s : State) (hs : Keep K s) :
    KeepO K (execFlush port sqid cid s) := by
  unfold execFlush
  repeat' (with_reducible first | assumption | apply keep_serveIo | apply keepO_next)

theorem keep_execFlushComplete {K : Kept} (port sqid cid : Nat) (s : State) (hs : Keep K s) :
    KeepO K (execFlushComplete port sqid cid s) := by
  unfold execFlushComplete
  repeat' (first
    | (with_reducible first | assumption | apply keep_flushStep | apply keepO_next)
    | (intro t ht; with_reducible (have _h : Keep K t := ht))
    | split)

theorem keep_execWriteUncorrectable {K : Kept} (hK : K.stores = true) (port sqid cid : Nat) (s : State) (hs : Keep K s) :
    KeepO K (execWriteUncorrectable port sqid cid s) := by
  unfold execWriteUncorrectable
  repeat' (with_reducible first | assumption | apply keep_serveIo | apply keepO_next)

theorem keep_execCompare {K : Kept} (hK : K.stores = true) (port sqid cid : Nat) (s : State) (hs : Keep K s) :
    KeepO K (execCompare port sqid cid s) := by
  unfold execCompare
  repeat' (with_reducible first | assumption | apply keep_serveIo | apply keepO_next)

theorem keep_execWriteZeroes {K : Kept} (hK : K.stores = true) (port sqid cid : Nat) (s : State) (hs : Keep K s) :
    KeepO K (execWriteZeroes port sqid cid s) := by
  unfold execWriteZeroes
  repeat' (with_reducible first | assumption | apply keep_serveIo | apply keepO_next)

theorem keep_execDatasetManagement {K : Kept} (hK : K.stores = true) (port sqid cid : Nat) (s : State) (hs : Keep K s) :
    KeepO K (execDatasetManagement port sqid cid s) := by
  unfold execDatasetManagement
  repeat' (with_reducible first | assumption | apply keep_serveIo | apply keepO_next)

theorem keep_execVerify {K : Kept} (hK : K.stores = true) (port sqid cid : Nat) (s : State) (hs : Keep K s) :
    KeepO K (execVerify port sqid cid s) := by
  unfold execVerify
  repeat' (with_reducible first | assumption | apply keep_serveIo | apply keepO_next)

theorem keep_execReturnWaitExpiry {K : Kept} (port sqid cid : Nat) (s : State) (hs : Keep K s) :
    KeepO K (execReturnWaitExpiry port sqid cid s) := by
  unfold execReturnWaitExpiry
  repeat' (first
    | (with_reducible first | assumption | apply keep_complete | apply keep_pitchLog | apply keep_ite | apply keepO_next | apply keep_ite_snd | apply keep_ite_fst | apply keepO_ite | apply keepOpt_ite)
    | (intro t ht; with_reducible (have _h : Keep K t := ht))
    | lift_lets -underBinder
    | (intro u; first
        | (refine (?_ : Keep K u → _) ?_; pick_goal 2; simp only [u]; pick_goal 2; intro hu; clear_value u)
        | clear_value u | skip)
    | split)

theorem keep_hostReadOver {K : Kept} (s : State) (c : Cmd) (hs : Keep K s) :
    Keep K (State.hostReadOver s c) := by
  unfold State.hostReadOver
  repeat' (first
    | (with_reducible first | assumption | apply keep_mCmd | apply keep_mPort)
    | (intro t ht; with_reducible (have _h : Keep K t := ht))
    | lift_lets -underBinder
    | (intro u; first
        | (refine (?_ : Keep K u → _) ?_; pick_goal 2; simp only [u]; pick_goal 2; intro hu; clear_value u)
        | clear_value u | skip))

theorem keep_hostReadFailed {K : Kept} (hK : K.stores = true) (s : State) (c : Cmd) (inj : Bool) (hs : Keep K s) :
    Keep K (State.hostReadFailed s c inj) := by
  unfold State.hostReadFailed
  repeat' (first
    | (with_reducible first | assumption | apply keep_complete | apply keep_dropReads | apply keep_hostReadOver | apply keep_withdrawWrite)
    | (intro t ht; with_reducible (have _h : Keep K t := ht))
    | lift_lets -underBinder
    | (intro u; first
        | (refine (?_ : Keep K u → _) ?_; pick_goal 2; simp only [u]; pick_goal 2; intro hu; clear_value u)
        | clear_value u | skip)
    | split)

theorem keep_freeTag {K : Kept} (s : State) (port uid : Nat) (hs : Keep K s) :
    Keep K (State.freeTag s port uid) := by
  unfold State.freeTag
  repeat' (first
    | (with_reducible first | assumption | apply keep_mPort)
    | (intro t ht; with_reducible (have _h : Keep K t := ht)))

theorem keep_execHostReadCompletion {K : Kept} (hK : K.stores = true) (port tag : Nat) (ok : Bool) (s : State) (hs : Keep K s) :
    KeepO K (execHostReadCompletion port tag ok s) := by
  unfold execHostReadCompletion
  repeat' (first
    | (with_reducible assumption)
    | (with_reducible first | apply keep_fire | apply keep_freeTag | apply keep_hostReadFailed | apply keep_hostReadOver | apply keep_ite | apply keepO_next | apply keep_ite_snd | apply keep_ite_fst | apply keepO_ite | apply keepOpt_ite)
    | (intro t a ht; with_reducible (have _h : Keep K t.2 := ht))
    | (intro t a ht; with_reducible (have _h : Keep K t.1 := ht))
    | (intro t a ht; with_reducible (have _h : Keep K t := ht))
    | (intro t ht; with_reducible (have _h : Keep K t := ht))
    | lift_lets -underBinder
    | (intro u; first
        | (refine (?_ : Keep K u → _) ?_; pick_goal 2; simp only [u]; pick_goal 2; intro hu; clear_value u)
        | (refine (?_ : Keep K u.2 → _) ?_; pick_goal 2; simp only [u]; pick_goal 2; intro hu; clear_value u)
        | (refine (?_ : Keep K u.1 → _) ?_; pick_goal 2; simp only [u]; pick_goal 2; intro hu; clear_value u)
        | (refine (?_ : Keep K u.st → _) ?_; pick_goal 2; simp only [u]; pick_goal 2; intro hu; clear_value u)
        | clear_value u | skip)
    | split
    | (intro t ht; with_reducible (have _h : Keep K t := ht))
    | (intro c t ht; with_reducible (have _h : Keep K t := ht))
    | dsimp -zeta only [id])

theorem keep_execCompletionTimeout {K : Kept} (hK : K.stores = true) (port tag : Nat) (s : State) (hs : Keep K s) :
    KeepO K (execCompletionTimeout port tag s) := by
  unfold execCompletionTimeout
  repeat' (first
    | (with_reducible first | assumption | apply keep_freeTag | apply keep_hostReadFailed | apply keepO_next)
    | (intro t ht; with_reducible (have _h : Keep K t := ht))
    | split)

theorem keep_execWriteDataResidency {K : Kept} (hK : K.stores = true) (port sqid cid sector data : Nat) (s : State) (hs : Keep K s) :
    KeepO K (execWriteDataResidency port sqid cid sector data s) := by
  unfold execWriteDataResidency
  repeat' (first
    | (with_reducible first | assumption | apply keep_crateWrite | apply keep_hostReadOver | apply keep_mCmd | apply keep_move | apply keep_send | apply keep_startGranted | apply keep_writeStep | apply keep_ite | apply keepO_next | apply keep_ite_snd | apply keep_ite_fst | apply keepO_ite | apply keepOpt_ite)
    | (intro t ht; with_reducible (have _h : Keep K t := ht))
    | lift_lets -underBinder
    | (intro u; first
        | (refine (?_ : Keep K u → _) ?_; pick_goal 2; simp only [u]; pick_goal 2; intro hu; clear_value u)
        | clear_value u | skip)
    | split)

theorem keep_execCqHeadDoorbell {K : Kept} (port cqid head : Nat) (s : State) (hs : Keep K s) :
    KeepO K (execCqHeadDoorbell port cqid head s) := by
  unfold execCqHeadDoorbell
  repeat' (first
    | (with_reducible first | assumption | apply keep_ctxUse | apply keep_hostRequest | apply keep_mHost | apply keep_pitchLog | apply keep_ite | apply keepO_next | apply keep_ite_snd | apply keep_ite_fst | apply keepO_ite | apply keepOpt_ite | apply keep_foldl | apply keep_foldl2 | apply keep_foldl1)
    | (intro t a ht; with_reducible (have _h : Keep K t := ht))
    | (intro t ht; with_reducible (have _h : Keep K t := ht))
    | lift_lets -underBinder
    | (intro u; first
        | (refine (?_ : Keep K u → _) ?_; pick_goal 2; simp only [u]; pick_goal 2; intro hu; clear_value u)
        | clear_value u | skip)
    | split)

end Sys2Proof.Laws
end

