-- ==== Sys2Proof/Laws/KeepAdmin.lean ====
section
/-! SUPPORT. The operations of Machine/Admin.lean keep the queue and the canonical forms. -/

namespace Sys2Proof.Laws

open Sys2Proof Sys2Proof.Machine

set_option linter.unusedTactic false
set_option linter.unreachableTactic false
set_option linter.unusedVariables false

theorem keep_toFirmware {K : Kept} (s : State) (c : Cmd) (hs : Keep K s) :
    Keep K (State.toFirmware s c) := by
  unfold State.toFirmware
  repeat' (first
    | (with_reducible first | assumption | apply keep_handOver | apply keep_heedVotes | apply keep_nonopExit | apply keep_unstage | apply keep_ite | apply keep_ite_snd | apply keep_ite_fst | apply keepO_ite | apply keepOpt_ite)
    | (intro t ht; with_reducible (have _h : Keep K t := ht))
    | lift_lets -underBinder
    | (intro u; first
        | (refine (?_ : Keep K u → _) ?_; pick_goal 2; simp only [u]; pick_goal 2; intro hu; clear_value u)
        | clear_value u | skip)
    | split)

theorem keep_firm {K : Kept} (s : State) (port cid opcode : Nat) (f : Cmd → State → State) (hs : Keep K s) (hf : ∀ (x0 : Cmd) (x1 : State), Keep K x1 → Keep K (f x0 x1)) :
    Keep K (State.firm s port cid opcode f) := by
  unfold State.firm
  repeat' (first
    | (with_reducible first | assumption | apply keep_toFirmware | apply hf | apply keep_ite | apply keep_ite_snd | apply keep_ite_fst | apply keepO_ite | apply keepOpt_ite)
    | (intro t ht; with_reducible (have _h : Keep K t := ht))
    | lift_lets -underBinder
    | (intro u; first
        | (refine (?_ : Keep K u → _) ?_; pick_goal 2; simp only [u]; pick_goal 2; intro hu; clear_value u)
        | clear_value u | skip)
    | split)

theorem keep_finish {K : Kept} (s : State) (c : Cmd) (sct sc : Nat) (dnr : Bool) (dw0 : Nat) (data : List Nat) (hs : Keep K s) :
    Keep K (State.finish s c sct sc dnr dw0 data) := by
  unfold State.finish
  repeat' (with_reducible first | assumption | apply keep_complete | apply keep_dropAdm)

theorem keep_reply {K : Kept} (s : State) (c : Cmd) (sct sc : Nat) (dnr : Bool) (dw0 : Nat) (data : List Nat) (hs : Keep K s) :
    Keep K (State.reply s c sct sc dnr dw0 data) := by
  unfold State.reply
  repeat' (with_reducible first | assumption | apply keep_finish)

theorem keep_createSq {K : Kept} (c : Cmd) (s : State) (hs : Keep K s) :
    Keep K (createSq c s) := by
  unfold createSq
  repeat' (first
    | (with_reducible first | assumption | apply keep_bindQueue | apply keep_complete | apply keep_mHost | apply keep_ite | apply keep_ite_snd | apply keep_ite_fst | apply keepO_ite | apply keepOpt_ite)
    | (intro t ht; with_reducible (have _h : Keep K t := ht))
    | lift_lets -underBinder
    | (intro u; first
        | (refine (?_ : Keep K u → _) ?_; pick_goal 2; simp only [u]; pick_goal 2; intro hu; clear_value u)
        | clear_value u | skip)
    | split)

theorem keep_execCreateIoSq {K : Kept} (port cid : Nat) (s : State) (hs : Keep K s) :
    KeepO K (execCreateIoSq port cid s) := by
  unfold execCreateIoSq
  repeat' (with_reducible first | assumption | apply keep_admin | apply keep_createSq | apply keepO_next)

theorem keep_createCq {K : Kept} (c : Cmd) (s : State) (hs : Keep K s) :
    Keep K (createCq c s) := by
  unfold createCq
  repeat' (first
    | (with_reducible first | assumption | apply keep_complete | apply keep_mHost | apply keep_ite | apply keep_ite_snd | apply keep_ite_fst | apply keepO_ite | apply keepOpt_ite)
    | (intro t ht; with_reducible (have _h : Keep K t := ht))
    | lift_lets -underBinder
    | (intro u; first
        | (refine (?_ : Keep K u → _) ?_; pick_goal 2; simp only [u]; pick_goal 2; intro hu; clear_value u)
        | clear_value u | skip)
    | split)

theorem keep_execCreateIoCq {K : Kept} (port cid : Nat) (s : State) (hs : Keep K s) :
    KeepO K (execCreateIoCq port cid s) := by
  unfold execCreateIoCq
  repeat' (with_reducible first | assumption | apply keep_admin | apply keep_createCq | apply keepO_next)

theorem keep_deleteCq {K : Kept} (c : Cmd) (s : State) (hs : Keep K s) :
    Keep K (deleteCq c s) := by
  unfold deleteCq
  repeat' (first
    | (with_reducible first | assumption | apply keep_complete | apply keep_mHost | apply keep_ite | apply keep_ite_snd | apply keep_ite_fst | apply keepO_ite | apply keepOpt_ite)
    | (intro t ht; with_reducible (have _h : Keep K t := ht))
    | lift_lets -underBinder
    | (intro u; first
        | (refine (?_ : Keep K u → _) ?_; pick_goal 2; simp only [u]; pick_goal 2; intro hu; clear_value u)
        | clear_value u | skip)
    | split)

theorem keep_execDeleteIoCq {K : Kept} (port cid : Nat) (s : State) (hs : Keep K s) :
    KeepO K (execDeleteIoCq port cid s) := by
  unfold execDeleteIoCq
  repeat' (with_reducible first | assumption | apply keep_admin | apply keep_deleteCq | apply keepO_next)

theorem keep_stopIo {K : Kept} (hK : K.stores = true) (s : State) (c : Cmd) (hs : Keep K s) :
    Keep K (State.stopIo s c) := by
  unfold State.stopIo
  repeat' (first
    | (with_reducible first | assumption | apply keep_dropReads | apply keep_mPor | apply keep_withdrawWrite)
    | (intro t ht; with_reducible (have _h : Keep K t := ht))
    | lift_lets -underBinder
    | (intro u; first
        | (refine (?_ : Keep K u → _) ?_; pick_goal 2; simp only [u]; pick_goal 2; intro hu; clear_value u)
        | clear_value u | skip)
    | split)

theorem keep_deleteSq {K : Kept} (hK : K.stores = true) (c : Cmd) (s : State) (hs : Keep K s) :
    Keep K (deleteSq c s) := by
  unfold deleteSq
  repeat' (first
    | (with_reducible first | assumption | apply keep_complete | apply keep_count | apply keep_mHost | apply keep_stopIo | apply keep_wr | apply keep_wr | apply keep_ite | apply keep_ite_snd | apply keep_ite_fst | apply keepO_ite | apply keepOpt_ite | apply keep_foldl | apply keep_foldl2 | apply keep_foldl1)
    | (intro t a ht; with_reducible (have _h : Keep K t := ht))
    | (intro t ht; with_reducible (have _h : Keep K t := ht))
    | lift_lets -underBinder
    | (intro u; first
        | (refine (?_ : Keep K u → _) ?_; pick_goal 2; simp only [u]; pick_goal 2; intro hu; clear_value u)
        | clear_value u | skip)
    | split)

theorem keep_execDeleteIoSq {K : Kept} (hK : K.stores = true) (port cid : Nat) (s : State) (hs : Keep K s) :
    KeepO K (execDeleteIoSq port cid s) := by
  unfold execDeleteIoSq
  repeat' (with_reducible first | assumption | apply keep_admin | apply keep_deleteSq | apply keepO_next)

theorem keep_abortCmd {K : Kept} (hK : K.stores = true) (c : Cmd) (s : State) (hs : Keep K s) :
    Keep K (abortCmd c s) := by
  unfold abortCmd
  repeat' (first
    | (with_reducible first | assumption | apply keep_complete | apply keep_count | apply keep_dropAdm | apply keep_mPort | apply keep_stopIo | apply keep_ite | apply keep_ite_snd | apply keep_ite_fst | apply keepO_ite | apply keepOpt_ite)
    | (intro t ht; with_reducible (have _h : Keep K t := ht))
    | lift_lets -underBinder
    | (intro u; first
        | (refine (?_ : Keep K u → _) ?_; pick_goal 2; simp only [u]; pick_goal 2; intro hu; clear_value u)
        | clear_value u | skip)
    | split)

theorem keep_execAbort {K : Kept} (hK : K.stores = true) (port cid : Nat) (s : State) (hs : Keep K s) :
    KeepO K (execAbort port cid s) := by
  unfold execAbort
  repeat' (with_reducible first | assumption | apply keep_abortCmd | apply keep_admin | apply keepO_next)

theorem keep_eventRequest {K : Kept} (c : Cmd) (s : State) (hs : Keep K s) :
    Keep K (eventRequest c s) := by
  unfold eventRequest
  repeat' (first
    | (with_reducible first | assumption | apply keep_complete | apply keep_mCmd | apply keep_mHost | apply keep_mPort | apply keep_sendEvent | apply keep_unstage | apply keep_ite | apply keep_ite_snd | apply keep_ite_fst | apply keepO_ite | apply keepOpt_ite)
    | (intro t ht; with_reducible (have _h : Keep K t := ht))
    | lift_lets -underBinder
    | (intro u; first
        | (refine (?_ : Keep K u → _) ?_; pick_goal 2; simp only [u]; pick_goal 2; intro hu; clear_value u)
        | clear_value u | skip)
    | split)

theorem keep_execAsynchronousEventRequest {K : Kept} (port cid : Nat) (s : State) (hs : Keep K s) :
    KeepO K (execAsynchronousEventRequest port cid s) := by
  unfold execAsynchronousEventRequest
  repeat' (with_reducible first | assumption | apply keep_admin | apply keep_eventRequest | apply keepO_next)

theorem keep_getLog {K : Kept} (c : Cmd) (s : State) (hs : Keep K s) :
    Keep K (getLog c s) := by
  unfold getLog
  repeat' (first
    | (with_reducible assumption)
    | (with_reducible first | apply keep_fresh | apply keep_rearm | apply keep_reply | apply keep_ite | apply keep_ite_snd | apply keep_ite_fst | apply keepO_ite | apply keepOpt_ite)
    | (intro t ht; with_reducible (have _h : Keep K t := ht))
    | lift_lets -underBinder
    | (intro u; first
        | (refine (?_ : Keep K u → _) ?_; pick_goal 2; simp only [u]; pick_goal 2; intro hu; clear_value u)
        | (refine (?_ : Keep K u.2 → _) ?_; pick_goal 2; simp only [u]; pick_goal 2; intro hu; clear_value u)
        | (refine (?_ : Keep K u.1 → _) ?_; pick_goal 2; simp only [u]; pick_goal 2; intro hu; clear_value u)
        | (refine (?_ : Keep K u.st → _) ?_; pick_goal 2; simp only [u]; pick_goal 2; intro hu; clear_value u)
        | clear_value u | skip)
    | split
    | (intro t ht; with_reducible (have _h : Keep K t := ht))
    | (intro c t ht; with_reducible (have _h : Keep K t := ht))
    | dsimp -zeta only [id])

theorem keep_execGetLogPage {K : Kept} (port cid : Nat) (s : State) (hs : Keep K s) :
    KeepO K (execGetLogPage port cid s) := by
  unfold execGetLogPage
  repeat' (first
    | (with_reducible first | assumption | apply keep_admin | apply keep_firm | apply keep_getLog | apply keep_ite | apply keepO_next | apply keep_ite_snd | apply keep_ite_fst | apply keepO_ite | apply keepOpt_ite)
    | (intro t ht; with_reducible (have _h : Keep K t := ht))
    | (intro (_ : _); show Keep K _)
    | split)

theorem keep_identifyCmd {K : Kept} (c : Cmd) (s : State) (hs : Keep K s) :
    Keep K (identifyCmd c s) := by
  unfold identifyCmd
  repeat' (first
    | (with_reducible assumption)
    | (with_reducible first | apply keep_finish | apply keep_fresh)
    | lift_lets -underBinder
    | (intro u; first
        | (refine (?_ : Keep K u → _) ?_; pick_goal 2; simp only [u]; pick_goal 2; intro hu; clear_value u)
        | (refine (?_ : Keep K u.2 → _) ?_; pick_goal 2; simp only [u]; pick_goal 2; intro hu; clear_value u)
        | (refine (?_ : Keep K u.1 → _) ?_; pick_goal 2; simp only [u]; pick_goal 2; intro hu; clear_value u)
        | (refine (?_ : Keep K u.st → _) ?_; pick_goal 2; simp only [u]; pick_goal 2; intro hu; clear_value u)
        | clear_value u | skip)
    | split
    | (intro t ht; with_reducible (have _h : Keep K t := ht))
    | (intro c t ht; with_reducible (have _h : Keep K t := ht))
    | dsimp -zeta only [id])

theorem keep_execIdentify {K : Kept} (port cid : Nat) (s : State) (hs : Keep K s) :
    KeepO K (execIdentify port cid s) := by
  unfold execIdentify
  repeat' (with_reducible first | assumption | apply keep_firm | apply keep_identifyCmd | apply keepO_next)

theorem keep_setFeature {K : Kept} (s : State) (port fid v : Nat) (hs : Keep K s) :
    Keep K (State.setFeature s port fid v) := by
  unfold State.setFeature
  repeat' (first
    | (with_reducible first | assumption | apply keep_mPort | apply keep_set)
    | (intro t ht; with_reducible (have _h : Keep K t := ht)))

theorem keep_setPower {K : Kept} (c : Cmd) (s : State) (hs : Keep K s) :
    Keep K (setPower c s) := by
  unfold setPower
  repeat' (first
    | (with_reducible first | assumption | apply keep_finish | apply keep_followPower | apply keep_mPwr | apply keep_retest | apply keep_set | apply keep_wr | apply keep_wr | apply keep_ite | apply keep_ite_snd | apply keep_ite_fst | apply keepO_ite | apply keepOpt_ite | apply keep_foldl | apply keep_foldl2 | apply keep_foldl1)
    | (intro t a ht; with_reducible (have _h : Keep K t := ht))
    | (intro t ht; with_reducible (have _h : Keep K t := ht))
    | lift_lets -underBinder
    | (intro u; first
        | (refine (?_ : Keep K u → _) ?_; pick_goal 2; simp only [u]; pick_goal 2; intro hu; clear_value u)
        | clear_value u | skip)
    | split)

theorem keep_setTimestamp {K : Kept} (hN : K.keeps = true) (c : Cmd) (s : State) (hs : Keep K s) :
    Keep K (setTimestamp c s) := by
  unfold setTimestamp
  repeat' (with_reducible first | assumption | apply keep_finish | apply keep_setWall)

theorem keep_setModes {K : Kept} (c : Cmd) (s : State) (hs : Keep K s) :
    Keep K (setModes c s) := by
  unfold setModes
  repeat' (first
    | (with_reducible first | assumption | apply keep_askMode | apply keep_complete | apply keep_mCmd | apply keep_set | apply keep_unstage | apply keep_ite | apply keep_ite_snd | apply keep_ite_fst | apply keepO_ite | apply keepOpt_ite)
    | (intro t ht; with_reducible (have _h : Keep K t := ht))
    | lift_lets -underBinder
    | (intro u; first
        | (refine (?_ : Keep K u → _) ?_; pick_goal 2; simp only [u]; pick_goal 2; intro hu; clear_value u)
        | clear_value u | skip)
    | split)

theorem keep_setOther {K : Kept} (hN : K.keeps = true) (c : Cmd) (s : State) (hs : Keep K s) :
    Keep K (setOther c s) := by
  unfold setOther
  repeat' (first
    | (with_reducible first | assumption | apply keep_finish | apply keep_mPwr | apply keep_set | apply keep_setFeature | apply keep_setPower | apply keep_setTimestamp | apply keep_thermalWarning | apply keep_wr | apply keep_ite | apply keep_ite_snd | apply keep_ite_fst | apply keepO_ite | apply keepOpt_ite)
    | (intro t ht; with_reducible (have _h : Keep K t := ht))
    | lift_lets -underBinder
    | (intro u; first
        | (refine (?_ : Keep K u → _) ?_; pick_goal 2; simp only [u]; pick_goal 2; intro hu; clear_value u)
        | clear_value u | skip)
    | split)

theorem keep_execSetFeatures {K : Kept} (hN : K.keeps = true) (port cid : Nat) (s : State) (hs : Keep K s) :
    KeepO K (execSetFeatures port cid s) := by
  unfold execSetFeatures
  repeat' (first
    | (with_reducible first | assumption | apply keep_admin | apply keep_firm | apply keep_setModes | apply keep_setOther | apply keep_ite | apply keepO_next | apply keep_ite_snd | apply keep_ite_fst | apply keepO_ite | apply keepOpt_ite)
    | (intro t ht; with_reducible (have _h : Keep K t := ht))
    | (intro (_ : _); show Keep K _)
    | split)

theorem keep_forFeature {K : Kept} (fid : Nat) (f : Cmd → State → State) (c : Cmd) (s : State) (hf : ∀ (x0 : Cmd) (x1 : State), Keep K x1 → Keep K (f x0 x1)) (hs : Keep K s) :
    Keep K (forFeature fid f c s) := by
  unfold forFeature
  repeat' (first
    | (with_reducible first | assumption | apply hf | apply keep_ite | apply keep_ite_snd | apply keep_ite_fst | apply keepO_ite | apply keepOpt_ite)
    | (intro t ht; with_reducible (have _h : Keep K t := ht))
    | (intro (_ : _); show Keep K _)
    | split)

theorem keep_execModeControlSet {K : Kept} (port cid : Nat) (s : State) (hs : Keep K s) :
    KeepO K (execModeControlSet port cid s) := by
  unfold execModeControlSet
  repeat' (first
    | (with_reducible assumption)
    | (with_reducible first | apply keep_admin | apply keep_forFeature | apply keep_setModes | apply keepO_next)
    | split
    | (intro t ht; with_reducible (have _h : Keep K t := ht))
    | (intro c t ht; with_reducible (have _h : Keep K t := ht))
    | dsimp -zeta only [id])

theorem keep_execPowerManagementSet {K : Kept} (hN : K.keeps = true) (port cid : Nat) (s : State) (hs : Keep K s) :
    KeepO K (execPowerManagementSet port cid s) := by
  unfold execPowerManagementSet
  repeat' (first
    | (with_reducible assumption)
    | (with_reducible first | apply keep_firm | apply keep_forFeature | apply keep_setOther | apply keepO_next)
    | split
    | (intro t ht; with_reducible (have _h : Keep K t := ht))
    | (intro c t ht; with_reducible (have _h : Keep K t := ht))
    | dsimp -zeta only [id])

theorem keep_execTimestampSet {K : Kept} (hN : K.keeps = true) (port cid : Nat) (s : State) (hs : Keep K s) :
    KeepO K (execTimestampSet port cid s) := by
  unfold execTimestampSet
  repeat' (first
    | (with_reducible assumption)
    | (with_reducible first | apply keep_firm | apply keep_forFeature | apply keep_setOther | apply keepO_next)
    | split
    | (intro t ht; with_reducible (have _h : Keep K t := ht))
    | (intro c t ht; with_reducible (have _h : Keep K t := ht))
    | dsimp -zeta only [id])

theorem keep_getModes {K : Kept} (c : Cmd) (s : State) (hs : Keep K s) :
    Keep K (getModes c s) := by
  unfold getModes
  repeat' (with_reducible first | assumption | apply keep_complete)

theorem keep_getOther {K : Kept} (c : Cmd) (s : State) (hs : Keep K s) :
    Keep K (getOther c s) := by
  unfold getOther
  repeat' (first
    | (with_reducible first | assumption | apply keep_finish | apply keep_ite | apply keep_ite_snd | apply keep_ite_fst | apply keepO_ite | apply keepOpt_ite)
    | (intro t ht; with_reducible (have _h : Keep K t := ht))
    | lift_lets -underBinder
    | (intro u; first
        | (refine (?_ : Keep K u → _) ?_; pick_goal 2; simp only [u]; pick_goal 2; intro hu; clear_value u)
        | clear_value u | skip)
    | split)

theorem keep_execGetFeatures {K : Kept} (port cid : Nat) (s : State) (hs : Keep K s) :
    KeepO K (execGetFeatures port cid s) := by
  unfold execGetFeatures
  repeat' (first
    | (with_reducible first | assumption | apply keep_admin | apply keep_firm | apply keep_getModes | apply keep_getOther | apply keep_ite | apply keepO_next | apply keep_ite_snd | apply keep_ite_fst | apply keepO_ite | apply keepOpt_ite)
    | (intro t ht; with_reducible (have _h : Keep K t := ht))
    | (intro (_ : _); show Keep K _)
    | split)

theorem keep_execModeControlGet {K : Kept} (port cid : Nat) (s : State) (hs : Keep K s) :
    KeepO K (execModeControlGet port cid s) := by
  unfold execModeControlGet
  repeat' (first
    | (with_reducible assumption)
    | (with_reducible first | apply keep_admin | apply keep_forFeature | apply keep_getModes | apply keepO_next)
    | split
    | (intro t ht; with_reducible (have _h : Keep K t := ht))
    | (intro c t ht; with_reducible (have _h : Keep K t := ht))
    | dsimp -zeta only [id])

theorem keep_execTimestampGet {K : Kept} (port cid : Nat) (s : State) (hs : Keep K s) :
    KeepO K (execTimestampGet port cid s) := by
  unfold execTimestampGet
  repeat' (first
    | (with_reducible assumption)
    | (with_reducible first | apply keep_firm | apply keep_forFeature | apply keep_getOther | apply keepO_next)
    | split
    | (intro t ht; with_reducible (have _h : Keep K t := ht))
    | (intro c t ht; with_reducible (have _h : Keep K t := ht))
    | dsimp -zeta only [id])

theorem keep_nsRecord {K : Kept} (s : State) (nsid : Nat) (hs : Keep K s) :
    Keep K (State.nsRecord s nsid) := by
  unfold State.nsRecord
  repeat' (first
    | (with_reducible first | assumption | apply keep_journal | apply keep_ite | apply keepO_next | apply keep_ite_snd | apply keep_ite_fst | apply keepO_ite | apply keepOpt_ite)
    | (intro t ht; with_reducible (have _h : Keep K t := ht))
    | lift_lets -underBinder
    | (intro u; first
        | (refine (?_ : Keep K u → _) ?_; pick_goal 2; simp only [u]; pick_goal 2; intro hu; clear_value u)
        | clear_value u | skip)
    | split)

theorem keep_createNs {K : Kept} (c : Cmd) (s : State) (hs : Keep K s) :
    Keep K (createNs c s) := by
  unfold createNs
  repeat' (first
    | (with_reducible first | assumption | apply keep_finish | apply keep_mNs | apply keep_nsInit | apply keep_nsRecord | apply keep_ite | apply keep_ite_snd | apply keep_ite_fst | apply keepO_ite | apply keepOpt_ite)
    | (intro t ht; with_reducible (have _h : Keep K t := ht))
    | lift_lets -underBinder
    | (intro u; first
        | (refine (?_ : Keep K u → _) ?_; pick_goal 2; simp only [u]; pick_goal 2; intro hu; clear_value u)
        | clear_value u | skip)
    | split)

theorem keep_deleteNs {K : Kept} (c : Cmd) (s : State) (hs : Keep K s) :
    Keep K (deleteNs c s) := by
  unfold deleteNs
  repeat' (first
    | (with_reducible first | assumption | apply keep_dropDeferred | apply keep_finish | apply keep_mNs | apply keep_nsDealloc | apply keep_nsRecord | apply keep_foldl | apply keep_foldl2 | apply keep_foldl1)
    | (intro t a ht; with_reducible (have _h : Keep K t := ht))
    | (intro t ht; with_reducible (have _h : Keep K t := ht))
    | lift_lets -underBinder
    | (intro u; first
        | (refine (?_ : Keep K u → _) ?_; pick_goal 2; simp only [u]; pick_goal 2; intro hu; clear_value u)
        | clear_value u | skip)
    | split)

theorem keep_nsManagement {K : Kept} (c : Cmd) (s : State) (hs : Keep K s) :
    Keep K (nsManagement c s) := by
  unfold nsManagement
  repeat' (first
    | (with_reducible first | assumption | apply keep_createNs | apply keep_deleteNs | apply keep_finish | apply keep_ite | apply keep_ite_snd | apply keep_ite_fst | apply keepO_ite | apply keepOpt_ite)
    | (intro t ht; with_reducible (have _h : Keep K t := ht))
    | (intro (_ : _); show Keep K _)
    | split)

theorem keep_execNamespaceManagement {K : Kept} (port cid : Nat) (s : State) (hs : Keep K s) :
    KeepO K (execNamespaceManagement port cid s) := by
  unfold execNamespaceManagement
  repeat' (with_reducible first | assumption | apply keep_firm | apply keep_nsManagement | apply keepO_next)

theorem keep_nsAttach {K : Kept} (c : Cmd) (s : State) (hs : Keep K s) :
    Keep K (nsAttach c s) := by
  unfold nsAttach
  repeat' (first
    | (with_reducible first | assumption | apply keep_finish | apply keep_mNs | apply keep_nsRecord | apply keep_sendEvent | apply keep_tell | apply keep_ite | apply keep_ite_snd | apply keep_ite_fst | apply keepO_ite | apply keepOpt_ite | apply keep_foldl | apply keep_foldl2 | apply keep_foldl1)
    | (intro t a ht; with_reducible (have _h : Keep K t := ht))
    | (intro t ht; with_reducible (have _h : Keep K t := ht))
    | lift_lets -underBinder
    | (intro u; first
        | (refine (?_ : Keep K u → _) ?_; pick_goal 2; simp only [u]; pick_goal 2; intro hu; clear_value u)
        | clear_value u | skip)
    | split)

theorem keep_execNamespaceAttachment {K : Kept} (port cid : Nat) (s : State) (hs : Keep K s) :
    KeepO K (execNamespaceAttachment port cid s) := by
  unfold execNamespaceAttachment
  repeat' (with_reducible first | assumption | apply keep_firm | apply keep_nsAttach | apply keepO_next)

theorem keep_formatCmd {K : Kept} (c : Cmd) (s : State) (hs : Keep K s) :
    Keep K (formatCmd c s) := by
  unfold formatCmd
  repeat' (first
    | (with_reducible first | assumption | apply keep_dropDeferred | apply keep_finish | apply keep_mNs | apply keep_nsDealloc | apply keep_ite | apply keep_ite_snd | apply keep_ite_fst | apply keepO_ite | apply keepOpt_ite)
    | (intro t ht; with_reducible (have _h : Keep K t := ht))
    | lift_lets -underBinder
    | (intro u; first
        | (refine (?_ : Keep K u → _) ?_; pick_goal 2; simp only [u]; pick_goal 2; intro hu; clear_value u)
        | clear_value u | skip)
    | split)

theorem keep_execFormatNvm {K : Kept} (port cid : Nat) (s : State) (hs : Keep K s) :
    KeepO K (execFormatNvm port cid s) := by
  unfold execFormatNvm
  repeat' (with_reducible first | assumption | apply keep_firm | apply keep_formatCmd | apply keepO_next)

theorem keep_execFormatComplete {K : Kept} (hN : K.keeps = true) (nsid : Nat) (s : State) (hs : Keep K s) :
    KeepO K (execFormatComplete nsid s) := by
  unfold execFormatComplete
  repeat' (first
    | (with_reducible first | assumption | apply keep_admin | apply keep_finish | apply keep_mNs | apply keep_nsCmd | apply keep_nsRecord | apply keep_wr | apply keep_wr | apply keep_ite | apply keepO_next | apply keep_ite_snd | apply keep_ite_fst | apply keepO_ite | apply keepOpt_ite | refine keep_mNv _ _ hN ?_ (NvOk.mk rfl (List.prefix_refl _)) | refine keep_mNv _ _ hN ?_ (NvOk.mk rfl (List.prefix_append _ _)) | refine keep_mNv _ _ hN ?_ ?_ | exact NvOk.mk rfl (List.prefix_refl _) | apply nvOk_ite)
    | (intro t ht; with_reducible (have _h : Keep K t := ht))
    | lift_lets -underBinder
    | (intro u; first
        | (refine (?_ : Keep K u → _) ?_; pick_goal 2; simp only [u]; pick_goal 2; intro hu; clear_value u)
        | clear_value u | skip)
    | split)

theorem keep_renewKeys {K : Kept} (hN : K.keeps = true) (s : State) (hs : Keep K s) :
    Keep K (State.renewKeys s) := by
  unfold State.renewKeys
  repeat' (first
    | (with_reducible first | assumption | apply keep_drawKey | apply keep_mCiph | apply keep_set | apply keep_takeWrap | apply keep_ite | apply keep_ite_snd | apply keep_ite_fst | apply keepO_ite | apply keepOpt_ite | apply keep_foldl | apply keep_foldl2 | apply keep_foldl1 | refine keep_mNv _ _ hN ?_ (NvOk.mk rfl (List.prefix_refl _)) | refine keep_mNv _ _ hN ?_ (NvOk.mk rfl (List.prefix_append _ _)) | refine keep_mNv _ _ hN ?_ ?_ | exact NvOk.mk rfl (List.prefix_refl _) | apply nvOk_ite)
    | (intro t a ht; with_reducible (have _h : Keep K t := ht))
    | (intro t ht; with_reducible (have _h : Keep K t := ht))
    | lift_lets -underBinder
    | (intro u; first
        | (refine (?_ : Keep K u → _) ?_; pick_goal 2; simp only [u]; pick_goal 2; intro hu; clear_value u)
        | clear_value u | skip)
    | split)

theorem keep_startSanitize {K : Kept} (hN : K.keeps = true) (s : State) (kind : Nat) (hs : Keep K s) :
    Keep K (State.startSanitize s kind) := by
  unfold State.startSanitize
  repeat' (first
    | (with_reducible first | assumption | apply keep_clearGeneral | apply keep_hwMode | apply keep_mSw | apply keep_renewKeys | apply keep_sanNext | apply keep_ite | apply keep_ite_snd | apply keep_ite_fst | apply keepO_ite | apply keepOpt_ite | apply keep_foldl | apply keep_foldl2 | apply keep_foldl1 | refine keep_mNv _ _ hN ?_ (NvOk.mk rfl (List.prefix_refl _)) | refine keep_mNv _ _ hN ?_ (NvOk.mk rfl (List.prefix_append _ _)) | refine keep_mNv _ _ hN ?_ ?_ | exact NvOk.mk rfl (List.prefix_refl _) | apply nvOk_ite)
    | (intro t a ht; with_reducible (have _h : Keep K t := ht))
    | (intro t ht; with_reducible (have _h : Keep K t := ht))
    | lift_lets -underBinder
    | (intro u; first
        | (refine (?_ : Keep K u → _) ?_; pick_goal 2; simp only [u]; pick_goal 2; intro hu; clear_value u)
        | clear_value u | skip)
    | split)

theorem keep_sanitizeCmd {K : Kept} (hN : K.keeps = true) (act kind : Nat) (c : Cmd) (s : State) (hs : Keep K s) :
    Keep K (sanitizeCmd act kind c s) := by
  unfold sanitizeCmd
  repeat' (first
    | (with_reducible first | assumption | apply keep_finish | apply keep_startSanitize | apply keep_ite | apply keep_ite_snd | apply keep_ite_fst | apply keepO_ite | apply keepOpt_ite)
    | (intro t ht; with_reducible (have _h : Keep K t := ht))
    | lift_lets -underBinder
    | (intro u; first
        | (refine (?_ : Keep K u → _) ?_; pick_goal 2; simp only [u]; pick_goal 2; intro hu; clear_value u)
        | clear_value u | skip)
    | split)

theorem keep_execSanitizeBlockErase {K : Kept} (hN : K.keeps = true) (port cid : Nat) (s : State) (hs : Keep K s) :
    KeepO K (execSanitizeBlockErase port cid s) := by
  unfold execSanitizeBlockErase
  repeat' (with_reducible first | assumption | apply keep_firm | apply keep_sanitizeCmd | apply keepO_next)

theorem keep_execSanitizeCryptoErase {K : Kept} (hN : K.keeps = true) (port cid : Nat) (s : State) (hs : Keep K s) :
    KeepO K (execSanitizeCryptoErase port cid s) := by
  unfold execSanitizeCryptoErase
  repeat' (with_reducible first | assumption | apply keep_firm | apply keep_sanitizeCmd | apply keepO_next)

theorem keep_exitFailure {K : Kept} (hN : K.keeps = true) (c : Cmd) (s : State) (hs : Keep K s) :
    Keep K (exitFailure c s) := by
  unfold exitFailure
  repeat' (first
    | (with_reducible first | assumption | apply keep_finish | apply keep_hwMode | apply keep_sanitizeCmd | apply keep_ite | apply keep_ite_snd | apply keep_ite_fst | apply keepO_ite | apply keepOpt_ite | refine keep_mNv _ _ hN ?_ (NvOk.mk rfl (List.prefix_refl _)) | refine keep_mNv _ _ hN ?_ (NvOk.mk rfl (List.prefix_append _ _)) | refine keep_mNv _ _ hN ?_ ?_ | exact NvOk.mk rfl (List.prefix_refl _) | apply nvOk_ite)
    | (intro t ht; with_reducible (have _h : Keep K t := ht))
    | (intro (_ : _); show Keep K _)
    | split)

theorem keep_execSanitizeExitFailureMode {K : Kept} (hN : K.keeps = true) (port cid : Nat) (s : State) (hs : Keep K s) :
    KeepO K (execSanitizeExitFailureMode port cid s) := by
  unfold execSanitizeExitFailureMode
  repeat' (with_reducible first | assumption | apply keep_exitFailure | apply keep_firm | apply keepO_next)

theorem keep_ownerCause {K : Kept} (hN : K.keeps = true) (s : State) (hs : Keep K s) :
    Keep K (State.ownerCause s) := by
  unfold State.ownerCause
  repeat' (first
    | (with_reducible first | assumption | apply keep_hwMode | apply keep_wr | apply keep_wr | apply keep_ite | apply keep_ite_snd | apply keep_ite_fst | apply keepO_ite | apply keepOpt_ite | refine keep_mNv _ _ hN ?_ (NvOk.mk rfl (List.prefix_refl _)) | refine keep_mNv _ _ hN ?_ (NvOk.mk rfl (List.prefix_append _ _)) | refine keep_mNv _ _ hN ?_ ?_ | exact NvOk.mk rfl (List.prefix_refl _) | apply nvOk_ite)
    | (intro t ht; with_reducible (have _h : Keep K t := ht))
    | (intro (_ : _); show Keep K _)
    | split)

theorem keep_execSanitizeComplete {K : Kept} (hK : K.stores = true) (hN : K.keeps = true) (ok : Bool) (s : State) (hs : Keep K s) :
    KeepO K (execSanitizeComplete ok s) := by
  unfold execSanitizeComplete
  repeat' (first
    | (with_reducible first | assumption | apply keep_deallocAll | apply keep_dropDeferred | apply keep_hwMode | apply keep_ownerCause | apply keep_sendEvent | apply keep_tell | apply keep_ite | apply keepO_next | apply keep_ite_snd | apply keep_ite_fst | apply keepO_ite | apply keepOpt_ite | apply keep_foldl | apply keep_foldl2 | apply keep_foldl1 | refine keep_mNv _ _ hN ?_ (NvOk.mk rfl (List.prefix_refl _)) | refine keep_mNv _ _ hN ?_ (NvOk.mk rfl (List.prefix_append _ _)) | refine keep_mNv _ _ hN ?_ ?_ | exact NvOk.mk rfl (List.prefix_refl _) | apply nvOk_ite)
    | (intro t a ht; with_reducible (have _h : Keep K t := ht))
    | (intro t ht; with_reducible (have _h : Keep K t := ht))
    | lift_lets -underBinder
    | (intro u; first
        | (refine (?_ : Keep K u → _) ?_; pick_goal 2; simp only [u]; pick_goal 2; intro hu; clear_value u)
        | clear_value u | skip)
    | split)

theorem keep_downloadCmd {K : Kept} (c : Cmd) (s : State) (hs : Keep K s) :
    Keep K (downloadCmd c s) := by
  unfold downloadCmd
  repeat' (first
    | (with_reducible first | assumption | apply keep_finish | apply keep_reportPiece | apply keep_wr | apply keep_wr | apply keep_ite | apply keep_ite_snd | apply keep_ite_fst | apply keepO_ite | apply keepOpt_ite)
    | (intro t ht; with_reducible (have _h : Keep K t := ht))
    | lift_lets -underBinder
    | (intro u; first
        | (refine (?_ : Keep K u → _) ?_; pick_goal 2; simp only [u]; pick_goal 2; intro hu; clear_value u)
        | clear_value u | skip)
    | split)

theorem keep_execFirmwareImageDownload {K : Kept} (port cid : Nat) (s : State) (hs : Keep K s) :
    KeepO K (execFirmwareImageDownload port cid s) := by
  unfold execFirmwareImageDownload
  repeat' (with_reducible first | assumption | apply keep_downloadCmd | apply keep_firm | apply keepO_next)

theorem keep_commitStatus {K : Kept} (c : Cmd) (s : State) (hs : Keep K s) :
    Keep K (commitStatus c s) := by
  unfold commitStatus
  repeat' (first
    | (with_reducible first | assumption | apply keep_finish)
    | (intro t ht; with_reducible (have _h : Keep K t := ht))
    | lift_lets -underBinder
    | (intro u; first
        | (refine (?_ : Keep K u → _) ?_; pick_goal 2; simp only [u]; pick_goal 2; intro hu; clear_value u)
        | clear_value u | skip)
    | split)

theorem keep_takeAdm {K : Kept} (s : State) (uid : Nat) (hs : Keep K s) :
    Keep K (State.takeAdm s uid) := by
  unfold State.takeAdm
  repeat' (first
    | (with_reducible first | assumption | apply keep_admShow | apply keep_mCore | apply keep_ite | apply keep_ite_snd | apply keep_ite_fst | apply keepO_ite | apply keepOpt_ite)
    | (intro t ht; with_reducible (have _h : Keep K t := ht))
    | (intro (_ : _); show Keep K _)
    | split)

theorem keep_firmwareCommitCmd {K : Kept} (hN : K.keeps = true) (c : Cmd) (s : State) (hs : Keep K s) :
    Keep K (firmwareCommitCmd c s) := by
  unfold firmwareCommitCmd
  repeat' (first
    | (with_reducible first | assumption | apply keep_commitGo | apply keep_commitStatus | apply keep_takeAdm | apply keep_wr | apply keep_wr | apply keep_ite | apply keep_ite_snd | apply keep_ite_fst | apply keepO_ite | apply keepOpt_ite)
    | (intro t ht; with_reducible (have _h : Keep K t := ht))
    | lift_lets -underBinder
    | (intro u; first
        | (refine (?_ : Keep K u → _) ?_; pick_goal 2; simp only [u]; pick_goal 2; intro hu; clear_value u)
        | clear_value u | skip)
    | split)

theorem keep_execFirmwareCommit {K : Kept} (hN : K.keeps = true) (port cid : Nat) (s : State) (hs : Keep K s) :
    KeepO K (execFirmwareCommit port cid s) := by
  unfold execFirmwareCommit
  repeat' (with_reducible first | assumption | apply keep_firm | apply keep_firmwareCommitCmd | apply keepO_next)

theorem keep_evalAdmin {K : Kept} (hK : K.stores = true) (s : State) (c : Cmd) (hs : Keep K s) :
    Keep K (State.evalAdmin s c) := by
  unfold State.evalAdmin
  repeat' (first
    | (with_reducible first | assumption | apply keep_abortCmd | apply keep_bindCmd | apply keep_complete | apply keep_createCq | apply keep_createSq | apply keep_deleteCq | apply keep_deleteSq | apply keep_eventRequest | apply keep_getLog | apply keep_getModes | apply keep_rentCmd | apply keep_returnCmd | apply keep_setModes | apply keep_toFirmware | apply keep_ite | apply keep_ite_snd | apply keep_ite_fst | apply keepO_ite | apply keepOpt_ite)
    | (intro t ht; with_reducible (have _h : Keep K t := ht))
    | (intro (_ : _); show Keep K _)
    | split)

theorem keep_execIntakeEvaluation {K : Kept} (hK : K.stores = true) (s : State) (hs : Keep K s) :
    KeepO K (execIntakeEvaluation s) := by
  unfold execIntakeEvaluation
  repeat' (first
    | (with_reducible first | assumption | apply keep_arbitrate | apply keep_evalAdmin | apply keep_evalIo | apply keep_mHost | apply keep_set | apply keep_startGranted | apply keep_ite | apply keepO_next | apply keep_ite_snd | apply keep_ite_fst | apply keepO_ite | apply keepOpt_ite)
    | (intro t ht; with_reducible (have _h : Keep K t := ht))
    | lift_lets -underBinder
    | (intro u; first
        | (refine (?_ : Keep K u → _) ?_; pick_goal 2; simp only [u]; pick_goal 2; intro hu; clear_value u)
        | clear_value u | skip)
    | split)

end Sys2Proof.Laws
end

