-- ==== Sys2Proof/Laws/KeepResets.lean ====
section
/-! SUPPORT. The operations of Machine/Resets.lean keep the queue and the canonical forms. -/

namespace Sys2Proof.Laws

open Sys2Proof Sys2Proof.Machine

set_option linter.unusedTactic false
set_option linter.unreachableTactic false
set_option linter.unusedVariables false

theorem keep_resetCmd {K : Kept} (hK : K.stores = true) (s : State) (port : Nat) (c : Cmd) (hs : Keep K s) :
    Keep K (State.resetCmd s port c) := by
  unfold State.resetCmd
  repeat' (first
    | (with_reducible first | assumption | apply keep_discard | apply keep_dropAdm | apply keep_mCmd | apply keep_mPort | apply keep_stopIo | apply keep_ite | apply keep_ite_snd | apply keep_ite_fst | apply keepO_ite | apply keepOpt_ite)
    | (intro t ht; with_reducible (have _h : Keep K t := ht))
    | lift_lets -underBinder
    | (intro u; first
        | (refine (?_ : Keep K u → _) ?_; pick_goal 2; simp only [u]; pick_goal 2; intro hu; clear_value u)
        | clear_value u | skip)
    | split)

theorem keep_clearWindows {K : Kept} (s : State) (port : Nat) (hs : Keep K s) :
    Keep K (State.clearWindows s port) := by
  unfold State.clearWindows
  repeat' (first
    | (with_reducible first | assumption | apply keep_wr | apply keep_wr | apply keep_ite | apply keep_ite_snd | apply keep_ite_fst | apply keepO_ite | apply keepOpt_ite | apply keep_foldl | apply keep_foldl2 | apply keep_foldl1)
    | (intro t a ht; with_reducible (have _h : Keep K t := ht))
    | (intro t ht; with_reducible (have _h : Keep K t := ht))
    | (intro (_ : _); show Keep K _)
    | split)

theorem keep_resetPitches {K : Kept} (s : State) (port : Nat) (hs : Keep K s) :
    Keep K (State.resetPitches s port) := by
  unfold State.resetPitches
  repeat' (first
    | (with_reducible first | assumption | apply keep_returnPitch | apply keep_wr | apply keep_wr | apply keep_ite | apply keep_ite_snd | apply keep_ite_fst | apply keepO_ite | apply keepOpt_ite | apply keep_foldl | apply keep_foldl2 | apply keep_foldl1)
    | (intro t a ht; with_reducible (have _h : Keep K t := ht))
    | (intro t ht; with_reducible (have _h : Keep K t := ht))
    | lift_lets -underBinder
    | (intro u; first
        | (refine (?_ : Keep K u → _) ?_; pick_goal 2; simp only [u]; pick_goal 2; intro hu; clear_value u)
        | clear_value u | skip)
    | split)

theorem keep_resetController {K : Kept} (hK : K.stores = true) (s : State) (port : Nat) (hs : Keep K s) :
    Keep K (State.resetController s port) := by
  unfold State.resetController
  repeat' (first
    | (with_reducible first | assumption | apply keep_clearWindows | apply keep_count | apply keep_ctxUse | apply keep_mHost | apply keep_mPort | apply keep_releaseLock | apply keep_resetCmd | apply keep_resetPitches | apply keep_foldl | apply keep_foldl2 | apply keep_foldl1)
    | (intro t a ht; with_reducible (have _h : Keep K t := ht))
    | (intro t ht; with_reducible (have _h : Keep K t := ht))
    | lift_lets -underBinder
    | (intro u; first
        | (refine (?_ : Keep K u → _) ?_; pick_goal 2; simp only [u]; pick_goal 2; intro hu; clear_value u)
        | clear_value u | skip))

theorem keep_joinReset {K : Kept} (hK : K.stores = true) (s : State) (port : Nat) (hs : Keep K s) :
    Keep K (State.joinReset s port) := by
  unfold State.joinReset
  repeat' (first
    | (with_reducible first | assumption | apply keep_resetController | apply keep_ite | apply keep_ite_snd | apply keep_ite_fst | apply keepO_ite | apply keepOpt_ite)
    | (intro t ht; with_reducible (have _h : Keep K t := ht))
    | (intro (_ : _); show Keep K _)
    | split)

theorem keep_execCcEnClear {K : Kept} (hK : K.stores = true) (port : Nat) (s : State) (hs : Keep K s) :
    KeepO K (execCcEnClear port s) := by
  unfold execCcEnClear
  repeat' (first
    | (with_reducible first | assumption | apply keep_hostRequest | apply keep_joinReset | apply keep_ite | apply keepO_next | apply keep_ite_snd | apply keep_ite_fst | apply keepO_ite | apply keepOpt_ite)
    | (intro t ht; with_reducible (have _h : Keep K t := ht))
    | (intro (_ : _); show Keep K _)
    | split)

theorem keep_execControllerResetComplete {K : Kept} (port : Nat) (s : State) (hs : Keep K s) :
    KeepO K (execControllerResetComplete port s) := by
  unfold execControllerResetComplete
  repeat' (first
    | (with_reducible first | assumption | apply keep_mPort | apply keep_record | apply keep_ite | apply keepO_next | apply keep_ite_snd | apply keep_ite_fst | apply keepO_ite | apply keepOpt_ite)
    | (intro t ht; with_reducible (have _h : Keep K t := ht))
    | lift_lets -underBinder
    | (intro u; first
        | (refine (?_ : Keep K u → _) ?_; pick_goal 2; simp only [u]; pick_goal 2; intro hu; clear_value u)
        | clear_value u | skip)
    | split)

theorem keep_adminQueues {K : Kept} (s : State) (port : Nat) (hs : Keep K s) :
    Keep K (State.adminQueues s port) := by
  unfold State.adminQueues
  repeat' (first
    | (with_reducible first | assumption | apply keep_mHost)
    | (intro t ht; with_reducible (have _h : Keep K t := ht)))

theorem keep_execCcEnSet {K : Kept} (port ams : Nat) (s : State) (hs : Keep K s) :
    KeepO K (execCcEnSet port ams s) := by
  unfold execCcEnSet
  repeat' (first
    | (with_reducible first | assumption | apply keep_adminQueues | apply keep_hostRequest | apply keep_mPort | apply keep_ite | apply keepO_next | apply keep_ite_snd | apply keep_ite_fst | apply keepO_ite | apply keepOpt_ite)
    | (intro t ht; with_reducible (have _h : Keep K t := ht))
    | lift_lets -underBinder
    | (intro u; first
        | (refine (?_ : Keep K u → _) ?_; pick_goal 2; simp only [u]; pick_goal 2; intro hu; clear_value u)
        | clear_value u | skip)
    | split)

theorem keep_execShutdownNotification {K : Kept} (port shn : Nat) (s : State) (hs : Keep K s) :
    KeepO K (execShutdownNotification port shn s) := by
  unfold execShutdownNotification
  repeat' (first
    | (with_reducible first | assumption | apply keep_hostRequest | apply keep_mPort | apply keep_ite | apply keepO_next | apply keep_ite_snd | apply keep_ite_fst | apply keepO_ite | apply keepOpt_ite)
    | (intro t ht; with_reducible (have _h : Keep K t := ht))
    | (intro (_ : _); show Keep K _)
    | split)

theorem keep_execShutdownComplete {K : Kept} (port : Nat) (s : State) (hs : Keep K s) :
    KeepO K (execShutdownComplete port s) := by
  unfold execShutdownComplete
  repeat' (first
    | (with_reducible first | assumption | apply keep_admin | apply keep_mPort | apply keep_ite | apply keepO_next | apply keep_ite_snd | apply keep_ite_fst | apply keepO_ite | apply keepOpt_ite)
    | (intro t ht; with_reducible (have _h : Keep K t := ht))
    | lift_lets -underBinder
    | (intro u; first
        | (refine (?_ : Keep K u → _) ?_; pick_goal 2; simp only [u]; pick_goal 2; intro hu; clear_value u)
        | clear_value u | skip)
    | split)

theorem keep_moveCredits {K : Kept} (s : State) (port src dst : Nat) (hs : Keep K s) :
    Keep K (State.moveCredits s port src dst) := by
  unfold State.moveCredits
  repeat' (first
    | (with_reducible first | assumption | apply keep_move | apply keep_foldl | apply keep_foldl2 | apply keep_foldl1)
    | (intro t a ht; with_reducible (have _h : Keep K t := ht))
    | (intro t ht; with_reducible (have _h : Keep K t := ht))
    | lift_lets -underBinder
    | (intro u; first
        | (refine (?_ : Keep K u → _) ?_; pick_goal 2; simp only [u]; pick_goal 2; intro hu; clear_value u)
        | clear_value u | skip))

theorem keep_dropLink {K : Kept} (s : State) (port : Nat) (hs : Keep K s) :
    Keep K (State.dropLink s port) := by
  unfold State.dropLink
  repeat' (first
    | (with_reducible first | assumption | apply keep_mPort | apply keep_moveCredits)
    | (intro t ht; with_reducible (have _h : Keep K t := ht)))

theorem keep_resetPort {K : Kept} (hK : K.stores = true) (s : State) (port : Nat) (f : Field) (hs : Keep K s) :
    Keep K (State.resetPort s port f) := by
  unfold State.resetPort
  repeat' (first
    | (with_reducible first | assumption | apply keep_count | apply keep_dropLink | apply keep_joinReset | apply keep_ite | apply keep_ite_snd | apply keep_ite_fst | apply keepO_ite | apply keepOpt_ite)
    | (intro t ht; with_reducible (have _h : Keep K t := ht))
    | lift_lets -underBinder
    | (intro u; first
        | (refine (?_ : Keep K u → _) ?_; pick_goal 2; simp only [u]; pick_goal 2; intro hu; clear_value u)
        | clear_value u | skip)
    | split)

theorem keep_execPerstNAssert {K : Kept} (hK : K.stores = true) (port : Nat) (s : State) (hs : Keep K s) :
    KeepO K (execPerstNAssert port s) := by
  unfold execPerstNAssert
  repeat' (first
    | (with_reducible first | assumption | apply keep_mPort | apply keep_resetPort | apply keep_ite | apply keepO_next | apply keep_ite_snd | apply keep_ite_fst | apply keepO_ite | apply keepOpt_ite)
    | (intro t ht; with_reducible (have _h : Keep K t := ht))
    | (intro (_ : _); show Keep K _)
    | split)

theorem keep_execPerstNDeassert {K : Kept} (port : Nat) (s : State) (hs : Keep K s) :
    KeepO K (execPerstNDeassert port s) := by
  unfold execPerstNDeassert
  repeat' (first
    | (with_reducible first | assumption | apply keep_mPort | apply keep_ite | apply keepO_next | apply keep_ite_snd | apply keep_ite_fst | apply keepO_ite | apply keepOpt_ite)
    | (intro t ht; with_reducible (have _h : Keep K t := ht))
    | (intro (_ : _); show Keep K _)
    | split)

theorem keep_execHotReset {K : Kept} (hK : K.stores = true) (port : Nat) (s : State) (hs : Keep K s) :
    KeepO K (execHotReset port s) := by
  unfold execHotReset
  repeat' (first
    | (with_reducible first | assumption | apply keep_resetPort | apply keep_ite | apply keepO_next | apply keep_ite_snd | apply keep_ite_fst | apply keepO_ite | apply keepOpt_ite)
    | (intro t ht; with_reducible (have _h : Keep K t := ht))
    | (intro (_ : _); show Keep K _)
    | split)

theorem keep_execFlr {K : Kept} (hK : K.stores = true) (port : Nat) (s : State) (hs : Keep K s) :
    KeepO K (execFlr port s) := by
  unfold execFlr
  repeat' (first
    | (with_reducible first | assumption | apply keep_count | apply keep_joinReset | apply keep_ite | apply keepO_next | apply keep_ite_snd | apply keep_ite_fst | apply keepO_ite | apply keepOpt_ite)
    | (intro t ht; with_reducible (have _h : Keep K t := ht))
    | (intro (_ : _); show Keep K _)
    | split)

theorem keep_execLinkDown {K : Kept} (hK : K.stores = true) (port : Nat) (s : State) (hs : Keep K s) :
    KeepO K (execLinkDown port s) := by
  unfold execLinkDown
  repeat' (first
    | (with_reducible first | assumption | apply keep_resetPort | apply keep_ite | apply keepO_next | apply keep_ite_snd | apply keep_ite_fst | apply keepO_ite | apply keepOpt_ite)
    | (intro t ht; with_reducible (have _h : Keep K t := ht))
    | (intro (_ : _); show Keep K _)
    | split)

theorem keep_execLinkUp {K : Kept} (port width rate : Nat) (s : State) (hs : Keep K s) :
    KeepO K (execLinkUp port width rate s) := by
  unfold execLinkUp
  repeat' (first
    | (with_reducible first | assumption | apply keep_mPort | apply keep_moveCredits | apply keep_retest | apply keep_ite | apply keepO_next | apply keep_ite_snd | apply keep_ite_fst | apply keepO_ite | apply keepOpt_ite)
    | (intro t ht; with_reducible (have _h : Keep K t := ht))
    | lift_lets -underBinder
    | (intro u; first
        | (refine (?_ : Keep K u → _) ?_; pick_goal 2; simp only [u]; pick_goal 2; intro hu; clear_value u)
        | clear_value u | skip)
    | split)

theorem keep_execDeviceControlWrite {K : Kept} (port mps : Nat) (s : State) (hs : Keep K s) :
    KeepO K (execDeviceControlWrite port mps s) := by
  unfold execDeviceControlWrite
  repeat' (first
    | (with_reducible first | assumption | apply keep_hostRequest | apply keep_mPort | apply keep_retest | apply keep_ite | apply keepO_next | apply keep_ite_snd | apply keep_ite_fst | apply keepO_ite | apply keepOpt_ite)
    | (intro t ht; with_reducible (have _h : Keep K t := ht))
    | (intro (_ : _); show Keep K _)
    | split)

end Sys2Proof.Laws
end

