-- ==== Sys2Proof/Laws/KeepStartup.lean ====
section
/-! SUPPORT. The operations of Machine/Startup.lean keep the queue and the canonical forms. -/

namespace Sys2Proof.Laws

open Sys2Proof Sys2Proof.Machine

set_option linter.unusedTactic false
set_option linter.unreachableTactic false
set_option linter.unusedVariables false

theorem sorted_reset : Tbl.sorted State.reset.regs = true := by decide +kernel


theorem keep_mainReset {K : Kept} (hK : K.stores = true) (s : State) (cause : Nat) (hs : Keep K s) : Keep K (s.mainReset cause) := by
  unfold State.mainReset
  dsimp only
  have h0 : Keep K (((s.clearWindows 0).clearWindows 1).releaseLock 0) :=
    keep_releaseLock _ _ (keep_clearWindows _ _ (keep_clearWindows _ _ hs))
  generalize ((s.clearWindows 0).clearWindows 1).releaseLock 0 = s0 at h0 ⊢
  have h1 : Keep K ((((s0.releaseLock 1).dropStaging 0).dropStaging 1).enterPs 0) :=
    keep_enterPs _ _ (keep_dropStaging _ _ (keep_dropStaging _ _ (keep_releaseLock _ _ h0)))
  generalize (((s0.releaseLock 1).dropStaging 0).dropStaging 1).enterPs 0 = s1 at h1 ⊢
  repeat' (with_reducible first | apply keep_wr | apply keep_count | apply keep_set | apply keep_admShow | apply keep_mCore)
  exact ⟨h1.queue, h1.mono, h1.epoch, h1.perm, tbl_sorted_foldl_set _ _ _ _ _ (tbl_sorted_filter _ _ h1.regs), rfl, rfl,
    fun e => by simp [hK] at e, h1.kept⟩


theorem keep_showStep {K : Kept} (s : State) (hs : Keep K s) :
    Keep K (State.showStep s) := by
  unfold State.showStep
  repeat' (first
    | (with_reducible first | assumption | apply keep_wr | apply keep_wr | apply keep_ite | apply keep_ite_snd | apply keep_ite_fst | apply keepO_ite | apply keepOpt_ite)
    | (intro t ht; with_reducible (have _h : Keep K t := ht))
    | (intro (_ : _); show Keep K _)
    | split)

theorem keep_startWake {K : Kept} (hN : K.keeps = true) (s : State) (hs : Keep K s) :
    Keep K (State.startWake s) := by
  unfold State.startWake
  repeat' (first
    | (with_reducible first | assumption | apply keep_mCf | apply keep_mDev | apply keep_mLog | apply keep_showStep | apply keep_traceOff | apply keep_wr | apply keep_wr | apply keep_ite | apply keep_ite_snd | apply keep_ite_fst | apply keepO_ite | apply keepOpt_ite | apply keep_foldl | apply keep_foldl2 | apply keep_foldl1 | refine keep_mNv _ _ hN ?_ (NvOk.mk rfl (List.prefix_refl _)) | refine keep_mNv _ _ hN ?_ (NvOk.mk rfl (List.prefix_append _ _)) | refine keep_mNv _ _ hN ?_ ?_ | exact NvOk.mk rfl (List.prefix_refl _) | apply nvOk_ite)
    | (intro t a ht; with_reducible (have _h : Keep K t := ht))
    | (intro t ht; with_reducible (have _h : Keep K t := ht))
    | lift_lets -underBinder
    | (intro u; first
        | (refine (?_ : Keep K u → _) ?_; pick_goal 2; simp only [u]; pick_goal 2; intro hu; clear_value u)
        | clear_value u | skip)
    | split)

theorem keep_execPowerOnResetRelease {K : Kept} (hK : K.stores = true) (hN : K.keeps = true) (testEn : Bool) (s t : State)
    (hs : Keep K s) (ht : execPowerOnResetRelease testEn s = .next t) : Keep { K with mono := t.mono, epoch := t.nv.epoch } t := by
  unfold execPowerOnResetRelease at ht
  injection ht with ht
  split at ht
  · subst ht
    exact ⟨hs.queue, rfl, rfl, hs.perm, hs.regs, hs.mem, hs.dram, hs.cells, hs.kept⟩
  · have hN0 : ({ K with mono := 0, epoch := (s.nv.epoch + 1) % 2 ^ 32 } : Kept).keeps = true := hN
    have h0 : Keep { K with mono := 0, epoch := (s.nv.epoch + 1) % 2 ^ 32 } t := by
      subst ht
      refine keep_recordNow hN0 _ _ _ ?_
      refine keep_recordNow hN0 _ _ _ ?_
      refine keep_startWake hN0 _ ?_
      refine keep_wr _ _ _ _ _ ?_
      refine keep_count _ _ _ _ _ ?_
      refine keep_wr _ _ _ _ _ ?_
      refine keep_wr _ _ _ _ _ ?_
      refine keep_wr _ _ _ _ _ ?_
      refine keep_wr _ _ _ _ _ ?_
      refine keep_showDesc _ ?_
      refine keep_wr _ _ _ _ _ ?_
      refine keep_wr _ _ _ _ _ ?_
      refine keep_wr _ _ _ _ _ ?_
      exact ⟨hs.queue, rfl, rfl, hs.perm, sorted_reset, rfl, rfl, fun e => by simp [hK] at e, fun e => by simp [hN] at e⟩
    exact ⟨h0.queue, rfl, rfl, h0.perm, h0.regs, h0.mem, h0.dram, h0.cells, h0.kept⟩


theorem keep_execVddWatchLoss {K : Kept} (hK : K.stores = true) (hN : K.keeps = true) (s t : State)
    (hs : Keep K s) (ht : execVddWatchLoss s = .next t) : Keep { K with mono := t.mono, epoch := t.nv.epoch } t := by
  unfold execVddWatchLoss at ht
  injection ht with ht
  split at ht
  · subst ht
    exact ⟨hs.queue, rfl, rfl, hs.perm, hs.regs, hs.mem, hs.dram, hs.cells, hs.kept⟩
  · have h1 : Keep K (if s.dst = 6 then s.bellWrite false else s) := keep_ite (fun _ => keep_bellWrite hN _ _ hs) (fun _ => hs)
    generalize (if s.dst = 6 then s.bellWrite false else s) = u at h1 ht
    have h2 := keep_flStop hN _ 1 true (keep_flStop hN _ 0 true h1)
    have h0 : Keep { K with mono := 0 } t := by
      subst ht
      apply keep_wr
      exact ⟨h2.queue, rfl, h2.epoch, h2.perm, sorted_reset, rfl, rfl, fun e => by simp [hK] at e, fun e => by simp [hN] at e⟩
    exact ⟨h0.queue, rfl, rfl, h0.perm, h0.regs, h0.mem, h0.dram, h0.cells, h0.kept⟩


theorem keep_execStrapSampleComplete {K : Kept} (hN : K.keeps = true) (samples : List Nat) (s : State) (hs : Keep K s) :
    KeepO K (execStrapSampleComplete samples s) := by
  unfold execStrapSampleComplete
  repeat' (first
    | (with_reducible first | assumption | apply keep_mDev | apply keep_record | apply keep_recordNow | apply keep_showStep | apply keep_wr | apply keep_wr | apply keep_ite | apply keepO_next | apply keep_ite_snd | apply keep_ite_fst | apply keepO_ite | apply keepOpt_ite)
    | (intro t ht; with_reducible (have _h : Keep K t := ht))
    | lift_lets -underBinder
    | (intro u; first
        | (refine (?_ : Keep K u → _) ?_; pick_goal 2; simp only [u]; pick_goal 2; intro hu; clear_value u)
        | clear_value u | skip)
    | split)

theorem keep_powerDomains {K : Kept} (s : State) (hs : Keep K s) :
    Keep K (State.powerDomains s) := by
  unfold State.powerDomains
  repeat' (first
    | (with_reducible first | assumption | apply keep_coreRelease | apply keep_wr | apply keep_wr | apply keep_ite | apply keep_ite_snd | apply keep_ite_fst | apply keepO_ite | apply keepOpt_ite)
    | (intro t ht; with_reducible (have _h : Keep K t := ht))
    | lift_lets -underBinder
    | (intro u; first
        | (refine (?_ : Keep K u → _) ?_; pick_goal 2; simp only [u]; pick_goal 2; intro hu; clear_value u)
        | clear_value u | skip)
    | split)

theorem keep_execRailStageValid {K : Kept} (early : Nat) (s : State) (hs : Keep K s) :
    KeepO K (execRailStageValid early s) := by
  unfold execRailStageValid
  repeat' (first
    | (with_reducible first | assumption | apply keep_mDev | apply keep_powerDomains | apply keep_showStep | apply keep_wr | apply keep_wr | apply keep_ite | apply keepO_next | apply keep_ite_snd | apply keep_ite_fst | apply keepO_ite | apply keepOpt_ite | apply keep_foldl | apply keep_foldl2 | apply keep_foldl1)
    | (intro t a ht; with_reducible (have _h : Keep K t := ht))
    | (intro t ht; with_reducible (have _h : Keep K t := ht))
    | lift_lets -underBinder
    | (intro u; first
        | (refine (?_ : Keep K u → _) ?_; pick_goal 2; simp only [u]; pick_goal 2; intro hu; clear_value u)
        | clear_value u | skip)
    | split)

theorem keep_wakeFall {K : Kept} (hN : K.keeps = true) (s : State) (hs : Keep K s) :
    Keep K (State.wakeFall s) := by
  unfold State.wakeFall
  repeat' (first
    | (with_reducible first | assumption | apply keep_fallBack | apply keep_ite | apply keep_ite_snd | apply keep_ite_fst | apply keepO_ite | apply keepOpt_ite)
    | (intro t ht; with_reducible (have _h : Keep K t := ht))
    | lift_lets -underBinder
    | (intro u; first
        | (refine (?_ : Keep K u → _) ?_; pick_goal 2; simp only [u]; pick_goal 2; intro hu; clear_value u)
        | clear_value u | skip)
    | split)

theorem keep_execRailEnableTimeout {K : Kept} (hK : K.stores = true) (hN : K.keeps = true) (rail : Nat) (s : State) (hs : Keep K s) :
    KeepO K (execRailEnableTimeout rail s) := by
  unfold execRailEnableTimeout
  repeat' (first
    | (with_reducible first | assumption | apply keep_enterHalt | apply keep_loseGroup | apply keep_wakeFall | apply keep_wr | apply keep_wr | apply keep_ite | apply keepO_next | apply keep_ite_snd | apply keep_ite_fst | apply keepO_ite | apply keepOpt_ite)
    | (intro t ht; with_reducible (have _h : Keep K t := ht))
    | lift_lets -underBinder
    | (intro u; first
        | (refine (?_ : Keep K u → _) ?_; pick_goal 2; simp only [u]; pick_goal 2; intro hu; clear_value u)
        | clear_value u | skip)
    | split)

theorem keep_execRailOutOfWindow {K : Kept} (hK : K.stores = true) (hN : K.keeps = true) (rail : Nat) (s : State) (hs : Keep K s) :
    KeepO K (execRailOutOfWindow rail s) := by
  unfold execRailOutOfWindow
  repeat' (first
    | (with_reducible first | assumption | apply keep_enterClosing | apply keep_enterHalt | apply keep_loseGroup | apply keep_wr | apply keep_wr | apply keep_ite | apply keepO_next | apply keep_ite_snd | apply keep_ite_fst | apply keepO_ite | apply keepOpt_ite)
    | (intro t ht; with_reducible (have _h : Keep K t := ht))
    | lift_lets -underBinder
    | (intro u; first
        | (refine (?_ : Keep K u → _) ?_; pick_goal 2; simp only [u]; pick_goal 2; intro hu; clear_value u)
        | clear_value u | skip)
    | split)

theorem keep_startCandidate {K : Kept} (hN : K.keeps = true) (s : State) (hs : Keep K s) :
    Keep K (State.startCandidate s).1 := by
  unfold State.startCandidate
  repeat' (first
    | (with_reducible first | assumption | apply keep_appendDesc | apply keep_fallBack | apply keep_ite | apply keepO_next | apply keep_ite_snd | apply keep_ite_fst | apply keepO_ite | apply keepOpt_ite)
    | (intro t ht; with_reducible (have _h : Keep K t := ht))
    | lift_lets -underBinder
    | (intro u; first
        | (refine (?_ : Keep K u → _) ?_; pick_goal 2; simp only [u]; pick_goal 2; intro hu; clear_value u)
        | clear_value u | skip)
    | split)

theorem keep_firstSlot {K : Kept} (hN : K.keeps = true) (s : State) (l : List Nat) (hs : Keep K s) : Keep K (firstSlot s l).1 := by
  induction l generalizing s with
  | nil => exact hs
  | cons k t ih =>
    rw [firstSlot]
    split
    · exact hs
    · exact ih _ (keep_fallBack hN _ _ _ _ hs)


theorem keep_takeSlot {K : Kept} (s : State) (slot : Nat) (hs : Keep K s) :
    Keep K (State.takeSlot s slot) := by
  unfold State.takeSlot
  repeat' (first
    | (with_reducible first | assumption | apply keep_loadWindow | apply keep_mCf | apply keep_showSlot | apply keep_showStep | apply keep_foldl | apply keep_foldl2 | apply keep_foldl1)
    | (intro t a ht; with_reducible (have _h : Keep K t := ht))
    | (intro t ht; with_reducible (have _h : Keep K t := ht))
    | lift_lets -underBinder
    | (intro u; first
        | (refine (?_ : Keep K u → _) ?_; pick_goal 2; simp only [u]; pick_goal 2; intro hu; clear_value u)
        | clear_value u | skip))

theorem keep_diagBoot {K : Kept} (hN : K.keeps = true) (s : State) (slot : Nat) (hs : Keep K s) :
    Keep K (State.diagBoot s slot) := by
  unfold State.diagBoot
  repeat' (first
    | (with_reducible first | assumption | apply keep_record | apply keep_recordNow | apply keep_wr | apply keep_wr)
    | (intro t ht; with_reducible (have _h : Keep K t := ht))
    | lift_lets -underBinder
    | (intro u; first
        | (refine (?_ : Keep K u → _) ?_; pick_goal 2; simp only [u]; pick_goal 2; intro hu; clear_value u)
        | clear_value u | skip))

theorem keep_execBootSlotChoice {K : Kept} (hN : K.keeps = true) (s : State) (hs : Keep K s) :
    KeepO K (execBootSlotChoice s) := by
  unfold execBootSlotChoice
  repeat' (first
    | (with_reducible assumption)
    | (with_reducible first | apply keep_diagBoot | apply keep_enterHalt | apply keep_firstSlot | apply keep_loadConfig | apply keep_startCandidate | apply keep_takeSlot | apply keep_ite | apply keepO_next | apply keep_ite_snd | apply keep_ite_fst | apply keepO_ite | apply keepOpt_ite)
    | (intro t ht; with_reducible (have _h : Keep K t := ht))
    | lift_lets -underBinder
    | (intro u; first
        | (refine (?_ : Keep K u → _) ?_; pick_goal 2; simp only [u]; pick_goal 2; intro hu; clear_value u)
        | (refine (?_ : Keep K u.2 → _) ?_; pick_goal 2; simp only [u]; pick_goal 2; intro hu; clear_value u)
        | (refine (?_ : Keep K u.1 → _) ?_; pick_goal 2; simp only [u]; pick_goal 2; intro hu; clear_value u)
        | (refine (?_ : Keep K u.st → _) ?_; pick_goal 2; simp only [u]; pick_goal 2; intro hu; clear_value u)
        | clear_value u | skip)
    | split
    | (intro t ht; with_reducible (have _h : Keep K t := ht))
    | (intro c t ht; with_reducible (have _h : Keep K t := ht))
    | dsimp -zeta only [id])

theorem keep_execDdr5TrainingComplete {K : Kept} (gib mts ms : Nat) (s : State) (hs : Keep K s) :
    KeepO K (execDdr5TrainingComplete gib mts ms s) := by
  unfold execDdr5TrainingComplete
  repeat' (first
    | (with_reducible first | assumption | apply keep_mDev | apply keep_showStep | apply keep_wr | apply keep_wr | apply keep_ite | apply keepO_next | apply keep_ite_snd | apply keep_ite_fst | apply keepO_ite | apply keepOpt_ite)
    | (intro t ht; with_reducible (have _h : Keep K t := ht))
    | (intro (_ : _); show Keep K _)
    | split)

theorem keep_execWakeComplete {K : Kept} (hN : K.keeps = true) (s : State) (hs : Keep K s) :
    KeepO K (execWakeComplete s) := by
  unfold execWakeComplete
  repeat' (first
    | (with_reducible first | assumption | apply keep_goState | apply keep_mDev | apply keep_wr | apply keep_wr | apply keep_ite | apply keepO_next | apply keep_ite_snd | apply keep_ite_fst | apply keepO_ite | apply keepOpt_ite | apply keep_foldl | apply keep_foldl2 | apply keep_foldl1)
    | (intro t a ht; with_reducible (have _h : Keep K t := ht))
    | (intro t ht; with_reducible (have _h : Keep K t := ht))
    | lift_lets -underBinder
    | (intro u; first
        | (refine (?_ : Keep K u → _) ?_; pick_goal 2; simp only [u]; pick_goal 2; intro hu; clear_value u)
        | clear_value u | skip)
    | split)

theorem keep_execWakeTimerExpiry {K : Kept} (hN : K.keeps = true) (s : State) (hs : Keep K s) :
    KeepO K (execWakeTimerExpiry s) := by
  unfold execWakeTimerExpiry
  repeat' (first
    | (with_reducible first | assumption | apply keep_enterHalt | apply keep_wakeFall | apply keep_ite | apply keepO_next | apply keep_ite_snd | apply keep_ite_fst | apply keepO_ite | apply keepOpt_ite)
    | (intro t ht; with_reducible (have _h : Keep K t := ht))
    | (intro (_ : _); show Keep K _)
    | split)

theorem keep_restart {K : Kept} (hK : K.stores = true) (hN : K.keeps = true) (s : State) (who : Requester) (hs : Keep K s) :
    Keep K (State.restart s who) := by
  unfold State.restart
  repeat' (with_reducible first | assumption | apply keep_coreReset | apply keep_goState | apply keep_mainReset | apply keep_startWake)

theorem keep_execHaltCtrlRestart {K : Kept} (hK : K.stores = true) (hN : K.keeps = true) (who : Initiator) (s : State) (hs : Keep K s) :
    KeepO K (execHaltCtrlRestart who s) := by
  unfold execHaltCtrlRestart
  repeat' (first
    | (with_reducible first | assumption | apply keep_denyUnder | apply keep_mDev | apply keep_restart | apply keep_wr | apply keep_wr | apply keep_ite | apply keepO_next | apply keep_ite_snd | apply keep_ite_fst | apply keepO_ite | apply keepOpt_ite)
    | (intro t ht; with_reducible (have _h : Keep K t := ht))
    | (intro (_ : _); show Keep K _)
    | split)

theorem keep_execRestartDwellExpiry {K : Kept} (hK : K.stores = true) (hN : K.keeps = true) (s : State) (hs : Keep K s) :
    KeepO K (execRestartDwellExpiry s) := by
  unfold execRestartDwellExpiry
  repeat' (first
    | (with_reducible first | assumption | apply keep_mDev | apply keep_restart | apply keep_wr | apply keep_wr | apply keep_ite | apply keepO_next | apply keep_ite_snd | apply keep_ite_fst | apply keepO_ite | apply keepOpt_ite)
    | (intro t ht; with_reducible (have _h : Keep K t := ht))
    | lift_lets -underBinder
    | (intro u; first
        | (refine (?_ : Keep K u → _) ?_; pick_goal 2; simp only [u]; pick_goal 2; intro hu; clear_value u)
        | clear_value u | skip)
    | split)

theorem keep_execVrAlertN {K : Kept} (s : State) (hs : Keep K s) :
    KeepO K (execVrAlertN s) := by
  unfold execVrAlertN
  repeat' (first
    | (with_reducible first | assumption | apply keep_fresh | apply keep_record | apply keep_ite | apply keepO_next | apply keep_ite_snd | apply keep_ite_fst | apply keepO_ite | apply keepOpt_ite)
    | (intro t ht; with_reducible (have _h : Keep K t := ht))
    | lift_lets -underBinder
    | (intro u; first
        | (refine (?_ : Keep K u → _) ?_; pick_goal 2; simp only [u]; pick_goal 2; intro hu; clear_value u)
        | clear_value u | skip)
    | split)

end Sys2Proof.Laws
end

