-- ==== Sys2Proof/Laws/KeepSelfTest.lean ====
section
/-! SUPPORT. The operations of Machine/SelfTest.lean keep the queue and the canonical forms. -/

namespace Sys2Proof.Laws

open Sys2Proof Sys2Proof.Machine

set_option linter.unusedTactic false
set_option linter.unreachableTactic false
set_option linter.unusedVariables false

theorem keep_stFail {K : Kept} (hK : K.stores = true) (hN : K.keeps = true) (s : State) (phase : Nat) (e : Nat × Nat) (hs : Keep K s) :
    Keep K (State.stFail s phase e) := by
  unfold State.stFail
  repeat' (first
    | (with_reducible first | assumption | apply keep_loseChannel | apply keep_loseGroup | apply keep_wr | apply keep_wr | apply keep_ite | apply keep_ite_snd | apply keep_ite_fst | apply keepO_ite | apply keepOpt_ite)
    | (intro t ht; with_reducible (have _h : Keep K t := ht))
    | lift_lets -underBinder
    | (intro u; first
        | (refine (?_ : Keep K u → _) ?_; pick_goal 2; simp only [u]; pick_goal 2; intro hu; clear_value u)
        | clear_value u | skip)
    | split)

theorem keep_bringDie {K : Kept} (s : State) (ch : Nat) (d : List Nat) (hs : Keep K s) :
    Keep K (State.bringDie s ch d) := by
  unfold State.bringDie
  repeat' (first
    | (with_reducible first | assumption | apply keep_mDie | apply keep_record | apply keep_wr | apply keep_wr | apply keep_ite | apply keep_ite_snd | apply keep_ite_fst | apply keepO_ite | apply keepOpt_ite)
    | (intro t ht; with_reducible (have _h : Keep K t := ht))
    | lift_lets -underBinder
    | (intro u; first
        | (refine (?_ : Keep K u → _) ?_; pick_goal 2; simp only [u]; pick_goal 2; intro hu; clear_value u)
        | clear_value u | skip)
    | split)

theorem keep_bringChannel {K : Kept} (hK : K.stores = true) (hN : K.keeps = true) (s : State) (c : List Nat) (hs : Keep K s) :
    Keep K (State.bringChannel s c) := by
  unfold State.bringChannel
  repeat' (first
    | (with_reducible first | assumption | apply keep_bringDie | apply keep_loseChannel | apply keep_stFail | apply keep_wr | apply keep_wr | apply keep_ite | apply keep_ite_snd | apply keep_ite_fst | apply keepO_ite | apply keepOpt_ite | apply keep_foldl | apply keep_foldl2 | apply keep_foldl1)
    | (intro t a ht; with_reducible (have _h : Keep K t := ht))
    | (intro t ht; with_reducible (have _h : Keep K t := ht))
    | lift_lets -underBinder
    | (intro u; first
        | (refine (?_ : Keep K u → _) ?_; pick_goal 2; simp only [u]; pick_goal 2; intro hu; clear_value u)
        | clear_value u | skip)
    | split)

theorem keep_execSelfTestPhaseComplete {K : Kept} (hK : K.stores = true) (hN : K.keeps = true) (transients firings : Nat) (fails : List (Nat × Nat)) (chans : List (List Nat)) (s : State) (hs : Keep K s) :
    KeepO K (execSelfTestPhaseComplete transients firings fails chans s) := by
  unfold execSelfTestPhaseComplete
  repeat' (first
    | (with_reducible first | assumption | apply keep_bringChannel | apply keep_count | apply keep_enterHalt | apply keep_loadSlots | apply keep_mDev | apply keep_record | apply keep_stFail | apply keep_wakeFall | apply keep_wr | apply keep_wr | apply keep_ite | apply keepO_next | apply keep_ite_snd | apply keep_ite_fst | apply keepO_ite | apply keepOpt_ite | apply keep_foldl | apply keep_foldl2 | apply keep_foldl1)
    | (intro t a ht; with_reducible (have _h : Keep K t := ht))
    | (intro t ht; with_reducible (have _h : Keep K t := ht))
    | lift_lets -underBinder
    | (intro u; first
        | (refine (?_ : Keep K u → _) ?_; pick_goal 2; simp only [u]; pick_goal 2; intro hu; clear_value u)
        | clear_value u | skip)
    | split)

theorem keep_execSelfTestTimerExpiry {K : Kept} (hN : K.keeps = true) (s : State) (hs : Keep K s) :
    KeepO K (execSelfTestTimerExpiry s) := by
  unfold execSelfTestTimerExpiry
  repeat' (first
    | (with_reducible first | assumption | apply keep_enterHalt | apply keep_wakeFall | apply keep_wr | apply keep_wr | apply keep_ite | apply keepO_next | apply keep_ite_snd | apply keep_ite_fst | apply keepO_ite | apply keepOpt_ite)
    | (intro t ht; with_reducible (have _h : Keep K t := ht))
    | (intro (_ : _); show Keep K _)
    | split)

theorem keep_divideDram {K : Kept} (s : State) (hs : Keep K s) :
    Keep K (State.divideDram s) := by
  unfold State.divideDram
  repeat' (first
    | (with_reducible first | assumption | apply keep_granFree | apply keep_wr | apply keep_wr)
    | (intro t ht; with_reducible (have _h : Keep K t := ht))
    | lift_lets -underBinder
    | (intro u; first
        | (refine (?_ : Keep K u → _) ?_; pick_goal 2; simp only [u]; pick_goal 2; intro hu; clear_value u)
        | clear_value u | skip))

theorem keep_lockPages {K : Kept} (s : State) (hs : Keep K s) :
    Keep K (State.lockPages s) := by
  unfold State.lockPages
  repeat' (first
    | (with_reducible first | assumption | apply keep_wr | apply keep_wr | apply keep_foldl | apply keep_foldl2 | apply keep_foldl1)
    | (intro t a ht; with_reducible (have _h : Keep K t := ht))
    | (intro t ht; with_reducible (have _h : Keep K t := ht)))

theorem keep_execSelfTestComplete {K : Kept} (hN : K.keeps = true) (ms : Nat) (s : State) (hs : Keep K s) :
    KeepO K (execSelfTestComplete ms s) := by
  unfold execSelfTestComplete
  repeat' (first
    | (with_reducible first | assumption | apply keep_divideDram | apply keep_goState | apply keep_lockPages | apply keep_mCore | apply keep_mDev | apply keep_mWp | apply keep_set | apply keep_wr | apply keep_wr | apply keep_ite | apply keepO_next | apply keep_ite_snd | apply keep_ite_fst | apply keepO_ite | apply keepOpt_ite | apply keep_foldl | apply keep_foldl2 | apply keep_foldl1)
    | (intro t a ht; with_reducible (have _h : Keep K t := ht))
    | (intro t ht; with_reducible (have _h : Keep K t := ht))
    | lift_lets -underBinder
    | (intro u; first
        | (refine (?_ : Keep K u → _) ?_; pick_goal 2; simp only [u]; pick_goal 2; intro hu; clear_value u)
        | clear_value u | skip)
    | split)

end Sys2Proof.Laws
end

