-- ==== Sys2Proof/Laws/KeepRebuild.lean ====
section
/-! SUPPORT. The operations of Machine/Rebuild.lean keep the queue and the canonical forms. -/

namespace Sys2Proof.Laws

open Sys2Proof Sys2Proof.Machine

set_option linter.unusedTactic false
set_option linter.unreachableTactic false
set_option linter.unusedVariables false

theorem keep_mImage {K : Kept} (hN : K.keeps = true) (s : State) (which : Nat) (g : BellImage → BellImage) (hs : Keep K s) :
    Keep K (State.mImage s which g) := by
  unfold State.mImage
  repeat' (first
    | (with_reducible first | assumption | apply keep_ite | apply keep_ite_snd | apply keep_ite_fst | apply keepO_ite | apply keepOpt_ite | refine keep_mNv _ _ hN ?_ (NvOk.mk rfl (List.prefix_refl _)) | refine keep_mNv _ _ hN ?_ (NvOk.mk rfl (List.prefix_append _ _)) | refine keep_mNv _ _ hN ?_ ?_ | exact NvOk.mk rfl (List.prefix_refl _) | apply nvOk_ite)
    | (intro t ht; with_reducible (have _h : Keep K t := ht))
    | (intro (_ : _); show Keep K _)
    | split)

theorem keep_mergeJournals {K : Kept} (hN : K.keeps = true) (s : State) (hs : Keep K s) :
    Keep K (State.mergeJournals s) := by
  unfold State.mergeJournals
  repeat' (first
    | (with_reducible first | assumption | apply keep_journal | apply keep_mBell | apply keep_foldl | apply keep_foldl2 | apply keep_foldl1 | refine keep_mNv _ _ hN ?_ (NvOk.mk rfl (List.prefix_refl _)) | refine keep_mNv _ _ hN ?_ (NvOk.mk rfl (List.prefix_append _ _)) | refine keep_mNv _ _ hN ?_ ?_ | exact NvOk.mk rfl (List.prefix_refl _) | apply nvOk_ite)
    | (intro t a ht; with_reducible (have _h : Keep K t := ht))
    | (intro t ht; with_reducible (have _h : Keep K t := ht))
    | lift_lets -underBinder
    | (intro u; first
        | (refine (?_ : Keep K u → _) ?_; pick_goal 2; simp only [u]; pick_goal 2; intro hu; clear_value u)
        | clear_value u | skip))

theorem keep_findBell {K : Kept} (hN : K.keeps = true) (s : State) (hs : Keep K s) :
    Keep K (State.findBell s) := by
  unfold State.findBell
  repeat' (first
    | (with_reducible first | assumption | apply keep_complete | apply keep_mImage | apply keep_record | apply keep_showBell | apply keep_ite | apply keep_ite_snd | apply keep_ite_fst | apply keepO_ite | apply keepOpt_ite | refine keep_mNv _ _ hN ?_ (NvOk.mk rfl (List.prefix_refl _)) | refine keep_mNv _ _ hN ?_ (NvOk.mk rfl (List.prefix_append _ _)) | refine keep_mNv _ _ hN ?_ ?_ | exact NvOk.mk rfl (List.prefix_refl _) | apply nvOk_ite)
    | (intro t ht; with_reducible (have _h : Keep K t := ht))
    | lift_lets -underBinder
    | (intro u; first
        | (refine (?_ : Keep K u → _) ?_; pick_goal 2; simp only [u]; pick_goal 2; intro hu; clear_value u)
        | clear_value u | skip)
    | split)

theorem keep_restoreLog {K : Kept} (s : State) (hs : Keep K s) :
    Keep K (State.restoreLog s) := by
  unfold State.restoreLog
  repeat' (first
    | (with_reducible first | assumption | apply keep_mLog | apply keep_record | apply keep_wr | apply keep_wr | apply keep_ite | apply keep_ite_snd | apply keep_ite_fst | apply keepO_ite | apply keepOpt_ite | apply keep_foldl | apply keep_foldl2 | apply keep_foldl1)
    | (intro t a ht; with_reducible (have _h : Keep K t := ht))
    | (intro t ht; with_reducible (have _h : Keep K t := ht))
    | lift_lets -underBinder
    | (intro u; first
        | (refine (?_ : Keep K u → _) ?_; pick_goal 2; simp only [u]; pick_goal 2; intro hu; clear_value u)
        | clear_value u | skip)
    | split)

theorem keep_restoreNs {K : Kept} (s : State) (hs : Keep K s) :
    Keep K (State.restoreNs s) := by
  unfold State.restoreNs
  repeat' (first
    | (with_reducible first | assumption | apply keep_granFree | apply keep_mNs | apply keep_ite | apply keep_ite_snd | apply keep_ite_fst | apply keepO_ite | apply keepOpt_ite | apply keep_foldl | apply keep_foldl2 | apply keep_foldl1)
    | (intro t a ht; with_reducible (have _h : Keep K t := ht))
    | (intro t ht; with_reducible (have _h : Keep K t := ht))
    | lift_lets -underBinder
    | (intro u; first
        | (refine (?_ : Keep K u → _) ?_; pick_goal 2; simp only [u]; pick_goal 2; intro hu; clear_value u)
        | clear_value u | skip)
    | split)

theorem keep_missingKeys {K : Kept} (s : State) (hs : Keep K s) :
    Keep K (State.missingKeys s) := by
  unfold State.missingKeys
  repeat' (first
    | (with_reducible first | assumption | apply keep_mCiph | apply keep_record | apply keep_set | apply keep_ite | apply keep_ite_snd | apply keep_ite_fst | apply keepO_ite | apply keepOpt_ite | apply keep_foldl | apply keep_foldl2 | apply keep_foldl1)
    | (intro t a ht; with_reducible (have _h : Keep K t := ht))
    | (intro t ht; with_reducible (have _h : Keep K t := ht))
    | lift_lets -underBinder
    | (intro u; first
        | (refine (?_ : Keep K u → _) ?_; pick_goal 2; simp only [u]; pick_goal 2; intro hu; clear_value u)
        | clear_value u | skip)
    | split)

theorem keep_restoreSaved {K : Kept} (s : State) (hs : Keep K s) :
    Keep K (State.restoreSaved s) := by
  unfold State.restoreSaved
  repeat' (first
    | (with_reducible first | assumption | apply keep_mHost | apply keep_restoreState | apply keep_set | apply keep_wr | apply keep_wr | apply keep_ite | apply keep_ite_snd | apply keep_ite_fst | apply keepO_ite | apply keepOpt_ite | apply keep_foldl | apply keep_foldl2 | apply keep_foldl1)
    | (intro t a ht; with_reducible (have _h : Keep K t := ht))
    | (intro t ht; with_reducible (have _h : Keep K t := ht))
    | lift_lets -underBinder
    | (intro u; first
        | (refine (?_ : Keep K u → _) ?_; pick_goal 2; simp only [u]; pick_goal 2; intro hu; clear_value u)
        | clear_value u | skip)
    | split)

theorem keep_applyRec {K : Kept} (s : State) (r : JRec) (hs : Keep K s) :
    Keep K (State.applyRec s r) := by
  unfold State.applyRec
  repeat' (first
    | (with_reducible first | assumption | apply keep_mBlock | apply keep_mSw | apply keep_set | apply keep_ite | apply keep_ite_snd | apply keep_ite_fst | apply keepO_ite | apply keepOpt_ite | apply keep_foldl | apply keep_foldl2 | apply keep_foldl1)
    | (intro t a ht; with_reducible (have _h : Keep K t := ht))
    | (intro t ht; with_reducible (have _h : Keep K t := ht))
    | lift_lets -underBinder
    | (intro u; first
        | (refine (?_ : Keep K u → _) ?_; pick_goal 2; simp only [u]; pick_goal 2; intro hu; clear_value u)
        | clear_value u | skip)
    | split)

theorem keep_restoreBands {K : Kept} (s : State) (hs : Keep K s) :
    Keep K (State.restoreBands s) := by
  unfold State.restoreBands
  repeat' (first
    | (with_reducible first | assumption | apply keep_mSw | apply keep_set | apply keep_ite | apply keep_ite_snd | apply keep_ite_fst | apply keepO_ite | apply keepOpt_ite | apply keep_foldl | apply keep_foldl2 | apply keep_foldl1)
    | (intro t a ht; with_reducible (have _h : Keep K t := ht))
    | (intro t ht; with_reducible (have _h : Keep K t := ht))
    | lift_lets -underBinder
    | (intro u; first
        | (refine (?_ : Keep K u → _) ?_; pick_goal 2; simp only [u]; pick_goal 2; intro hu; clear_value u)
        | clear_value u | skip)
    | split)

theorem keep_restoreBlocks {K : Kept} (hN : K.keeps = true) (s : State) (hs : Keep K s) :
    Keep K (State.restoreBlocks s) := by
  unfold State.restoreBlocks
  repeat' (first
    | (with_reducible first | assumption | apply keep_applyRec | apply keep_mBlock | apply keep_mSw | apply keep_restoreBands | apply keep_wr | apply keep_wr | apply keep_ite | apply keep_ite_snd | apply keep_ite_fst | apply keepO_ite | apply keepOpt_ite | apply keep_foldl | apply keep_foldl2 | apply keep_foldl1 | refine keep_mNv _ _ hN ?_ (NvOk.mk rfl (List.prefix_refl _)) | refine keep_mNv _ _ hN ?_ (NvOk.mk rfl (List.prefix_append _ _)) | refine keep_mNv _ _ hN ?_ ?_ | exact NvOk.mk rfl (List.prefix_refl _) | apply nvOk_ite)
    | (intro t a ht; with_reducible (have _h : Keep K t := ht))
    | (intro t ht; with_reducible (have _h : Keep K t := ht))
    | lift_lets -underBinder
    | (intro u; first
        | (refine (?_ : Keep K u → _) ?_; pick_goal 2; simp only [u]; pick_goal 2; intro hu; clear_value u)
        | clear_value u | skip)
    | split)

theorem keep_rebuild1 {K : Kept} (hN : K.keeps = true) (s : State) (hs : Keep K s) :
    Keep K (State.rebuild1 s) := by
  unfold State.rebuild1
  repeat' (with_reducible first | assumption | apply keep_findBell | apply keep_mergeJournals | apply keep_missingKeys | apply keep_restoreBlocks | apply keep_restoreLog | apply keep_restoreNs | apply keep_restoreSaved)

theorem keep_rebuild2 {K : Kept} (s : State) (hs : Keep K s) :
    Keep K (State.rebuild2 s) := by
  unfold State.rebuild2
  repeat' (first
    | (with_reducible first | assumption | apply keep_mLed | apply keep_set | apply keep_ite | apply keep_ite_snd | apply keep_ite_fst | apply keepO_ite | apply keepOpt_ite | apply keep_foldl | apply keep_foldl2 | apply keep_foldl1)
    | (intro t a ht; with_reducible (have _h : Keep K t := ht))
    | (intro t ht; with_reducible (have _h : Keep K t := ht))
    | (intro (_ : _); show Keep K _)
    | split)

theorem keep_rebuild3 {K : Kept} (s : State) (hs : Keep K s) :
    Keep K (State.rebuild3 s) := by
  unfold State.rebuild3
  repeat' (first
    | (with_reducible first | assumption | apply keep_count | apply keep_mSw | apply keep_set | apply keep_ite | apply keep_ite_snd | apply keep_ite_fst | apply keepO_ite | apply keepOpt_ite | apply keep_foldl | apply keep_foldl2 | apply keep_foldl1)
    | (intro t a ht; with_reducible (have _h : Keep K t := ht))
    | (intro t ht; with_reducible (have _h : Keep K t := ht))
    | (intro (_ : _); show Keep K _)
    | split)

theorem keep_putEntry {K : Kept} (s : State) (nsid iu e : Nat) (u : Bool) (hs : Keep K s) :
    Keep K (State.putEntry s nsid iu e u) := by
  unfold State.putEntry
  repeat' (first
    | (with_reducible first | assumption | apply keep_mLed | apply keep_set)
    | (intro t ht; with_reducible (have _h : Keep K t := ht)))

theorem keep_loseIu {K : Kept} (s : State) (nsid iu reason : Nat) (hs : Keep K s) :
    Keep K (State.loseIu s nsid iu reason) := by
  unfold State.loseIu
  repeat' (with_reducible first | assumption | apply keep_count | apply keep_critical | apply keep_putEntry | apply keep_record)

theorem keep_resolveIu {K : Kept} (s : State) (bad : List Nat) (nsid iu : Nat) (hs : Keep K s) :
    Keep K (State.resolveIu s bad nsid iu) := by
  unfold State.resolveIu
  repeat' (first
    | (with_reducible first | assumption | apply keep_count | apply keep_loseIu | apply keep_putEntry | apply keep_ite | apply keep_ite_snd | apply keep_ite_fst | apply keepO_ite | apply keepOpt_ite)
    | (intro t ht; with_reducible (have _h : Keep K t := ht))
    | lift_lets -underBinder
    | (intro u; first
        | (refine (?_ : Keep K u → _) ?_; pick_goal 2; simp only [u]; pick_goal 2; intro hu; clear_value u)
        | clear_value u | skip)
    | split)

theorem keep_rebuild4 {K : Kept} (s : State) (bad : List Nat) (hs : Keep K s) :
    Keep K (State.rebuild4 s bad) := by
  unfold State.rebuild4
  repeat' (first
    | (with_reducible first | assumption | apply keep_mWp | apply keep_resolveIu | apply keep_foldl | apply keep_foldl2 | apply keep_foldl1)
    | (intro t a ht; with_reducible (have _h : Keep K t := ht))
    | (intro t ht; with_reducible (have _h : Keep K t := ht))
    | lift_lets -underBinder
    | (intro u; first
        | (refine (?_ : Keep K u → _) ?_; pick_goal 2; simp only [u]; pick_goal 2; intro hu; clear_value u)
        | clear_value u | skip))

theorem keep_replayRow {K : Kept} (s : State) (bad : List Nat) (r : BellRow) (hs : Keep K s) :
    Keep K (State.replayRow s bad r) := by
  unfold State.replayRow
  repeat' (first
    | (with_reducible first | assumption | apply keep_count | apply keep_deferRecord | apply keep_loseIu | apply keep_mWp | apply keep_putEntry | apply keep_set | apply keep_ite | apply keep_ite_snd | apply keep_ite_fst | apply keepO_ite | apply keepOpt_ite)
    | (intro t ht; with_reducible (have _h : Keep K t := ht))
    | lift_lets -underBinder
    | (intro u; first
        | (refine (?_ : Keep K u → _) ?_; pick_goal 2; simp only [u]; pick_goal 2; intro hu; clear_value u)
        | clear_value u | skip)
    | split)

theorem keep_replayGood {K : Kept} (hK : K.stores = true) (hN : K.keeps = true) (s : State) (p : ProgUnit) (hs : Keep K s) :
    Keep K (State.replayGood s p) := by
  unfold State.replayGood
  repeat' (first
    | (with_reducible first | assumption | apply keep_endStripe | apply keep_mStripe | apply keep_mWp | apply keep_putEntry | apply keep_set | apply keep_ite | apply keep_ite_snd | apply keep_ite_fst | apply keepO_ite | apply keepOpt_ite | apply keep_foldl | apply keep_foldl2 | apply keep_foldl1 | refine keep_mNv _ _ hN ?_ (NvOk.mk rfl (List.prefix_refl _)) | refine keep_mNv _ _ hN ?_ (NvOk.mk rfl (List.prefix_append _ _)) | refine keep_mNv _ _ hN ?_ ?_ | exact NvOk.mk rfl (List.prefix_refl _) | apply nvOk_ite)
    | (intro t a ht; with_reducible (have _h : Keep K t := ht))
    | (intro t ht; with_reducible (have _h : Keep K t := ht))
    | lift_lets -underBinder
    | (intro u; first
        | (refine (?_ : Keep K u → _) ?_; pick_goal 2; simp only [u]; pick_goal 2; intro hu; clear_value u)
        | clear_value u | skip)
    | split)

theorem keep_replayDrain {K : Kept} (hK : K.stores = true) (hN : K.keeps = true) (s : State) (hs : Keep K s) :
    Keep K (State.replayDrain s) := by
  unfold State.replayDrain
  repeat' (first
    | (with_reducible first | assumption | apply keep_replayGood | apply keep_foldl | apply keep_foldl2 | apply keep_foldl1)
    | (intro t a ht; with_reducible (have _h : Keep K t := ht))
    | (intro t ht; with_reducible (have _h : Keep K t := ht))
    | split)

theorem keep_rebuild5 {K : Kept} (hK : K.stores = true) (hN : K.keeps = true) (s : State) (bad : List Nat) (hs : Keep K s) :
    Keep K (State.rebuild5 s bad) := by
  unfold State.rebuild5
  repeat' (first
    | (with_reducible first | assumption | apply keep_build | apply keep_closeShort | apply keep_mImage | apply keep_replayDrain | apply keep_replayRow | apply keep_wr | apply keep_wr | apply keep_foldl | apply keep_foldl2 | apply keep_foldl1)
    | (intro t a ht; with_reducible (have _h : Keep K t := ht))
    | (intro t ht; with_reducible (have _h : Keep K t := ht))
    | lift_lets -underBinder
    | (intro u; first
        | (refine (?_ : Keep K u → _) ?_; pick_goal 2; simp only [u]; pick_goal 2; intro hu; clear_value u)
        | clear_value u | skip)
    | split)

theorem keep_logRebuilt {K : Kept} (hN : K.keeps = true) (s : State) (hs : Keep K s) :
    Keep K (State.logRebuilt s) := by
  unfold State.logRebuilt
  repeat' (first
    | (with_reducible first | assumption | apply keep_set | apply keep_ite | apply keep_ite_snd | apply keep_ite_fst | apply keepO_ite | apply keepOpt_ite | apply keep_foldl | apply keep_foldl2 | apply keep_foldl1 | refine keep_mNv _ _ hN ?_ (NvOk.mk rfl (List.prefix_refl _)) | refine keep_mNv _ _ hN ?_ (NvOk.mk rfl (List.prefix_append _ _)) | refine keep_mNv _ _ hN ?_ ?_ | exact NvOk.mk rfl (List.prefix_refl _) | apply nvOk_ite)
    | (intro t a ht; with_reducible (have _h : Keep K t := ht))
    | (intro t ht; with_reducible (have _h : Keep K t := ht))
    | lift_lets -underBinder
    | (intro u; first
        | (refine (?_ : Keep K u → _) ?_; pick_goal 2; simp only [u]; pick_goal 2; intro hu; clear_value u)
        | clear_value u | skip)
    | split)

theorem keep_rebuild6 {K : Kept} (hN : K.keeps = true) (s : State) (hs : Keep K s) :
    Keep K (State.rebuild6 s) := by
  unfold State.rebuild6
  repeat' (first
    | (with_reducible first | assumption | apply keep_logRebuilt | apply keep_mTal | apply keep_set)
    | (intro t ht; with_reducible (have _h : Keep K t := ht))
    | lift_lets -underBinder
    | (intro u; first
        | (refine (?_ : Keep K u → _) ?_; pick_goal 2; simp only [u]; pick_goal 2; intro hu; clear_value u)
        | clear_value u | skip))

theorem keep_execRebuildPhaseComplete {K : Kept} (hK : K.stores = true) (hN : K.keeps = true) (ms : Nat) (bad : List Nat) (s : State) (hs : Keep K s) :
    KeepO K (execRebuildPhaseComplete ms bad s) := by
  unfold execRebuildPhaseComplete
  repeat' (first
    | (with_reducible first | assumption | apply keep_rebuild1 | apply keep_rebuild2 | apply keep_rebuild3 | apply keep_rebuild4 | apply keep_rebuild5 | apply keep_rebuild6 | apply keep_wr | apply keep_wr | apply keep_ite | apply keepO_next | apply keep_ite_snd | apply keep_ite_fst | apply keepO_ite | apply keepOpt_ite)
    | (intro t ht; with_reducible (have _h : Keep K t := ht))
    | lift_lets -underBinder
    | (intro u; first
        | (refine (?_ : Keep K u → _) ?_; pick_goal 2; simp only [u]; pick_goal 2; intro hu; clear_value u)
        | clear_value u | skip)
    | split)

theorem keep_execRebuildTimerExpiry {K : Kept} (hN : K.keeps = true) (s : State) (hs : Keep K s) :
    KeepO K (execRebuildTimerExpiry s) := by
  unfold execRebuildTimerExpiry
  repeat' (first
    | (with_reducible first | assumption | apply keep_enterHalt | apply keep_wakeFall | apply keep_ite | apply keepO_next | apply keep_ite_snd | apply keep_ite_fst | apply keepO_ite | apply keepOpt_ite)
    | (intro t ht; with_reducible (have _h : Keep K t := ht))
    | (intro (_ : _); show Keep K _)
    | split)

theorem keep_bootModes {K : Kept} (hN : K.keeps = true) (s : State) (hs : Keep K s) :
    Keep K (State.bootModes s) := by
  unfold State.bootModes
  repeat' (first
    | (with_reducible first | assumption | apply keep_mDev | apply keep_modeActions | apply keep_recordNow | apply keep_wr | apply keep_wr | apply keep_ite | apply keep_ite_snd | apply keep_ite_fst | apply keepO_ite | apply keepOpt_ite)
    | (intro t ht; with_reducible (have _h : Keep K t := ht))
    | lift_lets -underBinder
    | (intro u; first
        | (refine (?_ : Keep K u → _) ?_; pick_goal 2; simp only [u]; pick_goal 2; intro hu; clear_value u)
        | clear_value u | skip)
    | split)

theorem keep_execRebuildComplete {K : Kept} (hN : K.keeps = true) (s : State) (hs : Keep K s) :
    KeepO K (execRebuildComplete s) := by
  unfold execRebuildComplete
  repeat' (first
    | (with_reducible first | assumption | apply keep_bootModes | apply keep_followFloor | apply keep_mBell | apply keep_mDev | apply keep_mInteg | apply keep_mPit | apply keep_mPort | apply keep_reckonSpare | apply keep_reckonWear | apply keep_retest | apply keep_serve | apply keep_setReserve | apply keep_startSanitize | apply keep_wr | apply keep_wr | apply keep_ite | apply keepO_next | apply keep_ite_snd | apply keep_ite_fst | apply keepO_ite | apply keepOpt_ite | apply keep_foldl | apply keep_foldl2 | apply keep_foldl1)
    | (intro t a ht; with_reducible (have _h : Keep K t := ht))
    | (intro t ht; with_reducible (have _h : Keep K t := ht))
    | lift_lets -underBinder
    | (intro u; first
        | (refine (?_ : Keep K u → _) ?_; pick_goal 2; simp only [u]; pick_goal 2; intro hu; clear_value u)
        | clear_value u | skip)
    | split)

theorem keep_execValidWalkComplete {K : Kept} (s : State) (hs : Keep K s) :
    KeepO K (execValidWalkComplete s) := by
  unfold execValidWalkComplete
  repeat' (first
    | (with_reducible first | assumption | apply keep_mBell | apply keep_mBlock | apply keep_mSw | apply keep_wr | apply keep_wr | apply keep_ite | apply keepO_next | apply keep_ite_snd | apply keep_ite_fst | apply keepO_ite | apply keepOpt_ite | apply keep_foldl | apply keep_foldl2 | apply keep_foldl1)
    | (intro t a ht; with_reducible (have _h : Keep K t := ht))
    | (intro t ht; with_reducible (have _h : Keep K t := ht))
    | lift_lets -underBinder
    | (intro u; first
        | (refine (?_ : Keep K u → _) ?_; pick_goal 2; simp only [u]; pick_goal 2; intro hu; clear_value u)
        | clear_value u | skip)
    | split)

end Sys2Proof.Laws
end

