-- ==== Sys2Proof/Laws/KeepInjection.lean ====
section
/-! SUPPORT. The operations of Machine/Injection.lean keep the queue and the canonical forms. -/

namespace Sys2Proof.Laws

open Sys2Proof Sys2Proof.Machine

set_option linter.unusedTactic false
set_option linter.unreachableTactic false
set_option linter.unusedVariables false

theorem keep_fireUp {K : Kept} (s : State) (p point sub : Nat) (act : State → State) (n : Nat)
    (hact : ∀ t, Keep K t → Keep K (act t)) (hs : Keep K s) : Keep K (s.fireUp p point sub act n) := by
  induction n generalizing s with
  | zero => exact hs
  | succ n ih =>
    rw [State.fireUp]
    have := keep_fire s p point (fun a _ => decide (a = sub)) hs
    split
    · exact ih _ (hact _ this)
    · exact this


theorem keep_evalNow {K : Kept} (hK : K.stores = true) (hN : K.keeps = true) (s : State) (p : Nat) (hs : Keep K s) :
    Keep K (State.evalNow s p) := by
  unfold State.evalNow
  repeat' (first
    | (with_reducible first | assumption | apply keep_deferRecord | apply keep_fireUp | apply keep_mgmtRestart | apply keep_record | apply keep_wdogFire | apply keep_ite | apply keep_ite_snd | apply keep_ite_fst | apply keepO_ite | apply keepOpt_ite)
    | (intro t ht; with_reducible (have _h : Keep K t := ht))
    | lift_lets -underBinder
    | (intro u; first
        | (refine (?_ : Keep K u → _) ?_; pick_goal 2; simp only [u]; pick_goal 2; intro hu; clear_value u)
        | clear_value u | skip)
    | split)

theorem keep_injField {K : Kept} (s : State) (who : Initiator) (p : Nat) (f : Field) (v : Nat) (hs : Keep K s) :
    Keep K (State.injField s who p f v) := by
  unfold State.injField
  repeat' (first
    | (with_reducible first | assumption | apply keep_rangeRecord | apply keep_wr | apply keep_wr | apply keep_ite | apply keep_ite_snd | apply keep_ite_fst | apply keepO_ite | apply keepOpt_ite)
    | (intro t ht; with_reducible (have _h : Keep K t := ht))
    | (intro (_ : _); show Keep K _)
    | split)

theorem keep_injArm {K : Kept} (hK : K.stores = true) (hN : K.keeps = true) (s : State) (who : Initiator) (p mode count : Nat) (hs : Keep K s) :
    Keep K (State.injArm s who p mode count) := by
  unfold State.injArm
  repeat' (first
    | (with_reducible first | assumption | apply keep_count | apply keep_evalNow | apply keep_injField | apply keep_mArmed | apply keep_record | apply keep_set | apply keep_wr | apply keep_wr | apply keep_ite | apply keep_ite_snd | apply keep_ite_fst | apply keepO_ite | apply keepOpt_ite)
    | (intro t ht; with_reducible (have _h : Keep K t := ht))
    | lift_lets -underBinder
    | (intro u; first
        | (refine (?_ : Keep K u → _) ?_; pick_goal 2; simp only [u]; pick_goal 2; intro hu; clear_value u)
        | clear_value u | skip)
    | split)

theorem keep_injAccess {K : Kept} (s : State) (who : Initiator) (p off : Nat) (f : State → State) (hs : Keep K s) (hf : ∀ (x0 : State), Keep K x0 → Keep K (f x0)) :
    Keep K (State.injAccess s who p off f) := by
  unfold State.injAccess
  repeat' (first
    | (with_reducible first | assumption | apply keep_access | apply keep_limFire | apply keep_refuse | apply hf | apply keep_ite | apply keep_ite_snd | apply keep_ite_fst | apply keepO_ite | apply keepOpt_ite)
    | (intro t ht; with_reducible (have _h : Keep K t := ht))
    | lift_lets -underBinder
    | (intro u; first
        | (refine (?_ : Keep K u → _) ?_; pick_goal 2; simp only [u]; pick_goal 2; intro hu; clear_value u)
        | clear_value u | skip)
    | split)

theorem keep_execInjArm {K : Kept} (hK : K.stores = true) (hN : K.keeps = true) (who : Initiator) (page mode count : Nat) (s : State) (hs : Keep K s) :
    KeepO K (execInjArm who page mode count s) := by
  unfold execInjArm
  repeat' (first
    | (with_reducible first | assumption | apply keep_count | apply keep_injAccess | apply keep_injArm | apply keep_ite | apply keepO_next | apply keep_ite_snd | apply keep_ite_fst | apply keepO_ite | apply keepOpt_ite)
    | (intro t ht; with_reducible (have _h : Keep K t := ht))
    | (intro (_ : _); show Keep K _)
    | split)

theorem keep_execInjDisarm {K : Kept} (who : Initiator) (page : Nat) (s : State) (hs : Keep K s) :
    KeepO K (execInjDisarm who page s) := by
  unfold execInjDisarm
  repeat' (first
    | (with_reducible first | assumption | apply keep_disarm | apply keep_injAccess | apply keep_ite | apply keepO_next | apply keep_ite_snd | apply keep_ite_fst | apply keepO_ite | apply keepOpt_ite)
    | (intro t ht; with_reducible (have _h : Keep K t := ht))
    | (intro (_ : _); show Keep K _)
    | split)

theorem keep_execDisarmAll {K : Kept} (who : Initiator) (s : State) (hs : Keep K s) :
    KeepO K (execDisarmAll who s) := by
  unfold execDisarmAll
  repeat' (first
    | (with_reducible first | assumption | apply keep_denyWrite | apply keep_disarmThose | apply keep_ite | apply keepO_next | apply keep_ite_snd | apply keep_ite_fst | apply keepO_ite | apply keepOpt_ite)
    | (intro t ht; with_reducible (have _h : Keep K t := ht))
    | (intro (_ : _); show Keep K _)
    | split)

end Sys2Proof.Laws
end

