-- ==== Sys2Proof/Laws/KeepJtag.lean ====
section
/-! SUPPORT. The operations of Machine/Jtag.lean keep the queue and the canonical forms. -/

namespace Sys2Proof.Laws

open Sys2Proof Sys2Proof.Machine

set_option linter.unusedTactic false
set_option linter.unreachableTactic false
set_option linter.unusedVariables false

theorem keep_tap {K : Kept} (s : State) (g : JtagSt → JtagSt) (hs : Keep K s) :
    KeepO K (State.tap s g) := by
  unfold State.tap
  repeat' (first
    | (with_reducible first | assumption | apply keep_mJtag | apply keep_ite | apply keepO_next | apply keep_ite_snd | apply keep_ite_fst | apply keepO_ite | apply keepOpt_ite)
    | (intro t ht; with_reducible (have _h : Keep K t := ht))
    | (intro (_ : _); show Keep K _)
    | split)

theorem keep_execExtest {K : Kept} (cells : List Nat) (s : State) (hs : Keep K s) :
    KeepO K (execExtest cells s) := by
  unfold execExtest
  repeat' (first
    | (with_reducible first | assumption | apply keep_tap | apply keep_ite | apply keep_ite_snd | apply keep_ite_fst | apply keepO_ite | apply keepOpt_ite)
    | (intro t ht; with_reducible (have _h : Keep K t := ht))
    | (intro (_ : _); show Keep K _)
    | split)

theorem keep_execSamplePreload {K : Kept} (captured preload : List Nat) (s : State) (hs : Keep K s) :
    KeepO K (execSamplePreload captured preload s) := by
  unfold execSamplePreload
  repeat' (first
    | (with_reducible first | assumption | apply keep_tap | apply keep_ite | apply keep_ite_snd | apply keep_ite_fst | apply keepO_ite | apply keepOpt_ite)
    | (intro t ht; with_reducible (have _h : Keep K t := ht))
    | (intro (_ : _); show Keep K _)
    | split)

theorem keep_execIdcode {K : Kept} (s : State) (hs : Keep K s) :
    KeepO K (execIdcode s) := by
  unfold execIdcode
  repeat' (first
    | (with_reducible first | assumption | apply keep_tap)
    | (intro t ht; with_reducible (have _h : Keep K t := ht)))

theorem keep_execBypass {K : Kept} (code : Nat) (s : State) (hs : Keep K s) :
    KeepO K (execBypass code s) := by
  unfold execBypass
  repeat' (first
    | (with_reducible first | assumption | apply keep_tap)
    | (intro t ht; with_reducible (have _h : Keep K t := ht)))

theorem keep_sync {K : Kept} (s : State) (hs : Keep K s) :
    Keep K (State.sync s) := by
  unfold State.sync
  repeat' (first
    | (with_reducible first | assumption | apply keep_mJtag)
    | (intro t ht; with_reducible (have _h : Keep K t := ht)))

theorem keep_execKtrCfg {K : Kept} (value : Nat) (s : State) (hs : Keep K s) :
    KeepO K (execKtrCfg value s) := by
  unfold execKtrCfg
  repeat' (first
    | (with_reducible first | assumption | apply keep_mJtag | apply keep_sync | apply keep_ite | apply keepO_next | apply keep_ite_snd | apply keep_ite_fst | apply keepO_ite | apply keepOpt_ite)
    | (intro t ht; with_reducible (have _h : Keep K t := ht))
    | lift_lets -underBinder
    | (intro u; first
        | (refine (?_ : Keep K u → _) ?_; pick_goal 2; simp only [u]; pick_goal 2; intro hu; clear_value u)
        | clear_value u | skip)
    | split)

theorem keep_execKtrStat {K : Kept} (s : State) (hs : Keep K s) :
    KeepO K (execKtrStat s) := by
  unfold execKtrStat
  repeat' (first
    | (with_reducible first | assumption | apply keep_tap)
    | (intro t ht; with_reducible (have _h : Keep K t := ht)))

theorem keep_execTrstNAssert {K : Kept} (s : State) (hs : Keep K s) :
    KeepO K (execTrstNAssert s) := by
  unfold execTrstNAssert
  repeat' (first
    | (with_reducible first | assumption | apply keep_tap)
    | (intro t ht; with_reducible (have _h : Keep K t := ht)))

theorem keep_execKtrTrigIn {K : Kept} (s : State) (hs : Keep K s) :
    KeepO K (execKtrTrigIn s) := by
  unfold execKtrTrigIn
  repeat' (first
    | (with_reducible first | assumption | apply keep_record | apply keep_ite | apply keepO_next | apply keep_ite_snd | apply keep_ite_fst | apply keepO_ite | apply keepOpt_ite)
    | (intro t ht; with_reducible (have _h : Keep K t := ht))
    | (intro (_ : _); show Keep K _)
    | split)

theorem keep_execKtrSync {K : Kept} (s : State) (hs : Keep K s) :
    KeepO K (execKtrSync s) := by
  unfold execKtrSync
  repeat' (first
    | (with_reducible first | assumption | apply keep_sync | apply keep_ite | apply keepO_next | apply keep_ite_snd | apply keep_ite_fst | apply keepO_ite | apply keepOpt_ite)
    | (intro t ht; with_reducible (have _h : Keep K t := ht))
    | (intro (_ : _); show Keep K _)
    | split)

end Sys2Proof.Laws
end

