-- ==== Sys2Proof/Laws/KeepRegisters.lean ====
section
/-! SUPPORT. The operations of Machine/Registers.lean keep the queue and the canonical forms. -/

namespace Sys2Proof.Laws

open Sys2Proof Sys2Proof.Machine

set_option linter.unusedTactic false
set_option linter.unreachableTactic false
set_option linter.unusedVariables false

theorem keep_winRead {K : Kept} (s : State) (who : Initiator) (v : Nat) (hs : Keep K s) : Keep K (s.winAccess who false v) := by
  unfold State.winAccess
  simp only [Bool.false_eq_true, false_and, if_false]
  have h := keep_limFire s 14 hs
  generalize s.limFire 14 = f at h ⊢
  generalize (if f.1 = true then none else f.2.winCrate) = o
  cases o with
  | none => exact keep_answer _ _ (keep_wr _ _ _ _ _ (keep_refuse _ _ _ _ _ _ (keep_count _ _ _ _ _ h)))
  | some n => exact keep_wr _ _ _ _ _ (keep_answer _ _ (keep_wr _ _ _ _ _ (keep_wr _ _ _ _ _ h)))


theorem keep_pageFault {K : Kept} (s : State) (who : Initiator) (p off width : Nat) (write : Bool) (hs : Keep K s) :
    Keep K (State.pageFault s who p off width write) := by
  unfold State.pageFault
  repeat' (first
    | (with_reducible first | assumption | apply keep_access | apply keep_busError | apply keep_record | apply keep_ite | apply keep_ite_snd | apply keep_ite_fst | apply keepO_ite | apply keepOpt_ite)
    | (intro t ht; with_reducible (have _h : Keep K t := ht))
    | lift_lets -underBinder
    | (intro u; first
        | (refine (?_ : Keep K u → _) ?_; pick_goal 2; simp only [u]; pick_goal 2; intro hu; clear_value u)
        | clear_value u | skip)
    | split)

theorem keep_ownCheck {K : Kept} (s : State) (who : Initiator) (p off : Nat) (hs : Keep K s) :
    Keep K (State.ownCheck s who p off).2 := by
  unfold State.ownCheck
  repeat' (first
    | (with_reducible first | assumption | apply keep_isoRefuse | apply keep_limFire | apply keep_porterIso | apply keep_ite | apply keep_ite_snd | apply keep_ite_fst | apply keepO_ite | apply keepOpt_ite)
    | (intro t ht; with_reducible (have _h : Keep K t := ht))
    | lift_lets -underBinder
    | (intro u; first
        | (refine (?_ : Keep K u → _) ?_; pick_goal 2; simp only [u]; pick_goal 2; intro hu; clear_value u)
        | clear_value u | skip)
    | split)

theorem keep_readClears {K : Kept} (s : State) (who : Initiator) (p off : Nat) (hs : Keep K s) :
    Keep K (State.readClears s who p off) := by
  unfold State.readClears
  repeat' (first
    | (with_reducible first | assumption | apply keep_wr | apply keep_wr | apply keep_ite | apply keep_ite_snd | apply keep_ite_fst | apply keepO_ite | apply keepOpt_ite | apply keep_foldl | apply keep_foldl2 | apply keep_foldl1)
    | (intro t a ht; with_reducible (have _h : Keep K t := ht))
    | (intro t ht; with_reducible (have _h : Keep K t := ht))
    | lift_lets -underBinder
    | (intro u; first
        | (refine (?_ : Keep K u → _) ?_; pick_goal 2; simp only [u]; pick_goal 2; intro hu; clear_value u)
        | clear_value u | skip)
    | split)

theorem keep_readWord {K : Kept} (s : State) (who : Initiator) (woke : Bool) (p off : Nat) (hs : Keep K s) :
    Keep K (s.readWord who woke p off).2 := by
  unfold State.readWord
  dsimp only
  apply keep_free
  repeat' (first
    | (with_reducible first | assumption | apply keep_win0 | apply keep_win15 | apply keep_readClears | apply keep_mBus | apply keep_ite)
    | (intro (_ : _); show Keep K _))


theorem keep_readReg {K : Kept} (s : State) (who : Initiator) (p off : Nat) (hs : Keep K s) : Keep K (s.readReg who p off).st := by
  unfold State.readReg
  have ho := keep_ownCheck (s.crossTo (initIsland who) p) who p off (keep_crossTo _ _ _ hs)
  split
  · exact keep_pageFault _ _ _ _ _ _ hs
  split
  · exact hs
  split
  · exact keep_offAccess _ _ _ _ _ hs
  dsimp only
  split
  · exact ho
  split
  · exact keep_winRead _ _ _ ho
  · exact keep_readWord _ _ _ _ _ ho

theorem keep_ReadResult_toBus {K : Kept} (r : ReadResult) (who : Initiator) (hr : Keep K r.st) : Keep K (r.toBus who) := by
  unfold ReadResult.toBus
  apply keep_ite
  · intro _; exact keep_busError _ hr
  · intro _; exact keep_answer _ _ hr


theorem keep_execRcFieldRead {K : Kept} (who : Initiator) (addr : Nat) (s : State) (hs : Keep K s) :
    KeepO K (execRcFieldRead who addr s) := by
  unfold execRcFieldRead
  repeat' (first
    | (with_reducible first | assumption | apply keep_ReadResult_toBus | apply keep_readReg | apply keepO_next)
    | (intro t ht; with_reducible (have _h : Keep K t := ht))
    | split)

theorem keep_execLoWordRead {K : Kept} (who : Initiator) (addr : Nat) (s : State) (hs : Keep K s) :
    KeepO K (execLoWordRead who addr s) := by
  unfold execLoWordRead
  repeat' (first
    | (with_reducible first | assumption | apply keep_ReadResult_toBus | apply keep_readReg | apply keepO_next)
    | (intro t ht; with_reducible (have _h : Keep K t := ht))
    | split)

theorem keep_execRegisterReadRefused {K : Kept} (who : Initiator) (addr : Nat) (s : State) (hs : Keep K s) :
    KeepO K (execRegisterReadRefused who addr s) := by
  unfold execRegisterReadRefused
  repeat' (first
    | (with_reducible first | assumption | apply keep_ReadResult_toBus | apply keep_readReg | apply keep_ite | apply keepO_next | apply keep_ite_snd | apply keep_ite_fst | apply keepO_ite | apply keepOpt_ite)
    | (intro t ht; with_reducible (have _h : Keep K t := ht))
    | lift_lets -underBinder
    | (intro u; first
        | (refine (?_ : Keep K u → _) ?_; pick_goal 2; simp only [u]; pick_goal 2; intro hu; clear_value u)
        | clear_value u | skip)
    | split)

theorem keep_execPageAccessFault {K : Kept} (who : Initiator) (addr width : Nat) (write : Bool) (s : State) (hs : Keep K s) :
    KeepO K (execPageAccessFault who addr width write s) := by
  unfold execPageAccessFault
  repeat' (first
    | (with_reducible first | assumption | apply keep_pageFault | apply keep_ite | apply keepO_next | apply keep_ite_snd | apply keep_ite_fst | apply keepO_ite | apply keepOpt_ite)
    | (intro t ht; with_reducible (have _h : Keep K t := ht))
    | (intro (_ : _); show Keep K _)
    | split)

theorem keep_deny {K : Kept} (s : State) (who : Initiator) (p off : Nat) (hs : Keep K s) :
    Keep K (State.deny s who p off) := by
  unfold State.deny
  repeat' (first
    | (with_reducible first | assumption | apply keep_denyUnder | apply keep_ite | apply keep_ite_snd | apply keep_ite_fst | apply keepO_ite | apply keepOpt_ite)
    | (intro t ht; with_reducible (have _h : Keep K t := ht))
    | (intro (_ : _); show Keep K _)
    | split)

theorem keep_lockedWrite {K : Kept} (s : State) (who : Initiator) (p off value : Nat) (hs : Keep K s) :
    Keep K (State.lockedWrite s who p off value) := by
  unfold State.lockedWrite
  repeat' (with_reducible first | assumption | apply keep_count | apply keep_raise | apply keep_record)

theorem keep_putField {K : Kept} (s : State) (who : Initiator) (p word : Nat) (f : Field) (hs : Keep K s) :
    Keep K (State.putField s who p word f) := by
  unfold State.putField
  repeat' (first
    | (with_reducible first | assumption | apply keep_deny | apply keep_lockedWrite | apply keep_rangeRecord | apply keep_wr | apply keep_wr | apply keep_ite | apply keep_ite_snd | apply keep_ite_fst | apply keepO_ite | apply keepOpt_ite)
    | (intro t ht; with_reducible (have _h : Keep K t := ht))
    | lift_lets -underBinder
    | (intro u; first
        | (refine (?_ : Keep K u → _) ?_; pick_goal 2; simp only [u]; pick_goal 2; intro hu; clear_value u)
        | clear_value u | skip)
    | split)

theorem keep_putWord {K : Kept} (s : State) (who : Initiator) (p off word : Nat) (hs : Keep K s) :
    Keep K (State.putWord s who p off word) := by
  unfold State.putWord
  repeat' (first
    | (with_reducible first | assumption | apply keep_putField | apply keep_foldl | apply keep_foldl2 | apply keep_foldl1)
    | (intro t a ht; with_reducible (have _h : Keep K t := ht))
    | (intro t ht; with_reducible (have _h : Keep K t := ht)))

theorem keep_softClear {K : Kept} (s : State) (who : Initiator) (p : Nat) (hs : Keep K s) :
    Keep K (State.softClear s who p) := by
  unfold State.softClear
  repeat' (first
    | (with_reducible first | assumption | apply keep_deny | apply keep_wr | apply keep_wr | apply keep_ite | apply keep_ite_snd | apply keep_ite_fst | apply keepO_ite | apply keepOpt_ite)
    | (intro t ht; with_reducible (have _h : Keep K t := ht))
    | (intro (_ : _); show Keep K _)
    | split)

theorem keep_pendClear {K : Kept} (s : State) (who : Initiator) (p mask : Nat) (hs : Keep K s) :
    Keep K (State.pendClear s who p mask) := by
  unfold State.pendClear
  repeat' (first
    | (with_reducible first | assumption | apply keep_deny | apply keep_wr | apply keep_wr | apply keep_ite | apply keep_ite_snd | apply keep_ite_fst | apply keepO_ite | apply keepOpt_ite)
    | (intro t ht; with_reducible (have _h : Keep K t := ht))
    | (intro (_ : _); show Keep K _)
    | split)

theorem keep_forceEvents {K : Kept} (s : State) (who : Initiator) (p mask : Nat) (hs : Keep K s) :
    Keep K (State.forceEvents s who p mask) := by
  unfold State.forceEvents
  repeat' (first
    | (with_reducible first | assumption | apply keep_deny | apply keep_raise | apply keep_ite | apply keep_ite_snd | apply keep_ite_fst | apply keepO_ite | apply keepOpt_ite | apply keep_foldl | apply keep_foldl2 | apply keep_foldl1)
    | (intro t a ht; with_reducible (have _h : Keep K t := ht))
    | (intro t ht; with_reducible (have _h : Keep K t := ht))
    | (intro (_ : _); show Keep K _)
    | split)

theorem keep_lockPage {K : Kept} (s : State) (who : Initiator) (p : Nat) (hs : Keep K s) :
    Keep K (State.lockPage s who p) := by
  unfold State.lockPage
  repeat' (first
    | (with_reducible first | assumption | apply keep_deny | apply keep_wr | apply keep_wr | apply keep_ite | apply keep_ite_snd | apply keep_ite_fst | apply keepO_ite | apply keepOpt_ite)
    | (intro t ht; with_reducible (have _h : Keep K t := ht))
    | (intro (_ : _); show Keep K _)
    | split)

theorem keep_selectEvent {K : Kept} (s : State) (who : Initiator) (p event : Nat) (hs : Keep K s) :
    Keep K (State.selectEvent s who p event) := by
  unfold State.selectEvent
  repeat' (first
    | (with_reducible first | assumption | apply keep_deny | apply keep_wr | apply keep_wr | apply keep_ite | apply keep_ite_snd | apply keep_ite_fst | apply keepO_ite | apply keepOpt_ite)
    | (intro t ht; with_reducible (have _h : Keep K t := ht))
    | (intro (_ : _); show Keep K _)
    | split)

theorem keep_pageVote {K : Kept} (s : State) (who : Initiator) (p : Nat) (vote : Bool) (hs : Keep K s) :
    Keep K (State.pageVote s who p vote) := by
  unfold State.pageVote
  repeat' (first
    | (with_reducible first | assumption | apply keep_deny | apply keep_voteWrite | apply keep_ite | apply keep_ite_snd | apply keep_ite_fst | apply keepO_ite | apply keepOpt_ite)
    | (intro t ht; with_reducible (have _h : Keep K t := ht))
    | lift_lets -underBinder
    | (intro u; first
        | (refine (?_ : Keep K u → _) ?_; pick_goal 2; simp only [u]; pick_goal 2; intro hu; clear_value u)
        | clear_value u | skip)
    | split)

theorem keep_onOwned {K : Kept} (s : State) (who : Initiator) (p off : Nat) (f : State → State) (hs : Keep K s) (hf : ∀ (x0 : State), Keep K x0 → Keep K (f x0)) :
    Keep K (State.onOwned s who p off f) := by
  unfold State.onOwned
  repeat' (first
    | (with_reducible first | assumption | apply keep_count | apply keep_ownCheck | apply hf | apply keep_ite | apply keep_ite_snd | apply keep_ite_fst | apply keepO_ite | apply keepOpt_ite)
    | (intro t ht; with_reducible (have _h : Keep K t := ht))
    | lift_lets -underBinder
    | (intro u; first
        | (refine (?_ : Keep K u → _) ?_; pick_goal 2; simp only [u]; pick_goal 2; intro hu; clear_value u)
        | clear_value u | skip)
    | split)

theorem keep_onCommon {K : Kept} (s : State) (who : Initiator) (p off : Nat) (f : State → State) (hs : Keep K s) (hf : ∀ (x0 : State), Keep K x0 → Keep K (f x0)) :
    Keep K (State.onCommon s who p off f) := by
  unfold State.onCommon
  repeat' (first
    | (with_reducible first | assumption | apply keep_access | apply keep_onOwned | apply keep_pageFault | apply hf | apply keep_ite | apply keep_ite_snd | apply keep_ite_fst | apply keepO_ite | apply keepOpt_ite)
    | (intro t ht; with_reducible (have _h : Keep K t := ht))
    | (intro (_ : _); show Keep K _)
    | split)

theorem keep_execSoftClear {K : Kept} (who : Initiator) (page : Nat) (s : State) (hs : Keep K s) :
    KeepO K (execSoftClear who page s) := by
  unfold execSoftClear
  repeat' (first
    | (with_reducible first | assumption | apply keep_onCommon | apply keep_softClear | apply keepO_next)
    | (intro t ht; with_reducible (have _h : Keep K t := ht)))

theorem keep_execEvtPendClear {K : Kept} (who : Initiator) (page mask : Nat) (s : State) (hs : Keep K s) :
    KeepO K (execEvtPendClear who page mask s) := by
  unfold execEvtPendClear
  repeat' (first
    | (with_reducible first | assumption | apply keep_onCommon | apply keep_pendClear | apply keepO_next)
    | (intro t ht; with_reducible (have _h : Keep K t := ht)))

theorem keep_execEvtForce {K : Kept} (who : Initiator) (page mask : Nat) (s : State) (hs : Keep K s) :
    KeepO K (execEvtForce who page mask s) := by
  unfold execEvtForce
  repeat' (first
    | (with_reducible first | assumption | apply keep_forceEvents | apply keep_onCommon | apply keepO_next)
    | (intro t ht; with_reducible (have _h : Keep K t := ht)))

theorem keep_execPageLock {K : Kept} (who : Initiator) (page : Nat) (s : State) (hs : Keep K s) :
    KeepO K (execPageLock who page s) := by
  unfold execPageLock
  repeat' (first
    | (with_reducible first | assumption | apply keep_lockPage | apply keep_onCommon | apply keepO_next)
    | (intro t ht; with_reducible (have _h : Keep K t := ht)))

theorem keep_execCntSelWrite {K : Kept} (who : Initiator) (page event : Nat) (s : State) (hs : Keep K s) :
    KeepO K (execCntSelWrite who page event s) := by
  unfold execCntSelWrite
  repeat' (first
    | (with_reducible first | assumption | apply keep_onCommon | apply keep_selectEvent | apply keepO_next)
    | (intro t ht; with_reducible (have _h : Keep K t := ht)))

theorem keep_execPageCtrlVote {K : Kept} (who : Initiator) (page : Nat) (vote : Bool) (s : State) (hs : Keep K s) :
    KeepO K (execPageCtrlVote who page vote s) := by
  unfold execPageCtrlVote
  repeat' (first
    | (with_reducible first | assumption | apply keep_onCommon | apply keep_pageVote | apply keepO_next)
    | (intro t ht; with_reducible (have _h : Keep K t := ht)))

theorem keep_commonWrite {K : Kept} (s : State) (who : Initiator) (p off v : Nat) (hs : Keep K s) :
    Keep K (State.commonWrite s who p off v) := by
  unfold State.commonWrite
  repeat' (first
    | (with_reducible first | assumption | apply keep_forceEvents | apply keep_lockPage | apply keep_lockedWrite | apply keep_pageVote | apply keep_pendClear | apply keep_putField | apply keep_putWord | apply keep_selectEvent | apply keep_softClear | apply keep_ite | apply keep_ite_snd | apply keep_ite_fst | apply keepO_ite | apply keepOpt_ite)
    | (intro t ht; with_reducible (have _h : Keep K t := ht))
    | lift_lets -underBinder
    | (intro u; first
        | (refine (?_ : Keep K u → _) ?_; pick_goal 2; simp only [u]; pick_goal 2; intro hu; clear_value u)
        | clear_value u | skip)
    | split)

theorem keep_injSelect {K : Kept} (s : State) (who : Initiator) (p v : Nat) (hs : Keep K s) :
    Keep K (State.injSelect s who p v) := by
  unfold State.injSelect
  repeat' (first
    | (with_reducible first | assumption | apply keep_count | apply keep_deny | apply keep_putWord | apply keep_ite | apply keep_ite_snd | apply keep_ite_fst | apply keepO_ite | apply keepOpt_ite)
    | (intro t ht; with_reducible (have _h : Keep K t := ht))
    | (intro (_ : _); show Keep K _)
    | split)

theorem keep_injControl {K : Kept} (hK : K.stores = true) (hN : K.keeps = true) (s : State) (who : Initiator) (p v : Nat) (hs : Keep K s) :
    Keep K (State.injControl s who p v) := by
  unfold State.injControl
  repeat' (first
    | (with_reducible first | assumption | apply keep_disarm | apply keep_injArm | apply keep_injField | apply keep_ite | apply keep_ite_snd | apply keep_ite_fst | apply keepO_ite | apply keepOpt_ite)
    | (intro t ht; with_reducible (have _h : Keep K t := ht))
    | (intro (_ : _); show Keep K _)
    | split)

theorem keep_windowWrite {K : Kept} (s : State) (who : Initiator) (off v : Nat) (hs : Keep K s) :
    Keep K (State.windowWrite s who off v) := by
  unfold State.windowWrite
  repeat' (first
    | (with_reducible first | assumption | apply keep_pitchResult | apply keep_putWord | apply keep_ite | apply keep_ite_snd | apply keep_ite_fst | apply keepO_ite | apply keepOpt_ite)
    | (intro t ht; with_reducible (have _h : Keep K t := ht))
    | lift_lets -underBinder
    | (intro u; first
        | (refine (?_ : Keep K u → _) ?_; pick_goal 2; simp only [u]; pick_goal 2; intro hu; clear_value u)
        | clear_value u | skip)
    | split)

theorem keep_openWrite {K : Kept} (s : State) (who : Initiator) (v : Nat) (hs : Keep K s) :
    Keep K (State.openWrite s who v) := by
  unfold State.openWrite
  repeat' (first
    | (with_reducible first | assumption | apply keep_putWord | apply keep_rangeRecord | apply keep_ite | apply keep_ite_snd | apply keep_ite_fst | apply keepO_ite | apply keepOpt_ite | apply keep_foldl | apply keep_foldl2 | apply keep_foldl1)
    | (intro t a ht; with_reducible (have _h : Keep K t := ht))
    | (intro t ht; with_reducible (have _h : Keep K t := ht))
    | lift_lets -underBinder
    | (intro u; first
        | (refine (?_ : Keep K u → _) ?_; pick_goal 2; simp only [u]; pick_goal 2; intro hu; clear_value u)
        | clear_value u | skip)
    | split)

theorem keep_chConfig {K : Kept} (s : State) (who : Initiator) (p v : Nat) (hs : Keep K s) :
    Keep K (State.chConfig s who p v) := by
  unfold State.chConfig
  repeat' (first
    | (with_reducible first | assumption | apply keep_chRest | apply keep_porterIso | apply keep_putField | apply keep_rangeRecord | apply keep_wr | apply keep_wr | apply keep_ite | apply keep_ite_snd | apply keep_ite_fst | apply keepO_ite | apply keepOpt_ite)
    | (intro t ht; with_reducible (have _h : Keep K t := ht))
    | lift_lets -underBinder
    | (intro u; first
        | (refine (?_ : Keep K u → _) ?_; pick_goal 2; simp only [u]; pick_goal 2; intro hu; clear_value u)
        | clear_value u | skip)
    | split)

theorem keep_chanWrite {K : Kept} (hK : K.stores = true) (s : State) (who : Initiator) (p off v : Nat) (hs : Keep K s) :
    Keep K (State.chanWrite s who p off v) := by
  unfold State.chanWrite
  repeat' (first
    | (with_reducible first | assumption | apply keep_addToken | apply keep_chConfig | apply keep_chEnable | apply keep_chRest | apply keep_popRecord | apply keep_porterIso | apply keep_putWord | apply keep_stopChan | apply keep_ite | apply keep_ite_snd | apply keep_ite_fst | apply keepO_ite | apply keepOpt_ite)
    | (intro t ht; with_reducible (have _h : Keep K t := ht))
    | lift_lets -underBinder
    | (intro u; first
        | (refine (?_ : Keep K u → _) ?_; pick_goal 2; simp only [u]; pick_goal 2; intro hu; clear_value u)
        | clear_value u | skip)
    | split)

theorem keep_timerWrite {K : Kept} (s : State) (who : Initiator) (off v : Nat) (hs : Keep K s) :
    Keep K (State.timerWrite s who off v) := by
  unfold State.timerWrite
  repeat' (first
    | (with_reducible first | assumption | apply keep_mPor | apply keep_porterIso | apply keep_putWord | apply keep_set | apply keep_ite | apply keep_ite_snd | apply keep_ite_fst | apply keepO_ite | apply keepOpt_ite)
    | (intro t ht; with_reducible (have _h : Keep K t := ht))
    | lift_lets -underBinder
    | (intro u; first
        | (refine (?_ : Keep K u → _) ?_; pick_goal 2; simp only [u]; pick_goal 2; intro hu; clear_value u)
        | clear_value u | skip)
    | split)

theorem keep_compareWrite {K : Kept} (s : State) (who : Initiator) (off v : Nat) (hs : Keep K s) :
    Keep K (State.compareWrite s who off v) := by
  unfold State.compareWrite
  repeat' (first
    | (with_reducible first | assumption | apply keep_deny | apply keep_mCore | apply keep_putWord | apply keep_ite | apply keep_ite_snd | apply keep_ite_fst | apply keepO_ite | apply keepOpt_ite)
    | (intro t ht; with_reducible (have _h : Keep K t := ht))
    | lift_lets -underBinder
    | (intro u; first
        | (refine (?_ : Keep K u → _) ?_; pick_goal 2; simp only [u]; pick_goal 2; intro hu; clear_value u)
        | clear_value u | skip)
    | split)

theorem keep_plainWrite {K : Kept} (hK : K.stores = true) (s : State) (who : Initiator) (p off v : Nat) (hs : Keep K s) :
    Keep K (State.plainWrite s who p off v) := by
  unfold State.plainWrite
  repeat' (first
    | (with_reducible first | assumption | apply keep_chanWrite | apply keep_commonWrite | apply keep_compareWrite | apply keep_limFire | apply keep_openWrite | apply keep_putWord | apply keep_refuse | apply keep_timerWrite | apply keep_windowWrite | apply keep_ite | apply keep_ite_snd | apply keep_ite_fst | apply keepO_ite | apply keepOpt_ite)
    | (intro t ht; with_reducible (have _h : Keep K t := ht))
    | lift_lets -underBinder
    | (intro u; first
        | (refine (?_ : Keep K u → _) ?_; pick_goal 2; simp only [u]; pick_goal 2; intro hu; clear_value u)
        | clear_value u | skip)
    | split)

theorem keep_after {K : Kept} (s : State) (o : Host.Outcome State Fault Refusal) (ho : KeepO K o) (hs : Keep K s) : Keep K (after s o) := by
  cases o with
  | next t => exact ho.get t rfl
  | fault _ => exact hs
  | refused _ => exact hs


theorem keep_commitWrite {K : Kept} (hN : K.keeps = true) (s : State) (who : Initiator) (v : Nat) (hs : Keep K s) :
    Keep K (State.commitWrite s who v) := by
  unfold State.commitWrite
  repeat' (first
    | (with_reducible first | assumption | apply keep_after | apply keep_commitGo | apply keep_execCommitAction000b | apply keep_execCommitAction001b | apply keep_execCommitAction010b | apply keep_execCommitAction011b | apply keep_putField | apply keep_ite | apply keep_ite_snd | apply keep_ite_fst | apply keepO_ite | apply keepOpt_ite)
    | (intro t ht; with_reducible (have _h : Keep K t := ht))
    | lift_lets -underBinder
    | (intro u; first
        | (refine (?_ : Keep K u → _) ?_; pick_goal 2; simp only [u]; pick_goal 2; intro hu; clear_value u)
        | clear_value u | skip)
    | split)

theorem keep_wayWrite {K : Kept} (s : State) (who : Initiator) (v : Nat) (hs : Keep K s) :
    Keep K (State.wayWrite s who v) := by
  unfold State.wayWrite
  repeat' (first
    | (with_reducible first | assumption | apply keep_after | apply keep_execWayPowerOff | apply keep_execWayPowerOn | apply keep_ite | apply keep_ite_snd | apply keep_ite_fst | apply keepO_ite | apply keepOpt_ite | apply keep_foldl | apply keep_foldl2 | apply keep_foldl1)
    | (intro t a ht; with_reducible (have _h : Keep K t := ht))
    | (intro t ht; with_reducible (have _h : Keep K t := ht))
    | lift_lets -underBinder
    | (intro u; first
        | (refine (?_ : Keep K u → _) ?_; pick_goal 2; simp only [u]; pick_goal 2; intro hu; clear_value u)
        | clear_value u | skip)
    | split)

theorem keep_rowWrite {K : Kept} (hK : K.stores = true) (hN : K.keeps = true) (s : State) (who : Initiator) (p off v : Nat) (hs : Keep K s) :
    KeepOpt K (State.rowWrite s who p off v) := by
  unfold State.rowWrite
  dsimp only
  repeat' (first
    | (with_reducible assumption)
    | (with_reducible first | apply keep_after | apply keep_commitWrite | apply keep_execActReady | apply keep_execAdmCplGo | apply keep_execAdmTake | apply keep_execCacheDisable | apply keep_execCacheEnable | apply keep_execCixProbeGo | apply keep_execClear | apply keep_execCoreRstGo | apply keep_execCurCmdNewest | apply keep_execCurCmdOldest | apply keep_execDisarmAll | apply keep_execDvfsReq | apply keep_execFaultRelease | apply keep_execFlCmdErase | apply keep_execFlCmdProgram | apply keep_execFwPost | apply keep_execGenerate | apply keep_execHaltCtrlOrderly | apply keep_execHaltCtrlRestart | apply keep_execJobAbort | apply keep_execJobGo | apply keep_execJobRestore | apply keep_execJobSave | apply keep_execLendGo | apply keep_execLoadPlain | apply keep_execLoadWrapped | apply keep_execLockApply | apply keep_execLogCtrlFreeze | apply keep_execMediaKeyGenerate | apply keep_execMgtVoteWrite | apply keep_execModeReq | apply keep_execMwdogKick | apply keep_execNsCmdDeallocAll | apply keep_execNsCmdInit | apply keep_execNsCmdRelease | apply keep_execOwnerLockWrite | apply keep_execPieceReport | apply keep_execPitchCmdLoad | apply keep_execPitchCmdRent | apply keep_execPitchCmdReturn | apply keep_execPitchCmdTest | apply keep_execPolVoteWrite | apply keep_execPumpWrite | apply keep_execQbCfgWrite | apply keep_execRangeClean | apply keep_execRangeCleanInvalidate | apply keep_execRangeInvalidate | apply keep_execRangePrefetch | apply keep_execRecCmdBegin | apply keep_execRecCmdCancel | apply keep_execRecCmdEnd | apply keep_execReturnHandle | apply keep_execSweepCtrlResume | apply keep_execTallyClr | apply keep_execVictimName | apply keep_execWallSetHi | apply keep_execWdogKick | apply keep_execWinDataAccess | apply keep_injAccess | apply keep_injControl | apply keep_injSelect | apply keep_wayWrite | apply keep_wr | apply keep_wr | apply keep_ite | apply keep_ite_snd | apply keep_ite_fst | apply keepO_ite | apply keepOpt_ite | apply keepOpt_none | apply keepOpt_some | apply keepOpt_getD)
    | (intro t a ht; with_reducible (have _h : Keep K t.2 := ht))
    | (intro t a ht; with_reducible (have _h : Keep K t.1 := ht))
    | (intro t a ht; with_reducible (have _h : Keep K t := ht))
    | (intro t ht; with_reducible (have _h : Keep K t := ht))
    | lift_lets -underBinder
    | (intro u; first
        | (refine (?_ : Keep K u → _) ?_; pick_goal 2; simp only [u]; pick_goal 2; intro hu; clear_value u)
        | (refine (?_ : Keep K u.2 → _) ?_; pick_goal 2; simp only [u]; pick_goal 2; intro hu; clear_value u)
        | (refine (?_ : Keep K u.1 → _) ?_; pick_goal 2; simp only [u]; pick_goal 2; intro hu; clear_value u)
        | (refine (?_ : Keep K u.st → _) ?_; pick_goal 2; simp only [u]; pick_goal 2; intro hu; clear_value u)
        | clear_value u | skip)
    | split
    | (with_reducible refine keepOpt_elim ?_ (by assumption))
    | (intro t ht; with_reducible (have _h : Keep K t := ht))
    | (intro c t ht; with_reducible (have _h : Keep K t := ht))
    | dsimp -zeta only [id])

theorem keep_writeReg {K : Kept} (hK : K.stores = true) (hN : K.keeps = true) (s : State) (who : Initiator) (p off v : Nat) (hs : Keep K s) :
    Keep K (State.writeReg s who p off v) := by
  unfold State.writeReg
  repeat' (first
    | (with_reducible assumption)
    | (with_reducible first | apply keep_access | apply keep_onOwned | apply keep_pageFault | apply keep_plainWrite | apply keep_rowWrite | apply keep_ite | apply keep_ite_snd | apply keep_ite_fst | apply keepO_ite | apply keepOpt_ite | apply keepOpt_none | apply keepOpt_some | apply keepOpt_getD)
    | (intro t a ht; with_reducible (have _h : Keep K t.2 := ht))
    | (intro t a ht; with_reducible (have _h : Keep K t.1 := ht))
    | (intro t a ht; with_reducible (have _h : Keep K t := ht))
    | (intro t ht; with_reducible (have _h : Keep K t := ht))
    | (intro (_ : _); show Keep K _)
    | split
    | (with_reducible refine keepOpt_elim ?_ (by assumption))
    | (intro t ht; with_reducible (have _h : Keep K t := ht))
    | (intro c t ht; with_reducible (have _h : Keep K t := ht))
    | dsimp -zeta only [id])

theorem keep_execRegisterWrite {K : Kept} (hK : K.stores = true) (hN : K.keeps = true) (who : Initiator) (addr value : Nat) (s : State) (hs : Keep K s) :
    KeepO K (execRegisterWrite who addr value s) := by
  unfold execRegisterWrite
  repeat' (first
    | (with_reducible first | assumption | apply keep_writeReg | apply keepO_next)
    | (intro t ht; with_reducible (have _h : Keep K t := ht))
    | split)

theorem keep_miAnswer {K : Kept} (s : State) (status refused : Nat) (data : List Nat) (hs : Keep K s) :
    Keep K (State.miAnswer s status refused data) := by
  unfold State.miAnswer
  repeat' (first
    | (with_reducible first | assumption | apply keep_answer | apply keep_mBus)
    | (intro t ht; with_reducible (have _h : Keep K t := ht)))

theorem keep_miReadDwords {K : Kept} (s : State) (p first n : Nat) (hs : Keep K s) : Keep K (s.miReadDwords p first n).2.2 := by
  induction n generalizing first s with
  | zero => exact hs
  | succ n ih =>
    rw [State.miReadDwords]
    exact ih _ _ (keep_readReg _ _ _ _ hs)


theorem keep_execMiRegisterRead {K : Kept} (nmd0 nmd1 : Nat) (s : State) (hs : Keep K s) :
    KeepO K (execMiRegisterRead nmd0 nmd1 s) := by
  unfold execMiRegisterRead
  repeat' (first
    | (with_reducible first | assumption | apply keep_miAnswer | apply keep_miReadDwords | apply keep_ite | apply keepO_next | apply keep_ite_snd | apply keep_ite_fst | apply keepO_ite | apply keepOpt_ite)
    | (intro t ht; with_reducible (have _h : Keep K t := ht))
    | lift_lets -underBinder
    | (intro u; first
        | (refine (?_ : Keep K u → _) ?_; pick_goal 2; simp only [u]; pick_goal 2; intro hu; clear_value u)
        | clear_value u | skip)
    | split)

theorem keep_miWriteDwords {K : Kept} (hK : K.stores = true) (hN : K.keeps = true) (s : State) (p first : Nat) (l : List Nat) (hs : Keep K s) :
    Keep K (s.miWriteDwords p first l).2 := by
  induction l generalizing first s with
  | nil => exact hs
  | cons v l ih =>
    rw [State.miWriteDwords]
    exact ih _ _ (keep_writeReg hK hN _ _ _ _ _ hs)


theorem keep_execMiRegisterWrite {K : Kept} (hK : K.stores = true) (hN : K.keeps = true) (nmd0 nmd1 : Nat) (data : List Nat) (s : State) (hs : Keep K s) :
    KeepO K (execMiRegisterWrite nmd0 nmd1 data s) := by
  unfold execMiRegisterWrite
  repeat' (first
    | (with_reducible first | assumption | apply keep_miAnswer | apply keep_miWriteDwords | apply keep_ite | apply keepO_next | apply keep_ite_snd | apply keep_ite_fst | apply keepO_ite | apply keepOpt_ite)
    | (intro t ht; with_reducible (have _h : Keep K t := ht))
    | lift_lets -underBinder
    | (intro u; first
        | (refine (?_ : Keep K u → _) ?_; pick_goal 2; simp only [u]; pick_goal 2; intro hu; clear_value u)
        | clear_value u | skip)
    | split)

theorem keep_execMiOtherCommand {K : Kept} (opcode : Nat) (s : State) (hs : Keep K s) :
    KeepO K (execMiOtherCommand opcode s) := by
  unfold execMiOtherCommand
  repeat' (first
    | (with_reducible first | assumption | apply keep_mBus | apply keep_miAnswer | apply keep_ite | apply keepO_next | apply keep_ite_snd | apply keep_ite_fst | apply keepO_ite | apply keepOpt_ite)
    | (intro t ht; with_reducible (have _h : Keep K t := ht))
    | (intro (_ : _); show Keep K _)
    | split)

end Sys2Proof.Laws
end

