-- ==== Sys2Proof/Laws/KeepTick.lean ====
section
/-! SUPPORT. The operations of Machine/Tick.lean keep the queue and the canonical forms. -/

namespace Sys2Proof.Laws

open Sys2Proof Sys2Proof.Machine

set_option linter.unusedTactic false
set_option linter.unreachableTactic false
set_option linter.unusedVariables false

theorem keep_tick {K : Kept} (s : State) (hs : Keep K s) : Keep { K with mono := (tick s).mono } (tick s) := by
  unfold tick; split
  · exact ⟨hs.queue, rfl, hs.epoch, hs.perm, hs.regs, hs.mem, hs.dram, hs.cells, hs.kept⟩
  · exact ⟨hs.queue, rfl, hs.epoch, hs.perm, hs.regs, hs.mem, hs.dram, hs.cells, hs.kept⟩


end Sys2Proof.Laws
end

