-- ==== Sys2Proof/Laws/State.lean ====
section
/-! SUPPORT. One lemma per field of the state per update: the part an update changes, and every part it leaves. -/

namespace Sys2Proof.Laws

open Sys2Proof Sys2Proof.Machine

variable (s : State)

/-! ### mNv -/

@[simp] theorem mNv_regs (g : Nv → Nv) : (s.mNv g).regs = s.regs := rfl
@[simp] theorem mNv_mono (g : Nv → Nv) : (s.mNv g).mono = s.mono := rfl
@[simp] theorem mNv_free (g : Nv → Nv) : (s.mNv g).free = s.free := rfl
@[simp] theorem mNv_pending (g : Nv → Nv) : (s.mNv g).pending = s.pending := rfl
@[simp] theorem mNv_nv (g : Nv → Nv) : (s.mNv g).nv = g s.nv := rfl
@[simp] theorem mNv_dev (g : Nv → Nv) : (s.mNv g).dev = s.dev := rfl
@[simp] theorem mNv_log (g : Nv → Nv) : (s.mNv g).log = s.log := rfl
@[simp] theorem mNv_tal (g : Nv → Nv) : (s.mNv g).tal = s.tal := rfl
@[simp] theorem mNv_pit (g : Nv → Nv) : (s.mNv g).pit = s.pit := rfl
@[simp] theorem mNv_host (g : Nv → Nv) : (s.mNv g).host = s.host := rfl
@[simp] theorem mNv_led (g : Nv → Nv) : (s.mNv g).led = s.led := rfl
@[simp] theorem mNv_lc (g : Nv → Nv) : (s.mNv g).lc = s.lc := rfl
@[simp] theorem mNv_cr (g : Nv → Nv) : (s.mNv g).cr = s.cr := rfl
@[simp] theorem mNv_wp (g : Nv → Nv) : (s.mNv g).wp = s.wp := rfl
@[simp] theorem mNv_st (g : Nv → Nv) : (s.mNv g).st = s.st := rfl
@[simp] theorem mNv_integ (g : Nv → Nv) : (s.mNv g).integ = s.integ := rfl
@[simp] theorem mNv_sw (g : Nv → Nv) : (s.mNv g).sw = s.sw := rfl
@[simp] theorem mNv_bell (g : Nv → Nv) : (s.mNv g).bell = s.bell := rfl
@[simp] theorem mNv_ciph (g : Nv → Nv) : (s.mNv g).ciph = s.ciph := rfl
@[simp] theorem mNv_por (g : Nv → Nv) : (s.mNv g).por = s.por := rfl
@[simp] theorem mNv_isl (g : Nv → Nv) : (s.mNv g).isl = s.isl := rfl
@[simp] theorem mNv_pwr (g : Nv → Nv) : (s.mNv g).pwr = s.pwr := rfl
@[simp] theorem mNv_core (g : Nv → Nv) : (s.mNv g).core = s.core := rfl
@[simp] theorem mNv_cf (g : Nv → Nv) : (s.mNv g).cf = s.cf := rfl
@[simp] theorem mNv_armed (g : Nv → Nv) : (s.mNv g).armed = s.armed := rfl
@[simp] theorem mNv_jtag (g : Nv → Nv) : (s.mNv g).jtag = s.jtag := rfl
@[simp] theorem mNv_bus (g : Nv → Nv) : (s.mNv g).bus = s.bus := rfl
@[simp] theorem mNv_dram (g : Nv → Nv) : (s.mNv g).dram = s.dram := rfl
@[simp] theorem mNv_rd (g : Nv → Nv) (f : Field) (i b : Nat) : (s.mNv g).rd f i b = s.rd f i b := rfl

/-! ### mDev -/

@[simp] theorem mDev_regs (g : DevSt → DevSt) : (s.mDev g).regs = s.regs := rfl
@[simp] theorem mDev_mono (g : DevSt → DevSt) : (s.mDev g).mono = s.mono := rfl
@[simp] theorem mDev_free (g : DevSt → DevSt) : (s.mDev g).free = s.free := rfl
@[simp] theorem mDev_pending (g : DevSt → DevSt) : (s.mDev g).pending = s.pending := rfl
@[simp] theorem mDev_nv (g : DevSt → DevSt) : (s.mDev g).nv = s.nv := rfl
@[simp] theorem mDev_dev (g : DevSt → DevSt) : (s.mDev g).dev = g s.dev := rfl
@[simp] theorem mDev_log (g : DevSt → DevSt) : (s.mDev g).log = s.log := rfl
@[simp] theorem mDev_tal (g : DevSt → DevSt) : (s.mDev g).tal = s.tal := rfl
@[simp] theorem mDev_pit (g : DevSt → DevSt) : (s.mDev g).pit = s.pit := rfl
@[simp] theorem mDev_host (g : DevSt → DevSt) : (s.mDev g).host = s.host := rfl
@[simp] theorem mDev_led (g : DevSt → DevSt) : (s.mDev g).led = s.led := rfl
@[simp] theorem mDev_lc (g : DevSt → DevSt) : (s.mDev g).lc = s.lc := rfl
@[simp] theorem mDev_cr (g : DevSt → DevSt) : (s.mDev g).cr = s.cr := rfl
@[simp] theorem mDev_wp (g : DevSt → DevSt) : (s.mDev g).wp = s.wp := rfl
@[simp] theorem mDev_st (g : DevSt → DevSt) : (s.mDev g).st = s.st := rfl
@[simp] theorem mDev_integ (g : DevSt → DevSt) : (s.mDev g).integ = s.integ := rfl
@[simp] theorem mDev_sw (g : DevSt → DevSt) : (s.mDev g).sw = s.sw := rfl
@[simp] theorem mDev_bell (g : DevSt → DevSt) : (s.mDev g).bell = s.bell := rfl
@[simp] theorem mDev_ciph (g : DevSt → DevSt) : (s.mDev g).ciph = s.ciph := rfl
@[simp] theorem mDev_por (g : DevSt → DevSt) : (s.mDev g).por = s.por := rfl
@[simp] theorem mDev_isl (g : DevSt → DevSt) : (s.mDev g).isl = s.isl := rfl
@[simp] theorem mDev_pwr (g : DevSt → DevSt) : (s.mDev g).pwr = s.pwr := rfl
@[simp] theorem mDev_core (g : DevSt → DevSt) : (s.mDev g).core = s.core := rfl
@[simp] theorem mDev_cf (g : DevSt → DevSt) : (s.mDev g).cf = s.cf := rfl
@[simp] theorem mDev_armed (g : DevSt → DevSt) : (s.mDev g).armed = s.armed := rfl
@[simp] theorem mDev_jtag (g : DevSt → DevSt) : (s.mDev g).jtag = s.jtag := rfl
@[simp] theorem mDev_bus (g : DevSt → DevSt) : (s.mDev g).bus = s.bus := rfl
@[simp] theorem mDev_dram (g : DevSt → DevSt) : (s.mDev g).dram = s.dram := rfl
@[simp] theorem mDev_rd (g : DevSt → DevSt) (f : Field) (i b : Nat) : (s.mDev g).rd f i b = s.rd f i b := rfl

/-! ### mLog -/

@[simp] theorem mLog_regs (g : LogSt → LogSt) : (s.mLog g).regs = s.regs := rfl
@[simp] theorem mLog_mono (g : LogSt → LogSt) : (s.mLog g).mono = s.mono := rfl
@[simp] theorem mLog_free (g : LogSt → LogSt) : (s.mLog g).free = s.free := rfl
@[simp] theorem mLog_pending (g : LogSt → LogSt) : (s.mLog g).pending = s.pending := rfl
@[simp] theorem mLog_nv (g : LogSt → LogSt) : (s.mLog g).nv = s.nv := rfl
@[simp] theorem mLog_dev (g : LogSt → LogSt) : (s.mLog g).dev = s.dev := rfl
@[simp] theorem mLog_log (g : LogSt → LogSt) : (s.mLog g).log = g s.log := rfl
@[simp] theorem mLog_tal (g : LogSt → LogSt) : (s.mLog g).tal = s.tal := rfl
@[simp] theorem mLog_pit (g : LogSt → LogSt) : (s.mLog g).pit = s.pit := rfl
@[simp] theorem mLog_host (g : LogSt → LogSt) : (s.mLog g).host = s.host := rfl
@[simp] theorem mLog_led (g : LogSt → LogSt) : (s.mLog g).led = s.led := rfl
@[simp] theorem mLog_lc (g : LogSt → LogSt) : (s.mLog g).lc = s.lc := rfl
@[simp] theorem mLog_cr (g : LogSt → LogSt) : (s.mLog g).cr = s.cr := rfl
@[simp] theorem mLog_wp (g : LogSt → LogSt) : (s.mLog g).wp = s.wp := rfl
@[simp] theorem mLog_st (g : LogSt → LogSt) : (s.mLog g).st = s.st := rfl
@[simp] theorem mLog_integ (g : LogSt → LogSt) : (s.mLog g).integ = s.integ := rfl
@[simp] theorem mLog_sw (g : LogSt → LogSt) : (s.mLog g).sw = s.sw := rfl
@[simp] theorem mLog_bell (g : LogSt → LogSt) : (s.mLog g).bell = s.bell := rfl
@[simp] theorem mLog_ciph (g : LogSt → LogSt) : (s.mLog g).ciph = s.ciph := rfl
@[simp] theorem mLog_por (g : LogSt → LogSt) : (s.mLog g).por = s.por := rfl
@[simp] theorem mLog_isl (g : LogSt → LogSt) : (s.mLog g).isl = s.isl := rfl
@[simp] theorem mLog_pwr (g : LogSt → LogSt) : (s.mLog g).pwr = s.pwr := rfl
@[simp] theorem mLog_core (g : LogSt → LogSt) : (s.mLog g).core = s.core := rfl
@[simp] theorem mLog_cf (g : LogSt → LogSt) : (s.mLog g).cf = s.cf := rfl
@[simp] theorem mLog_armed (g : LogSt → LogSt) : (s.mLog g).armed = s.armed := rfl
@[simp] theorem mLog_jtag (g : LogSt → LogSt) : (s.mLog g).jtag = s.jtag := rfl
@[simp] theorem mLog_bus (g : LogSt → LogSt) : (s.mLog g).bus = s.bus := rfl
@[simp] theorem mLog_dram (g : LogSt → LogSt) : (s.mLog g).dram = s.dram := rfl
@[simp] theorem mLog_rd (g : LogSt → LogSt) (f : Field) (i b : Nat) : (s.mLog g).rd f i b = s.rd f i b := rfl

/-! ### mTal -/

@[simp] theorem mTal_regs (g : TallySt → TallySt) : (s.mTal g).regs = s.regs := rfl
@[simp] theorem mTal_mono (g : TallySt → TallySt) : (s.mTal g).mono = s.mono := rfl
@[simp] theorem mTal_free (g : TallySt → TallySt) : (s.mTal g).free = s.free := rfl
@[simp] theorem mTal_pending (g : TallySt → TallySt) : (s.mTal g).pending = s.pending := rfl
@[simp] theorem mTal_nv (g : TallySt → TallySt) : (s.mTal g).nv = s.nv := rfl
@[simp] theorem mTal_dev (g : TallySt → TallySt) : (s.mTal g).dev = s.dev := rfl
@[simp] theorem mTal_log (g : TallySt → TallySt) : (s.mTal g).log = s.log := rfl
@[simp] theorem mTal_tal (g : TallySt → TallySt) : (s.mTal g).tal = g s.tal := rfl
@[simp] theorem mTal_pit (g : TallySt → TallySt) : (s.mTal g).pit = s.pit := rfl
@[simp] theorem mTal_host (g : TallySt → TallySt) : (s.mTal g).host = s.host := rfl
@[simp] theorem mTal_led (g : TallySt → TallySt) : (s.mTal g).led = s.led := rfl
@[simp] theorem mTal_lc (g : TallySt → TallySt) : (s.mTal g).lc = s.lc := rfl
@[simp] theorem mTal_cr (g : TallySt → TallySt) : (s.mTal g).cr = s.cr := rfl
@[simp] theorem mTal_wp (g : TallySt → TallySt) : (s.mTal g).wp = s.wp := rfl
@[simp] theorem mTal_st (g : TallySt → TallySt) : (s.mTal g).st = s.st := rfl
@[simp] theorem mTal_integ (g : TallySt → TallySt) : (s.mTal g).integ = s.integ := rfl
@[simp] theorem mTal_sw (g : TallySt → TallySt) : (s.mTal g).sw = s.sw := rfl
@[simp] theorem mTal_bell (g : TallySt → TallySt) : (s.mTal g).bell = s.bell := rfl
@[simp] theorem mTal_ciph (g : TallySt → TallySt) : (s.mTal g).ciph = s.ciph := rfl
@[simp] theorem mTal_por (g : TallySt → TallySt) : (s.mTal g).por = s.por := rfl
@[simp] theorem mTal_isl (g : TallySt → TallySt) : (s.mTal g).isl = s.isl := rfl
@[simp] theorem mTal_pwr (g : TallySt → TallySt) : (s.mTal g).pwr = s.pwr := rfl
@[simp] theorem mTal_core (g : TallySt → TallySt) : (s.mTal g).core = s.core := rfl
@[simp] theorem mTal_cf (g : TallySt → TallySt) : (s.mTal g).cf = s.cf := rfl
@[simp] theorem mTal_armed (g : TallySt → TallySt) : (s.mTal g).armed = s.armed := rfl
@[simp] theorem mTal_jtag (g : TallySt → TallySt) : (s.mTal g).jtag = s.jtag := rfl
@[simp] theorem mTal_bus (g : TallySt → TallySt) : (s.mTal g).bus = s.bus := rfl
@[simp] theorem mTal_dram (g : TallySt → TallySt) : (s.mTal g).dram = s.dram := rfl
@[simp] theorem mTal_rd (g : TallySt → TallySt) (f : Field) (i b : Nat) : (s.mTal g).rd f i b = s.rd f i b := rfl

/-! ### mPit -/

@[simp] theorem mPit_regs (g : PitchSt → PitchSt) : (s.mPit g).regs = s.regs := rfl
@[simp] theorem mPit_mono (g : PitchSt → PitchSt) : (s.mPit g).mono = s.mono := rfl
@[simp] theorem mPit_free (g : PitchSt → PitchSt) : (s.mPit g).free = s.free := rfl
@[simp] theorem mPit_pending (g : PitchSt → PitchSt) : (s.mPit g).pending = s.pending := rfl
@[simp] theorem mPit_nv (g : PitchSt → PitchSt) : (s.mPit g).nv = s.nv := rfl
@[simp] theorem mPit_dev (g : PitchSt → PitchSt) : (s.mPit g).dev = s.dev := rfl
@[simp] theorem mPit_log (g : PitchSt → PitchSt) : (s.mPit g).log = s.log := rfl
@[simp] theorem mPit_tal (g : PitchSt → PitchSt) : (s.mPit g).tal = s.tal := rfl
@[simp] theorem mPit_pit (g : PitchSt → PitchSt) : (s.mPit g).pit = g s.pit := rfl
@[simp] theorem mPit_host (g : PitchSt → PitchSt) : (s.mPit g).host = s.host := rfl
@[simp] theorem mPit_led (g : PitchSt → PitchSt) : (s.mPit g).led = s.led := rfl
@[simp] theorem mPit_lc (g : PitchSt → PitchSt) : (s.mPit g).lc = s.lc := rfl
@[simp] theorem mPit_cr (g : PitchSt → PitchSt) : (s.mPit g).cr = s.cr := rfl
@[simp] theorem mPit_wp (g : PitchSt → PitchSt) : (s.mPit g).wp = s.wp := rfl
@[simp] theorem mPit_st (g : PitchSt → PitchSt) : (s.mPit g).st = s.st := rfl
@[simp] theorem mPit_integ (g : PitchSt → PitchSt) : (s.mPit g).integ = s.integ := rfl
@[simp] theorem mPit_sw (g : PitchSt → PitchSt) : (s.mPit g).sw = s.sw := rfl
@[simp] theorem mPit_bell (g : PitchSt → PitchSt) : (s.mPit g).bell = s.bell := rfl
@[simp] theorem mPit_ciph (g : PitchSt → PitchSt) : (s.mPit g).ciph = s.ciph := rfl
@[simp] theorem mPit_por (g : PitchSt → PitchSt) : (s.mPit g).por = s.por := rfl
@[simp] theorem mPit_isl (g : PitchSt → PitchSt) : (s.mPit g).isl = s.isl := rfl
@[simp] theorem mPit_pwr (g : PitchSt → PitchSt) : (s.mPit g).pwr = s.pwr := rfl
@[simp] theorem mPit_core (g : PitchSt → PitchSt) : (s.mPit g).core = s.core := rfl
@[simp] theorem mPit_cf (g : PitchSt → PitchSt) : (s.mPit g).cf = s.cf := rfl
@[simp] theorem mPit_armed (g : PitchSt → PitchSt) : (s.mPit g).armed = s.armed := rfl
@[simp] theorem mPit_jtag (g : PitchSt → PitchSt) : (s.mPit g).jtag = s.jtag := rfl
@[simp] theorem mPit_bus (g : PitchSt → PitchSt) : (s.mPit g).bus = s.bus := rfl
@[simp] theorem mPit_dram (g : PitchSt → PitchSt) : (s.mPit g).dram = s.dram := rfl
@[simp] theorem mPit_rd (g : PitchSt → PitchSt) (f : Field) (i b : Nat) : (s.mPit g).rd f i b = s.rd f i b := rfl

/-! ### mHost -/

@[simp] theorem mHost_regs (g : HostSt → HostSt) : (s.mHost g).regs = s.regs := rfl
@[simp] theorem mHost_mono (g : HostSt → HostSt) : (s.mHost g).mono = s.mono := rfl
@[simp] theorem mHost_free (g : HostSt → HostSt) : (s.mHost g).free = s.free := rfl
@[simp] theorem mHost_pending (g : HostSt → HostSt) : (s.mHost g).pending = s.pending := rfl
@[simp] theorem mHost_nv (g : HostSt → HostSt) : (s.mHost g).nv = s.nv := rfl
@[simp] theorem mHost_dev (g : HostSt → HostSt) : (s.mHost g).dev = s.dev := rfl
@[simp] theorem mHost_log (g : HostSt → HostSt) : (s.mHost g).log = s.log := rfl
@[simp] theorem mHost_tal (g : HostSt → HostSt) : (s.mHost g).tal = s.tal := rfl
@[simp] theorem mHost_pit (g : HostSt → HostSt) : (s.mHost g).pit = s.pit := rfl
@[simp] theorem mHost_host (g : HostSt → HostSt) : (s.mHost g).host = g s.host := rfl
@[simp] theorem mHost_led (g : HostSt → HostSt) : (s.mHost g).led = s.led := rfl
@[simp] theorem mHost_lc (g : HostSt → HostSt) : (s.mHost g).lc = s.lc := rfl
@[simp] theorem mHost_cr (g : HostSt → HostSt) : (s.mHost g).cr = s.cr := rfl
@[simp] theorem mHost_wp (g : HostSt → HostSt) : (s.mHost g).wp = s.wp := rfl
@[simp] theorem mHost_st (g : HostSt → HostSt) : (s.mHost g).st = s.st := rfl
@[simp] theorem mHost_integ (g : HostSt → HostSt) : (s.mHost g).integ = s.integ := rfl
@[simp] theorem mHost_sw (g : HostSt → HostSt) : (s.mHost g).sw = s.sw := rfl
@[simp] theorem mHost_bell (g : HostSt → HostSt) : (s.mHost g).bell = s.bell := rfl
@[simp] theorem mHost_ciph (g : HostSt → HostSt) : (s.mHost g).ciph = s.ciph := rfl
@[simp] theorem mHost_por (g : HostSt → HostSt) : (s.mHost g).por = s.por := rfl
@[simp] theorem mHost_isl (g : HostSt → HostSt) : (s.mHost g).isl = s.isl := rfl
@[simp] theorem mHost_pwr (g : HostSt → HostSt) : (s.mHost g).pwr = s.pwr := rfl
@[simp] theorem mHost_core (g : HostSt → HostSt) : (s.mHost g).core = s.core := rfl
@[simp] theorem mHost_cf (g : HostSt → HostSt) : (s.mHost g).cf = s.cf := rfl
@[simp] theorem mHost_armed (g : HostSt → HostSt) : (s.mHost g).armed = s.armed := rfl
@[simp] theorem mHost_jtag (g : HostSt → HostSt) : (s.mHost g).jtag = s.jtag := rfl
@[simp] theorem mHost_bus (g : HostSt → HostSt) : (s.mHost g).bus = s.bus := rfl
@[simp] theorem mHost_dram (g : HostSt → HostSt) : (s.mHost g).dram = s.dram := rfl
@[simp] theorem mHost_rd (g : HostSt → HostSt) (f : Field) (i b : Nat) : (s.mHost g).rd f i b = s.rd f i b := rfl

/-! ### mLed -/

@[simp] theorem mLed_regs (g : LedgerSt → LedgerSt) : (s.mLed g).regs = s.regs := rfl
@[simp] theorem mLed_mono (g : LedgerSt → LedgerSt) : (s.mLed g).mono = s.mono := rfl
@[simp] theorem mLed_free (g : LedgerSt → LedgerSt) : (s.mLed g).free = s.free := rfl
@[simp] theorem mLed_pending (g : LedgerSt → LedgerSt) : (s.mLed g).pending = s.pending := rfl
@[simp] theorem mLed_nv (g : LedgerSt → LedgerSt) : (s.mLed g).nv = s.nv := rfl
@[simp] theorem mLed_dev (g : LedgerSt → LedgerSt) : (s.mLed g).dev = s.dev := rfl
@[simp] theorem mLed_log (g : LedgerSt → LedgerSt) : (s.mLed g).log = s.log := rfl
@[simp] theorem mLed_tal (g : LedgerSt → LedgerSt) : (s.mLed g).tal = s.tal := rfl
@[simp] theorem mLed_pit (g : LedgerSt → LedgerSt) : (s.mLed g).pit = s.pit := rfl
@[simp] theorem mLed_host (g : LedgerSt → LedgerSt) : (s.mLed g).host = s.host := rfl
@[simp] theorem mLed_led (g : LedgerSt → LedgerSt) : (s.mLed g).led = g s.led := rfl
@[simp] theorem mLed_lc (g : LedgerSt → LedgerSt) : (s.mLed g).lc = s.lc := rfl
@[simp] theorem mLed_cr (g : LedgerSt → LedgerSt) : (s.mLed g).cr = s.cr := rfl
@[simp] theorem mLed_wp (g : LedgerSt → LedgerSt) : (s.mLed g).wp = s.wp := rfl
@[simp] theorem mLed_st (g : LedgerSt → LedgerSt) : (s.mLed g).st = s.st := rfl
@[simp] theorem mLed_integ (g : LedgerSt → LedgerSt) : (s.mLed g).integ = s.integ := rfl
@[simp] theorem mLed_sw (g : LedgerSt → LedgerSt) : (s.mLed g).sw = s.sw := rfl
@[simp] theorem mLed_bell (g : LedgerSt → LedgerSt) : (s.mLed g).bell = s.bell := rfl
@[simp] theorem mLed_ciph (g : LedgerSt → LedgerSt) : (s.mLed g).ciph = s.ciph := rfl
@[simp] theorem mLed_por (g : LedgerSt → LedgerSt) : (s.mLed g).por = s.por := rfl
@[simp] theorem mLed_isl (g : LedgerSt → LedgerSt) : (s.mLed g).isl = s.isl := rfl
@[simp] theorem mLed_pwr (g : LedgerSt → LedgerSt) : (s.mLed g).pwr = s.pwr := rfl
@[simp] theorem mLed_core (g : LedgerSt → LedgerSt) : (s.mLed g).core = s.core := rfl
@[simp] theorem mLed_cf (g : LedgerSt → LedgerSt) : (s.mLed g).cf = s.cf := rfl
@[simp] theorem mLed_armed (g : LedgerSt → LedgerSt) : (s.mLed g).armed = s.armed := rfl
@[simp] theorem mLed_jtag (g : LedgerSt → LedgerSt) : (s.mLed g).jtag = s.jtag := rfl
@[simp] theorem mLed_bus (g : LedgerSt → LedgerSt) : (s.mLed g).bus = s.bus := rfl
@[simp] theorem mLed_dram (g : LedgerSt → LedgerSt) : (s.mLed g).dram = s.dram := rfl
@[simp] theorem mLed_rd (g : LedgerSt → LedgerSt) (f : Field) (i b : Nat) : (s.mLed g).rd f i b = s.rd f i b := rfl

/-! ### mLc -/

@[simp] theorem mLc_regs (g : CacheSt → CacheSt) : (s.mLc g).regs = s.regs := rfl
@[simp] theorem mLc_mono (g : CacheSt → CacheSt) : (s.mLc g).mono = s.mono := rfl
@[simp] theorem mLc_free (g : CacheSt → CacheSt) : (s.mLc g).free = s.free := rfl
@[simp] theorem mLc_pending (g : CacheSt → CacheSt) : (s.mLc g).pending = s.pending := rfl
@[simp] theorem mLc_nv (g : CacheSt → CacheSt) : (s.mLc g).nv = s.nv := rfl
@[simp] theorem mLc_dev (g : CacheSt → CacheSt) : (s.mLc g).dev = s.dev := rfl
@[simp] theorem mLc_log (g : CacheSt → CacheSt) : (s.mLc g).log = s.log := rfl
@[simp] theorem mLc_tal (g : CacheSt → CacheSt) : (s.mLc g).tal = s.tal := rfl
@[simp] theorem mLc_pit (g : CacheSt → CacheSt) : (s.mLc g).pit = s.pit := rfl
@[simp] theorem mLc_host (g : CacheSt → CacheSt) : (s.mLc g).host = s.host := rfl
@[simp] theorem mLc_led (g : CacheSt → CacheSt) : (s.mLc g).led = s.led := rfl
@[simp] theorem mLc_lc (g : CacheSt → CacheSt) : (s.mLc g).lc = g s.lc := rfl
@[simp] theorem mLc_cr (g : CacheSt → CacheSt) : (s.mLc g).cr = s.cr := rfl
@[simp] theorem mLc_wp (g : CacheSt → CacheSt) : (s.mLc g).wp = s.wp := rfl
@[simp] theorem mLc_st (g : CacheSt → CacheSt) : (s.mLc g).st = s.st := rfl
@[simp] theorem mLc_integ (g : CacheSt → CacheSt) : (s.mLc g).integ = s.integ := rfl
@[simp] theorem mLc_sw (g : CacheSt → CacheSt) : (s.mLc g).sw = s.sw := rfl
@[simp] theorem mLc_bell (g : CacheSt → CacheSt) : (s.mLc g).bell = s.bell := rfl
@[simp] theorem mLc_ciph (g : CacheSt → CacheSt) : (s.mLc g).ciph = s.ciph := rfl
@[simp] theorem mLc_por (g : CacheSt → CacheSt) : (s.mLc g).por = s.por := rfl
@[simp] theorem mLc_isl (g : CacheSt → CacheSt) : (s.mLc g).isl = s.isl := rfl
@[simp] theorem mLc_pwr (g : CacheSt → CacheSt) : (s.mLc g).pwr = s.pwr := rfl
@[simp] theorem mLc_core (g : CacheSt → CacheSt) : (s.mLc g).core = s.core := rfl
@[simp] theorem mLc_cf (g : CacheSt → CacheSt) : (s.mLc g).cf = s.cf := rfl
@[simp] theorem mLc_armed (g : CacheSt → CacheSt) : (s.mLc g).armed = s.armed := rfl
@[simp] theorem mLc_jtag (g : CacheSt → CacheSt) : (s.mLc g).jtag = s.jtag := rfl
@[simp] theorem mLc_bus (g : CacheSt → CacheSt) : (s.mLc g).bus = s.bus := rfl
@[simp] theorem mLc_dram (g : CacheSt → CacheSt) : (s.mLc g).dram = s.dram := rfl
@[simp] theorem mLc_rd (g : CacheSt → CacheSt) (f : Field) (i b : Nat) : (s.mLc g).rd f i b = s.rd f i b := rfl

/-! ### mCr -/

@[simp] theorem mCr_regs (g : CrateSt → CrateSt) : (s.mCr g).regs = s.regs := rfl
@[simp] theorem mCr_mono (g : CrateSt → CrateSt) : (s.mCr g).mono = s.mono := rfl
@[simp] theorem mCr_free (g : CrateSt → CrateSt) : (s.mCr g).free = s.free := rfl
@[simp] theorem mCr_pending (g : CrateSt → CrateSt) : (s.mCr g).pending = s.pending := rfl
@[simp] theorem mCr_nv (g : CrateSt → CrateSt) : (s.mCr g).nv = s.nv := rfl
@[simp] theorem mCr_dev (g : CrateSt → CrateSt) : (s.mCr g).dev = s.dev := rfl
@[simp] theorem mCr_log (g : CrateSt → CrateSt) : (s.mCr g).log = s.log := rfl
@[simp] theorem mCr_tal (g : CrateSt → CrateSt) : (s.mCr g).tal = s.tal := rfl
@[simp] theorem mCr_pit (g : CrateSt → CrateSt) : (s.mCr g).pit = s.pit := rfl
@[simp] theorem mCr_host (g : CrateSt → CrateSt) : (s.mCr g).host = s.host := rfl
@[simp] theorem mCr_led (g : CrateSt → CrateSt) : (s.mCr g).led = s.led := rfl
@[simp] theorem mCr_lc (g : CrateSt → CrateSt) : (s.mCr g).lc = s.lc := rfl
@[simp] theorem mCr_cr (g : CrateSt → CrateSt) : (s.mCr g).cr = g s.cr := rfl
@[simp] theorem mCr_wp (g : CrateSt → CrateSt) : (s.mCr g).wp = s.wp := rfl
@[simp] theorem mCr_st (g : CrateSt → CrateSt) : (s.mCr g).st = s.st := rfl
@[simp] theorem mCr_integ (g : CrateSt → CrateSt) : (s.mCr g).integ = s.integ := rfl
@[simp] theorem mCr_sw (g : CrateSt → CrateSt) : (s.mCr g).sw = s.sw := rfl
@[simp] theorem mCr_bell (g : CrateSt → CrateSt) : (s.mCr g).bell = s.bell := rfl
@[simp] theorem mCr_ciph (g : CrateSt → CrateSt) : (s.mCr g).ciph = s.ciph := rfl
@[simp] theorem mCr_por (g : CrateSt → CrateSt) : (s.mCr g).por = s.por := rfl
@[simp] theorem mCr_isl (g : CrateSt → CrateSt) : (s.mCr g).isl = s.isl := rfl
@[simp] theorem mCr_pwr (g : CrateSt → CrateSt) : (s.mCr g).pwr = s.pwr := rfl
@[simp] theorem mCr_core (g : CrateSt → CrateSt) : (s.mCr g).core = s.core := rfl
@[simp] theorem mCr_cf (g : CrateSt → CrateSt) : (s.mCr g).cf = s.cf := rfl
@[simp] theorem mCr_armed (g : CrateSt → CrateSt) : (s.mCr g).armed = s.armed := rfl
@[simp] theorem mCr_jtag (g : CrateSt → CrateSt) : (s.mCr g).jtag = s.jtag := rfl
@[simp] theorem mCr_bus (g : CrateSt → CrateSt) : (s.mCr g).bus = s.bus := rfl
@[simp] theorem mCr_dram (g : CrateSt → CrateSt) : (s.mCr g).dram = s.dram := rfl
@[simp] theorem mCr_rd (g : CrateSt → CrateSt) (f : Field) (i b : Nat) : (s.mCr g).rd f i b = s.rd f i b := rfl

/-! ### mWp -/

@[simp] theorem mWp_regs (g : WriteSt → WriteSt) : (s.mWp g).regs = s.regs := rfl
@[simp] theorem mWp_mono (g : WriteSt → WriteSt) : (s.mWp g).mono = s.mono := rfl
@[simp] theorem mWp_free (g : WriteSt → WriteSt) : (s.mWp g).free = s.free := rfl
@[simp] theorem mWp_pending (g : WriteSt → WriteSt) : (s.mWp g).pending = s.pending := rfl
@[simp] theorem mWp_nv (g : WriteSt → WriteSt) : (s.mWp g).nv = s.nv := rfl
@[simp] theorem mWp_dev (g : WriteSt → WriteSt) : (s.mWp g).dev = s.dev := rfl
@[simp] theorem mWp_log (g : WriteSt → WriteSt) : (s.mWp g).log = s.log := rfl
@[simp] theorem mWp_tal (g : WriteSt → WriteSt) : (s.mWp g).tal = s.tal := rfl
@[simp] theorem mWp_pit (g : WriteSt → WriteSt) : (s.mWp g).pit = s.pit := rfl
@[simp] theorem mWp_host (g : WriteSt → WriteSt) : (s.mWp g).host = s.host := rfl
@[simp] theorem mWp_led (g : WriteSt → WriteSt) : (s.mWp g).led = s.led := rfl
@[simp] theorem mWp_lc (g : WriteSt → WriteSt) : (s.mWp g).lc = s.lc := rfl
@[simp] theorem mWp_cr (g : WriteSt → WriteSt) : (s.mWp g).cr = s.cr := rfl
@[simp] theorem mWp_wp (g : WriteSt → WriteSt) : (s.mWp g).wp = g s.wp := rfl
@[simp] theorem mWp_st (g : WriteSt → WriteSt) : (s.mWp g).st = s.st := rfl
@[simp] theorem mWp_integ (g : WriteSt → WriteSt) : (s.mWp g).integ = s.integ := rfl
@[simp] theorem mWp_sw (g : WriteSt → WriteSt) : (s.mWp g).sw = s.sw := rfl
@[simp] theorem mWp_bell (g : WriteSt → WriteSt) : (s.mWp g).bell = s.bell := rfl
@[simp] theorem mWp_ciph (g : WriteSt → WriteSt) : (s.mWp g).ciph = s.ciph := rfl
@[simp] theorem mWp_por (g : WriteSt → WriteSt) : (s.mWp g).por = s.por := rfl
@[simp] theorem mWp_isl (g : WriteSt → WriteSt) : (s.mWp g).isl = s.isl := rfl
@[simp] theorem mWp_pwr (g : WriteSt → WriteSt) : (s.mWp g).pwr = s.pwr := rfl
@[simp] theorem mWp_core (g : WriteSt → WriteSt) : (s.mWp g).core = s.core := rfl
@[simp] theorem mWp_cf (g : WriteSt → WriteSt) : (s.mWp g).cf = s.cf := rfl
@[simp] theorem mWp_armed (g : WriteSt → WriteSt) : (s.mWp g).armed = s.armed := rfl
@[simp] theorem mWp_jtag (g : WriteSt → WriteSt) : (s.mWp g).jtag = s.jtag := rfl
@[simp] theorem mWp_bus (g : WriteSt → WriteSt) : (s.mWp g).bus = s.bus := rfl
@[simp] theorem mWp_dram (g : WriteSt → WriteSt) : (s.mWp g).dram = s.dram := rfl
@[simp] theorem mWp_rd (g : WriteSt → WriteSt) (f : Field) (i b : Nat) : (s.mWp g).rd f i b = s.rd f i b := rfl

/-! ### mSt -/

@[simp] theorem mSt_regs (g : StallSt → StallSt) : (s.mSt g).regs = s.regs := rfl
@[simp] theorem mSt_mono (g : StallSt → StallSt) : (s.mSt g).mono = s.mono := rfl
@[simp] theorem mSt_free (g : StallSt → StallSt) : (s.mSt g).free = s.free := rfl
@[simp] theorem mSt_pending (g : StallSt → StallSt) : (s.mSt g).pending = s.pending := rfl
@[simp] theorem mSt_nv (g : StallSt → StallSt) : (s.mSt g).nv = s.nv := rfl
@[simp] theorem mSt_dev (g : StallSt → StallSt) : (s.mSt g).dev = s.dev := rfl
@[simp] theorem mSt_log (g : StallSt → StallSt) : (s.mSt g).log = s.log := rfl
@[simp] theorem mSt_tal (g : StallSt → StallSt) : (s.mSt g).tal = s.tal := rfl
@[simp] theorem mSt_pit (g : StallSt → StallSt) : (s.mSt g).pit = s.pit := rfl
@[simp] theorem mSt_host (g : StallSt → StallSt) : (s.mSt g).host = s.host := rfl
@[simp] theorem mSt_led (g : StallSt → StallSt) : (s.mSt g).led = s.led := rfl
@[simp] theorem mSt_lc (g : StallSt → StallSt) : (s.mSt g).lc = s.lc := rfl
@[simp] theorem mSt_cr (g : StallSt → StallSt) : (s.mSt g).cr = s.cr := rfl
@[simp] theorem mSt_wp (g : StallSt → StallSt) : (s.mSt g).wp = s.wp := rfl
@[simp] theorem mSt_st (g : StallSt → StallSt) : (s.mSt g).st = g s.st := rfl
@[simp] theorem mSt_integ (g : StallSt → StallSt) : (s.mSt g).integ = s.integ := rfl
@[simp] theorem mSt_sw (g : StallSt → StallSt) : (s.mSt g).sw = s.sw := rfl
@[simp] theorem mSt_bell (g : StallSt → StallSt) : (s.mSt g).bell = s.bell := rfl
@[simp] theorem mSt_ciph (g : StallSt → StallSt) : (s.mSt g).ciph = s.ciph := rfl
@[simp] theorem mSt_por (g : StallSt → StallSt) : (s.mSt g).por = s.por := rfl
@[simp] theorem mSt_isl (g : StallSt → StallSt) : (s.mSt g).isl = s.isl := rfl
@[simp] theorem mSt_pwr (g : StallSt → StallSt) : (s.mSt g).pwr = s.pwr := rfl
@[simp] theorem mSt_core (g : StallSt → StallSt) : (s.mSt g).core = s.core := rfl
@[simp] theorem mSt_cf (g : StallSt → StallSt) : (s.mSt g).cf = s.cf := rfl
@[simp] theorem mSt_armed (g : StallSt → StallSt) : (s.mSt g).armed = s.armed := rfl
@[simp] theorem mSt_jtag (g : StallSt → StallSt) : (s.mSt g).jtag = s.jtag := rfl
@[simp] theorem mSt_bus (g : StallSt → StallSt) : (s.mSt g).bus = s.bus := rfl
@[simp] theorem mSt_dram (g : StallSt → StallSt) : (s.mSt g).dram = s.dram := rfl
@[simp] theorem mSt_rd (g : StallSt → StallSt) (f : Field) (i b : Nat) : (s.mSt g).rd f i b = s.rd f i b := rfl

/-! ### mInteg -/

@[simp] theorem mInteg_regs (g : IntegSt → IntegSt) : (s.mInteg g).regs = s.regs := rfl
@[simp] theorem mInteg_mono (g : IntegSt → IntegSt) : (s.mInteg g).mono = s.mono := rfl
@[simp] theorem mInteg_free (g : IntegSt → IntegSt) : (s.mInteg g).free = s.free := rfl
@[simp] theorem mInteg_pending (g : IntegSt → IntegSt) : (s.mInteg g).pending = s.pending := rfl
@[simp] theorem mInteg_nv (g : IntegSt → IntegSt) : (s.mInteg g).nv = s.nv := rfl
@[simp] theorem mInteg_dev (g : IntegSt → IntegSt) : (s.mInteg g).dev = s.dev := rfl
@[simp] theorem mInteg_log (g : IntegSt → IntegSt) : (s.mInteg g).log = s.log := rfl
@[simp] theorem mInteg_tal (g : IntegSt → IntegSt) : (s.mInteg g).tal = s.tal := rfl
@[simp] theorem mInteg_pit (g : IntegSt → IntegSt) : (s.mInteg g).pit = s.pit := rfl
@[simp] theorem mInteg_host (g : IntegSt → IntegSt) : (s.mInteg g).host = s.host := rfl
@[simp] theorem mInteg_led (g : IntegSt → IntegSt) : (s.mInteg g).led = s.led := rfl
@[simp] theorem mInteg_lc (g : IntegSt → IntegSt) : (s.mInteg g).lc = s.lc := rfl
@[simp] theorem mInteg_cr (g : IntegSt → IntegSt) : (s.mInteg g).cr = s.cr := rfl
@[simp] theorem mInteg_wp (g : IntegSt → IntegSt) : (s.mInteg g).wp = s.wp := rfl
@[simp] theorem mInteg_st (g : IntegSt → IntegSt) : (s.mInteg g).st = s.st := rfl
@[simp] theorem mInteg_integ (g : IntegSt → IntegSt) : (s.mInteg g).integ = g s.integ := rfl
@[simp] theorem mInteg_sw (g : IntegSt → IntegSt) : (s.mInteg g).sw = s.sw := rfl
@[simp] theorem mInteg_bell (g : IntegSt → IntegSt) : (s.mInteg g).bell = s.bell := rfl
@[simp] theorem mInteg_ciph (g : IntegSt → IntegSt) : (s.mInteg g).ciph = s.ciph := rfl
@[simp] theorem mInteg_por (g : IntegSt → IntegSt) : (s.mInteg g).por = s.por := rfl
@[simp] theorem mInteg_isl (g : IntegSt → IntegSt) : (s.mInteg g).isl = s.isl := rfl
@[simp] theorem mInteg_pwr (g : IntegSt → IntegSt) : (s.mInteg g).pwr = s.pwr := rfl
@[simp] theorem mInteg_core (g : IntegSt → IntegSt) : (s.mInteg g).core = s.core := rfl
@[simp] theorem mInteg_cf (g : IntegSt → IntegSt) : (s.mInteg g).cf = s.cf := rfl
@[simp] theorem mInteg_armed (g : IntegSt → IntegSt) : (s.mInteg g).armed = s.armed := rfl
@[simp] theorem mInteg_jtag (g : IntegSt → IntegSt) : (s.mInteg g).jtag = s.jtag := rfl
@[simp] theorem mInteg_bus (g : IntegSt → IntegSt) : (s.mInteg g).bus = s.bus := rfl
@[simp] theorem mInteg_dram (g : IntegSt → IntegSt) : (s.mInteg g).dram = s.dram := rfl
@[simp] theorem mInteg_rd (g : IntegSt → IntegSt) (f : Field) (i b : Nat) : (s.mInteg g).rd f i b = s.rd f i b := rfl

/-! ### mSw -/

@[simp] theorem mSw_regs (g : SweepSt → SweepSt) : (s.mSw g).regs = s.regs := rfl
@[simp] theorem mSw_mono (g : SweepSt → SweepSt) : (s.mSw g).mono = s.mono := rfl
@[simp] theorem mSw_free (g : SweepSt → SweepSt) : (s.mSw g).free = s.free := rfl
@[simp] theorem mSw_pending (g : SweepSt → SweepSt) : (s.mSw g).pending = s.pending := rfl
@[simp] theorem mSw_nv (g : SweepSt → SweepSt) : (s.mSw g).nv = s.nv := rfl
@[simp] theorem mSw_dev (g : SweepSt → SweepSt) : (s.mSw g).dev = s.dev := rfl
@[simp] theorem mSw_log (g : SweepSt → SweepSt) : (s.mSw g).log = s.log := rfl
@[simp] theorem mSw_tal (g : SweepSt → SweepSt) : (s.mSw g).tal = s.tal := rfl
@[simp] theorem mSw_pit (g : SweepSt → SweepSt) : (s.mSw g).pit = s.pit := rfl
@[simp] theorem mSw_host (g : SweepSt → SweepSt) : (s.mSw g).host = s.host := rfl
@[simp] theorem mSw_led (g : SweepSt → SweepSt) : (s.mSw g).led = s.led := rfl
@[simp] theorem mSw_lc (g : SweepSt → SweepSt) : (s.mSw g).lc = s.lc := rfl
@[simp] theorem mSw_cr (g : SweepSt → SweepSt) : (s.mSw g).cr = s.cr := rfl
@[simp] theorem mSw_wp (g : SweepSt → SweepSt) : (s.mSw g).wp = s.wp := rfl
@[simp] theorem mSw_st (g : SweepSt → SweepSt) : (s.mSw g).st = s.st := rfl
@[simp] theorem mSw_integ (g : SweepSt → SweepSt) : (s.mSw g).integ = s.integ := rfl
@[simp] theorem mSw_sw (g : SweepSt → SweepSt) : (s.mSw g).sw = g s.sw := rfl
@[simp] theorem mSw_bell (g : SweepSt → SweepSt) : (s.mSw g).bell = s.bell := rfl
@[simp] theorem mSw_ciph (g : SweepSt → SweepSt) : (s.mSw g).ciph = s.ciph := rfl
@[simp] theorem mSw_por (g : SweepSt → SweepSt) : (s.mSw g).por = s.por := rfl
@[simp] theorem mSw_isl (g : SweepSt → SweepSt) : (s.mSw g).isl = s.isl := rfl
@[simp] theorem mSw_pwr (g : SweepSt → SweepSt) : (s.mSw g).pwr = s.pwr := rfl
@[simp] theorem mSw_core (g : SweepSt → SweepSt) : (s.mSw g).core = s.core := rfl
@[simp] theorem mSw_cf (g : SweepSt → SweepSt) : (s.mSw g).cf = s.cf := rfl
@[simp] theorem mSw_armed (g : SweepSt → SweepSt) : (s.mSw g).armed = s.armed := rfl
@[simp] theorem mSw_jtag (g : SweepSt → SweepSt) : (s.mSw g).jtag = s.jtag := rfl
@[simp] theorem mSw_bus (g : SweepSt → SweepSt) : (s.mSw g).bus = s.bus := rfl
@[simp] theorem mSw_dram (g : SweepSt → SweepSt) : (s.mSw g).dram = s.dram := rfl
@[simp] theorem mSw_rd (g : SweepSt → SweepSt) (f : Field) (i b : Nat) : (s.mSw g).rd f i b = s.rd f i b := rfl

/-! ### mBell -/

@[simp] theorem mBell_regs (g : BellSt → BellSt) : (s.mBell g).regs = s.regs := rfl
@[simp] theorem mBell_mono (g : BellSt → BellSt) : (s.mBell g).mono = s.mono := rfl
@[simp] theorem mBell_free (g : BellSt → BellSt) : (s.mBell g).free = s.free := rfl
@[simp] theorem mBell_pending (g : BellSt → BellSt) : (s.mBell g).pending = s.pending := rfl
@[simp] theorem mBell_nv (g : BellSt → BellSt) : (s.mBell g).nv = s.nv := rfl
@[simp] theorem mBell_dev (g : BellSt → BellSt) : (s.mBell g).dev = s.dev := rfl
@[simp] theorem mBell_log (g : BellSt → BellSt) : (s.mBell g).log = s.log := rfl
@[simp] theorem mBell_tal (g : BellSt → BellSt) : (s.mBell g).tal = s.tal := rfl
@[simp] theorem mBell_pit (g : BellSt → BellSt) : (s.mBell g).pit = s.pit := rfl
@[simp] theorem mBell_host (g : BellSt → BellSt) : (s.mBell g).host = s.host := rfl
@[simp] theorem mBell_led (g : BellSt → BellSt) : (s.mBell g).led = s.led := rfl
@[simp] theorem mBell_lc (g : BellSt → BellSt) : (s.mBell g).lc = s.lc := rfl
@[simp] theorem mBell_cr (g : BellSt → BellSt) : (s.mBell g).cr = s.cr := rfl
@[simp] theorem mBell_wp (g : BellSt → BellSt) : (s.mBell g).wp = s.wp := rfl
@[simp] theorem mBell_st (g : BellSt → BellSt) : (s.mBell g).st = s.st := rfl
@[simp] theorem mBell_integ (g : BellSt → BellSt) : (s.mBell g).integ = s.integ := rfl
@[simp] theorem mBell_sw (g : BellSt → BellSt) : (s.mBell g).sw = s.sw := rfl
@[simp] theorem mBell_bell (g : BellSt → BellSt) : (s.mBell g).bell = g s.bell := rfl
@[simp] theorem mBell_ciph (g : BellSt → BellSt) : (s.mBell g).ciph = s.ciph := rfl
@[simp] theorem mBell_por (g : BellSt → BellSt) : (s.mBell g).por = s.por := rfl
@[simp] theorem mBell_isl (g : BellSt → BellSt) : (s.mBell g).isl = s.isl := rfl
@[simp] theorem mBell_pwr (g : BellSt → BellSt) : (s.mBell g).pwr = s.pwr := rfl
@[simp] theorem mBell_core (g : BellSt → BellSt) : (s.mBell g).core = s.core := rfl
@[simp] theorem mBell_cf (g : BellSt → BellSt) : (s.mBell g).cf = s.cf := rfl
@[simp] theorem mBell_armed (g : BellSt → BellSt) : (s.mBell g).armed = s.armed := rfl
@[simp] theorem mBell_jtag (g : BellSt → BellSt) : (s.mBell g).jtag = s.jtag := rfl
@[simp] theorem mBell_bus (g : BellSt → BellSt) : (s.mBell g).bus = s.bus := rfl
@[simp] theorem mBell_dram (g : BellSt → BellSt) : (s.mBell g).dram = s.dram := rfl
@[simp] theorem mBell_rd (g : BellSt → BellSt) (f : Field) (i b : Nat) : (s.mBell g).rd f i b = s.rd f i b := rfl

/-! ### mCiph -/

@[simp] theorem mCiph_regs (g : CiphSt → CiphSt) : (s.mCiph g).regs = s.regs := rfl
@[simp] theorem mCiph_mono (g : CiphSt → CiphSt) : (s.mCiph g).mono = s.mono := rfl
@[simp] theorem mCiph_free (g : CiphSt → CiphSt) : (s.mCiph g).free = s.free := rfl
@[simp] theorem mCiph_pending (g : CiphSt → CiphSt) : (s.mCiph g).pending = s.pending := rfl
@[simp] theorem mCiph_nv (g : CiphSt → CiphSt) : (s.mCiph g).nv = s.nv := rfl
@[simp] theorem mCiph_dev (g : CiphSt → CiphSt) : (s.mCiph g).dev = s.dev := rfl
@[simp] theorem mCiph_log (g : CiphSt → CiphSt) : (s.mCiph g).log = s.log := rfl
@[simp] theorem mCiph_tal (g : CiphSt → CiphSt) : (s.mCiph g).tal = s.tal := rfl
@[simp] theorem mCiph_pit (g : CiphSt → CiphSt) : (s.mCiph g).pit = s.pit := rfl
@[simp] theorem mCiph_host (g : CiphSt → CiphSt) : (s.mCiph g).host = s.host := rfl
@[simp] theorem mCiph_led (g : CiphSt → CiphSt) : (s.mCiph g).led = s.led := rfl
@[simp] theorem mCiph_lc (g : CiphSt → CiphSt) : (s.mCiph g).lc = s.lc := rfl
@[simp] theorem mCiph_cr (g : CiphSt → CiphSt) : (s.mCiph g).cr = s.cr := rfl
@[simp] theorem mCiph_wp (g : CiphSt → CiphSt) : (s.mCiph g).wp = s.wp := rfl
@[simp] theorem mCiph_st (g : CiphSt → CiphSt) : (s.mCiph g).st = s.st := rfl
@[simp] theorem mCiph_integ (g : CiphSt → CiphSt) : (s.mCiph g).integ = s.integ := rfl
@[simp] theorem mCiph_sw (g : CiphSt → CiphSt) : (s.mCiph g).sw = s.sw := rfl
@[simp] theorem mCiph_bell (g : CiphSt → CiphSt) : (s.mCiph g).bell = s.bell := rfl
@[simp] theorem mCiph_ciph (g : CiphSt → CiphSt) : (s.mCiph g).ciph = g s.ciph := rfl
@[simp] theorem mCiph_por (g : CiphSt → CiphSt) : (s.mCiph g).por = s.por := rfl
@[simp] theorem mCiph_isl (g : CiphSt → CiphSt) : (s.mCiph g).isl = s.isl := rfl
@[simp] theorem mCiph_pwr (g : CiphSt → CiphSt) : (s.mCiph g).pwr = s.pwr := rfl
@[simp] theorem mCiph_core (g : CiphSt → CiphSt) : (s.mCiph g).core = s.core := rfl
@[simp] theorem mCiph_cf (g : CiphSt → CiphSt) : (s.mCiph g).cf = s.cf := rfl
@[simp] theorem mCiph_armed (g : CiphSt → CiphSt) : (s.mCiph g).armed = s.armed := rfl
@[simp] theorem mCiph_jtag (g : CiphSt → CiphSt) : (s.mCiph g).jtag = s.jtag := rfl
@[simp] theorem mCiph_bus (g : CiphSt → CiphSt) : (s.mCiph g).bus = s.bus := rfl
@[simp] theorem mCiph_dram (g : CiphSt → CiphSt) : (s.mCiph g).dram = s.dram := rfl
@[simp] theorem mCiph_rd (g : CiphSt → CiphSt) (f : Field) (i b : Nat) : (s.mCiph g).rd f i b = s.rd f i b := rfl

/-! ### mPor -/

@[simp] theorem mPor_regs (g : PorterSt → PorterSt) : (s.mPor g).regs = s.regs := rfl
@[simp] theorem mPor_mono (g : PorterSt → PorterSt) : (s.mPor g).mono = s.mono := rfl
@[simp] theorem mPor_free (g : PorterSt → PorterSt) : (s.mPor g).free = s.free := rfl
@[simp] theorem mPor_pending (g : PorterSt → PorterSt) : (s.mPor g).pending = s.pending := rfl
@[simp] theorem mPor_nv (g : PorterSt → PorterSt) : (s.mPor g).nv = s.nv := rfl
@[simp] theorem mPor_dev (g : PorterSt → PorterSt) : (s.mPor g).dev = s.dev := rfl
@[simp] theorem mPor_log (g : PorterSt → PorterSt) : (s.mPor g).log = s.log := rfl
@[simp] theorem mPor_tal (g : PorterSt → PorterSt) : (s.mPor g).tal = s.tal := rfl
@[simp] theorem mPor_pit (g : PorterSt → PorterSt) : (s.mPor g).pit = s.pit := rfl
@[simp] theorem mPor_host (g : PorterSt → PorterSt) : (s.mPor g).host = s.host := rfl
@[simp] theorem mPor_led (g : PorterSt → PorterSt) : (s.mPor g).led = s.led := rfl
@[simp] theorem mPor_lc (g : PorterSt → PorterSt) : (s.mPor g).lc = s.lc := rfl
@[simp] theorem mPor_cr (g : PorterSt → PorterSt) : (s.mPor g).cr = s.cr := rfl
@[simp] theorem mPor_wp (g : PorterSt → PorterSt) : (s.mPor g).wp = s.wp := rfl
@[simp] theorem mPor_st (g : PorterSt → PorterSt) : (s.mPor g).st = s.st := rfl
@[simp] theorem mPor_integ (g : PorterSt → PorterSt) : (s.mPor g).integ = s.integ := rfl
@[simp] theorem mPor_sw (g : PorterSt → PorterSt) : (s.mPor g).sw = s.sw := rfl
@[simp] theorem mPor_bell (g : PorterSt → PorterSt) : (s.mPor g).bell = s.bell := rfl
@[simp] theorem mPor_ciph (g : PorterSt → PorterSt) : (s.mPor g).ciph = s.ciph := rfl
@[simp] theorem mPor_por (g : PorterSt → PorterSt) : (s.mPor g).por = g s.por := rfl
@[simp] theorem mPor_isl (g : PorterSt → PorterSt) : (s.mPor g).isl = s.isl := rfl
@[simp] theorem mPor_pwr (g : PorterSt → PorterSt) : (s.mPor g).pwr = s.pwr := rfl
@[simp] theorem mPor_core (g : PorterSt → PorterSt) : (s.mPor g).core = s.core := rfl
@[simp] theorem mPor_cf (g : PorterSt → PorterSt) : (s.mPor g).cf = s.cf := rfl
@[simp] theorem mPor_armed (g : PorterSt → PorterSt) : (s.mPor g).armed = s.armed := rfl
@[simp] theorem mPor_jtag (g : PorterSt → PorterSt) : (s.mPor g).jtag = s.jtag := rfl
@[simp] theorem mPor_bus (g : PorterSt → PorterSt) : (s.mPor g).bus = s.bus := rfl
@[simp] theorem mPor_dram (g : PorterSt → PorterSt) : (s.mPor g).dram = s.dram := rfl
@[simp] theorem mPor_rd (g : PorterSt → PorterSt) (f : Field) (i b : Nat) : (s.mPor g).rd f i b = s.rd f i b := rfl

/-! ### mIsl -/

@[simp] theorem mIsl_regs (g : IslSt → IslSt) : (s.mIsl g).regs = s.regs := rfl
@[simp] theorem mIsl_mono (g : IslSt → IslSt) : (s.mIsl g).mono = s.mono := rfl
@[simp] theorem mIsl_free (g : IslSt → IslSt) : (s.mIsl g).free = s.free := rfl
@[simp] theorem mIsl_pending (g : IslSt → IslSt) : (s.mIsl g).pending = s.pending := rfl
@[simp] theorem mIsl_nv (g : IslSt → IslSt) : (s.mIsl g).nv = s.nv := rfl
@[simp] theorem mIsl_dev (g : IslSt → IslSt) : (s.mIsl g).dev = s.dev := rfl
@[simp] theorem mIsl_log (g : IslSt → IslSt) : (s.mIsl g).log = s.log := rfl
@[simp] theorem mIsl_tal (g : IslSt → IslSt) : (s.mIsl g).tal = s.tal := rfl
@[simp] theorem mIsl_pit (g : IslSt → IslSt) : (s.mIsl g).pit = s.pit := rfl
@[simp] theorem mIsl_host (g : IslSt → IslSt) : (s.mIsl g).host = s.host := rfl
@[simp] theorem mIsl_led (g : IslSt → IslSt) : (s.mIsl g).led = s.led := rfl
@[simp] theorem mIsl_lc (g : IslSt → IslSt) : (s.mIsl g).lc = s.lc := rfl
@[simp] theorem mIsl_cr (g : IslSt → IslSt) : (s.mIsl g).cr = s.cr := rfl
@[simp] theorem mIsl_wp (g : IslSt → IslSt) : (s.mIsl g).wp = s.wp := rfl
@[simp] theorem mIsl_st (g : IslSt → IslSt) : (s.mIsl g).st = s.st := rfl
@[simp] theorem mIsl_integ (g : IslSt → IslSt) : (s.mIsl g).integ = s.integ := rfl
@[simp] theorem mIsl_sw (g : IslSt → IslSt) : (s.mIsl g).sw = s.sw := rfl
@[simp] theorem mIsl_bell (g : IslSt → IslSt) : (s.mIsl g).bell = s.bell := rfl
@[simp] theorem mIsl_ciph (g : IslSt → IslSt) : (s.mIsl g).ciph = s.ciph := rfl
@[simp] theorem mIsl_por (g : IslSt → IslSt) : (s.mIsl g).por = s.por := rfl
@[simp] theorem mIsl_isl (g : IslSt → IslSt) : (s.mIsl g).isl = g s.isl := rfl
@[simp] theorem mIsl_pwr (g : IslSt → IslSt) : (s.mIsl g).pwr = s.pwr := rfl
@[simp] theorem mIsl_core (g : IslSt → IslSt) : (s.mIsl g).core = s.core := rfl
@[simp] theorem mIsl_cf (g : IslSt → IslSt) : (s.mIsl g).cf = s.cf := rfl
@[simp] theorem mIsl_armed (g : IslSt → IslSt) : (s.mIsl g).armed = s.armed := rfl
@[simp] theorem mIsl_jtag (g : IslSt → IslSt) : (s.mIsl g).jtag = s.jtag := rfl
@[simp] theorem mIsl_bus (g : IslSt → IslSt) : (s.mIsl g).bus = s.bus := rfl
@[simp] theorem mIsl_dram (g : IslSt → IslSt) : (s.mIsl g).dram = s.dram := rfl
@[simp] theorem mIsl_rd (g : IslSt → IslSt) (f : Field) (i b : Nat) : (s.mIsl g).rd f i b = s.rd f i b := rfl

/-! ### mPwr -/

@[simp] theorem mPwr_regs (g : PwrSt → PwrSt) : (s.mPwr g).regs = s.regs := rfl
@[simp] theorem mPwr_mono (g : PwrSt → PwrSt) : (s.mPwr g).mono = s.mono := rfl
@[simp] theorem mPwr_free (g : PwrSt → PwrSt) : (s.mPwr g).free = s.free := rfl
@[simp] theorem mPwr_pending (g : PwrSt → PwrSt) : (s.mPwr g).pending = s.pending := rfl
@[simp] theorem mPwr_nv (g : PwrSt → PwrSt) : (s.mPwr g).nv = s.nv := rfl
@[simp] theorem mPwr_dev (g : PwrSt → PwrSt) : (s.mPwr g).dev = s.dev := rfl
@[simp] theorem mPwr_log (g : PwrSt → PwrSt) : (s.mPwr g).log = s.log := rfl
@[simp] theorem mPwr_tal (g : PwrSt → PwrSt) : (s.mPwr g).tal = s.tal := rfl
@[simp] theorem mPwr_pit (g : PwrSt → PwrSt) : (s.mPwr g).pit = s.pit := rfl
@[simp] theorem mPwr_host (g : PwrSt → PwrSt) : (s.mPwr g).host = s.host := rfl
@[simp] theorem mPwr_led (g : PwrSt → PwrSt) : (s.mPwr g).led = s.led := rfl
@[simp] theorem mPwr_lc (g : PwrSt → PwrSt) : (s.mPwr g).lc = s.lc := rfl
@[simp] theorem mPwr_cr (g : PwrSt → PwrSt) : (s.mPwr g).cr = s.cr := rfl
@[simp] theorem mPwr_wp (g : PwrSt → PwrSt) : (s.mPwr g).wp = s.wp := rfl
@[simp] theorem mPwr_st (g : PwrSt → PwrSt) : (s.mPwr g).st = s.st := rfl
@[simp] theorem mPwr_integ (g : PwrSt → PwrSt) : (s.mPwr g).integ = s.integ := rfl
@[simp] theorem mPwr_sw (g : PwrSt → PwrSt) : (s.mPwr g).sw = s.sw := rfl
@[simp] theorem mPwr_bell (g : PwrSt → PwrSt) : (s.mPwr g).bell = s.bell := rfl
@[simp] theorem mPwr_ciph (g : PwrSt → PwrSt) : (s.mPwr g).ciph = s.ciph := rfl
@[simp] theorem mPwr_por (g : PwrSt → PwrSt) : (s.mPwr g).por = s.por := rfl
@[simp] theorem mPwr_isl (g : PwrSt → PwrSt) : (s.mPwr g).isl = s.isl := rfl
@[simp] theorem mPwr_pwr (g : PwrSt → PwrSt) : (s.mPwr g).pwr = g s.pwr := rfl
@[simp] theorem mPwr_core (g : PwrSt → PwrSt) : (s.mPwr g).core = s.core := rfl
@[simp] theorem mPwr_cf (g : PwrSt → PwrSt) : (s.mPwr g).cf = s.cf := rfl
@[simp] theorem mPwr_armed (g : PwrSt → PwrSt) : (s.mPwr g).armed = s.armed := rfl
@[simp] theorem mPwr_jtag (g : PwrSt → PwrSt) : (s.mPwr g).jtag = s.jtag := rfl
@[simp] theorem mPwr_bus (g : PwrSt → PwrSt) : (s.mPwr g).bus = s.bus := rfl
@[simp] theorem mPwr_dram (g : PwrSt → PwrSt) : (s.mPwr g).dram = s.dram := rfl
@[simp] theorem mPwr_rd (g : PwrSt → PwrSt) (f : Field) (i b : Nat) : (s.mPwr g).rd f i b = s.rd f i b := rfl

/-! ### mCore -/

@[simp] theorem mCore_regs (g : CoreSt → CoreSt) : (s.mCore g).regs = s.regs := rfl
@[simp] theorem mCore_mono (g : CoreSt → CoreSt) : (s.mCore g).mono = s.mono := rfl
@[simp] theorem mCore_free (g : CoreSt → CoreSt) : (s.mCore g).free = s.free := rfl
@[simp] theorem mCore_pending (g : CoreSt → CoreSt) : (s.mCore g).pending = s.pending := rfl
@[simp] theorem mCore_nv (g : CoreSt → CoreSt) : (s.mCore g).nv = s.nv := rfl
@[simp] theorem mCore_dev (g : CoreSt → CoreSt) : (s.mCore g).dev = s.dev := rfl
@[simp] theorem mCore_log (g : CoreSt → CoreSt) : (s.mCore g).log = s.log := rfl
@[simp] theorem mCore_tal (g : CoreSt → CoreSt) : (s.mCore g).tal = s.tal := rfl
@[simp] theorem mCore_pit (g : CoreSt → CoreSt) : (s.mCore g).pit = s.pit := rfl
@[simp] theorem mCore_host (g : CoreSt → CoreSt) : (s.mCore g).host = s.host := rfl
@[simp] theorem mCore_led (g : CoreSt → CoreSt) : (s.mCore g).led = s.led := rfl
@[simp] theorem mCore_lc (g : CoreSt → CoreSt) : (s.mCore g).lc = s.lc := rfl
@[simp] theorem mCore_cr (g : CoreSt → CoreSt) : (s.mCore g).cr = s.cr := rfl
@[simp] theorem mCore_wp (g : CoreSt → CoreSt) : (s.mCore g).wp = s.wp := rfl
@[simp] theorem mCore_st (g : CoreSt → CoreSt) : (s.mCore g).st = s.st := rfl
@[simp] theorem mCore_integ (g : CoreSt → CoreSt) : (s.mCore g).integ = s.integ := rfl
@[simp] theorem mCore_sw (g : CoreSt → CoreSt) : (s.mCore g).sw = s.sw := rfl
@[simp] theorem mCore_bell (g : CoreSt → CoreSt) : (s.mCore g).bell = s.bell := rfl
@[simp] theorem mCore_ciph (g : CoreSt → CoreSt) : (s.mCore g).ciph = s.ciph := rfl
@[simp] theorem mCore_por (g : CoreSt → CoreSt) : (s.mCore g).por = s.por := rfl
@[simp] theorem mCore_isl (g : CoreSt → CoreSt) : (s.mCore g).isl = s.isl := rfl
@[simp] theorem mCore_pwr (g : CoreSt → CoreSt) : (s.mCore g).pwr = s.pwr := rfl
@[simp] theorem mCore_core (g : CoreSt → CoreSt) : (s.mCore g).core = g s.core := rfl
@[simp] theorem mCore_cf (g : CoreSt → CoreSt) : (s.mCore g).cf = s.cf := rfl
@[simp] theorem mCore_armed (g : CoreSt → CoreSt) : (s.mCore g).armed = s.armed := rfl
@[simp] theorem mCore_jtag (g : CoreSt → CoreSt) : (s.mCore g).jtag = s.jtag := rfl
@[simp] theorem mCore_bus (g : CoreSt → CoreSt) : (s.mCore g).bus = s.bus := rfl
@[simp] theorem mCore_dram (g : CoreSt → CoreSt) : (s.mCore g).dram = s.dram := rfl
@[simp] theorem mCore_rd (g : CoreSt → CoreSt) (f : Field) (i b : Nat) : (s.mCore g).rd f i b = s.rd f i b := rfl

/-! ### mCf -/

@[simp] theorem mCf_regs (g : CfSt → CfSt) : (s.mCf g).regs = s.regs := rfl
@[simp] theorem mCf_mono (g : CfSt → CfSt) : (s.mCf g).mono = s.mono := rfl
@[simp] theorem mCf_free (g : CfSt → CfSt) : (s.mCf g).free = s.free := rfl
@[simp] theorem mCf_pending (g : CfSt → CfSt) : (s.mCf g).pending = s.pending := rfl
@[simp] theorem mCf_nv (g : CfSt → CfSt) : (s.mCf g).nv = s.nv := rfl
@[simp] theorem mCf_dev (g : CfSt → CfSt) : (s.mCf g).dev = s.dev := rfl
@[simp] theorem mCf_log (g : CfSt → CfSt) : (s.mCf g).log = s.log := rfl
@[simp] theorem mCf_tal (g : CfSt → CfSt) : (s.mCf g).tal = s.tal := rfl
@[simp] theorem mCf_pit (g : CfSt → CfSt) : (s.mCf g).pit = s.pit := rfl
@[simp] theorem mCf_host (g : CfSt → CfSt) : (s.mCf g).host = s.host := rfl
@[simp] theorem mCf_led (g : CfSt → CfSt) : (s.mCf g).led = s.led := rfl
@[simp] theorem mCf_lc (g : CfSt → CfSt) : (s.mCf g).lc = s.lc := rfl
@[simp] theorem mCf_cr (g : CfSt → CfSt) : (s.mCf g).cr = s.cr := rfl
@[simp] theorem mCf_wp (g : CfSt → CfSt) : (s.mCf g).wp = s.wp := rfl
@[simp] theorem mCf_st (g : CfSt → CfSt) : (s.mCf g).st = s.st := rfl
@[simp] theorem mCf_integ (g : CfSt → CfSt) : (s.mCf g).integ = s.integ := rfl
@[simp] theorem mCf_sw (g : CfSt → CfSt) : (s.mCf g).sw = s.sw := rfl
@[simp] theorem mCf_bell (g : CfSt → CfSt) : (s.mCf g).bell = s.bell := rfl
@[simp] theorem mCf_ciph (g : CfSt → CfSt) : (s.mCf g).ciph = s.ciph := rfl
@[simp] theorem mCf_por (g : CfSt → CfSt) : (s.mCf g).por = s.por := rfl
@[simp] theorem mCf_isl (g : CfSt → CfSt) : (s.mCf g).isl = s.isl := rfl
@[simp] theorem mCf_pwr (g : CfSt → CfSt) : (s.mCf g).pwr = s.pwr := rfl
@[simp] theorem mCf_core (g : CfSt → CfSt) : (s.mCf g).core = s.core := rfl
@[simp] theorem mCf_cf (g : CfSt → CfSt) : (s.mCf g).cf = g s.cf := rfl
@[simp] theorem mCf_armed (g : CfSt → CfSt) : (s.mCf g).armed = s.armed := rfl
@[simp] theorem mCf_jtag (g : CfSt → CfSt) : (s.mCf g).jtag = s.jtag := rfl
@[simp] theorem mCf_bus (g : CfSt → CfSt) : (s.mCf g).bus = s.bus := rfl
@[simp] theorem mCf_dram (g : CfSt → CfSt) : (s.mCf g).dram = s.dram := rfl
@[simp] theorem mCf_rd (g : CfSt → CfSt) (f : Field) (i b : Nat) : (s.mCf g).rd f i b = s.rd f i b := rfl

/-! ### mArmed -/

@[simp] theorem mArmed_regs (g : List Armed → List Armed) : (s.mArmed g).regs = s.regs := rfl
@[simp] theorem mArmed_mono (g : List Armed → List Armed) : (s.mArmed g).mono = s.mono := rfl
@[simp] theorem mArmed_free (g : List Armed → List Armed) : (s.mArmed g).free = s.free := rfl
@[simp] theorem mArmed_pending (g : List Armed → List Armed) : (s.mArmed g).pending = s.pending := rfl
@[simp] theorem mArmed_nv (g : List Armed → List Armed) : (s.mArmed g).nv = s.nv := rfl
@[simp] theorem mArmed_dev (g : List Armed → List Armed) : (s.mArmed g).dev = s.dev := rfl
@[simp] theorem mArmed_log (g : List Armed → List Armed) : (s.mArmed g).log = s.log := rfl
@[simp] theorem mArmed_tal (g : List Armed → List Armed) : (s.mArmed g).tal = s.tal := rfl
@[simp] theorem mArmed_pit (g : List Armed → List Armed) : (s.mArmed g).pit = s.pit := rfl
@[simp] theorem mArmed_host (g : List Armed → List Armed) : (s.mArmed g).host = s.host := rfl
@[simp] theorem mArmed_led (g : List Armed → List Armed) : (s.mArmed g).led = s.led := rfl
@[simp] theorem mArmed_lc (g : List Armed → List Armed) : (s.mArmed g).lc = s.lc := rfl
@[simp] theorem mArmed_cr (g : List Armed → List Armed) : (s.mArmed g).cr = s.cr := rfl
@[simp] theorem mArmed_wp (g : List Armed → List Armed) : (s.mArmed g).wp = s.wp := rfl
@[simp] theorem mArmed_st (g : List Armed → List Armed) : (s.mArmed g).st = s.st := rfl
@[simp] theorem mArmed_integ (g : List Armed → List Armed) : (s.mArmed g).integ = s.integ := rfl
@[simp] theorem mArmed_sw (g : List Armed → List Armed) : (s.mArmed g).sw = s.sw := rfl
@[simp] theorem mArmed_bell (g : List Armed → List Armed) : (s.mArmed g).bell = s.bell := rfl
@[simp] theorem mArmed_ciph (g : List Armed → List Armed) : (s.mArmed g).ciph = s.ciph := rfl
@[simp] theorem mArmed_por (g : List Armed → List Armed) : (s.mArmed g).por = s.por := rfl
@[simp] theorem mArmed_isl (g : List Armed → List Armed) : (s.mArmed g).isl = s.isl := rfl
@[simp] theorem mArmed_pwr (g : List Armed → List Armed) : (s.mArmed g).pwr = s.pwr := rfl
@[simp] theorem mArmed_core (g : List Armed → List Armed) : (s.mArmed g).core = s.core := rfl
@[simp] theorem mArmed_cf (g : List Armed → List Armed) : (s.mArmed g).cf = s.cf := rfl
@[simp] theorem mArmed_armed (g : List Armed → List Armed) : (s.mArmed g).armed = g s.armed := rfl
@[simp] theorem mArmed_jtag (g : List Armed → List Armed) : (s.mArmed g).jtag = s.jtag := rfl
@[simp] theorem mArmed_bus (g : List Armed → List Armed) : (s.mArmed g).bus = s.bus := rfl
@[simp] theorem mArmed_dram (g : List Armed → List Armed) : (s.mArmed g).dram = s.dram := rfl
@[simp] theorem mArmed_rd (g : List Armed → List Armed) (f : Field) (i b : Nat) : (s.mArmed g).rd f i b = s.rd f i b := rfl

/-! ### mJtag -/

@[simp] theorem mJtag_regs (g : JtagSt → JtagSt) : (s.mJtag g).regs = s.regs := rfl
@[simp] theorem mJtag_mono (g : JtagSt → JtagSt) : (s.mJtag g).mono = s.mono := rfl
@[simp] theorem mJtag_free (g : JtagSt → JtagSt) : (s.mJtag g).free = s.free := rfl
@[simp] theorem mJtag_pending (g : JtagSt → JtagSt) : (s.mJtag g).pending = s.pending := rfl
@[simp] theorem mJtag_nv (g : JtagSt → JtagSt) : (s.mJtag g).nv = s.nv := rfl
@[simp] theorem mJtag_dev (g : JtagSt → JtagSt) : (s.mJtag g).dev = s.dev := rfl
@[simp] theorem mJtag_log (g : JtagSt → JtagSt) : (s.mJtag g).log = s.log := rfl
@[simp] theorem mJtag_tal (g : JtagSt → JtagSt) : (s.mJtag g).tal = s.tal := rfl
@[simp] theorem mJtag_pit (g : JtagSt → JtagSt) : (s.mJtag g).pit = s.pit := rfl
@[simp] theorem mJtag_host (g : JtagSt → JtagSt) : (s.mJtag g).host = s.host := rfl
@[simp] theorem mJtag_led (g : JtagSt → JtagSt) : (s.mJtag g).led = s.led := rfl
@[simp] theorem mJtag_lc (g : JtagSt → JtagSt) : (s.mJtag g).lc = s.lc := rfl
@[simp] theorem mJtag_cr (g : JtagSt → JtagSt) : (s.mJtag g).cr = s.cr := rfl
@[simp] theorem mJtag_wp (g : JtagSt → JtagSt) : (s.mJtag g).wp = s.wp := rfl
@[simp] theorem mJtag_st (g : JtagSt → JtagSt) : (s.mJtag g).st = s.st := rfl
@[simp] theorem mJtag_integ (g : JtagSt → JtagSt) : (s.mJtag g).integ = s.integ := rfl
@[simp] theorem mJtag_sw (g : JtagSt → JtagSt) : (s.mJtag g).sw = s.sw := rfl
@[simp] theorem mJtag_bell (g : JtagSt → JtagSt) : (s.mJtag g).bell = s.bell := rfl
@[simp] theorem mJtag_ciph (g : JtagSt → JtagSt) : (s.mJtag g).ciph = s.ciph := rfl
@[simp] theorem mJtag_por (g : JtagSt → JtagSt) : (s.mJtag g).por = s.por := rfl
@[simp] theorem mJtag_isl (g : JtagSt → JtagSt) : (s.mJtag g).isl = s.isl := rfl
@[simp] theorem mJtag_pwr (g : JtagSt → JtagSt) : (s.mJtag g).pwr = s.pwr := rfl
@[simp] theorem mJtag_core (g : JtagSt → JtagSt) : (s.mJtag g).core = s.core := rfl
@[simp] theorem mJtag_cf (g : JtagSt → JtagSt) : (s.mJtag g).cf = s.cf := rfl
@[simp] theorem mJtag_armed (g : JtagSt → JtagSt) : (s.mJtag g).armed = s.armed := rfl
@[simp] theorem mJtag_jtag (g : JtagSt → JtagSt) : (s.mJtag g).jtag = g s.jtag := rfl
@[simp] theorem mJtag_bus (g : JtagSt → JtagSt) : (s.mJtag g).bus = s.bus := rfl
@[simp] theorem mJtag_dram (g : JtagSt → JtagSt) : (s.mJtag g).dram = s.dram := rfl
@[simp] theorem mJtag_rd (g : JtagSt → JtagSt) (f : Field) (i b : Nat) : (s.mJtag g).rd f i b = s.rd f i b := rfl

/-! ### mBus -/

@[simp] theorem mBus_regs (g : BusSt → BusSt) : (s.mBus g).regs = s.regs := rfl
@[simp] theorem mBus_mono (g : BusSt → BusSt) : (s.mBus g).mono = s.mono := rfl
@[simp] theorem mBus_free (g : BusSt → BusSt) : (s.mBus g).free = s.free := rfl
@[simp] theorem mBus_pending (g : BusSt → BusSt) : (s.mBus g).pending = s.pending := rfl
@[simp] theorem mBus_nv (g : BusSt → BusSt) : (s.mBus g).nv = s.nv := rfl
@[simp] theorem mBus_dev (g : BusSt → BusSt) : (s.mBus g).dev = s.dev := rfl
@[simp] theorem mBus_log (g : BusSt → BusSt) : (s.mBus g).log = s.log := rfl
@[simp] theorem mBus_tal (g : BusSt → BusSt) : (s.mBus g).tal = s.tal := rfl
@[simp] theorem mBus_pit (g : BusSt → BusSt) : (s.mBus g).pit = s.pit := rfl
@[simp] theorem mBus_host (g : BusSt → BusSt) : (s.mBus g).host = s.host := rfl
@[simp] theorem mBus_led (g : BusSt → BusSt) : (s.mBus g).led = s.led := rfl
@[simp] theorem mBus_lc (g : BusSt → BusSt) : (s.mBus g).lc = s.lc := rfl
@[simp] theorem mBus_cr (g : BusSt → BusSt) : (s.mBus g).cr = s.cr := rfl
@[simp] theorem mBus_wp (g : BusSt → BusSt) : (s.mBus g).wp = s.wp := rfl
@[simp] theorem mBus_st (g : BusSt → BusSt) : (s.mBus g).st = s.st := rfl
@[simp] theorem mBus_integ (g : BusSt → BusSt) : (s.mBus g).integ = s.integ := rfl
@[simp] theorem mBus_sw (g : BusSt → BusSt) : (s.mBus g).sw = s.sw := rfl
@[simp] theorem mBus_bell (g : BusSt → BusSt) : (s.mBus g).bell = s.bell := rfl
@[simp] theorem mBus_ciph (g : BusSt → BusSt) : (s.mBus g).ciph = s.ciph := rfl
@[simp] theorem mBus_por (g : BusSt → BusSt) : (s.mBus g).por = s.por := rfl
@[simp] theorem mBus_isl (g : BusSt → BusSt) : (s.mBus g).isl = s.isl := rfl
@[simp] theorem mBus_pwr (g : BusSt → BusSt) : (s.mBus g).pwr = s.pwr := rfl
@[simp] theorem mBus_core (g : BusSt → BusSt) : (s.mBus g).core = s.core := rfl
@[simp] theorem mBus_cf (g : BusSt → BusSt) : (s.mBus g).cf = s.cf := rfl
@[simp] theorem mBus_armed (g : BusSt → BusSt) : (s.mBus g).armed = s.armed := rfl
@[simp] theorem mBus_jtag (g : BusSt → BusSt) : (s.mBus g).jtag = s.jtag := rfl
@[simp] theorem mBus_bus (g : BusSt → BusSt) : (s.mBus g).bus = g s.bus := rfl
@[simp] theorem mBus_dram (g : BusSt → BusSt) : (s.mBus g).dram = s.dram := rfl
@[simp] theorem mBus_rd (g : BusSt → BusSt) (f : Field) (i b : Nat) : (s.mBus g).rd f i b = s.rd f i b := rfl

/-! ### wr -/

theorem wr_regs (f : Field) (v i b : Nat) :
    (s.wr f v i b).regs = s.regs.set f.reset (f.key i b) (v % 2 ^ f.width) := rfl
@[simp] theorem wr_mono (f : Field) (v i b : Nat) : (s.wr f v i b).mono = s.mono := rfl
@[simp] theorem wr_free (f : Field) (v i b : Nat) : (s.wr f v i b).free = s.free := rfl
@[simp] theorem wr_pending (f : Field) (v i b : Nat) : (s.wr f v i b).pending = s.pending := rfl
@[simp] theorem wr_nv (f : Field) (v i b : Nat) : (s.wr f v i b).nv = s.nv := rfl
@[simp] theorem wr_dev (f : Field) (v i b : Nat) : (s.wr f v i b).dev = s.dev := rfl
@[simp] theorem wr_log (f : Field) (v i b : Nat) : (s.wr f v i b).log = s.log := rfl
@[simp] theorem wr_tal (f : Field) (v i b : Nat) : (s.wr f v i b).tal = s.tal := rfl
@[simp] theorem wr_pit (f : Field) (v i b : Nat) : (s.wr f v i b).pit = s.pit := rfl
@[simp] theorem wr_host (f : Field) (v i b : Nat) : (s.wr f v i b).host = s.host := rfl
@[simp] theorem wr_led (f : Field) (v i b : Nat) : (s.wr f v i b).led = s.led := rfl
@[simp] theorem wr_lc (f : Field) (v i b : Nat) : (s.wr f v i b).lc = s.lc := rfl
@[simp] theorem wr_cr (f : Field) (v i b : Nat) : (s.wr f v i b).cr = s.cr := rfl
@[simp] theorem wr_wp (f : Field) (v i b : Nat) : (s.wr f v i b).wp = s.wp := rfl
@[simp] theorem wr_st (f : Field) (v i b : Nat) : (s.wr f v i b).st = s.st := rfl
@[simp] theorem wr_integ (f : Field) (v i b : Nat) : (s.wr f v i b).integ = s.integ := rfl
@[simp] theorem wr_sw (f : Field) (v i b : Nat) : (s.wr f v i b).sw = s.sw := rfl
@[simp] theorem wr_bell (f : Field) (v i b : Nat) : (s.wr f v i b).bell = s.bell := rfl
@[simp] theorem wr_ciph (f : Field) (v i b : Nat) : (s.wr f v i b).ciph = s.ciph := rfl
@[simp] theorem wr_por (f : Field) (v i b : Nat) : (s.wr f v i b).por = s.por := rfl
@[simp] theorem wr_isl (f : Field) (v i b : Nat) : (s.wr f v i b).isl = s.isl := rfl
@[simp] theorem wr_pwr (f : Field) (v i b : Nat) : (s.wr f v i b).pwr = s.pwr := rfl
@[simp] theorem wr_core (f : Field) (v i b : Nat) : (s.wr f v i b).core = s.core := rfl
@[simp] theorem wr_cf (f : Field) (v i b : Nat) : (s.wr f v i b).cf = s.cf := rfl
@[simp] theorem wr_armed (f : Field) (v i b : Nat) : (s.wr f v i b).armed = s.armed := rfl
@[simp] theorem wr_jtag (f : Field) (v i b : Nat) : (s.wr f v i b).jtag = s.jtag := rfl
@[simp] theorem wr_bus (f : Field) (v i b : Nat) : (s.wr f v i b).bus = s.bus := rfl
@[simp] theorem wr_dram (f : Field) (v i b : Nat) : (s.wr f v i b).dram = s.dram := rfl

/-! ### fresh -/

@[simp] theorem fresh_number : s.fresh.1 = s.free := rfl
@[simp] theorem fresh_regs : s.fresh.2.regs = s.regs := rfl
@[simp] theorem fresh_mono : s.fresh.2.mono = s.mono := rfl
@[simp] theorem fresh_free : s.fresh.2.free = s.free + 1 := rfl
@[simp] theorem fresh_pending : s.fresh.2.pending = s.pending := rfl
@[simp] theorem fresh_nv : s.fresh.2.nv = s.nv := rfl
@[simp] theorem fresh_dev : s.fresh.2.dev = s.dev := rfl
@[simp] theorem fresh_log : s.fresh.2.log = s.log := rfl
@[simp] theorem fresh_tal : s.fresh.2.tal = s.tal := rfl
@[simp] theorem fresh_pit : s.fresh.2.pit = s.pit := rfl
@[simp] theorem fresh_host : s.fresh.2.host = s.host := rfl
@[simp] theorem fresh_led : s.fresh.2.led = s.led := rfl
@[simp] theorem fresh_lc : s.fresh.2.lc = s.lc := rfl
@[simp] theorem fresh_cr : s.fresh.2.cr = s.cr := rfl
@[simp] theorem fresh_wp : s.fresh.2.wp = s.wp := rfl
@[simp] theorem fresh_st : s.fresh.2.st = s.st := rfl
@[simp] theorem fresh_integ : s.fresh.2.integ = s.integ := rfl
@[simp] theorem fresh_sw : s.fresh.2.sw = s.sw := rfl
@[simp] theorem fresh_bell : s.fresh.2.bell = s.bell := rfl
@[simp] theorem fresh_ciph : s.fresh.2.ciph = s.ciph := rfl
@[simp] theorem fresh_por : s.fresh.2.por = s.por := rfl
@[simp] theorem fresh_isl : s.fresh.2.isl = s.isl := rfl
@[simp] theorem fresh_pwr : s.fresh.2.pwr = s.pwr := rfl
@[simp] theorem fresh_core : s.fresh.2.core = s.core := rfl
@[simp] theorem fresh_cf : s.fresh.2.cf = s.cf := rfl
@[simp] theorem fresh_armed : s.fresh.2.armed = s.armed := rfl
@[simp] theorem fresh_jtag : s.fresh.2.jtag = s.jtag := rfl
@[simp] theorem fresh_bus : s.fresh.2.bus = s.bus := rfl
@[simp] theorem fresh_dram : s.fresh.2.dram = s.dram := rfl
@[simp] theorem fresh_rd (f : Field) (i b : Nat) : s.fresh.2.rd f i b = s.rd f i b := rfl

/-! ### A register read after a write -/

/-- A field reads the value last written to it, truncated to its width. -/
theorem rd_wr (f : Field) (v i b : Nat) (h : Tbl.sorted s.regs = true) : (s.wr f v i b).rd f i b = v % 2 ^ f.width := by
  rw [State.rd, wr_regs, tbl_get_set _ _ _ _ _ h, if_pos rfl]

/-- Every field with a key of its own reads as before. -/
theorem rd_wr_ne (f g : Field) (v i b j c : Nat) (h : Tbl.sorted s.regs = true) (hk : f.key i b ≠ g.key j c) :
    (s.wr f v i b).rd g j c = s.rd g j c := by
  rw [State.rd, wr_regs, State.rd]
  unfold Tbl.set
  split
  · rw [tbl_get_erase _ _ _ _ h, if_neg hk]
  · rw [tbl_get_insert, if_neg hk]

/-- A write keeps the register store in order. -/
theorem sorted_wr (f : Field) (v i b : Nat) (h : Tbl.sorted s.regs = true) : Tbl.sorted (s.wr f v i b).regs = true :=
  tbl_sorted_set _ _ _ _ h

end Sys2Proof.Laws
end

