-- ==== Sys2Proof/WellFormed.lean ====
section
/-! DEFINITION. Which commands are well-formed: every operand that the spec gives a width or a count of is inside it
(islands R463, domains R465, pages R596, channels R420, limits of the NVMe command dwords). -/

namespace Sys2Proof

/-- The bounds of an initiator: its hart, and the code-flash bank its instruction came from (2 for none). -/
def initiatorBounds : Initiator → List (Nat × Nat)
  | .policy h _ b => [(h, 8), (b, 3)]
  | .mgmt h b => [(h, 2), (b, 3)]
  | .mi => []
  | .bootRom => []

/-- The operands of a command with the number each is below. -/
def operandBounds : Instr → List (Nat × Nat)
  | .powerOnResetRelease _ => []
  | .vddWatchLoss => []
  | .strapSampleComplete _ => []
  | .railStageValid _ => []
  | .railEnableTimeout rail => [(rail, 17)]
  | .railOutOfWindow rail => [(rail, 17)]
  | .bootSlotChoice => []
  | .ddr5TrainingComplete _ _ _ => []
  | .wakeComplete => []
  | .wakeTimerExpiry => []
  | .selfTestPhaseComplete _ _ _ _ => []
  | .selfTestComplete _ => []
  | .selfTestTimerExpiry => []
  | .rebuildPhaseComplete _ _ => []
  | .rebuildComplete => []
  | .rebuildTimerExpiry => []
  | .validWalkComplete => []
  | .powerFailDetect _ => []
  | .holdupThresholdCrossing _ _ => []
  | .bellUnitDurable _ => []
  | .bellUnitFail _ => []
  | .closingBellComplete => []
  | .closingBellTimerExpiry => []
  | .haltCtrlOrderly w => initiatorBounds w
  | .haltCtrlRestart w => initiatorBounds w
  | .restartDwellExpiry => []
  | .modeReq w set clear => initiatorBounds w ++ [(set, 256), (clear, 256)]
  | .modeInstant => []
  | .inServiceRise _ => []
  | .sqDoorbell port sqid tail => [(port, 2), (sqid, 2 ^ 16), (tail, 2 ^ 16)]
  | .sqeArrival port sqid cid opcode flags nsid dw _ _ => [(port, 2), (sqid, 2 ^ 16), (cid, 2 ^ 16), (opcode, 256), (flags, 256), (nsid, 2 ^ 32)] ++ dw.map fun x => (x, 2 ^ 32)
  | .intakeEvaluation => []
  | .returnWaitExpiry port sqid cid => [(port, 2), (sqid, 2 ^ 16), (cid, 2 ^ 16)]
  | .tokenRefill => []
  | .rltBlockShift => []
  | .deadlineFirstExpiry port sqid cid => [(port, 2), (sqid, 2 ^ 16), (cid, 2 ^ 16)]
  | .read port sqid cid => [(port, 2), (sqid, 2 ^ 16), (cid, 2 ^ 16)]
  | .write port sqid cid => [(port, 2), (sqid, 2 ^ 16), (cid, 2 ^ 16)]
  | .flush port sqid cid => [(port, 2), (sqid, 2 ^ 16), (cid, 2 ^ 16)]
  | .flushComplete port sqid cid => [(port, 2), (sqid, 2 ^ 16), (cid, 2 ^ 16)]
  | .writeUncorrectable port sqid cid => [(port, 2), (sqid, 2 ^ 16), (cid, 2 ^ 16)]
  | .compare port sqid cid => [(port, 2), (sqid, 2 ^ 16), (cid, 2 ^ 16)]
  | .writeZeroes port sqid cid => [(port, 2), (sqid, 2 ^ 16), (cid, 2 ^ 16)]
  | .datasetManagement port sqid cid => [(port, 2), (sqid, 2 ^ 16), (cid, 2 ^ 16)]
  | .verify port sqid cid => [(port, 2), (sqid, 2 ^ 16), (cid, 2 ^ 16)]
  | .createIoSq port cid => [(port, 2), (cid, 2 ^ 16)]
  | .deleteIoSq port cid => [(port, 2), (cid, 2 ^ 16)]
  | .createIoCq port cid => [(port, 2), (cid, 2 ^ 16)]
  | .deleteIoCq port cid => [(port, 2), (cid, 2 ^ 16)]
  | .getLogPage port cid => [(port, 2), (cid, 2 ^ 16)]
  | .identify port cid => [(port, 2), (cid, 2 ^ 16)]
  | .abort port cid => [(port, 2), (cid, 2 ^ 16)]
  | .setFeatures port cid => [(port, 2), (cid, 2 ^ 16)]
  | .getFeatures port cid => [(port, 2), (cid, 2 ^ 16)]
  | .modeControlSet port cid => [(port, 2), (cid, 2 ^ 16)]
  | .modeControlGet port cid => [(port, 2), (cid, 2 ^ 16)]
  | .powerManagementSet port cid => [(port, 2), (cid, 2 ^ 16)]
  | .timestampSet port cid => [(port, 2), (cid, 2 ^ 16)]
  | .timestampGet port cid => [(port, 2), (cid, 2 ^ 16)]
  | .asynchronousEventRequest port cid => [(port, 2), (cid, 2 ^ 16)]
  | .namespaceManagement port cid => [(port, 2), (cid, 2 ^ 16)]
  | .namespaceAttachment port cid => [(port, 2), (cid, 2 ^ 16)]
  | .formatNvm port cid => [(port, 2), (cid, 2 ^ 16)]
  | .formatComplete nsid => [(nsid, 2 ^ 32)]
  | .sanitizeBlockErase port cid => [(port, 2), (cid, 2 ^ 16)]
  | .sanitizeCryptoErase port cid => [(port, 2), (cid, 2 ^ 16)]
  | .sanitizeExitFailureMode port cid => [(port, 2), (cid, 2 ^ 16)]
  | .sanitizeComplete _ => []
  | .firmwareImageDownload port cid => [(port, 2), (cid, 2 ^ 16)]
  | .firmwareCommit port cid => [(port, 2), (cid, 2 ^ 16)]
  | .pitchRent port cid => [(port, 2), (cid, 2 ^ 16)]
  | .pitchReturn port cid => [(port, 2), (cid, 2 ^ 16)]
  | .pitchBind port cid => [(port, 2), (cid, 2 ^ 16)]
  | .pitchCmdRent w => initiatorBounds w
  | .pitchCmdReturn w => initiatorBounds w
  | .pitchCmdLoad w => initiatorBounds w
  | .pitchCmdTest w => initiatorBounds w
  | .qbCfgWrite w value => initiatorBounds w ++ [(value, 2 ^ 32)]
  | .ccEnClear port => [(port, 2)]
  | .controllerResetComplete port => [(port, 2)]
  | .ccEnSet port ams => [(port, 2), (ams, 8)]
  | .shutdownNotification port shn => [(port, 2), (shn, 4)]
  | .shutdownComplete port => [(port, 2)]
  | .perstNAssert port => [(port, 2)]
  | .perstNDeassert port => [(port, 2)]
  | .hotReset port => [(port, 2)]
  | .flr port => [(port, 2)]
  | .linkDown port => [(port, 2)]
  | .linkUp port width _ => [(port, 2), (width, 17)]
  | .deviceControlWrite port _ => [(port, 2)]
  | .creditReceive counter _ => [(counter, 32)]
  | .creditRelease counter _ => [(counter, 32)]
  | .creditAdvertise counter _ => [(counter, 32)]
  | .hostReadCompletion port _ _ => [(port, 2)]
  | .writeDataResidency port sqid cid _ _ => [(port, 2), (sqid, 2 ^ 16), (cid, 2 ^ 16)]
  | .halfMoveReceipt _ => []
  | .lcacheFill _ _ => []
  | .prefetchArrival _ _ => []
  | .cixRebalance _ => []
  | .nsCmdInit w => initiatorBounds w
  | .nsCmdRelease w => initiatorBounds w
  | .nsCmdDeallocAll w => initiatorBounds w
  | .nsCmdComplete => []
  | .cixProbeGo w => initiatorBounds w
  | .dramWriteRefused w addr => initiatorBounds w ++ [(addr, 2 ^ 40)]
  | .rangeClean w _ _ => initiatorBounds w
  | .rangeInvalidate w _ _ => initiatorBounds w
  | .rangeCleanInvalidate w _ _ => initiatorBounds w
  | .rangePrefetch w _ => initiatorBounds w
  | .rangeOpComplete => []
  | .lockApply w => initiatorBounds w
  | .lockSyncComplete => []
  | .cacheDisable w => initiatorBounds w
  | .cacheDisableComplete => []
  | .cacheEnable w => initiatorBounds w
  | .wayPowerOff w way => initiatorBounds w ++ [(way, 16)]
  | .wayDrainComplete way => [(way, 16)]
  | .wayPowerOn w way => initiatorBounds w ++ [(way, 16)]
  | .rowTake group => [(group, 4)]
  | .padWaitExpiry group => [(group, 4)]
  | .stripeWaitExpiry _ => []
  | .crateGrantRequest _ _ pool kind _ _ _ => [(pool, 4), (kind, 4)]
  | .crateFree handle _ => [(handle, 2 ^ 32)]
  | .crateReferenceRelease handle _ => [(handle, 2 ^ 32)]
  | .lendGo w pool => initiatorBounds w ++ [(pool, 4)]
  | .returnHandle w handle => initiatorBounds w ++ [(handle, 2 ^ 32)]
  | .winDataAccess w _ value => initiatorBounds w ++ [(value, 2 ^ 32)]
  | .senseStart ch die => [(ch, 96), (die, 16)]
  | .channelBurst ch => [(ch, 96)]
  | .statusPoll ch die status => [(ch, 96), (die, 16), (status, 256)]
  | .programSuspend ch die => [(ch, 96), (die, 16)]
  | .eraseSuspend ch die => [(ch, 96), (die, 16)]
  | .loadAbandon ch die => [(ch, 96), (die, 16)]
  | .eraseStart ch die => [(ch, 96), (die, 16)]
  | .erasePendingClose ch die => [(ch, 96), (die, 16)]
  | .readTimeout ch die => [(ch, 96), (die, 16)]
  | .programTimeout ch die => [(ch, 96), (die, 16)]
  | .eraseTimeout ch die => [(ch, 96), (die, 16)]
  | .suspendTimeout ch die => [(ch, 96), (die, 16)]
  | .resetTimeout ch die _ => [(ch, 96), (die, 16)]
  | .featureTimeout ch die => [(ch, 96), (die, 16)]
  | .zqIntervalExpiry ch die _ => [(ch, 96), (die, 16)]
  | .identityCheck ch die _ => [(ch, 96), (die, 16)]
  | .vccqFlOutOfRange group => [(group, 12)]
  | .hardDecodeComplete _ _ _ _ => []
  | .softPassComplete _ _ => []
  | .fullSoftDecodeComplete _ _ => []
  | .softWaitExpiry _ => []
  | .scrubPace => []
  | .scrubCycleEnd => []
  | .scrubStateSave => []
  | .correctableError group addr syndrome => [(group, 25), (addr, 2 ^ 48), (syndrome, 256)]
  | .uncorrectableError group addr _ => [(group, 25), (addr, 2 ^ 48)]
  | .memoryScrubWalk group addr _ => [(group, 25), (addr, 2 ^ 48)]
  | .camParityWalk _ => []
  | .victimName w => initiatorBounds w
  | .hardwareVictimNaming kind => [(kind, 6)]
  | .victimWalkTimeout _ => []
  | .sweepCopyStart _ => []
  | .victimErase _ => []
  | .sweepCtrlResume w => initiatorBounds w
  | .sweepEpoch => []
  | .lapComplete => []
  | .lapLate => []
  | .rollingWalk => []
  | .journalFlush => []
  | .recordsSave => []
  | .cipherUnitComplete _ _ => []
  | .mediaKeyGenerate w => initiatorBounds w
  | .keyRecordWritten _ => []
  | .jobGo w page flags => initiatorBounds w ++ [(page, 16), (flags, 2 ^ 32)]
  | .jobComplete page => [(page, 16)]
  | .jobAbort w page => initiatorBounds w ++ [(page, 16)]
  | .jobSave w page => initiatorBounds w ++ [(page, 16)]
  | .jobRestore w page => initiatorBounds w ++ [(page, 16)]
  | .loadPlain w page slot => initiatorBounds w ++ [(page, 16), (slot, 512)]
  | .generate w page slot => initiatorBounds w ++ [(page, 16), (slot, 512)]
  | .loadWrapped w page slot => initiatorBounds w ++ [(page, 16), (slot, 512)]
  | .clear w page slot => initiatorBounds w ++ [(page, 16), (slot, 512)]
  | .porterBurst _ => []
  | .descriptorStart ch => [(ch, 64)]
  | .writeResponseError ch => [(ch, 64)]
  | .porterTimerExpiry timer => [(timer, 16)]
  | .chCtrlGo w ch => initiatorBounds w ++ [(ch, 64)]
  | .chCtrlStop w ch => initiatorBounds w ++ [(ch, 64)]
  | .channelStopComplete ch => [(ch, 64)]
  | .chCtrlEnable w ch _ => initiatorBounds w ++ [(ch, 64)]
  | .cplPop w ch => initiatorBounds w ++ [(ch, 64)]
  | .islandGate island => [(island, 117)]
  | .islandWake island _ => [(island, 117)]
  | .wakeFailure src dst => [(src, 117), (dst, 117)]
  | .crossingWatchdogExpiry src dst => [(src, 117), (dst, 117)]
  | .polVoteWrite w domains => initiatorBounds w ++ [(domains, 2 ^ 17)]
  | .mgtVoteWrite w domains => initiatorBounds w ++ [(domains, 2 ^ 17)]
  | .domainPowerOn domain => [(domain, 17)]
  | .domainPowerOff domain => [(domain, 17)]
  | .dvfsReq w clk vdd => initiatorBounds w ++ [(clk, 32), (vdd, 32)]
  | .vddSettled => []
  | .nonopEntry => []
  | .apstItptExpiry => []
  | .nonopExitComplete => []
  | .temperatureSample _ => []
  | .tempHistorySample => []
  | .wdogKick w key => initiatorBounds w ++ [(key, 2 ^ 16)]
  | .wdogWarning hart => [(hart, 8)]
  | .wdogExpiry hart => [(hart, 8)]
  | .mwdogKick w key => initiatorBounds w ++ [(key, 2 ^ 16)]
  | .mwdogExpiry => []
  | .coreRstGo w => initiatorBounds w
  | .coreResetRelease => []
  | .machineTimerInterrupt hart => [(hart, 10)]
  | .admTake w => initiatorBounds w
  | .admCplGo w value => initiatorBounds w ++ [(value, 2 ^ 32)]
  | .flCmdErase w => initiatorBounds w
  | .flCmdProgram w => initiatorBounds w
  | .flashOperationComplete bank => [(bank, 2)]
  | .flashOperationSuspend bank => [(bank, 2)]
  | .pieceReport w => initiatorBounds w
  | .slotLockHoldExpiry => []
  | .commitAction000b w => initiatorBounds w
  | .commitAction001b w => initiatorBounds w
  | .commitAction010b w => initiatorBounds w
  | .commitAction011b w => initiatorBounds w
  | .pumpWrite w hi => initiatorBounds w ++ [(hi, 2 ^ 32)]
  | .slotWriteComplete => []
  | .actReady w => initiatorBounds w
  | .activationAllowanceExpiry => []
  | .recCmdBegin w => initiatorBounds w
  | .recCmdEnd w => initiatorBounds w
  | .recCmdCancel w => initiatorBounds w
  | .ownerLockWrite w _ => initiatorBounds w
  | .recordStore => []
  | .ringSave _ => []
  | .faultRelease w => initiatorBounds w
  | .logCtrlFreeze w _ => initiatorBounds w
  | .freezeMaxExpiry => []
  | .fwPost w => initiatorBounds w
  | .curCmdOldest w => initiatorBounds w
  | .curCmdNewest w => initiatorBounds w
  | .win0Read w => initiatorBounds w
  | .win15Read w => initiatorBounds w
  | .wallSetHi w ms => initiatorBounds w ++ [(ms, 2 ^ 16)]
  | .rateBucketRefill code => [(code, 1024)]
  | .tallyRound => []
  | .tallyClr w => initiatorBounds w
  | .injArm w page mode count => initiatorBounds w ++ [(page, 256), (mode, 4), (count, 256)]
  | .injDisarm w page => initiatorBounds w ++ [(page, 256)]
  | .disarmAll w => initiatorBounds w
  | .miRegisterRead nmd0 nmd1 => [(nmd0, 2 ^ 32), (nmd1, 2 ^ 32)]
  | .miRegisterWrite nmd0 nmd1 data => [(nmd0, 2 ^ 32), (nmd1, 2 ^ 32)] ++ data.map fun x => (x, 2 ^ 32)
  | .miOtherCommand opcode => [(opcode, 256)]
  | .registerWrite w addr value => initiatorBounds w ++ [(addr, 2 ^ 48), (value, 2 ^ 32)]
  | .rcFieldRead w addr => initiatorBounds w ++ [(addr, 2 ^ 48)]
  | .loWordRead w addr => initiatorBounds w ++ [(addr, 2 ^ 48)]
  | .pageAccessFault w addr width _ => initiatorBounds w ++ [(addr, 2 ^ 48), (width, 9)]
  | .softClear w page => initiatorBounds w ++ [(page, 256)]
  | .evtPendClear w page mask => initiatorBounds w ++ [(page, 256), (mask, 256)]
  | .evtForce w page mask => initiatorBounds w ++ [(page, 256), (mask, 256)]
  | .pageLock w page => initiatorBounds w ++ [(page, 256)]
  | .cntSelWrite w page event => initiatorBounds w ++ [(page, 256), (event, 8)]
  | .pageCtrlVote w page _ => initiatorBounds w ++ [(page, 256)]
  | .extest _ => []
  | .samplePreload _ _ => []
  | .idcode => []
  | .bypass _ => []
  | .ktrCfg value => [(value, 2 ^ 32)]
  | .ktrStat => []
  | .trstNAssert => []
  | .ktrTrigIn => []
  | .ktrSync => []
  | .cqHeadDoorbell port cqid head => [(port, 2), (cqid, 2 ^ 16), (head, 2 ^ 16)]
  | .completionTimeout port _ => [(port, 2)]
  | .vrAlertN => []
  | .porterWriteResponse ch => [(ch, 64)]
  | .codeFlashDataRead w addr => initiatorBounds w ++ [(addr, 2 ^ 48)]
  | .registerReadRefused w addr => initiatorBounds w ++ [(addr, 2 ^ 48)]

/-- Whether a command is well-formed. -/
def wellFormed (i : Instr) : Bool := (operandBounds i).all fun e => decide (e.1 < e.2)

end Sys2Proof
end

