-- ==== Sys2Proof/Tests/Slice0.lean ====
section
/-! SUPPORT. The model's own tests: what the well-formedness check refuses, the spec's worked examples, and for every
statement with hypotheses a concrete state and operands that meet all of them. -/

namespace Sys2Proof.Tests

set_option Elab.async false
set_option linter.unusedVariables false

open Sys2Proof Sys2Proof.Machine Sys2Proof.Safety

def inState (n : Nat) : State := (State.reset.wr R.DEVSTATE.DEV_STATE_STATE n).wr R.POWER.DOM_STAT_ON 0x1FFFF
def up : State := inState 4
/-- Channel 0 in service at 3,600 MT/s with its first four dies. -/
def withChannel (s : State) : State :=
  ((((s.wr R.STALL.CH_STATE_STATE 2).wr R.STALL.CH_RATE_MTS 3600).wr R.STALL.DIE_MAP_PRESENT 0xF).wr
    R.STALL.DIE_MAP_IN_SERVICE 0xF).mSt fun t => { t with
      dies := [(0, { state := 1 }), (1, { state := 1 }), (2, { state := 1 }), (3, { state := 1 })] }
/-- Policy and management firmware. -/
def pol : Initiator := .policy 0 true 1
def mgt : Initiator := .mgmt 0 2
/-- A command of I/O queue 1, or of the admin queue, of port 0. -/
def aCmd (k : Kind) (sqid opcode : Nat) (dw : List Nat := []) (payload : List Nat := []) : Cmd :=
  { uid := 1, port := 0, sqid := sqid, cid := 7, kind := k, opcode := opcode, nsid := 1, slba := 0, nlb := 1, flags := 0
    dw := dw, ranges := [], payload := payload }
/-- The device in SERVICE with port 0 enabled, the admin queues and I/O queue 1, namespace 1 attached, and one staged
command. -/
def hostUp (c : Cmd) : State :=
  let s := (up.wr R.BELL.BELL_CAP_MIB 178).wr R.BELL.HU_STAT_OK 1
  let s := s.mHost fun h => { h with
    p0 := { perst := true, linkUp := true, en := true, rdy := true, width := 16, rate := 320 }
    sqs := [{ port := 0, id := 0, size := 64, cq := 0, prio := 0, ring := if c.sqid = 0 then [1] else [] }
           , { port := 0, id := 1, size := 64, cq := 1, prio := 0, ring := if c.sqid = 1 then [1] else [] }]
    cqs := [{ port := 0, id := 0, size := 64, vector := 0 }, { port := 0, id := 1, size := 64, vector := 1 }]
    cmds := [c], nextUid := 2 }
  (s.mLed fun l => { l with ns := [(1, { st := 2, block := 4096, nsze := 1000, ius := 1000, attached := 1, grans := [0] })] }).mCiph
    fun x => { x with media := [(0, { loaded := true, seq := 1, k1 := 1, k2 := 2 })] }

/-! ### Well-formedness: an ill-formed command for each check, and the largest operand each admits -/

theorem test_ill_formed_1 : ∀ c ∈ ([.railEnableTimeout 17, .modeReq .mi 256 0, .modeReq .mi 0 256, .sqDoorbell 2 0 0, .sqDoorbell 0 65536 0,
      .sqDoorbell 0 0 65536, .sqeArrival 0 0 65536 0 0 0 [] [] [], .sqeArrival 0 0 0 256 0 0 [] [] [],
      .sqeArrival 0 0 0 0 256 0 [] [] [], .sqeArrival 0 0 0 0 0 4294967296 [] [] [], .sqeArrival 0 0 0 0 0 0
      [4294967296] [] [], .qbCfgWrite .mi 4294967296] : List Instr),
    wellFormed c = false := by decide +kernel

theorem test_ill_formed_2 : ∀ c ∈ ([.ccEnSet 0 8, .shutdownNotification 0 4, .linkUp 0 17 0, .creditReceive 32 0, .dramWriteRefused .mi
      1099511627776, .wayPowerOff .mi 16, .rowTake 4, .crateGrantRequest 0 0 4 0 0 0 0, .crateGrantRequest 0 0 0
      4 0 0 0, .crateFree 4294967296 0, .senseStart 96 0, .senseStart 0 16] : List Instr),
    wellFormed c = false := by decide +kernel

theorem test_ill_formed_3 : ∀ c ∈ ([.statusPoll 0 0 256, .vccqFlOutOfRange 12, .correctableError 25 0 0, .correctableError 0 281474976710656 0,
      .correctableError 0 0 256, .hardwareVictimNaming 6, .jobGo .mi 16 0, .jobGo .mi 0 4294967296, .loadPlain
      .mi 0 512, .descriptorStart 64, .porterTimerExpiry 16, .islandGate 117] : List Instr),
    wellFormed c = false := by decide +kernel

theorem test_ill_formed_4 : ∀ c ∈ ([.wakeFailure 117 0, .wakeFailure 0 117, .polVoteWrite .mi 131072, .domainPowerOn 17, .dvfsReq .mi 32 0, .dvfsReq
      .mi 0 32, .wdogKick .mi 65536, .wdogWarning 8, .machineTimerInterrupt 10, .flashOperationComplete 2,
      .pumpWrite .mi 4294967296, .wallSetHi .mi 65536] : List Instr),
    wellFormed c = false := by decide +kernel

theorem test_ill_formed_5 : ∀ c ∈ ([.rateBucketRefill 1024, .injArm .mi 256 0 0, .injArm .mi 0 4 0, .injArm .mi 0 0 256, .miRegisterRead 4294967296
      0, .miRegisterRead 0 4294967296, .miRegisterWrite 0 0 [4294967296], .pageAccessFault .mi 0 9 false,
      .evtPendClear .mi 0 256, .cntSelWrite .mi 0 8, .cqHeadDoorbell 0 65536 0, .cqHeadDoorbell 0 0 65536] : List Instr),
    wellFormed c = false := by decide +kernel

theorem test_ill_formed_6 : ∀ c ∈ ([.coreRstGo (.policy 8 false 0), .coreRstGo (.mgmt 2 0), .coreRstGo (.policy 0 false 3)] : List Instr),
    wellFormed c = false := by decide +kernel

theorem test_well_formed_1 : ∀ c ∈ ([.railEnableTimeout 16, .modeReq .mi 255 0, .modeReq .mi 0 255, .sqDoorbell 1 0 0, .sqDoorbell 0 65535 0,
      .sqDoorbell 0 0 65535, .sqeArrival 0 0 65535 0 0 0 [] [] [], .sqeArrival 0 0 0 255 0 0 [] [] [],
      .sqeArrival 0 0 0 0 255 0 [] [] [], .sqeArrival 0 0 0 0 0 4294967295 [] [] [], .sqeArrival 0 0 0 0 0 0
      [4294967295] [] [], .qbCfgWrite .mi 4294967295] : List Instr),
    wellFormed c = true := by decide +kernel

theorem test_well_formed_2 : ∀ c ∈ ([.ccEnSet 0 7, .shutdownNotification 0 3, .linkUp 0 16 0, .creditReceive 31 0, .dramWriteRefused .mi
      1099511627775, .wayPowerOff .mi 15, .rowTake 3, .crateGrantRequest 0 0 3 0 0 0 0, .crateGrantRequest 0 0 0
      3 0 0 0, .crateFree 4294967295 0, .senseStart 95 0, .senseStart 0 15] : List Instr),
    wellFormed c = true := by decide +kernel

theorem test_well_formed_3 : ∀ c ∈ ([.statusPoll 0 0 255, .vccqFlOutOfRange 11, .correctableError 24 0 0, .correctableError 0 281474976710655 0,
      .correctableError 0 0 255, .hardwareVictimNaming 5, .jobGo .mi 15 0, .jobGo .mi 0 4294967295, .loadPlain
      .mi 0 511, .descriptorStart 63, .porterTimerExpiry 15, .islandGate 116] : List Instr),
    wellFormed c = true := by decide +kernel

theorem test_well_formed_4 : ∀ c ∈ ([.wakeFailure 116 0, .wakeFailure 0 116, .polVoteWrite .mi 131071, .domainPowerOn 16, .dvfsReq .mi 31 0, .dvfsReq
      .mi 0 31, .wdogKick .mi 65535, .wdogWarning 7, .machineTimerInterrupt 9, .flashOperationComplete 1,
      .pumpWrite .mi 4294967295, .wallSetHi .mi 65535] : List Instr),
    wellFormed c = true := by decide +kernel

theorem test_well_formed_5 : ∀ c ∈ ([.rateBucketRefill 1023, .injArm .mi 255 0 0, .injArm .mi 0 3 0, .injArm .mi 0 0 255, .miRegisterRead 4294967295
      0, .miRegisterRead 0 4294967295, .miRegisterWrite 0 0 [4294967295], .pageAccessFault .mi 0 8 false,
      .evtPendClear .mi 0 255, .cntSelWrite .mi 0 7, .cqHeadDoorbell 0 65535 0, .cqHeadDoorbell 0 0 65535] : List Instr),
    wellFormed c = true := by decide +kernel

theorem test_well_formed_6 : ∀ c ∈ ([.coreRstGo (.policy 7 true 2), .coreRstGo (.mgmt 1 2)] : List Instr),
    wellFormed c = true := by decide +kernel

/-! ### The encodings of the spec's worked examples -/

/-- The contracts of the depot node's first four pitches (the rental example before R73). -/
def p1 : Contract := { cls := 0, dir := 1, byteRate := 820, opRate := 201000, maxSize := 8, burstOps := 64, burstUnits := 64, amp := 320 }
def p2 : Contract := { cls := 0, dir := 0, byteRate := 410, opRate := 101000, maxSize := 8, burstOps := 64, burstUnits := 16 }
def p3 : Contract := { cls := 1, dir := 1, byteRate := 60000, opRate := 60000, maxSize := 2048, burstOps := 64, burstUnits := 1024, amp := 110 }
def p4 : Contract := { cls := 1, dir := 0, byteRate := 40000, opRate := 320000, maxSize := 256, burstOps := 64, burstUnits := 4096 }

/-- The CHANNEL sum of the example is 78.66734, to the places its rounded terms share with R71's constants. -/
theorem test_channel_sum : ([p1, p2, p3, p4].map Contract.channel).sum / 1000000 = 7866734 := by decide +kernel

/-- P5 at 40,000 MB/s costs 14.372; at 30,000 MB/s, 10.779. -/
theorem test_channel_bulk :
    ({ p4 with cls := 2, byteRate := 40000, opRate := 40000, maxSize := 2048 } : Contract).channel = 1437200000000
    ∧ ({ p4 with cls := 2, byteRate := 30000, opRate := 30000, maxSize := 2048 } : Contract).channel = 1077900000000 := by
  decide +kernel

/-- At x16 and 32 GT/s LINK_DOWN becomes 57.5 GB/s (the example of R628). -/
theorem test_link_factor :
    (up.mPort 0 fun q => { q with width := 16, rate := 320 }).capTimes 2 0 0 = 57500 * capDiv 2 := by decide +kernel

/-- T_p goes from 3.20 to 3.26 after 0.820 GB written and 2.000 GB relocated (the example of R351). -/
theorem test_next_amp : nextAmp 320 820000000 2000000000 = 326 := by decide +kernel

/-- The register of R607's example: STALL17.TMO_PROG as each processor names it. -/
theorem test_register_address : regAddr pol 0x91 0x118 = 0x400000091118 ∧ regAddr mgt 0x91 0x118 = 0x40091118 := by decide +kernel

/-- DECODE2.SOFT_WAIT reads 20 through the window at reset (the example of R607). -/
theorem test_window_reads :
    (match exec (.miRegisterRead 0x4372 1) up with | .next t => t.bus.data | _ => []) = [20] := by decide +kernel

/-- STALL17.TMO_PROG is not in the window: it reads 0, with one refused dword (the example of R607). -/
theorem test_window_refuses :
    (match exec (.miRegisterRead 0x4691 1) up with | .next t => (t.bus.data, t.bus.miRefused) | _ => ([], 0)) = ([0], 1) := by
  decide +kernel

/-- IDCODE reads 0xA962_4A7B (R629). -/
theorem test_idcode : (match exec .idcode up with | .next t => t.jtag.shift | _ => 0) = 0xA9624A7B := by decide +kernel

/-- No processor writes a field of the BOOT page (R593). -/
theorem test_boot_page : mayWrite R.BOOT.STRAP_SPLIT pol = false ∧ mayWrite R.BOOT.STRAP_SPLIT mgt = false := by decide +kernel

/-- Domain 0 is no domain of a vote (R469). -/
theorem test_vote_drops_watch :
    (match exec (.polVoteWrite pol 0x21) up with | .next t => t.rd R.POWER.POL_VOTE_DOMAINS | _ => 0) = 0x20 := by decide +kernel

/-- A read clears an RC field (R12). -/
theorem test_rc_field :
    (match exec (.rcFieldRead pol 0x40000000413C) (up.wr R.POWER.VOTE_REFUSED_COUNT 5) with
      | .next t => (t.bus.data, t.rd R.POWER.VOTE_REFUSED_COUNT) | _ => ([], 9)) = ([5], 0) := by decide +kernel

/-- No word spells a command, and placing one changes nothing: the table gives no bits. -/
theorem test_no_words : decodeTableWord 8 0x2A = none := by decide

/-- An empty queue ticks MONOTONIC (log entry 4). -/
theorem test_tick : (match step up with | .next t => t.mono | _ => 0) = 1 := by decide +kernel

/-- A command in front of the queue runs and leaves the rest of it. -/
theorem test_queue :
    (match step { up with pending := [.idcode, .ktrStat] } with | .next t => t.pending | _ => []) = [.ktrStat] := by decide +kernel

/-! ### Known answers of the standards the spec cites -/

/-- The example of FIPS 197 for a 256-bit key, both ways. -/
theorem test_aes : aes 0x000102030405060708090A0B0C0D0E0F101112131415161718191A1B1C1D1E1F 0x00112233445566778899AABBCCDDEEFF
      = 0x8EA2B7CA516745BFEAFC49904B496089
    ∧ aesInv 0x000102030405060708090A0B0C0D0E0F101112131415161718191A1B1C1D1E1F 0x8EA2B7CA516745BFEAFC49904B496089
      = 0x00112233445566778899AABBCCDDEEFF := by decide +kernel

/-- SHA-384 of "abc" (FIPS 180-4). -/
theorem test_sha384 : sha384 [0x61, 0x62, 0x63] = 0xcb00753f45a35e8bb5a03d699ac65007272c32ab0eded1631a8b605a43ff5bed8086072ba1e7cc2358baeca134c825a7 := by
  decide +kernel

/-- The signature of "sample" in RFC 6979, and the same under another message. -/
theorem test_ecdsa : [0x65, 0x66].map (fun b => ecdsaVerifies
      0xEC3A4E415B4E19A4568618029F427FA5DA9A8BC4AE92E02E06AAE5286B300C64DEF8F0EA9055866064A254515480BC13
      0x8015D9B72D7D57244EA8EF9AC0C621896708A59367F9DFB9F54CA84B3F1C9DB1288B231C3AE0D4FE7344FD2533264720
      0x94EDBB92A5ECB8AAD4736E56C691916B3F88140666CE9FA73D64C4EA95AD133C81A648152E44ACF96E36DD1E80FABE46
      0x99EF4AEB15F178CEA1FE40DB2603138F130E740A19624526203B6351D0A3A94FA329C145786E679E7B82C71A38628AC8
      (sha384 [0x73, 0x61, 0x6D, 0x70, 0x6C, b])) = [true, false] := by decide +kernel

/-! ### Witnesses: the hypotheses of every statement can be met -/

theorem witness_AnEmptyQueueTicks_1 : (∃ s : State, s.pending = [] ∧ s.dst ≠ 0) :=
  ⟨up, by decide +kernel⟩

theorem witness_AnEmptyQueueTicks_2 : (∃ s : State, s.pending = [] ∧ s.dst = 0) :=
  ⟨inState 0, by decide +kernel⟩

theorem witness_EveryStepKeepsTheCanonicalForms : (∃ s t : State, Sys2Proof.Safety.Canonical s ∧ step s = .next t) :=
  ⟨State.reset, _, by decide +kernel, rfl⟩

theorem witness_AStepTakesOneCommandFromTheQueue : (∃ (s t : State) (c : Instr) (rest : List Instr), Sys2Proof.Safety.Canonical s ∧ s.pending = c :: rest ∧ step s = .next t) :=
  ⟨{ State.reset with pending := [.ktrTrigIn] }, _, .ktrTrigIn, [], by decide +kernel, rfl, rfl⟩

theorem witness_OnlyThePowerSupplyResetsMonotonic : (∃ (c : Instr) (s t : State), Sys2Proof.Safety.Canonical s ∧ Sys2Proof.Safety.setsTimeBase c = false ∧ exec c s = .next t) :=
  ⟨.ktrTrigIn, State.reset, _, by decide +kernel, by decide, rfl⟩

theorem witness_OnlyAPowerOnAdvancesTheEpoch_1 : (∃ (c : Instr) (s t : State), Sys2Proof.Safety.Canonical s ∧ Sys2Proof.Safety.setsTimeBase c = false ∧ exec c s = .next t) :=
  ⟨.ktrTrigIn, State.reset, _, by decide +kernel, by decide, rfl⟩

theorem witness_OnlyAPowerOnAdvancesTheEpoch_2 : (∃ s t : State, Sys2Proof.Safety.Canonical s ∧ exec .vddWatchLoss s = .next t) :=
  ⟨State.reset, _, by decide +kernel, rfl⟩

theorem witness_OnlyAPowerOnAdvancesTheEpoch_3 : (∃ (testEn : Bool) (s t : State), Sys2Proof.Safety.Canonical s ∧ s.dst = 0 ∧ exec (.powerOnResetRelease testEn) s = .next t) :=
  ⟨false, inState 0, _, by decide +kernel, by decide +kernel, rfl⟩

theorem witness_ThePermanentAreaOnlyGrows : (∃ s t : State, Sys2Proof.Safety.Canonical s ∧ step s = .next t) :=
  ⟨State.reset, _, by decide +kernel, rfl⟩

theorem witness_OnlyStoringCommandsChangeMemory : (∃ (c : Instr) (s t : State), Sys2Proof.Safety.Canonical s ∧ Sys2Proof.Safety.storesBytes c = false ∧ exec c s = .next t) :=
  ⟨.ktrTrigIn, State.reset, _, by decide +kernel, by decide, rfl⟩

theorem witness_OnlyWritingCommandsChangeWhatIsKept : (∃ (c : Instr) (s t : State), Sys2Proof.Safety.Canonical s ∧ Sys2Proof.Safety.writesKept c = false ∧ exec c s = .next t) :=
  ⟨.ktrTrigIn, State.reset, _, by decide +kernel, by decide, rfl⟩

theorem witness_ARegisterWriteChangesItsFieldAlone : (∃ (s : State) (f g : Field) (v i b j d : Nat), Tbl.sorted s.regs = true ∧ f.off < 0x1000 ∧ g.off < 0x1000 ∧ f.lo < 32 ∧ g.lo < 32 ∧ b < 0x10000 ∧ d < 0x10000 ∧ (f.page + i, f.off, f.lo, b) ≠ (g.page + j, g.off, g.lo, d)) :=
  ⟨up, R.TIME.WALL_SET_LO_MS, R.LOG.WIN_VALUE 15, 7, 0, 0, 0, 65535, by decide +kernel⟩

theorem witness_CountersSaturateOrWrap : (∃ (s : State) (f : Field) (i b : Nat), Tbl.sorted s.regs = true ∧ 0x100 ≤ f.off ∧ f.off < 0x1000 ∧ f.lo < 32 ∧ b < 0x10000 ∧ s.rd f i b < 2 ^ f.width) :=
  ⟨up, R.XCLK.WAKE_CNT_COUNT, 0, 0, by decide +kernel⟩

theorem witness_StoredBytesReadBack : (∃ (m : List Host.Cell), Tbl.wf (0 : BitVec 8) m = true) :=
  ⟨[(3, 7)], by decide⟩

theorem witness_PowerOnAndStraps_1 : ∃ (s : State) (testEn : Bool), (s.dst = 0 ∨ (s.dst = 1 ∧ s.rd R.TIME.EPOCH_VALUE = 0)) :=
  ⟨State.reset, false, by decide +kernel⟩

theorem witness_PowerOnAndStraps_2 : ∃ (s u : State), s.dst ≠ 0 ∧ s.dst ≠ 6 ∧ u = (s.flStop 0 true).flStop 1 true :=
  ⟨up, _, by decide +kernel, by decide +kernel, rfl⟩

theorem witness_PowerOnAndStraps_3 : ∃ (s : State) (samples : List Nat) (y : Nat), s.dst = 1 ∧ s.dev.strapped = false ∧ unstable samples = 0 ∧ y = samples.headD 0 % 256 ∧ bit y 0 = false ∧ s.mode 7 = false ∧ Tbl.sorted s.regs = true :=
  ⟨inState 1, [0x56, 0x56], 0x56, by decide +kernel, by decide +kernel, by decide +kernel, by decide +kernel, by decide +kernel, by decide +kernel, by decide +kernel⟩

theorem witness_PowerOnAndStraps_4 : ∃ (s u v : State), s.dst = 1 ∧ s.dev.strapped = true ∧ s.dev.boardTest = false ∧ s.cf.chosen = 0 ∧ u = s.loadConfig.startCandidate.1 ∧ v = (firstSlot u [s.loadConfig.startCandidate.2, u.nv.desc.current, 3 - u.nv.desc.current].eraseDups).1 :=
  ⟨(inState 1).mDev fun d => { d with strapped := true }, _, _, by decide +kernel, by decide +kernel, by decide +kernel, by decide +kernel, rfl, rfl⟩

theorem witness_RailsAndWake_1 : ∃ (s u : State) (early : Nat), s.dst = 1 ∧ s.dev.strapped = true ∧ s.dev.railStage < 5 ∧ (u = ((stageRails (s.dev.railStage + 1)).filter fun r => !bit (s.rd R.BOOT.RAIL_FAIL_RAILS) r).foldl (fun (t : State) r => if bit early r then (t.wr R.BOOT.RAIL_STAT_VALID (setBit (t.rd R.BOOT.RAIL_STAT_VALID) r)).wr R.BOOT.RAIL_EARLY_RAILS (setBit ((t.wr R.BOOT.RAIL_STAT_VALID (setBit (t.rd R.BOOT.RAIL_STAT_VALID) r)).rd R.BOOT.RAIL_EARLY_RAILS) r) else t.wr R.BOOT.RAIL_STAT_VALID (setBit (t.rd R.BOOT.RAIL_STAT_VALID) r)) s) :=
  ⟨(inState 1).mDev fun d => { d with strapped := true }, _, 0, by decide +kernel, by decide +kernel, by decide +kernel, rfl⟩

theorem witness_RailsAndWake_2 : ∃ (s u : State) (rail : Nat), s.dst = 1 ∧ s.dev.strapped = true ∧ rail < 17 ∧ railStageOf rail = s.dev.railStage + 1 ∧ bit (s.rd R.BOOT.RAIL_FAIL_RAILS) rail = false ∧ u = s.wr R.BOOT.RAIL_FAIL_RAILS (setBit (s.rd R.BOOT.RAIL_FAIL_RAILS) rail) :=
  ⟨(inState 1).mDev fun d => { d with strapped := true }, _, 0, by decide +kernel, by decide +kernel, by decide +kernel, by decide +kernel, by decide +kernel, rfl⟩

theorem witness_RailsAndWake_3 : ∃ (s u : State) (rail : Nat), rail < 17 ∧ bit (s.rd R.BOOT.RAIL_STAT_VALID) rail = true ∧ u = s.wr R.BOOT.RAIL_STAT_VALID (clrBit (s.rd R.BOOT.RAIL_STAT_VALID) rail) :=
  ⟨up.wr R.BOOT.RAIL_STAT_VALID 1, _, 0, by decide +kernel, by decide +kernel, rfl⟩

theorem witness_RailsAndWake_4 : ∃ (s : State) (gib mts ms : Nat), s.dst = 1 ∧ s.domOn 3 = true ∧ s.dev.boardTest = false :=
  ⟨inState 1, 256, 5600, 90, by decide +kernel, by decide +kernel, by decide +kernel⟩

theorem witness_RailsAndWake_5 : ∃ (s u : State), s.wakeDone = true ∧ (u = ([R.MEMCHK.ST_RESULT_FAILED, R.MEMCHK.ST_RESULT_DECODER, R.INJFAB.ST_RESULT_PHASE_FAIL, R.INJFAB.ST_RESULT_PASS, R.INJFAB.ST_RESULT_HALTED, R.INJFAB.ST_SG_FAILED, R.INJFAB.ST_TRANSIENT_COUNT, R.INJFAB.ST_FIRED_COUNT, R.INJFAB.ST_FIRST_TEST, R.INJFAB.ST_FIRST_ISLAND] : List Field).foldl (fun (t : State) f => t.wr f 0) (s.wr R.BOOT.WAKE_LAST_MS (min ((s.mono - s.dev.stateEntry) / 100000) 255))) :=
  ⟨(((inState 1).wr R.LEDGER.DRAM_MAP_SIZE 256).mCf fun c => { c with chosen := 1 }).mDev fun d => { d with strapped := true, railStage := 6 }, _, by decide +kernel, rfl⟩

theorem witness_RailsAndWake_6 : ∃ (s : State), s.dst = 1 ∧ s.dev.boardTest = false :=
  ⟨inState 1, by decide +kernel, by decide +kernel⟩

theorem witness_RailsAndWake_7 : ∃ (s u : State), s.dst ≠ 0 ∧ u = s.fresh.2.fresh.2 :=
  ⟨up, _, by decide +kernel, rfl⟩

theorem witness_SelfTestAndRebuild_1 : ∃ (s u v : State) (transients firings : Nat) (fails : List (Nat × Nat)) (chans : List (List Nat)), s.dst = 2 ∧ 1 ≤ s.dev.stPhase ∧ s.dev.stPhase < 5 ∧ (u = fails.foldl (fun t f => t.stFail s.dev.stPhase f) ((s.count R.INJFAB.ST_TRANSIENT_COUNT 0 0 transients).count R.INJFAB.ST_FIRED_COUNT 0 0 firings)) ∧ (v = if s.dev.stPhase = 3 then (chans.foldl (fun t c => t.bringChannel c) u).loadSlots else u) :=
  ⟨(inState 2).mDev fun d => { d with stPhase := 1 }, _, _, 0, 3, [], [], by decide +kernel, by decide +kernel, by decide +kernel, rfl, rfl⟩

theorem witness_SelfTestAndRebuild_2 : ∃ (s u v w x : State) (ms : Nat), s.dst = 2 ∧ s.dev.stPhase = 6 ∧ u = ((s.wr R.DEVSTATE.START_LAST_SELF_TEST (min ms 511)).goState 3 .hardware 0x12) ∧ (v = u.divideDram.mWp fun w => { w with rank := (List.range 96).filter fun c => decide (u.rd R.STALL.CH_STATE_STATE c = 2) }) ∧ (w = ([R.BELL.RB_DELTA_COPIES, R.BELL.RB_VOID_COUNT, R.BELL.RB_UNC_COUNT, R.BELL.RB_REPLAY_ROWS, R.BELL.RB_MISMATCH_BLOCKS] : List Field).foldl (fun (t : State) f => t.wr f 0) (((v.wr R.BELL.BELL_CAP_MIB v.bellCapMib).set R.TALLY.TALLY_STATE_STATE 1).wr R.BELL.RB_STAT_PHASE 1)) ∧ (x = (w.lockPages.mDev fun d => { d with stPhase := 0, mgmtUp := true })) :=
  ⟨(inState 2).mDev fun d => { d with stPhase := 6 }, _, _, _, _, 120, by decide +kernel, by decide +kernel, rfl, rfl, rfl, rfl⟩

theorem witness_SelfTestAndRebuild_3 : ∃ (s : State), s.dst = 2 :=
  ⟨inState 2, by decide +kernel⟩

theorem witness_SelfTestAndRebuild_4 : ∃ (s u : State) (ms : Nat) (bad : List Nat) (p : Nat), s.dst = 3 ∧ p = s.rd R.BELL.RB_STAT_PHASE ∧ 1 ≤ p ∧ p ≤ 6 ∧ (u = if p = 1 then s.rebuild1 else if p = 2 then s.rebuild2 else if p = 3 then s.rebuild3 else if p = 4 then s.rebuild4 bad else if p = 5 then s.rebuild5 bad else s.rebuild6) :=
  ⟨(inState 3).wr R.BELL.RB_STAT_PHASE 4, _, 10, [], 4, by decide +kernel, by decide +kernel, by decide +kernel, by decide +kernel, rfl⟩

theorem witness_SelfTestAndRebuild_5 : ∃ (s : State), s.dst = 3 ∧ s.rd R.BELL.RB_STAT_PHASE = 0 ∧ s.nv.sanitize = 0 :=
  ⟨inState 3, by decide +kernel, by decide +kernel, by decide +kernel⟩

theorem witness_SelfTestAndRebuild_6 : ∃ (s : State), s.dst = 3 :=
  ⟨inState 3, by decide +kernel⟩

theorem witness_SelfTestAndRebuild_7 : ∃ (s u v : State), s.bell.validWalk = true ∧ (u = s.mSw fun w => { w with blocks := w.blocks.map fun e => (e.1, { e.2 with valid := 0 }) }) ∧ (v = (((((s.led.map.map fun e => (e.1 / 2 ^ 38, e.2)) ++ s.led.cix.map fun r => (r.nsid, r.prior)) : List (Nat × Nat)).filter fun e => isMedia e.2).foldl (fun (t : State) e => t.mBlock (aBlockKey e.2) fun b => { b with valid := b.valid + iuUnits (t.ns e.1).iu }) u)) :=
  ⟨up.mBell fun b => { b with validWalk := true }, _, _, by decide +kernel, rfl, rfl⟩

theorem witness_ClosingAndHalt_1 : ∃ (s : State), s.dev.failArmed = true ∧ s.dst ≠ 1 ∧ s.dst ≠ 2 :=
  ⟨up.mDev fun d => { d with failArmed := true }, by decide +kernel, by decide +kernel, by decide +kernel⟩

theorem witness_ClosingAndHalt_3 : ∃ (s u : State), s.dst ≠ 0 ∧ s.rd R.BELL.HU_STAT_OK = 0 ∧ (u = ((s.wr R.BELL.HU_STAT_OK 1).mDev fun d => { d with failArmed := true }).holdup) :=
  ⟨up, _, by decide +kernel, by decide +kernel, rfl⟩

theorem witness_ClosingAndHalt_4 : ∃ (s u : State) (up : Bool), s.dst ≠ 0 ∧ s.rd R.BELL.HU_STAT_FAIL ≠ b2n (!up) ∧ u = s.wr R.BELL.HU_STAT_FAIL (b2n (!up)) :=
  ⟨Sys2Proof.Tests.up, _, false, by decide +kernel, by decide +kernel, rfl⟩

theorem witness_ClosingAndHalt_5 : ∃ (s : State) (unit : Nat) (n : BellUnit), s.bellUnit unit = some n :=
  ⟨(inState 6).mBell fun b => { b with units := [{ id := 3, parts := [], sectors := 5, stripe := 0, die := 17 }] }, 3, { id := 3, parts := [], sectors := 5, stripe := 0, die := 17 }, by decide +kernel⟩

theorem witness_ClosingAndHalt_6 : ∃ (s u v : State) (unit : Nat) (n : BellUnit), s.bellUnit unit = some n ∧ n.fails = 1 ∧ u = s.count R.BELL.BELL_FAIL_PROG ∧ (v = (match u.bellBlock n.die with | some k => (u.retireBlock k 1).mBell fun b => { b with journal := b.journal ++ [⟨b.made, 7, u.mono, [k / 8192, k % 8192, 1]⟩], made := b.made + 1 } | none => u)) :=
  ⟨(inState 6).mBell fun b => { b with units := [{ id := 3, parts := [], sectors := 5, stripe := 0, die := 17, fails := 1 }] }, _, _, 3, { id := 3, parts := [], sectors := 5, stripe := 0, die := 17, fails := 1 }, by decide +kernel, by decide +kernel, rfl, rfl⟩

theorem witness_ClosingAndHalt_7 : ∃ (s u : State), s.dst = 6 ∧ s.bellDone = true ∧ (u = (s.bellDurable ((s.bell.units.filter fun a => !a.good).map fun a => a.sectors).sum).bellWrite true) :=
  ⟨inState 6, _, by decide +kernel, by decide +kernel, rfl⟩

theorem witness_ClosingAndHalt_8 : ∃ (s u : State), s.dst = 6 ∧ u = (s.bellWrite false).wr R.DEVSTATE.DEV_STATE_BELL_OK 0 :=
  ⟨inState 6, _, by decide +kernel, rfl⟩

theorem witness_ClosingAndHalt_9 : ∃ (s : State) (who : Initiator), mayWrite R.DEVSTATE.HALT_CTRL_ORDERLY who = true ∧ (s.dst = 4 ∨ s.dst = 5) :=
  ⟨up, .mgmt 0 0, by decide +kernel, by decide +kernel⟩

theorem witness_ClosingAndHalt_10 : ∃ (s : State) (who : Initiator), mayWrite R.DEVSTATE.HALT_CTRL_RESTART who = true ∧ s.dst = 7 :=
  ⟨inState 7, .mgmt 0 0, by decide +kernel, by decide +kernel⟩

theorem witness_ClosingAndHalt_11 : ∃ (s : State), s.dst = 7 ∧ s.mayRestart = true ∧ s.recentRestarts.length < 3 :=
  ⟨(inState 7).wr R.DEVSTATE.DEV_STATE_HALT_CAUSE 1, by decide +kernel, by decide +kernel, by decide +kernel⟩

theorem witness_ModesAndHeat_1 : ∃ (s : State) (who : Initiator) (set clear bad : Nat), s.armed = [] ∧ s.dst = 4 ∧ requester who ≠ .policy ∧ bad = without ((set % 256).lor (clear % 256)) (requester who).modes :=
  ⟨up, .mgmt 0 0, 1, 0, 0, by decide +kernel, by decide +kernel, by decide +kernel, by decide +kernel⟩

theorem witness_ModesAndHeat_2 : ∃ (s : State) (r : ModeReq) (rest : List ModeReq), s.dev.undecided = r :: rest ∧ (s.dst = 4 ∨ s.dst = 5) :=
  ⟨up.mDev fun d => { d with undecided := [{ who := .mgmt, cause := 0, set := 1, clear := 0, refCode := 0, refBits := 0, uid := 0 }] }, { who := .mgmt, cause := 0, set := 1, clear := 0, refCode := 0, refBits := 0, uid := 0 }, [], by decide +kernel, by decide +kernel⟩

theorem witness_ModesAndHeat_3 : ∃ (s : State) (level : Bool), s.dst ≠ 0 ∧ (s.dev.inService = true ∨ level = false) :=
  ⟨up, false, by decide +kernel, by decide +kernel⟩

theorem witness_ModesAndHeat_4 : ∃ (s u : State), s.dst ≠ 0 ∧ s.dev.inService = false ∧ (u = (s.mDev fun d => { d with inService := true }).disarmThose (fun _ => true) 3) ∧ u.mode 5 = false :=
  ⟨up, _, by decide +kernel, by decide +kernel, rfl, by decide +kernel⟩

theorem witness_ModesAndHeat_5 : ∃ (s u v : State) (readings : List Int) (y : Int), s.dst ≠ 0 ∧ readings.length = 20 ∧ s.armed = [] ∧ (u = s.mPwr fun x => { x with temps := readings.zipIdx.foldl (fun t e => t.set none e.2 (if sensorDomain e.2 = 0 ∨ s.domOn (sensorDomain e.2) then some e.1 else none)) ([] : Tbl (Option Int)) }) ∧ u.composite = some y ∧ (v = (List.range 96).foldl (fun t c => t.zqByTemp c) (((u.mPwr fun x => { x with above := x.above % 256 }).thresholds y).thermalWarning)) :=
  ⟨up, _, _, List.replicate 20 40, 40, by decide +kernel, by decide +kernel, by decide +kernel, rfl, by decide +kernel, rfl⟩

theorem witness_ModesAndHeat_6 : ∃ (s u v w : State) (y : Int), s.composite = some y ∧ s.sw.tempCount ≠ 0 ∧ (u = if y < -40 then s else s.count R.HEALTH.TEMP_BIN_SECONDS 0 (min 29 ((y + 40) / 5).toNat)) ∧ ((if 32768 ≤ u.rd R.HEALTH.TEMP_EXT_MAX then (u.rd R.HEALTH.TEMP_EXT_MAX : Int) - 65536 else (u.rd R.HEALTH.TEMP_EXT_MAX : Int)) ≥ y) ∧ ((if 32768 ≤ u.rd R.HEALTH.TEMP_EXT_MIN then (u.rd R.HEALTH.TEMP_EXT_MIN : Int) - 65536 else (u.rd R.HEALTH.TEMP_EXT_MIN : Int)) ≤ y) ∧ (v = (fun (t : State) => if t.hostThreshold 0 0 ≤ y + 273 then t.count R.HEALTH.TEMP_ABOVE_HOST_SECONDS else t) ((u.mSw fun x => { x with tempSum := x.tempSum + y, tempCount := x.tempCount + 1 }).wr R.HEALTH.TEMP_AVG_HUNDREDTHS (((u.sw.tempSum + y) * 100 / ((u.sw.tempCount + 1 : Nat) : Int)) % 65536).toNat)) ∧ (w = if v.degrees R.POWER.THERM_CFG_WCTEMP ≤ y then v.count R.HEALTH.TEMP_ABOVE_WARN_SECONDS else v) :=
  ⟨((up.mSw fun x => { x with tempCount := 1 }).mPwr fun x => { x with temps := (List.replicate 20 (40 : Int)).zipIdx.map fun e => (e.2, some e.1) }).wr R.HEALTH.TEMP_EXT_MAX 50, _, _, _, 40, by decide +kernel, by decide +kernel, rfl, by decide +kernel, by decide +kernel, rfl, rfl⟩

theorem witness_HostQueuesComplete_1 : ∃ (s u v : State) (port sqid tail : Nat) (q : Sq), u = s.hostRequest ∧ u.sqOf port sqid = some q ∧ tail < q.size ∧ (u.port port).en = true ∧ (u.port port).resetting = false ∧ u.domOn 1 = true ∧ (v = u.mSq port sqid fun q => { q with tail := tail }) :=
  ⟨hostUp (aCmd .read 1 2), _, _, 0, 1, 5, { port := 0, id := 1, size := 64, cq := 1, prio := 0, ring := [1] }, rfl, by decide +kernel, by decide +kernel, by decide +kernel, by decide +kernel, by decide +kernel, rfl⟩

theorem witness_HostQueuesComplete_2 : ∃ (s u : State) (port sqid cid opcode flags nsid : Nat) (dw : List Nat) (ranges : List (Nat × Nat)) (payload : List Nat) (q : Sq) (rsv : Bool), s.sqOf port sqid = some q ∧ s.contextFor port sqid = some rsv ∧ q.fetch ≠ q.tail ∧ q.ring.length < ringSize sqid ∧ (s.port port).takes = true ∧ (s.dst = 4 ∨ s.dst = 5) ∧ (kindOf sqid opcode = .admin ∨ kindOf sqid opcode = .flush ∨ kindOf sqid opcode = .dsm) ∧ (u = s.mHost fun h => { h with nextUid := s.host.nextUid + 1, nextOrder := h.nextOrder + 1, cmds := h.cmds ++ [{ uid := s.host.nextUid, port := port, sqid := sqid, cid := cid % 0x10000, kind := kindOf sqid opcode, opcode := opcode % 256, nsid := nsid % 2 ^ 32, slba := 0, nlb := 0, flags := flags, dw := dw.map fun w => w % 2 ^ 32, ranges := ranges, payload := payload, arrival := s.mono, order := s.host.nextOrder, reserve := rsv }] }) :=
  ⟨(hostUp (aCmd .read 1 2)).mSq 0 0 fun q => { q with tail := 3 }, _, 0, 0, 9, 8, 0, 0, [], [], [], { port := 0, id := 0, size := 64, cq := 0, prio := 0, tail := 3 }, false, by decide +kernel, by decide +kernel, by decide +kernel, by decide +kernel, by decide +kernel, by decide +kernel, by decide +kernel, rfl⟩

theorem witness_HostQueuesComplete_3 : ∃ (s u : State) (port sqid cid opcode flags nsid : Nat) (dw : List Nat) (ranges : List (Nat × Nat)) (payload : List Nat) (q : Sq) (rsv : Bool), s.sqOf port sqid = some q ∧ s.contextFor port sqid = some rsv ∧ q.fetch ≠ q.tail ∧ q.ring.length < ringSize sqid ∧ (s.port port).takes = true ∧ (s.dst = 4 ∨ s.dst = 5) ∧ (kindOf sqid opcode = .read ∨ kindOf sqid opcode = .write ∨ kindOf sqid opcode = .writeUnc ∨ kindOf sqid opcode = .compare ∨ kindOf sqid opcode = .writeZeroes ∨ kindOf sqid opcode = .verify) ∧ (u = s.mHost fun h => { h with nextUid := s.host.nextUid + 1, nextOrder := h.nextOrder + 1, cmds := h.cmds ++ [{ uid := s.host.nextUid, port := port, sqid := sqid, cid := cid % 0x10000, kind := kindOf sqid opcode, opcode := opcode % 256, nsid := nsid % 2 ^ 32, slba := dw.getD 0 0 % 2 ^ 32 + dw.getD 1 0 % 2 ^ 32 * 2 ^ 32, nlb := dw.getD 2 0 % 0x10000 + 1, flags := flags, dw := dw.map fun w => w % 2 ^ 32, ranges := ranges, payload := payload, arrival := s.mono, order := s.host.nextOrder, reserve := rsv }] }) :=
  ⟨(hostUp (aCmd .read 1 2)).mSq 0 1 fun q => { q with tail := 3 }, _, 0, 1, 9, 2, 0, 1, [], [], [], { port := 0, id := 1, size := 64, cq := 1, prio := 0, tail := 3, ring := [1] }, false, by decide +kernel, by decide +kernel, by decide +kernel, by decide +kernel, by decide +kernel, by decide +kernel, by decide +kernel, rfl⟩

theorem witness_HostQueuesComplete_4 : ∃ (s u : State) (e : Cmd), (s.dst = 4 ∨ s.dst = 5) ∧ s.domOn 1 = true ∧ s.startGranted.arbitrate.1 = some e ∧ (u = (s.startGranted.arbitrate.2.evalIo e).mHost fun h => { h with sinceAdmin := min (h.sinceAdmin + 1) 64 }) ∧ u.host.sinceAdmin < u.rd R.INTAKE.ARB_CFG_ADMIN_GAP :=
  ⟨hostUp (aCmd .read 1 2), _, aCmd .read 1 2, by decide +kernel, by decide +kernel, by decide +kernel, rfl, by decide +kernel⟩

theorem witness_HostQueuesComplete_5 : ∃ (s u : State) (e : Cmd), (s.dst = 4 ∨ s.dst = 5) ∧ s.domOn 1 = true ∧ s.startGranted.arbitrate.1 = none ∧ (u = s.startGranted.arbitrate.2.mHost fun h => { h with sinceAdmin := min (h.sinceAdmin + 1) 64 }) ∧ u.rd R.INTAKE.ARB_CFG_ADMIN_GAP ≤ u.host.sinceAdmin ∧ (((if u.host.rr.get 0 20 = 0 then [0, 1] else [1, 0]).filterMap fun p => u.offerAdmin p).head? = some e) :=
  ⟨(hostUp (aCmd .admin 0 8)).mHost fun h => { h with sinceAdmin := 63 }, _, aCmd .admin 0 8, by decide +kernel, by decide +kernel, by decide +kernel, rfl, by decide +kernel, by decide +kernel⟩

theorem witness_HostQueuesComplete_6 : ∃ (s u : State) (f top : Nat) (r : RltRow), s.host.shifting = some (f, top, r) ∧ (u = s.mHost fun h => { h with rlt := h.rlt.map fun y => (if f < y.row ∧ y.row ≤ top then { y with row := y.row - 1 } else y), shifting := none, rltWait := [] }) :=
  ⟨up.mHost fun h => { h with shifting := some (0, 3, { row := 0, uid := 1, nsid := 1, first := 0, last := 0, excl := true, held := false }) }, _, 0, 3, { row := 0, uid := 1, nsid := 1, first := 0, last := 0, excl := true, held := false }, by decide +kernel, rfl⟩

theorem witness_HostQueuesComplete_7 : ∃ (s : State) (port sqid cid : Nat) (e : Cmd), s.cmdOn port sqid cid = some e ∧ e.stage = .waiting 1 ∧ s.rd R.INTAKE.QB_CFG_MODE 0 (qb port sqid) = 1 ∧ s.boundPitch port sqid = none :=
  ⟨(hostUp { aCmd .read 1 2 with stage := .waiting 1 }).wr R.INTAKE.QB_CFG_MODE 1 0 (qb 0 1), 0, 1, 7, { aCmd .read 1 2 with stage := .waiting 1 }, by decide +kernel, by decide +kernel, by decide +kernel, by decide +kernel⟩

theorem witness_HostQueuesComplete_8 : ∃ (s : State) (port sqid cid p : Nat) (e : Cmd), s.cmdOn port sqid cid = some e ∧ e.stage = .waiting 1 ∧ s.rd R.INTAKE.QB_CFG_MODE 0 (qb port sqid) = 1 ∧ s.boundPitch port sqid = some p :=
  ⟨((((hostUp { aCmd .read 1 2 with stage := .waiting 1 }).wr R.INTAKE.QB_CFG_MODE 1 0 (qb 0 1)).wr R.INTAKE.QB_CFG_BOUND 1 0 (qb 0 1)).wr R.INTAKE.QB_CFG_PITCH 4 0 (qb 0 1)).mPit fun x => { x with table := [(4, { state := 1 })] }, 0, 1, 7, 4, { aCmd .read 1 2 with stage := .waiting 1 }, by decide +kernel, by decide +kernel, by decide +kernel, by decide +kernel⟩

theorem witness_HostQueuesComplete_9 : ∃ (s u : State) (port cqid head : Nat) (q : Cq), u = s.hostRequest ∧ u.cqOf port cqid = some q ∧ head < q.size ∧ (head + q.size - q.head) % q.size ≤ q.posted.length ∧ (u.port port).en = true ∧ (u.port port).resetting = false ∧ q.held = [] :=
  ⟨hostUp (aCmd .read 1 2), _, 0, 1, 0, { port := 0, id := 1, size := 64, vector := 1 }, rfl, by decide +kernel, by decide +kernel, by decide +kernel, by decide +kernel, by decide +kernel, by decide +kernel⟩

theorem witness_IoCommandsComplete_1 : ∃ (s u : State) (port sqid cid : Nat) (q : Sq) (e d : Cmd) (a : Admission), Admits s port sqid cid .read q e d a u :=
  ⟨hostUp (aCmd .read 1 2), _, 0, 1, 7, { port := 0, id := 1, size := 64, cq := 1, prio := 0, ring := [1] }, aCmd .read 1 2, ((((hostUp (aCmd .read 1 2)).askLocks (aCmd .read 1 2)).accept (aCmd .read 1 2) ((hostUp (aCmd .read 1 2)).admission (aCmd .read 1 2))).cmdOf 1).getD (aCmd .read 1 2), _, ⟨by decide +kernel, by decide +kernel, by decide +kernel, by decide +kernel, by decide +kernel, by decide +kernel, by decide +kernel, by decide +kernel, rfl, by decide +kernel, by decide +kernel, by decide +kernel, by decide +kernel, rfl⟩⟩

theorem witness_IoCommandsComplete_2 : ∃ (s u : State) (port sqid cid : Nat) (q : Sq) (e d : Cmd) (a : Admission), Admits s port sqid cid .compare q e d a u :=
  ⟨hostUp (aCmd .compare 1 5), _, 0, 1, 7, { port := 0, id := 1, size := 64, cq := 1, prio := 0, ring := [1] }, aCmd .compare 1 5, ((((hostUp (aCmd .compare 1 5)).askLocks (aCmd .compare 1 5)).accept (aCmd .compare 1 5) ((hostUp (aCmd .compare 1 5)).admission (aCmd .compare 1 5))).cmdOf 1).getD (aCmd .compare 1 5), _, ⟨by decide +kernel, by decide +kernel, by decide +kernel, by decide +kernel, by decide +kernel, by decide +kernel, by decide +kernel, by decide +kernel, rfl, by decide +kernel, by decide +kernel, by decide +kernel, by decide +kernel, rfl⟩⟩

theorem witness_IoCommandsComplete_3 : ∃ (s u : State) (port sqid cid : Nat) (q : Sq) (e d : Cmd) (a : Admission), Admits s port sqid cid .verify q e d a u :=
  ⟨hostUp (aCmd .verify 1 12), _, 0, 1, 7, { port := 0, id := 1, size := 64, cq := 1, prio := 0, ring := [1] }, aCmd .verify 1 12, ((((hostUp (aCmd .verify 1 12)).askLocks (aCmd .verify 1 12)).accept (aCmd .verify 1 12) ((hostUp (aCmd .verify 1 12)).admission (aCmd .verify 1 12))).cmdOf 1).getD (aCmd .verify 1 12), _, ⟨by decide +kernel, by decide +kernel, by decide +kernel, by decide +kernel, by decide +kernel, by decide +kernel, by decide +kernel, by decide +kernel, rfl, by decide +kernel, by decide +kernel, by decide +kernel, by decide +kernel, rfl⟩⟩

theorem witness_IoCommandsComplete_4 : ∃ (s u : State) (port sqid cid : Nat) (q : Sq) (e d : Cmd) (a : Admission), Admits s port sqid cid .write q e d a u :=
  ⟨hostUp (aCmd .write 1 1), _, 0, 1, 7, { port := 0, id := 1, size := 64, cq := 1, prio := 0, ring := [1] }, aCmd .write 1 1, ((((hostUp (aCmd .write 1 1)).askLocks (aCmd .write 1 1)).accept (aCmd .write 1 1) ((hostUp (aCmd .write 1 1)).admission (aCmd .write 1 1))).cmdOf 1).getD (aCmd .write 1 1), _, ⟨by decide +kernel, by decide +kernel, by decide +kernel, by decide +kernel, by decide +kernel, by decide +kernel, by decide +kernel, by decide +kernel, rfl, by decide +kernel, by decide +kernel, by decide +kernel, by decide +kernel, rfl⟩⟩

theorem witness_IoCommandsComplete_5 : ∃ (s u : State) (port sqid cid : Nat) (q : Sq) (e d : Cmd) (a : Admission), Admits s port sqid cid .writeZeroes q e d a u :=
  ⟨hostUp (aCmd .writeZeroes 1 8), _, 0, 1, 7, { port := 0, id := 1, size := 64, cq := 1, prio := 0, ring := [1] }, aCmd .writeZeroes 1 8, ((((hostUp (aCmd .writeZeroes 1 8)).askLocks (aCmd .writeZeroes 1 8)).accept (aCmd .writeZeroes 1 8) ((hostUp (aCmd .writeZeroes 1 8)).admission (aCmd .writeZeroes 1 8))).cmdOf 1).getD (aCmd .writeZeroes 1 8), _, ⟨by decide +kernel, by decide +kernel, by decide +kernel, by decide +kernel, by decide +kernel, by decide +kernel, by decide +kernel, by decide +kernel, rfl, by decide +kernel, by decide +kernel, by decide +kernel, by decide +kernel, rfl⟩⟩

theorem witness_IoCommandsComplete_6 : ∃ (s u : State) (port sqid cid : Nat) (q : Sq) (e d : Cmd) (a : Admission), Admits s port sqid cid .flush q e d a u :=
  ⟨hostUp (aCmd .flush 1 0), _, 0, 1, 7, { port := 0, id := 1, size := 64, cq := 1, prio := 0, ring := [1] }, aCmd .flush 1 0, ((((hostUp (aCmd .flush 1 0)).askLocks (aCmd .flush 1 0)).accept (aCmd .flush 1 0) ((hostUp (aCmd .flush 1 0)).admission (aCmd .flush 1 0))).cmdOf 1).getD (aCmd .flush 1 0), _, ⟨by decide +kernel, by decide +kernel, by decide +kernel, by decide +kernel, by decide +kernel, by decide +kernel, by decide +kernel, by decide +kernel, rfl, by decide +kernel, by decide +kernel, by decide +kernel, by decide +kernel, rfl⟩⟩

theorem witness_IoCommandsComplete_7 : ∃ (s u : State) (port sqid cid : Nat) (q : Sq) (e d : Cmd) (a : Admission), Admits s port sqid cid .writeUnc q e d a u :=
  ⟨hostUp (aCmd .writeUnc 1 4), _, 0, 1, 7, { port := 0, id := 1, size := 64, cq := 1, prio := 0, ring := [1] }, aCmd .writeUnc 1 4, ((((hostUp (aCmd .writeUnc 1 4)).askLocks (aCmd .writeUnc 1 4)).accept (aCmd .writeUnc 1 4) ((hostUp (aCmd .writeUnc 1 4)).admission (aCmd .writeUnc 1 4))).cmdOf 1).getD (aCmd .writeUnc 1 4), _, ⟨by decide +kernel, by decide +kernel, by decide +kernel, by decide +kernel, by decide +kernel, by decide +kernel, by decide +kernel, by decide +kernel, rfl, by decide +kernel, by decide +kernel, by decide +kernel, by decide +kernel, rfl⟩⟩

theorem witness_IoCommandsComplete_8 : ∃ (s u : State) (port sqid cid : Nat) (q : Sq) (e d : Cmd) (a : Admission) (b : Cmd), Admits s port sqid cid .dsm q e d a u ∧ u.cmdOf d.uid = some b :=
  ⟨hostUp (aCmd .dsm 1 9), _, 0, 1, 7, { port := 0, id := 1, size := 64, cq := 1, prio := 0, ring := [1] }, aCmd .dsm 1 9, ((((hostUp (aCmd .dsm 1 9)).askLocks (aCmd .dsm 1 9)).accept (aCmd .dsm 1 9) ((hostUp (aCmd .dsm 1 9)).admission (aCmd .dsm 1 9))).cmdOf 1).getD (aCmd .dsm 1 9), _, ((((hostUp (aCmd .dsm 1 9)).askLocks (aCmd .dsm 1 9)).accept (aCmd .dsm 1 9) ((hostUp (aCmd .dsm 1 9)).admission (aCmd .dsm 1 9))).cmdOf 1).getD (aCmd .dsm 1 9), ⟨by decide +kernel, by decide +kernel, by decide +kernel, by decide +kernel, by decide +kernel, by decide +kernel, by decide +kernel, by decide +kernel, rfl, by decide +kernel, by decide +kernel, by decide +kernel, by decide +kernel, rfl⟩, by decide +kernel⟩

theorem witness_IoCommandsComplete_9 : ∃ (s : State) (port sqid cid : Nat) (e : Cmd), s.cmdOn port sqid cid = some e ∧ s.cmdOf e.uid = some e ∧ e.kind = .flush ∧ e.stage = .accepted ∧ ((e.covers.any fun y => s.coverOpen y) = false) ∧ e.coverDefer = none :=
  ⟨hostUp { aCmd .flush 1 0 with stage := .accepted }, 0, 1, 7, { aCmd .flush 1 0 with stage := .accepted }, by decide +kernel, by decide +kernel, by decide +kernel, by decide +kernel, by decide +kernel, by decide +kernel⟩

theorem witness_HostReadsAndDeadlinesComplete_1 : ∃ (s : State) (port tag n : Nat) (ok : Bool) (e : Cmd), s.armed = [] ∧ s.readTag port tag = some n ∧ s.cmdOf n = some e :=
  ⟨(hostUp (aCmd .write 1 1)).mPort 0 fun p => { p with hostReads := [1] }, 0, 1, 1, true, aCmd .write 1 1, by decide +kernel, by decide +kernel, by decide +kernel⟩

theorem witness_HostReadsAndDeadlinesComplete_2 : ∃ (s : State) (port tag n : Nat) (e : Cmd), s.readTag port tag = some n ∧ s.cmdOf n = some e :=
  ⟨(hostUp (aCmd .write 1 1)).mPort 0 fun p => { p with hostReads := [1] }, 0, 1, 1, aCmd .write 1 1, by decide +kernel, by decide +kernel⟩

theorem witness_HostReadsAndDeadlinesComplete_3 : ∃ (s u v : State) (port sqid cid sector data : Nat) (e : Cmd), u = s.startGranted ∧ u.cmdOn port sqid cid = some e ∧ e.kind = .write ∧ e.stage = .accepted ∧ e.started = true ∧ sector < e.sectors ∧ e.arrived.contains sector = false ∧ e.resident + 1 ≠ e.sectors ∧ v = u.crateWrite (crateBase (e.crates.getD ((e.slba * (u.ns e.nsid).block + sector * 512) / (u.ns e.nsid).iuBytes - ((u.ns e.nsid).iuRange e.slba e.nlb).1) 0) + (e.slba * (u.ns e.nsid).block + sector * 512) % (u.ns e.nsid).iuBytes) (bytesOf data 512) :=
  ⟨hostUp { aCmd .write 1 1 with stage := .accepted, started := true, sectors := 8, crates := [0] }, _, _, 0, 1, 7, 3, 0x55, { aCmd .write 1 1 with stage := .accepted, started := true, sectors := 8, crates := [0] }, rfl, by decide +kernel, by decide +kernel, by decide +kernel, by decide +kernel, by decide +kernel, by decide +kernel, by decide +kernel, rfl⟩

theorem witness_HostReadsAndDeadlinesComplete_4 : ∃ (s u v : State) (port sqid cid : Nat) (e : Cmd), s.cmdOn port sqid cid = some e ∧ e.stage = .accepted ∧ s.isDataFirst e = false ∧ ((s.st.reads.filter fun r => decide (r.src = .cmd e.uid) && decide (0 < r.step)) ≠ []) ∧ (u = ((s.st.reads.filter fun r => decide (r.src = .cmd e.uid) && decide (0 < r.step)).filter fun r => !r.injected).foldl (fun t r => t.addCand (aBlockKey r.addr) 1 true) s) ∧ (v = (match e.pitch with | some p => u.pitchLog p fun l => { l with deadlineErrors := l.deadlineErrors + 1 } | none => u)) :=
  ⟨(hostUp { aCmd .read 1 2 with stage := .accepted }).mSt fun t => { t with reads := [{ id := 0, src := .cmd 1, cls := 3, nsid := 1, iu := 0, unit := 0, addr := 0, step := 1 }] }, _, _, 0, 1, 7, { aCmd .read 1 2 with stage := .accepted }, by decide +kernel, by decide +kernel, by decide +kernel, by decide +kernel, rfl, rfl⟩

theorem witness_HardwareAdminCommandsComplete_1 : ∃ (s : State) (port cid : Nat) (e : Cmd), HasAdmin s port cid 0x01 e ∧ bits (e.cdw 11) 16 16 ≠ 0 ∧ (s.cqOf e.port (bits (e.cdw 11) 16 16)).isSome = true ∧ bits (e.cdw 10) 0 16 ≠ 0 ∧ bits (e.cdw 10) 0 16 ≤ s.queueMax ∧ s.sqOf e.port (bits (e.cdw 10) 0 16) = none ∧ bits (e.cdw 10) 16 16 ≠ 0 ∧ bit (e.cdw 11) 0 = true :=
  ⟨hostUp (aCmd .admin 0 1 [0x3F0002, 0x10001] []), 0, 7, aCmd .admin 0 1 [0x3F0002, 0x10001] [], ⟨by decide +kernel, by decide +kernel, by decide +kernel⟩, by decide +kernel, by decide +kernel, by decide +kernel, by decide +kernel, by decide +kernel, by decide +kernel, by decide +kernel⟩

theorem witness_HardwareAdminCommandsComplete_2 : ∃ (s : State) (port cid : Nat) (e : Cmd), HasAdmin s port cid 0x05 e ∧ bits (e.cdw 10) 0 16 ≠ 0 ∧ bits (e.cdw 10) 0 16 ≤ s.queueMax ∧ s.cqOf e.port (bits (e.cdw 10) 0 16) = none ∧ bits (e.cdw 10) 16 16 ≠ 0 ∧ bit (e.cdw 11) 0 = true ∧ (bit (e.cdw 11) 1 = true → bits (e.cdw 11) 16 16 < s.queueMax) :=
  ⟨hostUp (aCmd .admin 0 5 [0x3F0002, 0x20003] []), 0, 7, aCmd .admin 0 5 [0x3F0002, 0x20003] [], ⟨by decide +kernel, by decide +kernel, by decide +kernel⟩, by decide +kernel, by decide +kernel, by decide +kernel, by decide +kernel, by decide +kernel, by decide +kernel⟩

theorem witness_HardwareAdminCommandsComplete_3 : ∃ (s : State) (port cid : Nat) (e : Cmd), HasAdmin s port cid 0x04 e ∧ bits (e.cdw 10) 0 16 ≠ 0 ∧ (s.cqOf e.port (bits (e.cdw 10) 0 16)).isSome = true ∧ ((s.host.sqs.any fun x => decide (x.port = e.port) && decide (x.cq = bits (e.cdw 10) 0 16)) = false) :=
  ⟨(hostUp (aCmd .admin 0 4 [1] [])).mHost fun h => { h with sqs := h.sqs.take 1 }, 0, 7, aCmd .admin 0 4 [1] [], ⟨by decide +kernel, by decide +kernel, by decide +kernel⟩, by decide +kernel, by decide +kernel, by decide +kernel⟩

theorem witness_HardwareAdminCommandsComplete_4 : ∃ (s : State) (port cid : Nat) (e : Cmd), HasAdmin s port cid 0x00 e ∧ bits (e.cdw 10) 0 16 ≠ 0 ∧ (s.sqOf e.port (bits (e.cdw 10) 0 16)).isSome = true ∧ ((s.host.cmds.any fun d => decide (d.port = e.port) && decide (d.sqid = bits (e.cdw 10) 0 16)) = false) :=
  ⟨hostUp (aCmd .admin 0 0 [1] []), 0, 7, aCmd .admin 0 0 [1] [], ⟨by decide +kernel, by decide +kernel, by decide +kernel⟩, by decide +kernel, by decide +kernel, by decide +kernel⟩

theorem witness_HardwareAdminCommandsComplete_5 : ∃ (s : State) (port cid : Nat) (e : Cmd), HasAdmin s port cid 0x08 e ∧ ((s.host.cmds.find? fun d => decide (d.port = e.port) && decide (d.sqid = bits (e.cdw 10) 0 16) && decide (d.cid = bits (e.cdw 10) 16 16) && decide (d.uid ≠ e.uid)) = none) :=
  ⟨hostUp (aCmd .admin 0 8 [] []), 0, 7, aCmd .admin 0 8 [] [], ⟨by decide +kernel, by decide +kernel, by decide +kernel⟩, by decide +kernel⟩

theorem witness_HardwareAdminCommandsComplete_6 : ∃ (s : State) (port cid : Nat) (e : Cmd), HasAdmin s port cid 0x0C e ∧ (s.port e.port).aers.length < 4 ∧ ((s.host.events.find? fun y => decide (y / 2 ^ 32 = e.port)) = none) ∧ ((((s.unstage e).mCmd e.uid fun d => { d with stage := .accepted, acceptedAt := s.mono }).mPort e.port fun p => { p with aers := p.aers ++ [e.cid] }).host.events = s.host.events) :=
  ⟨hostUp (aCmd .admin 0 12 [] []), 0, 7, aCmd .admin 0 12 [] [], ⟨by decide +kernel, by decide +kernel, by decide +kernel⟩, by decide +kernel, by decide +kernel, by decide +kernel⟩

theorem witness_HardwareAdminCommandsComplete_7 : ∃ (s : State) (port cid : Nat) (e : Cmd) (len n : Nat) (pg : Nat → Nat), HasAdmin s port cid 0x02 e ∧ (bits (e.cdw 10) 0 8 = 0xC1 ∨ bits (e.cdw 10) 0 8 = 0xC2) ∧ s.logPage (bits (e.cdw 10) 0 8) s.free = some (len, pg) ∧ e.cdw 12 + e.cdw 13 * 2 ^ 32 ≤ len ∧ e.cdw 12 % 4 = 0 ∧ n = (bits (e.cdw 10) 16 16 + bits (e.cdw 11) 0 16 * 0x10000 + 1) * 4 ∧ bit (e.cdw 10) 15 = true :=
  ⟨hostUp (aCmd .admin 0 2 [0x880C1] []), 0, 7, aCmd .admin 0 2 [0x880C1] [], _, 36, _, ⟨by decide +kernel, by decide +kernel, by decide +kernel⟩, by decide +kernel, rfl, by decide +kernel, by decide +kernel, by decide +kernel, by decide +kernel⟩

theorem witness_HardwareAdminCommandsComplete_8 : ∃ (s u : State) (port cid : Nat) (e : Cmd), HasAdmin s port cid 0x09 e ∧ bits (e.cdw 10) 0 8 = 0xC0 ∧ bit (e.cdw 10) 31 = false ∧ Nat.land (Nat.lor (bits (e.cdw 11) 0 8) (bits (e.cdw 11) 8 8)) 0xEC = 0 ∧ s.dst = 4 ∧ (u = (s.unstage e).mCmd e.uid fun d => { d with stage := .accepted, acceptedAt := s.mono }) :=
  ⟨hostUp (aCmd .admin 0 9 [0xC0, 1] []), _, 0, 7, aCmd .admin 0 9 [0xC0, 1] [], ⟨by decide +kernel, by decide +kernel, by decide +kernel⟩, by decide +kernel, by decide +kernel, by decide +kernel, by decide +kernel, rfl⟩

theorem witness_HardwareAdminCommandsComplete_9 : ∃ (s u : State) (port cid : Nat) (e : Cmd), HasAdmin s port cid 0x09 e ∧ bits (e.cdw 10) 0 8 = 0xC0 ∧ bit (e.cdw 10) 31 = false ∧ Nat.land (Nat.lor (bits (e.cdw 11) 0 8) (bits (e.cdw 11) 8 8)) 0xEC = 0 ∧ s.dst = 4 ∧ (u = (s.unstage e).mCmd e.uid fun d => { d with stage := .accepted, acceptedAt := s.mono }) :=
  ⟨hostUp (aCmd .admin 0 9 [0xC0, 1] []), _, 0, 7, aCmd .admin 0 9 [0xC0, 1] [], ⟨by decide +kernel, by decide +kernel, by decide +kernel⟩, by decide +kernel, by decide +kernel, by decide +kernel, by decide +kernel, rfl⟩

theorem witness_HardwareAdminCommandsComplete_10 : ∃ (s : State) (port cid : Nat) (e : Cmd), HasAdmin s port cid 0x0A e ∧ bits (e.cdw 10) 0 8 = 0xC0 :=
  ⟨hostUp (aCmd .admin 0 10 [0xC0] []), 0, 7, aCmd .admin 0 10 [0xC0] [], ⟨by decide +kernel, by decide +kernel, by decide +kernel⟩, by decide +kernel⟩

theorem witness_HardwareAdminCommandsComplete_11 : ∃ (s : State) (port cid : Nat) (e : Cmd), HasAdmin s port cid 0x0A e ∧ bits (e.cdw 10) 0 8 = 0xC0 :=
  ⟨hostUp (aCmd .admin 0 10 [0xC0] []), 0, 7, aCmd .admin 0 10 [0xC0] [], ⟨by decide +kernel, by decide +kernel, by decide +kernel⟩, by decide +kernel⟩

theorem witness_HardwareAdminCommandsComplete_12 : ∃ (s : State) (port cid : Nat) (e : Cmd), HasAdmin s port cid 0xC1 e ∧ bit (e.cdw 10) 14 = false ∧ bit (e.cdw 10) 15 = false ∧ ((s.rentCheck (contractOf fun i => e.payload.getD i 0) (some (bits (e.cdw 10) 0 10)) true).1 = 0) :=
  ⟨withChannel ((hostUp (aCmd .admin 0 193 [3] [3, 1, 2000, 1, 1, 1, 0, 0])).wr R.DEVSTATE.MODE_CUR_MODES 1), 0, 7, aCmd .admin 0 193 [3] [3, 1, 2000, 1, 1, 1, 0, 0], ⟨by decide +kernel, by decide +kernel, by decide +kernel⟩, by decide +kernel, by decide +kernel, by decide +kernel⟩

theorem witness_HardwareAdminCommandsComplete_13 : ∃ (s : State) (port cid : Nat) (e : Cmd), HasAdmin s port cid 0xC4 e ∧ (s.pitch (bits (e.cdw 10) 0 10)).state ≠ 0 ∧ (s.pitch (bits (e.cdw 10) 0 10)).owner = 0 :=
  ⟨(hostUp (aCmd .admin 0 196 [4] [])).mPit fun x => { x with table := [(4, { state := 1 })] }, 0, 7, aCmd .admin 0 196 [4] [], ⟨by decide +kernel, by decide +kernel, by decide +kernel⟩, by decide +kernel, by decide +kernel⟩

theorem witness_HardwareAdminCommandsComplete_14 : ∃ (s : State) (port cid : Nat) (e : Cmd), HasAdmin s port cid 0xC8 e ∧ bits (e.cdw 10) 0 16 ≠ 0 ∧ (s.sqOf e.port (bits (e.cdw 10) 0 16)).isSome = true ∧ bit (e.cdw 11) 10 = false :=
  ⟨hostUp (aCmd .admin 0 200 [1, 4] []), 0, 7, aCmd .admin 0 200 [1, 4] [], ⟨by decide +kernel, by decide +kernel, by decide +kernel⟩, by decide +kernel, by decide +kernel, by decide +kernel⟩

theorem witness_HardwareAdminCommandsComplete_15 : ∃ (s : State) (port cid : Nat) (e : Cmd), HasAdmin s port cid 0xC8 e ∧ bits (e.cdw 10) 0 16 ≠ 0 ∧ (s.sqOf e.port (bits (e.cdw 10) 0 16)).isSome = true ∧ bit (e.cdw 11) 10 = true ∧ (s.pitch (bits (e.cdw 11) 0 10)).state = 1 ∧ (s.pitch (bits (e.cdw 11) 0 10)).owner = 0 ∧ s.split = false :=
  ⟨(hostUp (aCmd .admin 0 200 [1, 0x404] [])).mPit fun x => { x with table := [(4, { state := 1 })] }, 0, 7, aCmd .admin 0 200 [1, 0x404] [], ⟨by decide +kernel, by decide +kernel, by decide +kernel⟩, by decide +kernel, by decide +kernel, by decide +kernel, by decide +kernel, by decide +kernel, by decide +kernel⟩

theorem witness_FirmwareAdminCommandsComplete_1 : ∃ (s u : State) (port cid : Nat) (e d : Cmd) (len n : Nat) (pg : Nat → Nat), FirmRuns s port cid 0x02 e d u ∧ u.logPage (bits (d.cdw 10) 0 8) u.free = some (len, pg) ∧ d.cdw 12 + d.cdw 13 * 2 ^ 32 ≤ len ∧ d.cdw 12 % 64 = 0 ∧ n = (bits (d.cdw 10) 16 16 + bits (d.cdw 11) 0 16 * 0x10000 + 1) * 4 ∧ bit (d.cdw 10) 15 = true :=
  ⟨(hostUp (aCmd .admin 0 2 [0x88002] [])).mCore fun c => { c with inReset := false }, _, 0, 7, aCmd .admin 0 2 [0x88002] [], ((((hostUp (aCmd .admin 0 2 [0x88002] [])).mCore fun c => { c with inReset := false }).toFirmware (aCmd .admin 0 2 [0x88002] [])).cmdOf 1).getD (aCmd .admin 0 2 [0x88002] []), _, 36, _, ⟨by decide +kernel, by decide +kernel, by decide +kernel, by decide +kernel, rfl, by decide +kernel, by decide +kernel⟩, rfl, by decide +kernel, by decide +kernel, by decide +kernel, by decide +kernel⟩

theorem witness_FirmwareAdminCommandsComplete_2 : ∃ (s u : State) (port cid : Nat) (e d : Cmd) (pg : Nat → Nat), FirmRuns s port cid 0x06 e d u ∧ u.identifyData d.port d.nsid (bits (d.cdw 10) 0 8) u.free = some pg :=
  ⟨(hostUp (aCmd .admin 0 6 [1] [])).mCore fun c => { c with inReset := false }, _, 0, 7, aCmd .admin 0 6 [1] [], ((((hostUp (aCmd .admin 0 6 [1] [])).mCore fun c => { c with inReset := false }).toFirmware (aCmd .admin 0 6 [1] [])).cmdOf 1).getD (aCmd .admin 0 6 [1] []), _, ⟨by decide +kernel, by decide +kernel, by decide +kernel, by decide +kernel, rfl, by decide +kernel, by decide +kernel⟩, rfl⟩

theorem witness_FirmwareAdminCommandsComplete_3 : ∃ (s u v : State) (port cid : Nat) (e d : Cmd), FirmRuns s port cid 0x09 e d u ∧ bits (d.cdw 10) 0 8 = 0x02 ∧ bit (d.cdw 10) 31 = false ∧ bits (d.cdw 11) 0 5 ≤ 4 ∧ (v = u.mPwr fun x => { x with sel := if u.split then x.sel.set 0 d.port (bits (d.cdw 11) 0 5) else [0, 1].foldl (fun (t : Tbl Nat) p => t.set 0 p (bits (d.cdw 11) 0 5)) x.sel, apstSel := false }) :=
  ⟨(hostUp (aCmd .admin 0 9 [2, 1] [])).mCore fun c => { c with inReset := false }, _, _, 0, 7, aCmd .admin 0 9 [2, 1] [], ((((hostUp (aCmd .admin 0 9 [2, 1] [])).mCore fun c => { c with inReset := false }).toFirmware (aCmd .admin 0 9 [2, 1] [])).cmdOf 1).getD (aCmd .admin 0 9 [2, 1] []), ⟨by decide +kernel, by decide +kernel, by decide +kernel, by decide +kernel, rfl, by decide +kernel, by decide +kernel⟩, by decide +kernel, by decide +kernel, by decide +kernel, rfl⟩

theorem witness_FirmwareAdminCommandsComplete_4 : ∃ (s u : State) (port cid : Nat) (e d : Cmd), FirmRuns s port cid 0x09 e d u ∧ bits (d.cdw 10) 0 8 = 0x0E ∧ bit (d.cdw 10) 31 = false :=
  ⟨(hostUp (aCmd .admin 0 9 [14] [5, 6])).mCore fun c => { c with inReset := false }, _, 0, 7, aCmd .admin 0 9 [14] [5, 6], ((((hostUp (aCmd .admin 0 9 [14] [5, 6])).mCore fun c => { c with inReset := false }).toFirmware (aCmd .admin 0 9 [14] [5, 6])).cmdOf 1).getD (aCmd .admin 0 9 [14] [5, 6]), ⟨by decide +kernel, by decide +kernel, by decide +kernel, by decide +kernel, rfl, by decide +kernel, by decide +kernel⟩, by decide +kernel, by decide +kernel⟩

theorem witness_FirmwareAdminCommandsComplete_5 : ∃ (s u : State) (port cid : Nat) (e d : Cmd), FirmRuns s port cid 0x0A e d u ∧ bits (d.cdw 10) 0 8 = 0x0E :=
  ⟨(hostUp (aCmd .admin 0 10 [14] [])).mCore fun c => { c with inReset := false }, _, 0, 7, aCmd .admin 0 10 [14] [], ((((hostUp (aCmd .admin 0 10 [14] [])).mCore fun c => { c with inReset := false }).toFirmware (aCmd .admin 0 10 [14] [])).cmdOf 1).getD (aCmd .admin 0 10 [14] []), ⟨by decide +kernel, by decide +kernel, by decide +kernel, by decide +kernel, rfl, by decide +kernel, by decide +kernel⟩, by decide +kernel⟩

theorem witness_FirmwareAdminCommandsComplete_6 : ∃ (s u : State) (port cid : Nat) (e d : Cmd) (id : Nat), FirmRuns s port cid 0x0D e d u ∧ u.rd R.LEDGER.NS_CMD_BUSY = 0 ∧ u.journalFull = false ∧ bits (d.cdw 10) 0 4 = 0 ∧ bits (d.payload.getD 6 0) 16 4 ≤ 1 ∧ d.newNs.nsze ≠ 0 ∧ (firstFrom (fun i => decide ((u.ns i).st = 0)) 256 1 = some id) ∧ d.newNs.needs ≤ u.rd R.LEDGER.GRAN_FREE_COUNT :=
  ⟨((hostUp (aCmd .admin 0 13 [0] [5])).mCore fun c => { c with inReset := false }).wr R.LEDGER.GRAN_FREE_COUNT 9, _, 0, 7, aCmd .admin 0 13 [0] [5], (((((hostUp (aCmd .admin 0 13 [0] [5])).mCore fun c => { c with inReset := false }).wr R.LEDGER.GRAN_FREE_COUNT 9).toFirmware (aCmd .admin 0 13 [0] [5])).cmdOf 1).getD (aCmd .admin 0 13 [0] [5]), 2, ⟨by decide +kernel, by decide +kernel, by decide +kernel, by decide +kernel, rfl, by decide +kernel, by decide +kernel⟩, by decide +kernel, by decide +kernel, by decide +kernel, by decide +kernel, by decide +kernel, by decide +kernel, by decide +kernel⟩

theorem witness_FirmwareAdminCommandsComplete_7 : ∃ (s u : State) (port cid : Nat) (e d : Cmd), FirmRuns s port cid 0x15 e d u ∧ u.journalFull = false ∧ (u.ns d.nsid).st = 2 ∧ bits (d.cdw 10) 0 4 = 0 ∧ d.ctrls = [d.port] ∧ u.controllers.contains d.port = true ∧ bit (u.ns d.nsid).attached d.port = false :=
  ⟨((hostUp (aCmd .admin 0 21 [0] [1])).mCore fun c => { c with inReset := false }).mLed fun l => { l with ns := [(1, { st := 2, block := 4096, nsze := 1000, ius := 1000 })] }, _, 0, 7, aCmd .admin 0 21 [0] [1], (((((hostUp (aCmd .admin 0 21 [0] [1])).mCore fun c => { c with inReset := false }).mLed fun l => { l with ns := [(1, { st := 2, block := 4096, nsze := 1000, ius := 1000 })] }).toFirmware (aCmd .admin 0 21 [0] [1])).cmdOf 1).getD (aCmd .admin 0 21 [0] [1]), ⟨by decide +kernel, by decide +kernel, by decide +kernel, by decide +kernel, rfl, by decide +kernel, by decide +kernel⟩, by decide +kernel, by decide +kernel, by decide +kernel, by decide +kernel, by decide +kernel, by decide +kernel⟩

theorem witness_FirmwareAdminCommandsComplete_8 : ∃ (s u v : State) (port cid : Nat) (e d : Cmd), FirmRuns s port cid 0x80 e d u ∧ (u.ns d.nsid).formatting = false ∧ (u.ns d.nsid).st = 2 ∧ (u.ns d.nsid).attached ≠ 0 ∧ bits (d.cdw 10) 0 4 ≤ 1 ∧ bits (d.cdw 10) 9 3 ≤ 2 ∧ u.rd R.LEDGER.NS_CMD_BUSY = 0 ∧ u.journalFull = false ∧ (v = u.mNs d.nsid fun n => { n with formatting := true, newBlock := if bits (d.cdw 10) 0 4 = 1 then 512 else 4096, ses := bits (d.cdw 10) 9 3 }) :=
  ⟨(hostUp (aCmd .admin 0 128 [1] [])).mCore fun c => { c with inReset := false }, _, _, 0, 7, aCmd .admin 0 128 [1] [], ((((hostUp (aCmd .admin 0 128 [1] [])).mCore fun c => { c with inReset := false }).toFirmware (aCmd .admin 0 128 [1] [])).cmdOf 1).getD (aCmd .admin 0 128 [1] []), ⟨by decide +kernel, by decide +kernel, by decide +kernel, by decide +kernel, rfl, by decide +kernel, by decide +kernel⟩, by decide +kernel, by decide +kernel, by decide +kernel, by decide +kernel, by decide +kernel, by decide +kernel, by decide +kernel, rfl⟩

theorem witness_FirmwareAdminCommandsComplete_9 : ∃ (s u : State) (nsid : Nat) (e : Cmd), (s.ns nsid).formatting = true ∧ s.led.nsCmd = none ∧ s.nv.spareInit ≠ 0 ∧ (u = (s.mNs nsid fun n => { n with formatting := false, block := n.newBlock, nsze := n.nsze * n.block / n.newBlock, ses := 0 }).nsRecord nsid) ∧ u.nv.spareInit = s.nv.spareInit ∧ ((u.host.cmds.find? fun y => decide (y.opcode = 0x80) && decide (y.kind = .admin) && decide (y.nsid = nsid) && decide (y.stage = .accepted)) = some e) :=
  ⟨((hostUp { aCmd .admin 0 0x80 with stage := .accepted }).mNs 1 fun n => { n with formatting := true }).mNv fun v => { v with spareInit := 9 }, _, 1, { aCmd .admin 0 0x80 with stage := .accepted }, by decide +kernel, by decide +kernel, by decide +kernel, rfl, by decide +kernel, by decide +kernel⟩

theorem witness_FirmwareAdminCommandsComplete_10 : ∃ (s u : State) (port cid : Nat) (e d : Cmd), FirmRuns s port cid 0x84 e d u ∧ bits (d.cdw 10) 0 3 = 2 ∧ u.rd R.DEVSTATE.RO_CAUSE_OWNER = 0 ∧ u.nv.sanitize ≠ 1 ∧ u.nv.sanitize ≠ 2 ∧ u.sanitizeReady = true :=
  ⟨(hostUp (aCmd .admin 0 132 [2] [])).mCore fun c => { c with inReset := false }, _, 0, 7, aCmd .admin 0 132 [2] [], ((((hostUp (aCmd .admin 0 132 [2] [])).mCore fun c => { c with inReset := false }).toFirmware (aCmd .admin 0 132 [2] [])).cmdOf 1).getD (aCmd .admin 0 132 [2] []), ⟨by decide +kernel, by decide +kernel, by decide +kernel, by decide +kernel, rfl, by decide +kernel, by decide +kernel⟩, by decide +kernel, by decide +kernel, by decide +kernel, by decide +kernel, by decide +kernel⟩

theorem witness_FirmwareAdminCommandsComplete_11 : ∃ (s u : State) (port cid : Nat) (e d : Cmd), FirmRuns s port cid 0x84 e d u ∧ bits (d.cdw 10) 0 3 = 4 ∧ u.rd R.DEVSTATE.RO_CAUSE_OWNER = 0 ∧ u.nv.sanitize ≠ 1 ∧ u.nv.sanitize ≠ 2 ∧ u.sanitizeReady = true :=
  ⟨(hostUp (aCmd .admin 0 132 [4] [])).mCore fun c => { c with inReset := false }, _, 0, 7, aCmd .admin 0 132 [4] [], ((((hostUp (aCmd .admin 0 132 [4] [])).mCore fun c => { c with inReset := false }).toFirmware (aCmd .admin 0 132 [4] [])).cmdOf 1).getD (aCmd .admin 0 132 [4] []), ⟨by decide +kernel, by decide +kernel, by decide +kernel, by decide +kernel, rfl, by decide +kernel, by decide +kernel⟩, by decide +kernel, by decide +kernel, by decide +kernel, by decide +kernel, by decide +kernel⟩

theorem witness_FirmwareAdminCommandsComplete_12 : ∃ (s u : State) (port cid : Nat) (e d : Cmd), FirmRuns s port cid 0x84 e d u ∧ bits (d.cdw 10) 0 3 = 1 ∧ u.nv.sanitize = 3 :=
  ⟨((hostUp (aCmd .admin 0 132 [1] [])).mCore fun c => { c with inReset := false }).mNv fun v => { v with sanitize := 3 }, _, 0, 7, aCmd .admin 0 132 [1] [], (((((hostUp (aCmd .admin 0 132 [1] [])).mCore fun c => { c with inReset := false }).mNv fun v => { v with sanitize := 3 }).toFirmware (aCmd .admin 0 132 [1] [])).cmdOf 1).getD (aCmd .admin 0 132 [1] []), ⟨by decide +kernel, by decide +kernel, by decide +kernel, by decide +kernel, rfl, by decide +kernel, by decide +kernel⟩, by decide +kernel, by decide +kernel⟩

theorem witness_FirmwareAdminCommandsComplete_13 : ∃ (s : State), (s.nv.sanitize = 1 ∨ s.nv.sanitize = 2) ∧ s.mode 3 = true ∧ s.sw.sanTodo = [] ∧ ((s.diesOn.any fun k => (s.die k).erase.isSome || decide ((s.die k).runKind = 2)) = false) :=
  ⟨(up.mNv fun v => { v with sanitize := 1 }).wr R.DEVSTATE.MODE_CUR_MODES 8, by decide +kernel, by decide +kernel, by decide +kernel, by decide +kernel⟩

theorem witness_FirmwareAdminCommandsComplete_14 : ∃ (s u : State), (s.nv.sanitize = 1 ∨ s.nv.sanitize = 2) ∧ s.mode 3 = true ∧ s.sw.sanTodo = [] ∧ ((s.diesOn.any fun k => (s.die k).erase.isSome || decide ((s.die k).runKind = 2)) = false) ∧ (u = (s.nsAbove 0 fun n => decide (n.st = 2)).foldl (fun (t : State) n => (t.deallocAll n).dropDeferred n) s) :=
  ⟨(up.mNv fun v => { v with sanitize := 1 }).wr R.DEVSTATE.MODE_CUR_MODES 8, _, by decide +kernel, by decide +kernel, by decide +kernel, by decide +kernel, rfl⟩

theorem witness_FirmwareAdminCommandsComplete_15 : ∃ (s u v : State) (port cid : Nat) (e d : Cmd), FirmRuns s port cid 0x11 e d u ∧ d.cdw 11 ≠ 0 ∧ v = (((u.wr R.GATE.PIECE_SRC 0).wr R.GATE.PIECE_OFF_DWORDS (d.cdw 11)).wr R.GATE.PIECE_LEN_DWORDS (d.cdw 10 + 1)).reportPiece 0 ∧ v.rd R.GATE.PIECE_RES_CODE = 0 :=
  ⟨(hostUp (aCmd .admin 0 17 [0, 1] [])).mCore fun c => { c with inReset := false }, _, _, 0, 7, aCmd .admin 0 17 [0, 1] [], ((((hostUp (aCmd .admin 0 17 [0, 1] [])).mCore fun c => { c with inReset := false }).toFirmware (aCmd .admin 0 17 [0, 1] [])).cmdOf 1).getD (aCmd .admin 0 17 [0, 1] []), ⟨by decide +kernel, by decide +kernel, by decide +kernel, by decide +kernel, rfl, by decide +kernel, by decide +kernel⟩, by decide +kernel, rfl, by decide +kernel⟩

theorem witness_FirmwareAdminCommandsComplete_16 : ∃ (s u v : State) (port cid : Nat) (e d : Cmd), FirmRuns s port cid 0x10 e d u ∧ u.begun d.uid = false ∧ u.cf.commit = none ∧ u.cf.recOpen = false ∧ v = ((u.takeAdm d.uid).wr R.GATE.COMMIT_SRC 0).commitGo (.policy 0 false 2) (bits (d.cdw 10) 0 3) (bits (d.cdw 10) 3 3) :=
  ⟨(hostUp (aCmd .admin 0 16 [8] [])).mCore fun c => { c with inReset := false }, _, _, 0, 7, aCmd .admin 0 16 [8] [], ((((hostUp (aCmd .admin 0 16 [8] [])).mCore fun c => { c with inReset := false }).toFirmware (aCmd .admin 0 16 [8] [])).cmdOf 1).getD (aCmd .admin 0 16 [8] []), ⟨by decide +kernel, by decide +kernel, by decide +kernel, by decide +kernel, rfl, by decide +kernel, by decide +kernel⟩, by decide +kernel, by decide +kernel, by decide +kernel, rfl⟩

theorem witness_FirmwarePitchCommandsComplete_1 : ∃ (s u : State) (who : Initiator), Reaches s who R.INTAKE.PITCH_CMD_OP 0 u ∧ u.rd R.INTAKE.PITCH_CMD_BUSY = 0 ∧ (u.rentCheck u.window (some (u.rd R.INTAKE.PITCH_SEL_PITCH)) true).1 = 0 :=
  ⟨(((((((withChannel (up.wr R.DEVSTATE.MODE_CUR_MODES 1)).wr R.INTAKE.PITCH_C0_CLASS 3).wr R.INTAKE.PITCH_C1_BYTE_RATE 1).wr R.INTAKE.PITCH_C2_OP_RATE 2000).wr R.INTAKE.PITCH_C3_MAX_SIZE 1).wr R.INTAKE.PITCH_C4_BURST_OPS 1).wr R.INTAKE.PITCH_C5_BURST_BYTES 1).wr R.INTAKE.PITCH_SEL_PITCH 5, _, pol, ⟨by decide +kernel, by decide +kernel, rfl⟩, by decide +kernel, by decide +kernel⟩

theorem witness_FirmwarePitchCommandsComplete_2 : ∃ (s u : State) (who : Initiator), Reaches s who R.INTAKE.PITCH_CMD_OP 0 u ∧ u.rd R.INTAKE.PITCH_CMD_BUSY = 0 ∧ (u.rentCheck u.window (some (u.rd R.INTAKE.PITCH_SEL_PITCH)) true).1 ≠ 0 :=
  ⟨up, _, pol, ⟨by decide +kernel, by decide +kernel, rfl⟩, by decide +kernel, by decide +kernel⟩

theorem witness_FirmwarePitchCommandsComplete_3 : ∃ (s u : State) (who : Initiator), Reaches s who R.INTAKE.PITCH_CMD_OP 0 u ∧ u.rd R.INTAKE.PITCH_CMD_BUSY = 0 ∧ (u.pitch (u.rd R.INTAKE.PITCH_SEL_PITCH)).state ≠ 0 ∧ (u.pitch (u.rd R.INTAKE.PITCH_SEL_PITCH)).owner = 1 :=
  ⟨up.mPit fun x => { x with table := [(0, { state := 1, owner := 1 })] }, _, pol, ⟨by decide +kernel, by decide +kernel, rfl⟩, by decide +kernel, by decide +kernel, by decide +kernel⟩

theorem witness_FirmwarePitchCommandsComplete_4 : ∃ (s u : State) (who : Initiator) (k : Contract), Reaches s who R.INTAKE.PITCH_CMD_OP 0 u ∧ u.rd R.INTAKE.PITCH_CMD_BUSY = 0 ∧ k = (u.pitch (u.rd R.INTAKE.PITCH_SEL_PITCH)).c :=
  ⟨up, _, pol, {}, ⟨by decide +kernel, by decide +kernel, rfl⟩, by decide +kernel, by decide +kernel⟩

theorem witness_FirmwarePitchCommandsComplete_5 : ∃ (s u : State) (who : Initiator), Reaches s who R.INTAKE.PITCH_CMD_OP 0 u ∧ u.rd R.INTAKE.PITCH_CMD_BUSY = 0 :=
  ⟨up, _, pol, ⟨by decide +kernel, by decide +kernel, rfl⟩, by decide +kernel⟩

theorem witness_FirmwarePitchCommandsComplete_6 : ∃ (s u : State) (who : Initiator) (value port : Nat), Reaches s who R.INTAKE.QB_CFG_PITCH 0 u ∧ (port = if u.split then u.rd R.INTAKE.QB_SEL_PORT else 0) ∧ (u.sqOf port (u.rd R.INTAKE.QB_SEL_SQID)).isSome = true ∧ u.rd R.INTAKE.QB_CFG_BOUND 0 (qb port (u.rd R.INTAKE.QB_SEL_SQID)) = 0 ∧ (bit value 10 = true → (u.pitch (bits value 0 10)).state = 1 ∧ (u.pitch (bits value 0 10)).owner = 1) :=
  ⟨(hostUp (aCmd .read 1 2)).wr R.INTAKE.QB_SEL_SQID 1, _, pol, 0x2710000, 0, ⟨by decide +kernel, by decide +kernel, rfl⟩, by decide +kernel, by decide +kernel, by decide +kernel, by decide +kernel⟩

theorem witness_FirmwarePitchCommandsComplete_7 : ∃ (s u v : State), (u = (((s.pit.table.filter fun e => decide (e.2.state = 1)).map Prod.fst).foldl (fun (t : State) n => t.refillPitch n) s)) ∧ (v = u.mPit fun x => { x with meters := x.meters.filter fun m => decide (u.mono < m.at_ + 1000) }) :=
  ⟨up, _, _, rfl, rfl⟩

theorem witness_PortResetsComplete_1 : ∃ (s : State) (port ams : Nat), s.portIs port = true ∧ (s.port port).linkUp = true ∧ (s.port port).en = false ∧ (s.port port).resetting = false :=
  ⟨up.mPort 0 fun p => { p with linkUp := true }, 0, 0, by decide +kernel, by decide +kernel, by decide +kernel, by decide +kernel⟩

theorem witness_PortResetsComplete_2 : ∃ (s : State) (port : Nat), s.portIs port = true ∧ (s.port port).en = true :=
  ⟨hostUp (aCmd .read 1 2), 0, by decide +kernel, by decide +kernel⟩

theorem witness_PortResetsComplete_3 : ∃ (s : State) (port : Nat) (q : Port), q = s.port port ∧ q.resetting = true :=
  ⟨up.mPort 0 fun p => { p with resetting := true }, 0, { perst := false, resetting := true }, by decide +kernel, by decide +kernel⟩

theorem witness_PortResetsComplete_4 : ∃ (s : State) (port shn : Nat), s.portIs port = true ∧ (s.port port).en = true ∧ (shn = 1 ∨ shn = 2) ∧ (s.port port).shst = 0 :=
  ⟨hostUp (aCmd .read 1 2), 0, 1, by decide +kernel, by decide +kernel, by decide +kernel, by decide +kernel⟩

theorem witness_PortResetsComplete_5 : ∃ (s : State) (port : Nat), (s.port port).shst = 1 ∧ ((s.host.cmds.any fun e => decide (e.port = port) && decide (e.stage = .accepted) && !(decide (e.kind = .admin) && decide (e.opcode = 0x0C))) = false) ∧ s.seen 184 = 0 :=
  ⟨up.mPort 0 fun p => { p with shst := 1 }, 0, by decide +kernel, by decide +kernel, by decide +kernel⟩

theorem witness_PortResetsComplete_6 : ∃ (s : State) (port : Nat), s.portIs port = true ∧ s.dst ≠ 0 ∧ (s.port port).perst = true :=
  ⟨up.mPort 0 fun p => { p with perst := true }, 0, by decide +kernel, by decide +kernel, by decide +kernel⟩

theorem witness_PortResetsComplete_7 : ∃ (s : State) (port : Nat), s.portIs port = true ∧ s.dst ≠ 0 :=
  ⟨up, 0, by decide +kernel, by decide +kernel⟩

theorem witness_PortResetsComplete_8 : ∃ (s : State) (port : Nat), s.portIs port = true ∧ (s.port port).linkUp = true :=
  ⟨up.mPort 0 fun p => { p with linkUp := true }, 0, by decide +kernel, by decide +kernel⟩

theorem witness_PortResetsComplete_9 : ∃ (s : State) (port : Nat), s.portIs port = true ∧ (s.port port).linkUp = true :=
  ⟨up.mPort 0 fun p => { p with linkUp := true }, 0, by decide +kernel, by decide +kernel⟩

theorem witness_PortResetsComplete_10 : ∃ (s : State) (port : Nat), s.portIs port = true ∧ (s.port port).linkUp = true ∧ s.dst < 6 :=
  ⟨up.mPort 0 fun p => { p with linkUp := true }, 0, by decide +kernel, by decide +kernel, by decide +kernel⟩

theorem witness_PortResetsComplete_11 : ∃ (s : State) (port width rate : Nat), s.portIs port = true ∧ (s.port port).perst = true ∧ s.domOn 1 = true ∧ ((if s.split then [1, 2, 4, 8] else [1, 2, 4, 8, 16]).contains width = true) ∧ linkRates.contains rate = true ∧ rate ≤ 1280 / 2 ^ s.rd R.BOOT.STRAP_RATE :=
  ⟨up.mPort 0 fun p => { p with perst := true }, 0, 16, 320, by decide +kernel, by decide +kernel, by decide +kernel, by decide +kernel, by decide +kernel, by decide +kernel⟩

theorem witness_PortResetsComplete_12 : ∃ (s : State) (port mps : Nat), s.portIs port = true ∧ (s.port port).linkUp = true ∧ [128, 256, 512, 1024, 2048, 4096].contains mps = true :=
  ⟨up.mPort 0 fun p => { p with linkUp := true }, 0, 512, by decide +kernel, by decide +kernel, by decide +kernel⟩

theorem witness_TallyMovesAndRounds_1 : ∃ (s : State) (counter n : Nat), counter < 32 ∧ (n : Int) ≤ s.term (96 + counter) :=
  ⟨up.move 96 5, 0, 5, by decide +kernel, by decide +kernel⟩

theorem witness_TallyMovesAndRounds_2 : ∃ (s : State) (counter n : Nat), counter < 32 ∧ (n : Int) ≤ s.term (64 + counter) :=
  ⟨up.move 64 5, 0, 5, by decide +kernel, by decide +kernel⟩

theorem witness_TallyMovesAndRounds_3 : ∃ (s : State) (counter n : Nat), counter < 32 ∧ (n : Int) ≤ s.term (128 + counter) :=
  ⟨up, 0, 0, by decide +kernel, (by (have e1 : Tbl.get (0 : Int) State.reset.tal.terms 128 = 0 := by decide +kernel); (have e2 : Tbl.get (0 : Int) State.reset.tal.shadow 128 = 0 := by decide +kernel); simp [State.term, termBase, up, inState, State.wr, e1, e2])⟩

theorem witness_TallyMovesAndRounds_4 : ∃ (s : State) (index : Nat) (m : HalfMove), s.tal.moving[index]? = some m :=
  ⟨up.send 184 1, 0, { term := 184, delta := 1 }, by decide +kernel⟩

theorem witness_TallyMovesAndRounds_5 : ∃ (s : State), s.rd R.TALLY.TALLY_STATE_STATE = 0 :=
  ⟨up, by decide +kernel⟩

theorem witness_TallyMovesAndRounds_6 : ∃ (s : State), s.rd R.TALLY.TALLY_STATE_STATE ≠ 0 :=
  ⟨up.wr R.TALLY.TALLY_STATE_STATE 1, by decide +kernel⟩

theorem witness_TallyMovesAndRounds_7 : ∃ (s : State) (who : Initiator), mayWrite R.TALLY.TALLY_CLR_CLEAR who = true ∧ s.mode 5 = true ∧ s.rd R.TALLY.TALLY_STATE_STATE = 3 ∧ s.tal.realSeen = false :=
  ⟨(up.wr R.TALLY.TALLY_STATE_STATE 3).wr R.DEVSTATE.MODE_CUR_MODES 0x20, mgt, by decide +kernel, by decide +kernel, by decide +kernel, by decide +kernel⟩

theorem witness_CacheFillsAndRangesComplete_1 : ∃ (s u : State) (line : Nat) (ok : Bool), s.armed = [] ∧ s.lc.wanted.contains line = true ∧ (u = s.mLc fun l => { l with wanted := l.wanted.filter fun t => decide (t ≠ line) }) :=
  ⟨up.mLc fun l => { l with wanted := [3] }, _, 3, true, by decide +kernel, by decide +kernel, rfl⟩

theorem witness_CacheFillsAndRangesComplete_2 : ∃ (s : State) (line : Nat), (s.lc.prefetching.take 16).contains line = true :=
  ⟨up.mLc fun l => { l with prefetching := [3] }, 3, by decide +kernel⟩

theorem witness_CacheFillsAndRangesComplete_3 : ∃ (s u : State) (line : Nat), (s.lc.prefetching.take 16).contains line = true ∧ (u = s.mLc fun l => { l with prefetching := l.prefetching.erase line }) ∧ u.writeThrough = false ∧ u.wayOf line = none ∧ u.lc.wanted.contains line = false ∧ u.lc.tray.length < 256 :=
  ⟨up.mLc fun l => { l with prefetching := [3] }, _, 3, by decide +kernel, rfl, by decide +kernel, by decide +kernel, by decide +kernel, by decide +kernel⟩

theorem witness_CacheFillsAndRangesComplete_4 : ∃ (s u : State) (who : Initiator) (force all : Bool), Reaches s who R.LCACHE.RANGE_CMD_OP 0 u ∧ u.rd R.LCACHE.STAT_BUSY = 0 ∧ (all = true ∨ u.badRange = false) :=
  ⟨up, _, pol, false, true, ⟨by decide +kernel, by decide +kernel, rfl⟩, by decide +kernel, by decide +kernel⟩

theorem witness_CacheFillsAndRangesComplete_5 : ∃ (s u : State) (who : Initiator) (force all : Bool), Reaches s who R.LCACHE.RANGE_CMD_OP 0 u ∧ u.rd R.LCACHE.STAT_BUSY = 0 ∧ (all = true ∨ u.badRange = false) :=
  ⟨up, _, pol, false, true, ⟨by decide +kernel, by decide +kernel, rfl⟩, by decide +kernel, by decide +kernel⟩

theorem witness_CacheFillsAndRangesComplete_6 : ∃ (s u : State) (who : Initiator) (force all : Bool), Reaches s who R.LCACHE.RANGE_CMD_OP 0 u ∧ u.rd R.LCACHE.STAT_BUSY = 0 ∧ (all = true ∨ u.badRange = false) :=
  ⟨up, _, pol, false, true, ⟨by decide +kernel, by decide +kernel, rfl⟩, by decide +kernel, by decide +kernel⟩

theorem witness_CacheFillsAndRangesComplete_7 : ∃ (s u v : State) (who : Initiator) (all : Bool), Reaches s who R.LCACHE.RANGE_CMD_OP 0 u ∧ u.rd R.LCACHE.STAT_BUSY = 0 ∧ (all = true ∨ u.badRange = false) ∧ v = ((((((u.wr R.LCACHE.RANGE_RES_BAD_RANGE 0).wr R.LCACHE.RANGE_RES_LINES 0).wr R.LCACHE.RANGE_SKIP_LOCKED 0).wr R.LCACHE.RANGE_SKIP2_DIRTY 0).wr R.LCACHE.RANGE_WB_LINES 0).startOp { op := 4, lines := [], force := false, all := all, ways := 0 }) :=
  ⟨up, _, _, pol, true, ⟨by decide +kernel, by decide +kernel, rfl⟩, by decide +kernel, by decide +kernel, rfl⟩

theorem witness_CacheFillsAndRangesComplete_8 : ∃ (s u v : State) (o : RangeOp), s.lc.op = some o ∧ 1 ≤ o.op ∧ o.op ≤ 3 ∧ u = (s.lc.ways.map Prod.fst).foldl (walkLine o) s ∧ (v = u.mLc fun l => { l with tray := l.tray.filter fun t => !(if o.op = 1 then [] else u.lc.tray.filter fun t => u.inRange o.all t).contains t }) :=
  ⟨up.mLc fun l => { l with op := some { op := 1, lines := [], force := false, all := true, ways := 0 } }, _, _, { op := 1, lines := [], force := false, all := true, ways := 0 }, by decide +kernel, by decide +kernel, by decide +kernel, rfl, rfl⟩

theorem witness_CacheLocksAndWaysComplete_1 : ∃ (s u v : State) (who : Initiator), Reaches s who R.LCACHE.LOCK_CMD_APPLY 0 u ∧ u.rd R.LCACHE.STAT_BUSY = 0 ∧ u.lockFail = none ∧ v = (u.set R.LCACHE.LOCK_RESULT_CODE 0).wr R.LCACHE.LOCK_APPLIED_WAYS ((u.set R.LCACHE.LOCK_RESULT_CODE 0).rd R.LCACHE.LOCK_CFG_WAYS) :=
  ⟨up, _, _, pol, ⟨by decide +kernel, by decide +kernel, rfl⟩, by decide +kernel, by decide +kernel, rfl⟩

theorem witness_CacheLocksAndWaysComplete_2 : ∃ (s u : State) (o : RangeOp) (l : List Nat), s.lc.op = some o ∧ o.op = 5 ∧ u = (s.lc.ways.map Prod.fst).foldl syncOut s ∧ (l = (u.lc.regions.map fun r => match r with | some r => u.regionLines r | none => []).flatten) ∧ u.cacheOn = true :=
  ⟨up.mLc fun l => { l with op := some { op := 5, lines := [], force := false, all := true, ways := 0 } }, _, { op := 5, lines := [], force := false, all := true, ways := 0 }, [], by decide +kernel, by decide +kernel, rfl, by decide +kernel, by decide +kernel⟩

theorem witness_CacheLocksAndWaysComplete_3 : ∃ (s u : State) (o : RangeOp), s.lc.op = some o ∧ o.op = 5 ∧ u = (s.lc.ways.map Prod.fst).foldl syncOut s ∧ u.cacheOn = false :=
  ⟨(up.wr R.LCACHE.STAT_ENABLED 0).mLc fun l => { l with op := some { op := 5, lines := [], force := false, all := true, ways := 0 } }, _, { op := 5, lines := [], force := false, all := true, ways := 0 }, by decide +kernel, by decide +kernel, rfl, by decide +kernel⟩

theorem witness_CacheLocksAndWaysComplete_4 : ∃ (s u v : State) (who : Initiator), Reaches s who R.LCACHE.CTRL_ENABLE 0 u ∧ u.rd R.LCACHE.CTRL_ENABLE = 1 ∧ (u.wr R.LCACHE.CTRL_ENABLE 0).cacheOn = true ∧ (v = ((u.wr R.LCACHE.CTRL_ENABLE 0).wr R.LCACHE.STAT_DISABLE_PENDING 1).mLc fun l => { l with disableNext := true }) :=
  ⟨up, _, _, pol, ⟨by decide +kernel, by decide +kernel, rfl⟩, by decide +kernel, by decide +kernel, rfl⟩

theorem witness_CacheLocksAndWaysComplete_5 : ∃ (s u : State) (o : RangeOp), s.lc.op = some o ∧ o.op = 7 ∧ (u = (s.lc.ways.foldl (fun t e => match e.2 with | some c => t.writeBack c | none => t) s).mLc fun l => { l with ways := [], tray := [], prefetching := [], wanted := [] }) :=
  ⟨up.mLc fun l => { l with op := some { op := 7, lines := [], force := false, all := true, ways := 0 } }, _, { op := 7, lines := [], force := false, all := true, ways := 0 }, by decide +kernel, by decide +kernel, rfl⟩

theorem witness_CacheLocksAndWaysComplete_6 : ∃ (s u v : State) (who : Initiator), Reaches s who R.LCACHE.CTRL_ENABLE 0 u ∧ v = u.wr R.LCACHE.CTRL_ENABLE 1 ∧ v.rd R.LCACHE.STAT_DISABLE_PENDING = 0 :=
  ⟨up, _, _, pol, ⟨by decide +kernel, by decide +kernel, rfl⟩, rfl, by decide +kernel⟩

theorem witness_CacheLocksAndWaysComplete_7 : ∃ (s u v : State) (who : Initiator) (way : Nat), Reaches s who R.LCACHE.WAY_PWR_OFF 0 u ∧ way < 16 ∧ bit (u.rd R.LCACHE.WAY_PWR_OFF) way = false ∧ u.wayLocked way = false ∧ u.rd R.LCACHE.CTRL_ENABLE = 0 ∧ (v = ((u.wr R.LCACHE.WAY_PWR_OFF (setBit (u.rd R.LCACHE.WAY_PWR_OFF) way)).wr R.LCACHE.WAY_PWR_STAT_DRAINING (setBit ((u.wr R.LCACHE.WAY_PWR_OFF (setBit (u.rd R.LCACHE.WAY_PWR_OFF) way)).rd R.LCACHE.WAY_PWR_STAT_DRAINING) way)).mLc fun l => { l with drainNext := setBit l.drainNext way }) :=
  ⟨up.wr R.LCACHE.CTRL_ENABLE 0, _, _, pol, 3, ⟨by decide +kernel, by decide +kernel, rfl⟩, by decide +kernel, by decide +kernel, by decide +kernel, by decide +kernel, rfl⟩

theorem witness_CacheLocksAndWaysComplete_8 : ∃ (s u : State) (way : Nat) (o : RangeOp), s.lc.op = some o ∧ o.op = 6 ∧ bit o.ways way = true ∧ (u = (s.lc.ways.map Prod.fst).foldl (fun t k => if k % 16 = way then t.evict (k / 16) way else t) s) :=
  ⟨up.mLc fun l => { l with op := some { op := 6, lines := [], force := false, all := true, ways := 8 } }, _, 3, { op := 6, lines := [], force := false, all := true, ways := 8 }, by decide +kernel, by decide +kernel, by decide +kernel, rfl⟩

theorem witness_CacheLocksAndWaysComplete_9 : ∃ (s u : State) (who : Initiator) (way : Nat), Reaches s who R.LCACHE.WAY_PWR_OFF 0 u ∧ way < 16 ∧ bit (u.rd R.LCACHE.WAY_PWR_OFF) way = true ∧ u.lc.op = none :=
  ⟨up.wr R.LCACHE.WAY_PWR_OFF 8, _, pol, 3, ⟨by decide +kernel, by decide +kernel, rfl⟩, by decide +kernel, by decide +kernel, by decide +kernel⟩

theorem witness_LedgerCommandsComplete_1 : ∃ (s : State) (group d : Nat) (up_ : Bool), group < 1024 ∧ s.groupFree group = 0 ∧ s.nearGroup group = some (d, up_) :=
  ⟨(up.mLed fun l => { l with cix := (List.range 16).map fun i => { row := 80 + i, nsid := 1, iu := i, pool := 0, crate := 0, stamp := 1, units := 1, acc := 0, prior := 0, priorUnc := false, st := 0 } }), 5, 1, false, by decide +kernel, by decide +kernel, by decide +kernel⟩

theorem witness_LedgerCommandsComplete_2 : ∃ (s u : State) (who : Initiator) (r : CixRow), Reaches s who R.LEDGER.CIX_PROBE_CMD_GO 0 u ∧ u.cixRow (u.rd R.LEDGER.CIX_PROBE_NS_NSID) (u.rd64 R.LEDGER.CIX_PROBE_IU_LO_VALUE R.LEDGER.CIX_PROBE_IU_HI_VALUE) = some r :=
  ⟨up.mLed fun l => { l with cix := [({ row := 0, nsid := 1, iu := 0, pool := 0, crate := 0, stamp := 1, units := 1, acc := 0, prior := 0, priorUnc := false, st := 0 } : CixRow)] }, _, pol, ({ row := 0, nsid := 1, iu := 0, pool := 0, crate := 0, stamp := 1, units := 1, acc := 0, prior := 0, priorUnc := false, st := 0 } : CixRow), ⟨by decide +kernel, by decide +kernel, rfl⟩, by decide +kernel⟩

theorem witness_LedgerCommandsComplete_3 : ∃ (s u : State) (who : Initiator), Reaches s who R.LEDGER.CIX_PROBE_CMD_GO 0 u ∧ u.cixRow (u.rd R.LEDGER.CIX_PROBE_NS_NSID) (u.rd64 R.LEDGER.CIX_PROBE_IU_LO_VALUE R.LEDGER.CIX_PROBE_IU_HI_VALUE) = none :=
  ⟨up, _, pol, ⟨by decide +kernel, by decide +kernel, rfl⟩, by decide +kernel⟩

theorem witness_LedgerCommandsComplete_4 : ∃ (s : State) (who : Initiator) (addr : Nat), 2 ^ 32 ≤ addr :=
  ⟨up, pol, 0x123456789, by decide +kernel⟩

theorem witness_LedgerCommandsComplete_5 : ∃ (s u : State) (who : Initiator) (n : Nat), Reaches s who R.LEDGER.NS_CMD_OP 0 u ∧ u.rd R.LEDGER.NS_CMD_BUSY = 0 ∧ n = u.rd R.LEDGER.NS_SEL_NSID ∧ (u.ns n).st = 1 ∧ (u.ns n).attached = 0 ∧ (u.ns n).needs ≤ u.rd R.LEDGER.GRAN_FREE_COUNT :=
  ⟨(up.mLed fun l => { l with ns := [(1, { st := 1 })] }).wr R.LEDGER.NS_SEL_NSID 1, _, pol, 1, ⟨by decide +kernel, by decide +kernel, rfl⟩, by decide +kernel, by decide +kernel, by decide +kernel, by decide +kernel, by decide +kernel⟩

theorem witness_LedgerCommandsComplete_6 : ∃ (s u : State) (who : Initiator) (n : Nat), Reaches s who R.LEDGER.NS_CMD_OP 0 u ∧ u.rd R.LEDGER.NS_CMD_BUSY = 0 ∧ n = u.rd R.LEDGER.NS_SEL_NSID ∧ (u.ns n).st = 2 ∧ (u.ns n).attached = 0 ∧ u.lc.regions = [] ∧ ((List.range 16).all (fun i => decide (u.rd R.LCACHE.LOCK_RGN_NS_NSID 0 i ≠ n)) = true) :=
  ⟨(up.mLed fun l => { l with ns := [(7, { st := 2 })] }).wr R.LEDGER.NS_SEL_NSID 7, _, pol, 7, ⟨by decide +kernel, by decide +kernel, rfl⟩, by decide +kernel, by decide +kernel, by decide +kernel, by decide +kernel, by decide +kernel, by decide +kernel⟩

theorem witness_LedgerCommandsComplete_7 : ∃ (s u : State) (who : Initiator) (n : Nat), Reaches s who R.LEDGER.NS_CMD_OP 0 u ∧ u.rd R.LEDGER.NS_CMD_BUSY = 0 ∧ n = u.rd R.LEDGER.NS_SEL_NSID ∧ (u.ns n).st = 2 :=
  ⟨(up.mLed fun l => { l with ns := [(7, { st := 2 })] }).wr R.LEDGER.NS_SEL_NSID 7, _, pol, 7, ⟨by decide +kernel, by decide +kernel, rfl⟩, by decide +kernel, by decide +kernel, by decide +kernel⟩

theorem witness_LedgerCommandsComplete_8 : ∃ (s : State) (n : Nat), s.led.nsCmd = some (1, n) :=
  ⟨up.mLed fun l => { l with nsCmd := some (1, 1) }, 1, by decide +kernel⟩

theorem witness_LedgerCommandsComplete_9 : ∃ (s u : State) (n : Nat), s.led.nsCmd = some (3, n) ∧ s.lockHeld (internalUid n) = true ∧ u = ((s.deallocAll n).releaseRows (internalUid n)).nsEnd 0 :=
  ⟨(up.mLed fun l => { l with nsCmd := some (3, 1) }).mHost fun h => { h with rlt := [{ row := 0, uid := internalUid 1, nsid := 1, first := 0, last := 0, excl := true, held := true }] }, _, 1, by decide +kernel, by decide +kernel, rfl⟩

theorem witness_WritePathAndYardComplete_1 : ∃ (s u v : State) (group row : Nat) (rest : List Nat) (r : CixRow), s.led.takeq.get [] group = row :: rest ∧ s.cixAt row = some r ∧ r.st = 0 ∧ s.dst < 6 ∧ ((s.por.fills.any fun f => decide (f.1 = r.crate)) = false) ∧ (u = ((s.untake row).mRow row fun r => { r with st := 1 }).takeRef r.crate) ∧ (u.crate r.crate).poison = false ∧ u.cr.eccBad.get false r.crate = false ∧ v = (u.takeIu r).build 0 ((u.takeIu r).group r.nsid) false :=
  ⟨up.mLed fun l => { l with takeq := [(0, [0])], cix := [({ row := 0, nsid := 1, iu := 0, pool := 0, crate := 0, stamp := 1, units := 1, acc := 0, prior := 0, priorUnc := false, st := 0 } : CixRow)] }, _, _, 0, 0, [], ({ row := 0, nsid := 1, iu := 0, pool := 0, crate := 0, stamp := 1, units := 1, acc := 0, prior := 0, priorUnc := false, st := 0 } : CixRow), by decide +kernel, by decide +kernel, by decide +kernel, by decide +kernel, by decide +kernel, rfl, by decide +kernel, by decide +kernel, rfl⟩

theorem witness_WritePathAndYardComplete_3 : ∃ (s : State) (serial : Nat) (q : Stripe), ((s.wp.stripes.find? fun q => decide (q.serial = serial)) = some q) ∧ q.parityIssued = false ∧ q.filled ≠ [] ∧ s.freePlaces q ≠ [] :=
  ⟨(withChannel up).mWp fun w => { w with stripes := [({ serial := 3, kind := 0, group := 0, set := 0, members := [0, 0, 0], parityAt := 2, filled := [0], released := [], busy := 1, crates := [], parity := [], parityIssued := false, parityFails := 0 } : Stripe)] }, 3, ({ serial := 3, kind := 0, group := 0, set := 0, members := [0, 0, 0], parityAt := 2, filled := [0], released := [], busy := 1, crates := [], parity := [], parityIssued := false, parityFails := 0 } : Stripe), by decide +kernel, by decide +kernel, by decide +kernel, by decide +kernel⟩

theorem witness_WritePathAndYardComplete_4 : ∃ (s : State) (cls count pool kind owner otag who : Nat) (l : List Nat), 1 ≤ cls ∧ cls ≤ 5 ∧ pool ≤ 3 ∧ count ≠ 0 ∧ (s.askCrates { cls := cls, count := count, pool := pool, kind := kind % 4, owner := owner % 8, otag := otag, who := who }).1 = some l :=
  ⟨(up.mCr fun c => { c with links := [(0, [0, 1, 2, 3])] }), 1, 1, 0, 2, 3, 0, 9, ((up.mCr fun c => { c with links := [(0, [0, 1, 2, 3])] }).askCrates { cls := 1, count := 1, pool := 0, kind := 2, owner := 3, otag := 0, who := 9 }).1.getD [], by decide +kernel, by decide +kernel, by decide +kernel, by decide +kernel, by decide +kernel⟩

theorem witness_WritePathAndYardComplete_5 : ∃ (s : State) (handle owner n : Nat), s.crateCheck handle 0 (owner % 8) (owner / 8) = .inr n :=
  ⟨up.mCrate 2 fun d => { d with state := 1, owner := 3 }, 0x2000, 3, 2, by decide +kernel⟩

theorem witness_WritePathAndYardComplete_6 : ∃ (s u : State) (handle owner n : Nat), s.crateCheck handle 1 (owner % 8) (owner / 8) = .inr n ∧ (u = s.mCrate n fun d => { d with refs := d.refs - 1 }) :=
  ⟨up.mCrate 2 fun d => { d with state := 1, owner := 3, refs := 1 }, _, 0x2000, 3, 2, by decide +kernel, rfl⟩

theorem witness_WritePathAndYardComplete_7 : ∃ (s u v : State) (who : Initiator) (pool n : Nat) (l : List Nat), Reaches s who R.CRATEYD.LEND_GO 0 u ∧ u.rd R.CRATEYD.LEND_BUSY = 0 ∧ u.reclaiming = false ∧ u.lentCount (pool % 4) < u.rd R.CRATEYD.LEND_MAX_CRATES 0 (pool % 4) ∧ (u.askCrates { cls := 6, count := 1, pool := pool % 4, kind := 3, owner := 5, otag := 0, who := 0 }).1 = some (n :: l) ∧ (v = (u.askCrates { cls := 6, count := 1, pool := pool % 4, kind := 3, owner := 5, otag := 0, who := 0 }).2.mCr fun c => { c with mem := zeroBytes c.mem (crateBase n) (poolSize (pool % 4)) }) :=
  ⟨(up.mCr fun c => { c with links := [(0, [0, 1, 2, 3])] }).wr R.CRATEYD.LEND_MAX_CRATES 4, _, _, pol, 0, (((up.mCr fun c => { c with links := [(0, [0, 1, 2, 3])] }).askCrates { cls := 6, count := 1, pool := 0, kind := 3, owner := 5, otag := 0, who := 0 }).1.getD []).headD 0, (((up.mCr fun c => { c with links := [(0, [0, 1, 2, 3])] }).askCrates { cls := 6, count := 1, pool := 0, kind := 3, owner := 5, otag := 0, who := 0 }).1.getD []).tail, ⟨by decide +kernel, by decide +kernel, rfl⟩, by decide +kernel, by decide +kernel, by decide +kernel, by decide +kernel, rfl⟩

theorem witness_WritePathAndYardComplete_8 : ∃ (s u : State) (who : Initiator) (handle n : Nat), Reaches s who R.CRATEYD.RETURN_HANDLE 0 u ∧ u.armed = [] ∧ u.crateCheck handle 2 5 0 = .inr n :=
  ⟨up.mCrate 2 fun d => { d with state := 2, owner := 5 }, _, pol, 0x2000, 2, ⟨by decide +kernel, by decide +kernel, rfl⟩, by decide +kernel, by decide +kernel⟩

theorem witness_WritePathAndYardComplete_9 : ∃ (s u : State) (who : Initiator) (value n : Nat), Reaches s who R.CRATEYD.WIN_DATA_DATA 0 u ∧ u.armed = [] ∧ u.winCrate = some n :=
  ⟨(up.mCrate 2 fun d => { d with state := 2, owner := 5 }).wr R.CRATEYD.WIN_HANDLE_HANDLE 0x2000, _, pol, 7, 2, ⟨by decide +kernel, by decide +kernel, rfl⟩, by decide +kernel, by decide +kernel⟩

theorem witness_WritePathAndYardComplete_10 : ∃ (s u : State) (who : Initiator) (value n y : Nat), Reaches s who R.CRATEYD.WIN_DATA_DATA 0 u ∧ u.armed = [] ∧ u.winCrate = some n ∧ y = ofBytes (bytesAt u.cr.mem (crateBase n + u.rd R.CRATEYD.WIN_OFF_OFFSET) 4) :=
  ⟨(up.mCrate 2 fun d => { d with state := 2, owner := 5 }).wr R.CRATEYD.WIN_HANDLE_HANDLE 0x2000, _, pol, 7, 2, 0, ⟨by decide +kernel, by decide +kernel, rfl⟩, by decide +kernel, by decide +kernel, by decide +kernel⟩

theorem witness_StallOperationsComplete_1 : ∃ (s u v w : State) (ch die : Nat) (r : MRead), s.dieOn ch die = true ∧ u = s.grantSlots (ch * 16 + die) ∧ u.dieOn ch die = true ∧ (u.die (ch * 16 + die)).state = 1 ∧ (u.die (ch * 16 + die)).senses < 4 ∧ pickSense (u.die (ch * 16 + die)) (u.waitingAt (ch * 16 + die)) = some r ∧ (v = ((u.mSt fun t => { t with reads := t.reads.map fun x => (if (decide (x.st = 1) && decide (x.src = r.src) && decide (aBlockKey x.addr = aBlockKey r.addr) && decide (bits x.addr 2 11 = bits r.addr 2 11) && decide (x.step = r.step)) then { x with st := 2 } else x) }).passSense (ch * 16 + die) r.cls)) ∧ (w = (v.mDie (ch * 16 + die) fun d => { d with back := 1, state := 2, senses := d.senses + 1, lastUrgent := decide (r.cls = 0), lastAged := if r.cls = 0 then d.lastAged else decide (r.cls = 2) && decide (4 ≤ r.passed) }).count R.STALL.SENSES_COUNT ch) ∧ (v.die (ch * 16 + die)).state = 1 :=
  ⟨((withChannel up).mSt fun t => { t with reads := [({ id := 4, src := .scrub 0, cls := 3, nsid := 1, iu := 0, unit := 0, addr := 0, st := 1 } : MRead)] }), _, _, _, 0, 0, ({ id := 4, src := .scrub 0, cls := 3, nsid := 1, iu := 0, unit := 0, addr := 0, st := 1 } : MRead), by decide +kernel, rfl, by decide +kernel, by decide +kernel, by decide +kernel, by decide +kernel, rfl, rfl, by decide +kernel⟩

theorem witness_StallOperationsComplete_2 : ∃ (s : State) (ch : Nat) (r : MRead) (aged : Bool), s.armed = [] ∧ s.rd R.STALL.CH_STATE_STATE ch = 2 ∧ s.pickBurst ch = some (.inl r, aged) :=
  ⟨((withChannel up).mSt fun t => { t with reads := [({ id := 4, src := .scrub 0, cls := 3, nsid := 1, iu := 0, unit := 0, addr := 0, st := 3 } : MRead)] }), 0, ({ id := 4, src := .scrub 0, cls := 3, nsid := 1, iu := 0, unit := 0, addr := 0, st := 3 } : MRead), false, by decide +kernel, by decide +kernel, by decide +kernel⟩

theorem witness_StallOperationsComplete_3 : ∃ (s : State) (ch k : Nat) (n : ProgUnit) (aged : Bool), s.rd R.STALL.CH_STATE_STATE ch = 2 ∧ s.pickBurst ch = some (.inr k, aged) ∧ s.loadAt k = some n :=
  ⟨((withChannel up).mDie 0 fun d => { d with state := 3, running := 7 }).mWp fun w => { w with units := [({ id := 7, kind := 0, serial := 0, place := 0, ch := 0, die := 0, block := 0, start := 0, cws := 1, mode := 0, ius := [], members := 1 } : ProgUnit)] }, 0, 0, ({ id := 7, kind := 0, serial := 0, place := 0, ch := 0, die := 0, block := 0, start := 0, cws := 1, mode := 0, ius := [], members := 1 } : ProgUnit), false, by decide +kernel, by decide +kernel, by decide +kernel⟩

theorem witness_StallOperationsComplete_4 : ∃ (s : State) (ch die status : Nat), s.dieOn ch die = true ∧ status ≠ 0 ∧ s.armed = [] :=
  ⟨((withChannel up).mDie 0 fun d => { d with state := 2 }), 0, 0, 1, by decide +kernel, by decide +kernel, by decide +kernel⟩

theorem witness_StallOperationsComplete_5 : ∃ (s u : State) (ch die : Nat), s.dieOn ch die = true ∧ s.armed = [] ∧ (s.die (ch * 16 + die)).state = 4 ∧ (u = s.mDie (ch * 16 + die) fun d => { d with oddStatus := 0 }) ∧ (u.die (ch * 16 + die)).state = 4 :=
  ⟨((withChannel up).mDie 0 fun d => { d with state := 4 }), _, 0, 0, by decide +kernel, by decide +kernel, by decide +kernel, rfl, by decide +kernel⟩

theorem witness_StallOperationsComplete_6 : ∃ (s u : State) (ch die : Nat), u = s.grantSlots (ch * 16 + die) ∧ (u.die (ch * 16 + die)).state = 4 ∧ (u.die (ch * 16 + die)).susp < 6 ∧ (u.die (ch * 16 + die)).noSusp = false ∧ u.waitingAt (ch * 16 + die) ≠ [] ∧ (u.die (ch * 16 + die)).runFrom + 6000 ≤ u.mono :=
  ⟨{ ((((withChannel up).mSt fun t => { t with reads := [({ id := 4, src := .scrub 0, cls := 3, nsid := 1, iu := 0, unit := 0, addr := 0, st := 1 } : MRead)] })).mDie 0 fun d => { d with state := 4, runKind := 1 }) with mono := 10000 }, _, 0, 0, rfl, by decide +kernel, by decide +kernel, by decide +kernel, by decide +kernel, by decide +kernel⟩

theorem witness_StallOperationsComplete_7 : ∃ (s u : State) (ch die : Nat), u = s.grantSlots (ch * 16 + die) ∧ (u.die (ch * 16 + die)).state = 7 ∧ (u.die (ch * 16 + die)).susp < 6 ∧ (u.die (ch * 16 + die)).noSusp = false ∧ u.waitingAt (ch * 16 + die) ≠ [] ∧ (u.die (ch * 16 + die)).runFrom + 30000 ≤ u.mono :=
  ⟨{ ((((withChannel up).mSt fun t => { t with reads := [({ id := 4, src := .scrub 0, cls := 3, nsid := 1, iu := 0, unit := 0, addr := 0, st := 1 } : MRead)] })).mDie 0 fun d => { d with state := 7, runKind := 2 }) with mono := 40000 }, _, 0, 0, rfl, by decide +kernel, by decide +kernel, by decide +kernel, by decide +kernel, by decide +kernel⟩

theorem witness_StallOperationsComplete_8 : ∃ (s u v : State) (ch die : Nat), u = s.grantSlots (ch * 16 + die) ∧ (u.die (ch * 16 + die)).state = 3 ∧ (u.die (ch * 16 + die)).susp < 6 ∧ u.waitingAt (ch * 16 + die) ≠ [] ∧ (u.die (ch * 16 + die)).runFrom + 6000 ≤ u.mono ∧ (v = ((u.mDie (ch * 16 + die) fun d => { d with loaded := 0, susp := d.susp + 1, senses := 0 }).resetLun (ch * 16 + die) 6).count R.STALL.SUSP_CNT_PROG ch) :=
  ⟨{ ((((withChannel up).mSt fun t => { t with reads := [({ id := 4, src := .scrub 0, cls := 3, nsid := 1, iu := 0, unit := 0, addr := 0, st := 1 } : MRead)] })).mDie 0 fun d => { d with state := 3, runKind := 1 }) with mono := 10000 }, _, _, 0, 0, rfl, by decide +kernel, by decide +kernel, by decide +kernel, by decide +kernel, rfl⟩

theorem witness_StallOperationsComplete_9 : ∃ (s u : State) (ch die b t : Nat), u = s.sanNext (ch * 16 + die) ∧ (u.die (ch * 16 + die)).erase = some (b, t) ∧ u.dieOn ch die = true ∧ (u.die (ch * 16 + die)).state = 1 ∧ u.waitingAt (ch * 16 + die) = [] ∧ u.queued ch die = 0 ∧ u.eraseHeld ((ch * 16 + die) * 8192 + b) = false :=
  ⟨((withChannel up).mDie 0 fun d => { d with state := 1, erase := some (5, 0) }), _, 0, 0, 5, 0, rfl, by decide +kernel, by decide +kernel, by decide +kernel, by decide +kernel, by decide +kernel, by decide +kernel⟩

theorem witness_StallOperationsComplete_10 : ∃ (s : State) (ch die : Nat), (s.die (ch * 16 + die)).erase.isSome = true :=
  ⟨((withChannel up).mDie 0 fun d => { d with state := 1, erase := some (5, 0) }), 0, 0, by decide +kernel⟩

theorem witness_StallTimeoutsAndChecksComplete_1 : ∃ (s u v : State) (ch die : Nat) (l : List MRead), (s.die (ch * 16 + die)).state = 2 ∧ (l = s.st.reads.filter fun r => decide (aDieKey r.addr = ch * 16 + die) && (decide (r.st = 2) || decide (r.st = 3))) ∧ l ≠ [] ∧ u = s.count R.STALL.TMO_CNT_READ ch ∧ (v = if l.any fun r => decide (r.st = 3) then (u.anomaly ch die 4 0x06 0 0).mSt fun t => { t with noDqs := t.noDqs.set [] ch (t.noDqs.get [] ch ++ [die]) } else u.anomaly ch die 5 0x78 0 0) :=
  ⟨((((withChannel up).mSt fun t => { t with reads := [({ id := 4, src := .scrub 0, cls := 3, nsid := 1, iu := 0, unit := 0, addr := 0, st := 2 } : MRead)] })).mDie 0 fun d => { d with state := 2 }), _, _, 0, 0, [({ id := 4, src := .scrub 0, cls := 3, nsid := 1, iu := 0, unit := 0, addr := 0, st := 2 } : MRead)], by decide +kernel, by decide +kernel, by decide +kernel, rfl, rfl⟩

theorem witness_StallTimeoutsAndChecksComplete_2 : ∃ (s : State) (ch die : Nat), (s.die (ch * 16 + die)).state = 4 :=
  ⟨((withChannel up).mDie 0 fun d => { d with state := 4 }), 0, 0, by decide +kernel⟩

theorem witness_StallTimeoutsAndChecksComplete_3 : ∃ (s : State) (ch die : Nat), (s.die (ch * 16 + die)).state = 7 :=
  ⟨((withChannel up).mDie 0 fun d => { d with state := 7 }), 0, 0, by decide +kernel⟩

theorem witness_StallTimeoutsAndChecksComplete_4 : ∃ (s : State) (ch die : Nat), ((s.die (ch * 16 + die)).state = 5 ∨ (s.die (ch * 16 + die)).state = 8) :=
  ⟨((withChannel up).mDie 0 fun d => { d with state := 5 }), 0, 0, by decide +kernel⟩

theorem witness_StallTimeoutsAndChecksComplete_5 : ∃ (s : State) (ch die : Nat) (target : Bool), (s.die (ch * 16 + die)).state = 10 :=
  ⟨((withChannel up).mDie 0 fun d => { d with state := 10 }), 0, 0, false, by decide +kernel⟩

theorem witness_StallTimeoutsAndChecksComplete_6 : ∃ (s u : State) (ch die : Nat), s.dieOn ch die = true ∧ (s.die (ch * 16 + die)).state ≠ 10 ∧ (u = (s.count R.STALL.TMO_CNT_OTHER ch).mDie (ch * 16 + die) fun d => { d with featBad := d.featBad + 1 }) :=
  ⟨((withChannel up).mDie 0 fun d => { d with state := 1 }), _, 0, 0, by decide +kernel, by decide +kernel, rfl⟩

theorem witness_StallTimeoutsAndChecksComplete_7 : ∃ (s u : State) (ch die : Nat), s.rd R.STALL.CH_STATE_STATE ch = 2 ∧ s.armed = [] ∧ u = (s.count R.STALL.ZQ_CNT_SHORT ch) :=
  ⟨withChannel up, _, 0, 0, by decide +kernel, by decide +kernel, rfl⟩

theorem witness_StallTimeoutsAndChecksComplete_8 : ∃ (s : State) (ch die : Nat), s.rd R.STALL.CH_STATE_STATE ch = 2 ∧ s.armed = [] :=
  ⟨withChannel up, 0, 0, by decide +kernel, by decide +kernel⟩

theorem witness_StallTimeoutsAndChecksComplete_9 : ∃ (s : State) (group : Nat), group < 12 :=
  ⟨up, 3, by decide +kernel⟩

theorem witness_DecodeScrubAndMemoryComplete_1 : ∃ (s u v : State) (read iters : Nat) (r : MRead) (y : Cw), s.armed = [] ∧ s.readOf read = some r ∧ r.st = 4 ∧ r.step < 9 ∧ r.failTo ≤ r.step ∧ u = (s.count R.DECODE.CW_HARD_COUNT r.cluster).count R.DECODE.ITER_SUM_COUNT r.cluster 0 iters ∧ u.armed = [] ∧ u.readOf read = some r ∧ (v = u.tell r fun b => { b with cwRead := b.cwRead + (if r.step = 0 then 1 else 0), iterSum := b.iterSum + iters }) ∧ v.passed r true = some y :=
  ⟨(((withChannel up).mSt fun t => { t with reads := [({ id := 4, src := .scrub 0, cls := 3, nsid := 1, iu := 0, unit := 0, addr := 0, st := 4 } : MRead)] })).mNv fun n => { n with media := [(0, some ({ stamp := 1, nsid := 1, iu := 0, unit := 0, flags := 0, serial := 0, pos := 0, width := 1, data := 0, key := 1 } : Cw))] }, _, _, 4, 5, ({ id := 4, src := .scrub 0, cls := 3, nsid := 1, iu := 0, unit := 0, addr := 0, st := 4 } : MRead), ({ stamp := 1, nsid := 1, iu := 0, unit := 0, flags := 0, serial := 0, pos := 0, width := 1, data := 0, key := 1 } : Cw), by decide +kernel, by decide +kernel, by decide +kernel, by decide +kernel, by decide +kernel, rfl, by decide +kernel, by decide +kernel, rfl, by decide +kernel⟩

theorem witness_DecodeScrubAndMemoryComplete_2 : ∃ (s : State) (read : Nat) (ok : Bool) (r : MRead) (j : SoftJob), s.readOf read = some r ∧ s.jobOf r = some j ∧ j.running = true ∧ j.full = false :=
  ⟨(((withChannel up).mSt fun t => { t with reads := [({ id := 4, src := .scrub 0, cls := 3, nsid := 1, iu := 0, unit := 0, addr := 0, st := 5 } : MRead)] })).mInteg fun i => { i with soft := [(0, [{ read := 4, rank := 1, deadline := 0, running := true, preempted := false, full := false }])] }, 4, true, ({ id := 4, src := .scrub 0, cls := 3, nsid := 1, iu := 0, unit := 0, addr := 0, st := 5 } : MRead), { read := 4, rank := 1, deadline := 0, running := true, preempted := false, full := false }, by decide +kernel, by decide +kernel, by decide +kernel, by decide +kernel⟩

theorem witness_DecodeScrubAndMemoryComplete_3 : ∃ (s : State) (read : Nat) (ok : Bool) (r : MRead) (j : SoftJob), s.readOf read = some r ∧ s.jobOf r = some j ∧ j.running = true ∧ j.full = true :=
  ⟨(((withChannel up).mSt fun t => { t with reads := [({ id := 4, src := .scrub 0, cls := 3, nsid := 1, iu := 0, unit := 0, addr := 0, st := 5 } : MRead)] })).mInteg fun i => { i with soft := [(0, [{ read := 4, rank := 1, deadline := 0, running := true, preempted := false, full := true }])] }, 4, true, ({ id := 4, src := .scrub 0, cls := 3, nsid := 1, iu := 0, unit := 0, addr := 0, st := 5 } : MRead), { read := 4, rank := 1, deadline := 0, running := true, preempted := false, full := true }, by decide +kernel, by decide +kernel, by decide +kernel, by decide +kernel⟩

theorem witness_DecodeScrubAndMemoryComplete_4 : ∃ (s u : State) (read : Nat) (r : MRead) (j : SoftJob), s.readOf read = some r ∧ s.jobOf r = some j ∧ j.rank = 1 ∧ j.running = false ∧ j.preempted = false ∧ j.full = false ∧ u = (s.leaveSoft r.cluster read).count R.DECODE.SOFT_OVERFLOW_COUNT r.cluster :=
  ⟨(((withChannel up).mSt fun t => { t with reads := [({ id := 4, src := .scrub 0, cls := 3, nsid := 1, iu := 0, unit := 0, addr := 0, st := 5 } : MRead)] })).mInteg fun i => { i with soft := [(0, [{ read := 4, rank := 1, deadline := 0, running := false, preempted := false, full := false }])] }, _, 4, ({ id := 4, src := .scrub 0, cls := 3, nsid := 1, iu := 0, unit := 0, addr := 0, st := 5 } : MRead), { read := 4, rank := 1, deadline := 0, running := false, preempted := false, full := false }, by decide +kernel, by decide +kernel, by decide +kernel, by decide +kernel, by decide +kernel, by decide +kernel, rfl⟩

theorem witness_DecodeScrubAndMemoryComplete_5 : ∃ (s u : State), u = s.scrubTime ∧ (u.dst = 4 ∨ u.dst = 5) :=
  ⟨up, _, rfl, by decide +kernel⟩

theorem witness_DecodeScrubAndMemoryComplete_6 : ∃ (s u : State), u = s.scrubTime ∧ (u.dst = 4 ∨ u.dst = 5) :=
  ⟨up, _, rfl, by decide +kernel⟩

theorem witness_DecodeScrubAndMemoryComplete_7 : ∃ (s : State), 4 ≤ s.dst ∧ s.dst ≤ 5 :=
  ⟨up, by decide +kernel, by decide +kernel⟩

theorem witness_DecodeScrubAndMemoryComplete_8 : ∃ (s : State) (group addr syndrome : Nat), group ≤ 24 :=
  ⟨up, 3, 9, 1, by decide +kernel⟩

theorem witness_DecodeScrubAndMemoryComplete_9 : ∃ (s : State) (group addr what : Nat), group ≤ 24 :=
  ⟨up, 3, 9, 0, by decide +kernel⟩

theorem witness_DecodeScrubAndMemoryComplete_10 : ∃ (s : State) (group addr : Nat) (bad : Bool), group ≤ 24 ∧ s.armed = [] :=
  ⟨up, 3, 9, true, by decide +kernel, by decide +kernel⟩

theorem witness_DecodeScrubAndMemoryComplete_11 : ∃ (s : State) (bad : List (Nat × Nat)), s.armed = [] :=
  ⟨up, [(3, 1)], by decide +kernel⟩

theorem witness_SweepCommandsComplete_1 : ∃ (s u : State) (who : Initiator) (b : Band) (num kind : Nat), Reaches s who R.SWEEP.VICTIM_CMD_GO 0 u ∧ u.armed = [] ∧ kind = u.rd R.SWEEP.VICTIM_CMD_KIND ∧ num = u.rd R.SWEEP.VICTIM_BAND ∧ u.nameCode num kind = 0 ∧ (u.set R.SWEEP.VICTIM_RES_CODE 0).bandOf num = some b :=
  ⟨(up.wr R.SWEEP.VICTIM_BAND 2).mSw fun w => { w with bands := [{ ({ num := 2, kind := 0, mode := 0, group := 0, set := 0, members := [], st := 3, closedAt := 0 } : Band) with st := 2 }] }, _, pol, { ({ num := 2, kind := 0, mode := 0, group := 0, set := 0, members := [], st := 3, closedAt := 0 } : Band) with st := 2 }, 2, 0, ⟨by decide +kernel, by decide +kernel, rfl⟩, by decide +kernel, by decide +kernel, by decide +kernel, by decide +kernel, by decide +kernel⟩

theorem witness_SweepCommandsComplete_2 : ∃ (s u : State) (who : Initiator) (num kind : Nat), Reaches s who R.SWEEP.VICTIM_CMD_GO 0 u ∧ u.armed = [] ∧ kind = u.rd R.SWEEP.VICTIM_CMD_KIND ∧ num = u.rd R.SWEEP.VICTIM_BAND ∧ u.nameCode num kind ≠ 0 ∧ u.nameCode num kind ≠ 4 :=
  ⟨up, _, pol, 0, 0, ⟨by decide +kernel, by decide +kernel, rfl⟩, by decide +kernel, by decide +kernel, by decide +kernel, by decide +kernel, by decide +kernel⟩

theorem witness_SweepCommandsComplete_3 : ∃ (s : State) (kind : Nat) (b : Band), s.candidate kind = some b ∧ s.sweepHeld = false ∧ s.sw.victims.length < 16 ∧ (4 ≤ kind ∨ (kind = 1 ∧ s.lowFree = true)) :=
  ⟨up.mSw fun w => { w with bands := [{ ({ num := 2, kind := 0, mode := 0, group := 0, set := 0, members := [], st := 3, closedAt := 0 } : Band) with st := 2 }], noParity := [2] }, 4, { ({ num := 2, kind := 0, mode := 0, group := 0, set := 0, members := [], st := 3, closedAt := 0 } : Band) with st := 2 }, by decide +kernel, by decide +kernel, by decide +kernel, by decide +kernel⟩

theorem witness_SweepCommandsComplete_4 : ∃ (s : State) (band : Nat) (v : Victim), ((s.sw.victims.find? fun v => decide (v.band = band)) = some v) ∧ v.walked = false :=
  ⟨up.mSw fun w => { w with victims := [({ band := 2, kind := 1, hard := true, safety := true, todo := [], out := 0, walked := false } : Victim)] }, 2, ({ band := 2, kind := 1, hard := true, safety := true, todo := [], out := 0, walked := false } : Victim), by decide +kernel, by decide +kernel⟩

theorem witness_SweepCommandsComplete_5 : ∃ (s u : State) (band : Nat) (y : Victim), ((s.sw.victims.find? fun v => decide (v.band = band)) = some y) ∧ s.todoOf y = [] ∧ (u = s.mSw fun w => { w with victims := w.victims.map fun x => if x.band = band then { x with todo := [] } else x }) :=
  ⟨up.mSw fun w => { w with victims := [({ band := 2, kind := 1, hard := true, safety := true, todo := [], out := 0, walked := false } : Victim)] }, _, 2, ({ band := 2, kind := 1, hard := true, safety := true, todo := [], out := 0, walked := false } : Victim), by decide +kernel, by decide +kernel, rfl⟩

theorem witness_SweepCommandsComplete_6 : ∃ (s : State) (block : Nat) (y : Victim), ((s.sw.victims.find? fun v => decide (v.band = (s.block block).band)) = some y) ∧ y.walked = true ∧ y.todo = [] ∧ (s.block block).state = 3 ∧ ((s.sw.copies.any fun e => decide (aBlockKey e.source = block)) = false) ∧ (s.block block).valid = 0 ∧ s.bell.validWalk = false ∧ s.rd R.SWEEP.SWEEP_STAT_CORE_PAUSE = 0 ∧ s.sweepHeld = false ∧ s.dieOn (block / 131072) (block / 8192 % 16) = true :=
  ⟨(withChannel up).mSw fun w => { w with victims := [{ ({ band := 2, kind := 1, hard := true, safety := true, todo := [], out := 0, walked := false } : Victim) with walked := true }], blocks := [(5, { state := 3, band := 2 })] }, 5, { ({ band := 2, kind := 1, hard := true, safety := true, todo := [], out := 0, walked := false } : Victim) with walked := true }, by decide +kernel, by decide +kernel, by decide +kernel, by decide +kernel, by decide +kernel, by decide +kernel, by decide +kernel, by decide +kernel, by decide +kernel, by decide +kernel⟩

theorem witness_SweepCommandsComplete_7 : ∃ (s u : State) (who : Initiator), Reaches s who R.SWEEP.SWEEP_CTRL_RESUME 0 u :=
  ⟨up, _, pol, ⟨by decide +kernel, by decide +kernel, rfl⟩⟩

theorem witness_SweepCommandsComplete_8 : ∃ (s u v w : State), u = ((s.wr R.INTAKE.FILL_LEVEL_F s.fillLevel).updateAmps) ∧ v = u.wr R.WPATH.SLC_TARGET_MIB u.slcTarget ∧ (w = (v.wearRoll.wr R.CKPT.LOG_RATE_MBPS (v.bell.logged * 256 / 1000000)).mBell fun b => { b with logged := 0 }) :=
  ⟨up, _, _, _, rfl, rfl, rfl⟩

theorem witness_CheckpointsComplete_1 : ∃ (s u v w : State) (num start next no : Nat), s.bell.lap = some (num, start, next, no) ∧ u = s.flushed s.bell.flushing ∧ (v = (u.mNv fun n => { n with ckpt := logDurable n.ckpt (u.bell.lines.filter fun r => decide (r.at_ ≤ no)), records := n.records.filter fun r => !(decide (r.kind ≤ 2) && decide (r.no < no)) }).mBell fun b => { b with lines := b.lines.filter fun r => !(decide (r.at_ ≤ no)) }) ∧ w = (v.journal 8 [num, start, next, no]).wr R.CKPT.CKPT_LAP_NUM num :=
  ⟨up.mBell fun b => { b with lap := some (1, 0, 1, 0) }, _, _, _, 1, 0, 1, 0, by decide +kernel, rfl, rfl, rfl⟩

theorem witness_CheckpointsComplete_2 : ∃ (s : State), s.bell.lap.isSome = true ∧ s.bell.lapLate = false :=
  ⟨up.mBell fun b => { b with lap := some (1, 0, 1, 0) }, by decide +kernel, by decide +kernel⟩

theorem witness_CheckpointsComplete_3 : ∃ (s u : State) (a i : Nat), (s.dst = 4 ∨ s.dst = 5) ∧ i = s.bell.walkAt % s.allLines.length ∧ s.allLines[i]? = some a ∧ u = (s.lookLine a).logLine a :=
  ⟨up.mLed fun l => { l with ns := [(1, { st := 2, block := 4096, nsze := 1000, ius := 1000, attached := 1, grans := [0] })] }, _, 0, 0, by decide +kernel, by decide +kernel, by decide +kernel, rfl⟩

theorem witness_CheckpointsComplete_4 : ∃ (s : State), 3 ≤ s.dst ∧ s.dst ≤ 5 :=
  ⟨up, by decide +kernel, by decide +kernel⟩

theorem witness_CheckpointsComplete_5 : ∃ (s : State), (s.dst = 4 ∨ s.dst = 5) :=
  ⟨up, by decide +kernel⟩

theorem witness_CipherMediaCommandsComplete_1 : ∃ (s u : State) (id : Nat) (p : ProgUnit), s.unitOf id = some p ∧ s.armed = [] ∧ (u = s.count R.CIPHER.ENC_UNITS_COUNT 0 0 (p.ius.map fun i => s.encCount i).sum) :=
  ⟨up.mWp fun w => { w with units := [({ id := 7, kind := 0, serial := 0, place := 0, ch := 0, die := 0, block := 0, start := 0, cws := 1, mode := 0, ius := [], members := 1 } : ProgUnit)] }, _, 7, ({ id := 7, kind := 0, serial := 0, place := 0, ch := 0, die := 0, block := 0, start := 0, cws := 1, mode := 0, ius := [], members := 1 } : ProgUnit), by decide +kernel, by decide +kernel, rfl⟩

theorem witness_CipherMediaCommandsComplete_2 : ∃ (s : State) (id : Nat) (r : MRead) (y : Cw), s.readOf id = some r ∧ r.got = some y ∧ r.st = 7 ∧ s.armed = [] :=
  ⟨(withChannel up).mSt (fun t => { t with reads := [({ id := 4, src := .merge 1, cls := 1, nsid := 1, iu := 0, unit := 0, addr := 0, st := 7, got := some ({ stamp := 1, nsid := 1, iu := 0, unit := 0, flags := 0, serial := 0, pos := 0, width := 1, data := 0, key := 1 } : Cw) } : MRead)] }), 4, ({ id := 4, src := .merge 1, cls := 1, nsid := 1, iu := 0, unit := 0, addr := 0, st := 7, got := some ({ stamp := 1, nsid := 1, iu := 0, unit := 0, flags := 0, serial := 0, pos := 0, width := 1, data := 0, key := 1 } : Cw) } : MRead), ({ stamp := 1, nsid := 1, iu := 0, unit := 0, flags := 0, serial := 0, pos := 0, width := 1, data := 0, key := 1 } : Cw), by decide +kernel, by decide +kernel, by decide +kernel, by decide +kernel⟩

theorem witness_CipherMediaCommandsComplete_3 : ∃ (s u : State) (who : Initiator) (slot : Nat), Reaches s who R.CIPHER.KEY_CMD_OP 0 u ∧ u.rd R.CIPHER.KEY_CMD_BUSY = 0 ∧ slot = u.rd R.CIPHER.KEY_SEL_SLOT ∧ u.keyPermitted slot = true ∧ u.slotUse slot = 0 :=
  ⟨up.mLed (fun l => { l with ns := [(1, { st := 1, block := 4096, nsze := 1000, ius := 1000, attached := 0, grans := [0] })] }), _, pol, 0, ⟨by decide +kernel, by decide +kernel, rfl⟩, by decide +kernel, by decide +kernel, by decide +kernel, by decide +kernel⟩

theorem witness_CipherMediaCommandsComplete_4 : ∃ (s u : State) (who : Initiator), Reaches s who R.CIPHER.KEY_CMD_OP 0 u ∧ u.rd R.CIPHER.KEY_CMD_BUSY = 0 ∧ u.keyPermitted (u.rd R.CIPHER.KEY_SEL_SLOT) = false :=
  ⟨up, _, pol, ⟨by decide +kernel, by decide +kernel, rfl⟩, by decide +kernel, by decide +kernel⟩

theorem witness_CipherMediaCommandsComplete_5 : ∃ (s u : State) (who : Initiator), Reaches s who R.CIPHER.KEY_CMD_OP 0 u ∧ u.rd R.CIPHER.KEY_CMD_BUSY = 1 :=
  ⟨up.wr R.CIPHER.KEY_CMD_BUSY 1, _, pol, ⟨by decide +kernel, by decide +kernel, rfl⟩, by decide +kernel⟩

theorem witness_CipherMediaCommandsComplete_6 : ∃ (s u v : State) (slot k1 k2 : Nat), s.ciph.generating = some (slot, k1, k2) ∧ (u = s.mCiph fun x => { x with generating := none }) ∧ (v = u.takeWrap.2.mCiph fun x => { x with media := x.media.set {} slot { loaded := true, bad := false, seq := u.takeWrap.1 % 2 ^ 32, k1 := k1, k2 := k2 } }) :=
  ⟨up.mCiph (fun x => { x with generating := some (3, 5, 6) }), _, _, 3, 5, 6, by decide +kernel, rfl, rfl⟩

theorem witness_CipherMediaCommandsComplete_7 : ∃ (s u : State), s.ciph.generating ≠ none ∧ (u = s.mCiph fun x => { x with generating := none }) :=
  ⟨up.mCiph (fun x => { x with generating := some (3, 5, 6) }), _, by decide +kernel, rfl⟩

theorem witness_CipherJobsComplete_1 : ∃ (s u v : State) (who : Initiator) (page flags : Nat) (j : Job), ReachesUser s who page u ∧ j = u.jobWanted page flags ∧ (u.wr R.CUSER.JOB_DONE_BYTES 0 page).jobRefusal page j (u.mayMove (u.rd R.CUSER.JOB_SRC_KIND page) (u.jobSrc page) (u.jobAad page j + u.rd R.CUSER.JOB_LEN_BYTES page) && u.mayMove (u.rd R.CUSER.JOB_DST_KIND page) (u.jobDst page) (u.jobOut page j)) = none ∧ v = u.wr R.CUSER.JOB_DONE_BYTES 0 page :=
  ⟨((((((up.wr R.CIPHER.USER_OWNER_MAP 2).mCiph fun x => { x with gen := [(256, some { owner := 0, k1 := 5, k2 := 6 })] }).wr R.CUSER.JOB_MODE_MODE 4).wr R.CUSER.JOB_KEY_SLOT 256).wr R.CUSER.JOB_LEN_BYTES 512)), _, _, pol, 0, 7, ({ first := true, last := true, mode := 4, slot := 256 } : Job), ⟨by decide +kernel, by decide +kernel, by decide +kernel, rfl, by decide +kernel, by decide +kernel⟩, by decide +kernel, by decide +kernel, rfl⟩

theorem witness_CipherJobsComplete_2 : ∃ (s u v : State) (who : Initiator) (page flags code : Nat) (j : Job), ReachesUser s who page u ∧ j = u.jobWanted page flags ∧ (u.wr R.CUSER.JOB_DONE_BYTES 0 page).jobRefusal page j (u.mayMove (u.rd R.CUSER.JOB_SRC_KIND page) (u.jobSrc page) (u.jobAad page j + u.rd R.CUSER.JOB_LEN_BYTES page) && u.mayMove (u.rd R.CUSER.JOB_DST_KIND page) (u.jobDst page) (u.jobOut page j)) = some code ∧ v = u.wr R.CUSER.JOB_DONE_BYTES 0 page :=
  ⟨(up.wr R.CIPHER.USER_OWNER_MAP 2), _, _, pol, 0, 7, 4, { first := true, last := true, mode := 0, slot := 256 }, ⟨by decide +kernel, by decide +kernel, by decide +kernel, rfl, by decide +kernel, by decide +kernel⟩, by decide +kernel, by decide +kernel, rfl⟩

theorem witness_CipherJobsComplete_3 : ∃ (s u : State) (page n sk dk : Nat) (j : Job), s.ciph.jobs.get none page = some j ∧ sk = s.rd R.CUSER.JOB_SRC_KIND page ∧ dk = s.rd R.CUSER.JOB_DST_KIND page ∧ n = s.jobAad page j + s.rd R.CUSER.JOB_LEN_BYTES page ∧ s.mayMove sk (s.jobSrc page) n = true ∧ s.mayMove dk (s.jobDst page) (s.jobOut page j) = true ∧ u = (s.runJob page j (s.srcBytes sk (s.jobSrc page) n)).2.2 :=
  ⟨((((((up.wr R.CIPHER.USER_OWNER_MAP 2).mCiph fun x => { x with gen := [(256, some { owner := 0, k1 := 5, k2 := 6 })] }).wr R.CUSER.JOB_MODE_MODE 4).wr R.CUSER.JOB_KEY_SLOT 256).wr R.CUSER.JOB_LEN_BYTES 512)).mCiph (fun x => { x with jobs := [(0, some ({ first := true, last := true, mode := 4, slot := 256 } : Job))] }), _, 0, 512, 0, 0, ({ first := true, last := true, mode := 4, slot := 256 } : Job), by decide +kernel, by decide +kernel, by decide +kernel, by decide +kernel, by decide +kernel, by decide +kernel, rfl⟩

theorem witness_CipherJobsComplete_4 : ∃ (s : State) (page : Nat) (j : Job), s.ciph.jobs.get none page = some j ∧ (s.mayMove (s.rd R.CUSER.JOB_SRC_KIND page) (s.jobSrc page) (s.jobAad page j + s.rd R.CUSER.JOB_LEN_BYTES page) = false ∨ s.mayMove (s.rd R.CUSER.JOB_DST_KIND page) (s.jobDst page) (s.jobOut page j) = false) :=
  ⟨(((((((up.wr R.CIPHER.USER_OWNER_MAP 2).mCiph fun x => { x with gen := [(256, some { owner := 0, k1 := 5, k2 := 6 })] }).wr R.CUSER.JOB_MODE_MODE 4).wr R.CUSER.JOB_KEY_SLOT 256).wr R.CUSER.JOB_LEN_BYTES 512)).wr R.CUSER.JOB_SRC_KIND 1).mCiph (fun x => { x with jobs := [(0, some ({ first := true, last := true, mode := 4, slot := 256 } : Job))] }), 0, ({ first := true, last := true, mode := 4, slot := 256 } : Job), by decide +kernel, by decide +kernel⟩

theorem witness_CipherJobsComplete_5 : ∃ (s u : State) (who : Initiator) (page : Nat), page < 16 ∧ s.answers (pageOf R.CUSER.JOB_MODE_MODE page) = true ∧ u = s.crossTo (initIsland who) (pageOf R.CUSER.JOB_MODE_MODE page) ∧ u.mayUser who page = true :=
  ⟨(up.wr R.CIPHER.USER_OWNER_MAP 2), _, pol, 0, by decide +kernel, by decide +kernel, rfl, by decide +kernel⟩

theorem witness_CipherJobsComplete_6 : ∃ (s u v : State) (who : Initiator) (page : Nat) (y : Chain), ReachesUser s who page u ∧ u.ciph.chains.get none page = some y ∧ u.mayMove (u.rd R.CUSER.JOB_DST_KIND page) (u.jobDst page) 128 = true ∧ v = (u.wrapBlob 3 page y.bytes).2.dstBytes (u.rd R.CUSER.JOB_DST_KIND page) (u.jobDst page) (u.wrapBlob 3 page y.bytes).1 :=
  ⟨((up.wr R.CIPHER.USER_OWNER_MAP 2).mCiph fun x => { x with gen := [(256, some { owner := 0, k1 := 5, k2 := 6 })] }).mCiph (fun x => { x with chains := [(0, some ({ mode := 1, slot := 256, ctr := 1, j0 := 1, acc := 0, held := [], aad := 0, len := 0, tagLen := 16 } : Chain))] }), _, _, pol, 0, ({ mode := 1, slot := 256, ctr := 1, j0 := 1, acc := 0, held := [], aad := 0, len := 0, tagLen := 16 } : Chain), ⟨by decide +kernel, by decide +kernel, by decide +kernel, rfl, by decide +kernel, by decide +kernel⟩, by decide +kernel, by decide +kernel, rfl⟩

theorem witness_CipherJobsComplete_7 : ∃ (s u : State) (who : Initiator) (page : Nat), ReachesUser s who page u ∧ u.mayMove (u.rd R.CUSER.JOB_SRC_KIND page) (u.jobSrc page) 128 = true :=
  ⟨(up.wr R.CIPHER.USER_OWNER_MAP 2), _, pol, 0, ⟨by decide +kernel, by decide +kernel, by decide +kernel, rfl, by decide +kernel, by decide +kernel⟩, by decide +kernel⟩

theorem witness_CipherKeyCommandsComplete_1 : ∃ (s u : State) (who : Initiator) (page slot : Nat), ReachesUser s who page u ∧ 256 ≤ slot ∧ slot ≤ 511 ∧ (((u.genSlot slot).all fun g => decide (g.owner = page)) = true) :=
  ⟨(up.wr R.CIPHER.USER_OWNER_MAP 2), _, pol, 0, 256, ⟨by decide +kernel, by decide +kernel, by decide +kernel, rfl, by decide +kernel, by decide +kernel⟩, by decide +kernel, by decide +kernel, by decide +kernel⟩

theorem witness_CipherKeyCommandsComplete_2 : ∃ (s u v w : State) (who : Initiator) (page slot : Nat), ReachesUser s who page u ∧ 256 ≤ slot ∧ slot ≤ 511 ∧ (((u.genSlot slot).all fun g => decide (g.owner = page)) = true) ∧ u.mayMove (u.rd R.CUSER.JOB_DST_KIND page) (u.jobDst page) 128 = true ∧ v = u.drawKey.2 ∧ w = (v.wrapBlob 2 slot (bytesOf u.drawKey.1.1 32 ++ bytesOf u.drawKey.1.2 32 ++ List.replicate 16 0)).2 :=
  ⟨(up.wr R.CIPHER.USER_OWNER_MAP 2), _, _, _, pol, 0, 256, ⟨by decide +kernel, by decide +kernel, by decide +kernel, rfl, by decide +kernel, by decide +kernel⟩, by decide +kernel, by decide +kernel, by decide +kernel, by decide +kernel, rfl, rfl⟩

theorem witness_CipherKeyCommandsComplete_3 : ∃ (s u : State) (who : Initiator) (page slot : Nat), ReachesUser s who page u ∧ 256 ≤ slot ∧ slot ≤ 511 ∧ (((u.genSlot slot).all fun g => decide (g.owner = page)) = true) ∧ u.mayMove (u.rd R.CUSER.JOB_SRC_KIND page) (u.jobSrc page) 128 = true :=
  ⟨(up.wr R.CIPHER.USER_OWNER_MAP 2), _, pol, 0, 256, ⟨by decide +kernel, by decide +kernel, by decide +kernel, rfl, by decide +kernel, by decide +kernel⟩, by decide +kernel, by decide +kernel, by decide +kernel, by decide +kernel⟩

theorem witness_CipherKeyCommandsComplete_4 : ∃ (s u : State) (who : Initiator) (page slot : Nat), ReachesUser s who page u ∧ 256 ≤ slot ∧ slot ≤ 511 ∧ (((u.genSlot slot).all fun g => decide (g.owner = page)) = true) :=
  ⟨((up.wr R.CIPHER.USER_OWNER_MAP 2).mCiph fun x => { x with gen := [(256, some { owner := 0, k1 := 5, k2 := 6 })] }), _, pol, 0, 256, ⟨by decide +kernel, by decide +kernel, by decide +kernel, rfl, by decide +kernel, by decide +kernel⟩, by decide +kernel, by decide +kernel, by decide +kernel⟩

theorem witness_AWrappedBlobOpens : (∃ (s : State) (purpose index other : Nat) (payload : List Nat), index < 65536 ∧ payload.length = 80 ∧ other ≠ purpose) :=
  ⟨up, 2, 256, 3, List.replicate 80 0, by decide, by decide, by decide⟩

theorem witness_PorterTransfersComplete_1 : ∃ (s u v : State) (ch : Nat) (d : PDesc) (rsv : Bool), 8 ≤ ch ∧ ch < 64 ∧ s.rd R.PCHAN.CH_CTRL_ENABLE ch = 1 ∧ s.chState ch ≤ 1 ∧ (s.pch ch).desc = none ∧ s.ringWaits ch = true ∧ (s.rd R.PCHAN.CH_CFG_START_KIND ch = 0 ∨ s.rd R.PCHAN.CH_STAT_TOKENS ch ≠ 0) ∧ s.por.stopped = false ∧ s.dst < 6 ∧ s.armed = [] ∧ (u = (if s.rd R.PCHAN.CH_CFG_START_KIND ch = 0 then s else s.wr R.PCHAN.CH_STAT_TOKENS (s.rd R.PCHAN.CH_STAT_TOKENS ch - 1) ch)) ∧ u.fetchDesc ch = (d, rsv) ∧ (v = (u.mCh ch fun x => { x with desc := some d, out := 0, poisoned := false, passed := 0 }).set R.PCHAN.CH_STAT_STATE 4 ch) ∧ v.armed = [] ∧ v.descFault ch d rsv = none :=
  ⟨{ (((up.wr R.PCHAN.CH_OWNER_OWNER 2 8).wr R.PCHAN.CH_CTRL_ENABLE 1 8).wr R.PCHAN.RING_TAIL_INDEX 1 8) with dram := [(1, 16), (9, 32), (16, 64)] }, _, _, 8, ({ src := 4096, dst := 8192, len := 64, tag := 0, sk := 0, dk := 0, burst := 0, resp := false, irq := false, port := 0 } : PDesc), false, by decide +kernel, by decide +kernel, by decide +kernel, by decide +kernel, by decide +kernel, by decide +kernel, by decide +kernel, by decide +kernel, by decide +kernel, by decide +kernel, rfl, by decide +kernel, rfl, by decide +kernel, by decide +kernel⟩

theorem witness_PorterTransfersComplete_2 : ∃ (s u v : State) (ch code : Nat) (d : PDesc) (rsv : Bool), 8 ≤ ch ∧ ch < 64 ∧ s.rd R.PCHAN.CH_CTRL_ENABLE ch = 1 ∧ s.chState ch ≤ 1 ∧ (s.pch ch).desc = none ∧ s.ringWaits ch = true ∧ (s.rd R.PCHAN.CH_CFG_START_KIND ch = 0 ∨ s.rd R.PCHAN.CH_STAT_TOKENS ch ≠ 0) ∧ s.por.stopped = false ∧ s.dst < 6 ∧ s.armed = [] ∧ (u = (if s.rd R.PCHAN.CH_CFG_START_KIND ch = 0 then s else s.wr R.PCHAN.CH_STAT_TOKENS (s.rd R.PCHAN.CH_STAT_TOKENS ch - 1) ch)) ∧ u.fetchDesc ch = (d, rsv) ∧ (v = (u.mCh ch fun x => { x with desc := some d, out := 0, poisoned := false, passed := 0 }).set R.PCHAN.CH_STAT_STATE 4 ch) ∧ v.armed = [] ∧ v.descFault ch d rsv = some (code, none) :=
  ⟨{ (((up.wr R.PCHAN.CH_OWNER_OWNER 2 8).wr R.PCHAN.CH_CTRL_ENABLE 1 8).wr R.PCHAN.RING_TAIL_INDEX 1 8) with dram := [(1, 16), (9, 32)] }, _, _, 8, 4, { ({ src := 4096, dst := 8192, len := 64, tag := 0, sk := 0, dk := 0, burst := 0, resp := false, irq := false, port := 0 } : PDesc) with len := 0 }, false, by decide +kernel, by decide +kernel, by decide +kernel, by decide +kernel, by decide +kernel, by decide +kernel, by decide +kernel, by decide +kernel, by decide +kernel, by decide +kernel, rfl, by decide +kernel, rfl, by decide +kernel, by decide +kernel⟩

theorem witness_PorterTransfersComplete_3 : ∃ (s u v : State) (ch code a : Nat) (d : PDesc) (rsv : Bool), 8 ≤ ch ∧ ch < 64 ∧ s.rd R.PCHAN.CH_CTRL_ENABLE ch = 1 ∧ s.chState ch ≤ 1 ∧ (s.pch ch).desc = none ∧ s.ringWaits ch = true ∧ (s.rd R.PCHAN.CH_CFG_START_KIND ch = 0 ∨ s.rd R.PCHAN.CH_STAT_TOKENS ch ≠ 0) ∧ s.por.stopped = false ∧ s.dst < 6 ∧ s.armed = [] ∧ (u = (if s.rd R.PCHAN.CH_CFG_START_KIND ch = 0 then s else s.wr R.PCHAN.CH_STAT_TOKENS (s.rd R.PCHAN.CH_STAT_TOKENS ch - 1) ch)) ∧ u.fetchDesc ch = (d, rsv) ∧ (v = (u.mCh ch fun x => { x with desc := some d, out := 0, poisoned := false, passed := 0 }).set R.PCHAN.CH_STAT_STATE 4 ch) ∧ v.armed = [] ∧ v.descFault ch d rsv = some (code, some a) :=
  ⟨{ (((up.wr R.PCHAN.CH_OWNER_OWNER 2 8).wr R.PCHAN.CH_CTRL_ENABLE 1 8).wr R.PCHAN.RING_TAIL_INDEX 1 8) with dram := [(1, 16), (9, 32), (16, 64), (22, 2)] }, _, _, 8, 5, 4096, { ({ src := 4096, dst := 8192, len := 64, tag := 0, sk := 0, dk := 0, burst := 0, resp := false, irq := false, port := 0 } : PDesc) with sk := 2 }, false, by decide +kernel, by decide +kernel, by decide +kernel, by decide +kernel, by decide +kernel, by decide +kernel, by decide +kernel, by decide +kernel, by decide +kernel, by decide +kernel, rfl, by decide +kernel, rfl, by decide +kernel, by decide +kernel⟩

theorem witness_PorterTransfersComplete_4 : ∃ (s u : State) (prt ch pri : Nat) (aged : Bool), s.por.stopped = false ∧ s.pickBurstAt prt = some ((ch, pri), aged) ∧ u = s.passPort prt (ch, pri) aged :=
  ⟨(((((up.wr R.PCHAN.CH_OWNER_OWNER 2 8).wr R.PCHAN.CH_CTRL_ENABLE 1 8)).wr R.PCHAN.CH_STAT_STATE 4 8).mCh 8 fun c => { c with desc := some ({ src := 4096, dst := 8192, len := 64, tag := 0, sk := 0, dk := 0, burst := 0, resp := false, irq := false, port := 0 } : PDesc) }), _, 2, 8, 0, false, by decide +kernel, by decide +kernel, rfl⟩

theorem witness_PorterTransfersComplete_5 : ∃ (s : State) (ch : Nat) (d : PDesc), (s.pch ch).prev = some d ∧ s.armed = [] :=
  ⟨(((((up.wr R.PCHAN.CH_OWNER_OWNER 2 8).wr R.PCHAN.CH_CTRL_ENABLE 1 8)).wr R.PCHAN.CH_STAT_STATE 4 8).mCh 8 fun c => { c with prev := some ({ src := 4096, dst := 8192, len := 64, tag := 0, sk := 0, dk := 0, burst := 0, resp := false, irq := false, port := 0 } : PDesc), prevOut := 1 }), 8, ({ src := 4096, dst := 8192, len := 64, tag := 0, sk := 0, dk := 0, burst := 0, resp := false, irq := false, port := 0 } : PDesc), by decide +kernel, by decide +kernel⟩

theorem witness_PorterTransfersComplete_6 : ∃ (s : State) (ch : Nat), (s.pch ch).prev = none ∧ (s.pch ch).out ≠ 0 :=
  ⟨(((((up.wr R.PCHAN.CH_OWNER_OWNER 2 8).wr R.PCHAN.CH_CTRL_ENABLE 1 8)).wr R.PCHAN.CH_STAT_STATE 4 8).mCh 8 fun c => { c with desc := some ({ src := 4096, dst := 8192, len := 64, tag := 0, sk := 0, dk := 0, burst := 0, resp := false, irq := false, port := 0 } : PDesc), out := 2 }), 8, by decide +kernel, by decide +kernel⟩

theorem witness_PorterTransfersComplete_7 : ∃ (s : State) (ch : Nat) (d : PDesc), (s.pch ch).prev = some d :=
  ⟨(((((up.wr R.PCHAN.CH_OWNER_OWNER 2 8).wr R.PCHAN.CH_CTRL_ENABLE 1 8)).wr R.PCHAN.CH_STAT_STATE 4 8).mCh 8 fun c => { c with prev := some ({ src := 4096, dst := 8192, len := 64, tag := 0, sk := 0, dk := 0, burst := 0, resp := false, irq := false, port := 0 } : PDesc), prevOut := 1 }), 8, ({ src := 4096, dst := 8192, len := 64, tag := 0, sk := 0, dk := 0, burst := 0, resp := false, irq := false, port := 0 } : PDesc), by decide +kernel⟩

theorem witness_PorterTransfersComplete_8 : ∃ (s u : State) (ch : Nat) (d : PDesc), (s.pch ch).prev = none ∧ (s.pch ch).desc = some d ∧ (s.pch ch).out ≠ 0 ∧ (u = (s.mCh ch fun x => { x with out := x.out - 1 }).beatLost d) :=
  ⟨(((((up.wr R.PCHAN.CH_OWNER_OWNER 2 8).wr R.PCHAN.CH_CTRL_ENABLE 1 8)).wr R.PCHAN.CH_STAT_STATE 4 8).mCh 8 fun c => { c with desc := some ({ src := 4096, dst := 8192, len := 64, tag := 0, sk := 0, dk := 0, burst := 0, resp := false, irq := false, port := 0 } : PDesc), out := 2 }), _, 8, ({ src := 4096, dst := 8192, len := 64, tag := 0, sk := 0, dk := 0, burst := 0, resp := false, irq := false, port := 0 } : PDesc), by decide +kernel, by decide +kernel, by decide +kernel, rfl⟩

theorem witness_PorterControlsComplete_1 : ∃ (s u v w : State) (timer : Nat), timer < 16 ∧ s.rd (R.PORTER.TMR_CTRL_ENABLE timer) = 1 ∧ u = s.count (R.PORTER.TMR_STAT_EXPIRIES timer) ∧ (v = u.mPor fun p => { p with timers := p.timers.set (0, 0) timer ((u.por.timers.get (0, 0) timer).1, (u.por.timers.get (0, 0) timer).2 + 1) }) ∧ (w = if v.rd (R.PORTER.TMR_CTRL_ONE_SHOT timer) = 1 then v.wr (R.PORTER.TMR_CTRL_ENABLE timer) 0 else v) :=
  ⟨up.wr (R.PORTER.TMR_CTRL_ENABLE 3) 1, _, _, _, 3, by decide +kernel, by decide +kernel, rfl, rfl, rfl⟩

theorem witness_PorterControlsComplete_2 : ∃ (s u : State) (who : Initiator) (ch : Nat), ReachesChan s who ch u :=
  ⟨((up.wr R.PCHAN.CH_OWNER_OWNER 2 8).wr R.PCHAN.CH_CTRL_ENABLE 1 8), _, pol, 8, ⟨by decide +kernel, by decide +kernel, by decide +kernel, by decide +kernel, rfl, by decide +kernel⟩⟩

theorem witness_PorterControlsComplete_3 : ∃ (s u : State) (who : Initiator) (ch : Nat), ReachesChan s who ch u :=
  ⟨((up.wr R.PCHAN.CH_OWNER_OWNER 2 8).wr R.PCHAN.CH_CTRL_ENABLE 1 8), _, pol, 8, ⟨by decide +kernel, by decide +kernel, by decide +kernel, by decide +kernel, rfl, by decide +kernel⟩⟩

theorem witness_PorterControlsComplete_4 : ∃ (s u : State) (who : Initiator) (ch : Nat) (on : Bool), ReachesChan s who ch u :=
  ⟨((up.wr R.PCHAN.CH_OWNER_OWNER 2 8).wr R.PCHAN.CH_CTRL_ENABLE 1 8), _, pol, 8, false, ⟨by decide +kernel, by decide +kernel, by decide +kernel, by decide +kernel, rfl, by decide +kernel⟩⟩

theorem witness_PorterControlsComplete_5 : ∃ (s u : State) (who : Initiator) (ch : Nat), ReachesChan s who ch u :=
  ⟨(((((up.wr R.PCHAN.CH_OWNER_OWNER 2 8).wr R.PCHAN.CH_CTRL_ENABLE 1 8)).wr R.PCHAN.CH_STAT_STATE 0 8).mCh 8 fun c => { c with cpl := [{ tag := 3, code := 0, late := false, inj := false, bytes := 64 }] }), _, pol, 8, ⟨by decide +kernel, by decide +kernel, by decide +kernel, by decide +kernel, rfl, by decide +kernel⟩⟩

theorem witness_PorterControlsComplete_6 : ∃ (s u : State) (ch : Nat), s.chState ch = 5 ∧ (s.pch ch).prevOut = 0 ∧ (s.pch ch).out = 0 ∧ (u = (match (s.pch ch).desc, (s.pch ch).owed with | some d, some (2, inj) => (if d.dk = 1 then s.poisonCrate (d.dst % 2 ^ 32) else s).makeRecord ch d 2 inj | some d, _ => s.makeRecord ch d 7 false | none, _ => s)) :=
  ⟨(((((up.wr R.PCHAN.CH_OWNER_OWNER 2 8).wr R.PCHAN.CH_CTRL_ENABLE 1 8)).wr R.PCHAN.CH_STAT_STATE 5 8).mCh 8 fun c => { c with desc := some ({ src := 4096, dst := 8192, len := 64, tag := 0, sk := 0, dk := 0, burst := 0, resp := false, irq := false, port := 0 } : PDesc) }), _, 8, by decide +kernel, by decide +kernel, by decide +kernel, rfl⟩

theorem witness_IslandsAndCrossingsComplete_1 : ∃ (s : State) (island : Nat), island < 117 ∧ s.isl.gated.contains island = false ∧ s.neverGated island = false ∧ s.islandOn island = true ∧ s.rd R.XCLK.GATE_CFG_ENABLE 0 island ≠ 0 :=
  ⟨(up.wr R.XCLK.XMODE_MODE 0).wr R.XCLK.GATE_CFG_ENABLE 1 0 21, 21, by decide +kernel, by decide +kernel, by decide +kernel, by decide +kernel, by decide +kernel⟩

theorem witness_IslandsAndCrossingsComplete_2 : ∃ (s u : State) (island ns : Nat), s.isl.gated.contains island = true ∧ s.armed = [] ∧ (u = s.mIsl fun x => { x with gated := x.gated.filter fun n => decide (n ≠ island) }) :=
  ⟨up.mIsl (fun x => { x with gated := [21] }), _, 21, 30, by decide +kernel, by decide +kernel, rfl⟩

theorem witness_IslandsAndCrossingsComplete_3 : ∃ (s : State) (src dst : Nat), crossing src dst = true ∧ s.isl.gated.contains dst = true :=
  ⟨up.mIsl (fun x => { x with gated := [21] }), 2, 21, by decide +kernel, by decide +kernel⟩

theorem witness_IslandsAndCrossingsComplete_4 : ∃ (s : State) (src dst : Nat), crossing src dst = true ∧ s.islandOn src = true ∧ s.islandOn dst = true :=
  ⟨up, 2, 21, by decide +kernel, by decide +kernel, by decide +kernel⟩

theorem witness_PowerDomainsAndStatesComplete_1 : ∃ (s : State) (who : Initiator) (domains : Nat), mayWrite R.POWER.POL_VOTE_DOMAINS who = true ∧ s.armed = [] :=
  ⟨up, pol, 32, by decide +kernel, by decide +kernel⟩

theorem witness_PowerDomainsAndStatesComplete_2 : ∃ (s : State) (who : Initiator) (domains : Nat), mayWrite R.POWER.POL_VOTE_DOMAINS who = false ∧ s.armed = [] :=
  ⟨up, mgt, 32, by decide +kernel, by decide +kernel⟩

theorem witness_PowerDomainsAndStatesComplete_3 : ∃ (s : State) (who : Initiator) (domains : Nat), mayWrite R.POWER.MGT_VOTE_DOMAINS who = true ∧ s.armed = [] :=
  ⟨up, mgt, 32, by decide +kernel, by decide +kernel⟩

theorem witness_PowerDomainsAndStatesComplete_4 : ∃ (s : State) (who : Initiator) (domains : Nat), mayWrite R.POWER.MGT_VOTE_DOMAINS who = false ∧ s.armed = [] :=
  ⟨up, pol, 32, by decide +kernel, by decide +kernel⟩

theorem witness_PowerDomainsAndStatesComplete_5 : ∃ (s : State) (domain : Nat), 0 < domain ∧ domain < 17 ∧ (s.dst = 4 ∨ s.dst = 5) ∧ s.domOn domain = false ∧ s.voted domain = true ∧ (planOff s.eff domain = false ∨ s.pwr.exiting = true) ∧ ((List.range domain).any (fun d => decide (d ≠ 0) && s.voted d && !s.domOn d && (s.pwr.exiting || !planOff s.eff d)) = false) :=
  ⟨(up.wr R.POWER.DOM_STAT_ON 0x1FFDF).wr R.POWER.POL_VOTE_DOMAINS 32, 5, by decide +kernel, by decide +kernel, by decide +kernel, by decide +kernel, by decide +kernel, by decide +kernel, by decide +kernel⟩

theorem witness_PowerDomainsAndStatesComplete_6 : ∃ (s : State) (domain : Nat), domain ≠ 0 ∧ domain < 17 ∧ domain ≠ 1 ∧ domain ≠ 3 ∧ (domain = 2 → s.eff = 4) ∧ (s.dst = 4 ∨ s.dst = 5) ∧ s.pwr.exiting = false ∧ s.voted domain = false :=
  ⟨up.wr R.POWER.POL_VOTE_DOMAINS 0, 16, by decide +kernel, by decide +kernel, by decide +kernel, by decide +kernel, by decide +kernel, by decide +kernel, by decide +kernel, by decide +kernel⟩

theorem witness_PowerDomainsAndStatesComplete_7 : ∃ (s u v w : State) (who : Initiator) (clk vdd ck vd : Nat) (holdC holdV : Bool), mayWrite R.POWER.DVFS_REQ_CORE_CLK who = true ∧ s.armed = [] ∧ (u = (if 4 ≤ clk ∧ clk ≤ 24 then s else s.rangeRecord who (pageOf R.POWER.DVFS_REQ_CORE_CLK 0) R.POWER.DVFS_REQ_CORE_CLK.off clk)) ∧ (v = (if vdd ≤ 20 then u else u.rangeRecord who (pageOf R.POWER.DVFS_REQ_CORE_CLK 0) R.POWER.DVFS_REQ_CORE_CLK.off vdd)) ∧ (ck = (if 4 ≤ clk ∧ clk ≤ 24 then clk else v.rd R.POWER.DVFS_REQ_CORE_CLK)) ∧ (vd = (if vdd ≤ 20 then vdd else v.rd R.POWER.DVFS_REQ_VDD)) ∧ w = (v.wr R.POWER.DVFS_REQ_CORE_CLK ck).wr R.POWER.DVFS_REQ_VDD vd ∧ holdC = (decide (w.rd R.POWER.DVFS_STAT_VDD < coreNeed (min ck (planCore w.plan))) || (!w.pwr.settled && decide (w.rd R.POWER.DVFS_STAT_CORE_CLK < ck))) ∧ (holdV = decide (vd < w.vddNeed w.pwr.mainClk (min (w.rd R.POWER.DVFS_STAT_CORE_CLK) (if holdC then 24 else ck)))) :=
  ⟨up.wr R.POWER.DVFS_STAT_VDD 20, _, _, _, pol, 10, 20, 10, 20, false, false, by decide +kernel, by decide +kernel, rfl, rfl, by decide +kernel, by decide +kernel, rfl, by decide +kernel, by decide +kernel⟩

theorem witness_PowerDomainsAndStatesComplete_9 : ∃ (s : State) (d : Nat), s.pwr.entering = some d ∧ s.dst = 4 ∧ s.eff < d ∧ s.wantPs = d ∧ s.entryBlocked d = false :=
  ⟨((hostUp (aCmd .admin 0 0)).mHost fun h => { h with cmds := [] }).mPwr fun x => { x with entering := some 3, sel := [(0, 3)] }, 3, by decide +kernel, by decide +kernel, by decide +kernel, by decide +kernel, by decide +kernel⟩

theorem witness_PowerDomainsAndStatesComplete_10 : ∃ (s u : State) (d : Nat), s.pwr.entering = some d ∧ s.dst = 4 ∧ s.eff < d ∧ s.wantPs = d ∧ s.entryBlocked d = true ∧ s.pwr.waitCounted = false ∧ (u = (s.mPwr fun x => { x with waitCounted := true }).count R.POWER.NONOP_WAIT_COUNT) :=
  ⟨(((hostUp (aCmd .admin 0 0)).mHost fun h => { h with cmds := [] }).mPwr fun x => { x with entering := some 3, sel := [(0, 3)] }).wr R.POWER.POL_VOTE_DOMAINS 32, _, 3, by decide +kernel, by decide +kernel, by decide +kernel, by decide +kernel, by decide +kernel, by decide +kernel, rfl⟩

theorem witness_PowerDomainsAndStatesComplete_11 : ∃ (s u v w : State), s.pwr.exiting = true ∧ 2 < s.eff ∧ (u = (List.range 12).foldl (fun t g => if t.groupIn g then t.domainOn (5 + g) else t) (s.domainOn 2)) ∧ (v = (u.mPwr fun x => { x with exiting := false }).peak R.POWER.POWER_WAIT_MAX_US ((s.mono - s.pwr.exitFrom) / 1600)) ∧ w = ((v.enterPs v.pwr.backTo).wr R.POWER.PS_CUR_AUTO 0).followPower.retest :=
  ⟨(up.wr R.POWER.PS_CUR_EFFECTIVE 3).mPwr fun x => { x with exiting := true }, _, _, _, by decide +kernel, by decide +kernel, rfl, rfl, rfl⟩

theorem witness_PowerDomainsAndStatesComplete_12 : ∃ (s u v : State) (l : List (Nat × Nat)), s.dst = 4 ∧ (l = ([0, 1].filterMap fun p => (s.apstTarget p).map fun w => (p, w))) ∧ l ≠ [] ∧ (u = s.mPwr fun x => { x with sel := l.foldl (fun t e => t.set 0 e.1 e.2) x.sel, apstSel := true }) ∧ v = u.wr R.POWER.PS_CUR_SELECTED u.selected :=
  ⟨((hostUp (aCmd .admin 0 0)).mHost fun h => { h with cmds := [], p0 := { h.p0 with features := [(12, 1)] } }).mPwr (fun x => { x with apst := [(0, [2584])] }), _, _, [(0, 3)], by decide +kernel, by decide +kernel, by decide +kernel, rfl, rfl⟩

theorem witness_CoresAndWatchdogsComplete_1 : ∃ (s : State) (h b key : Nat) (m : Bool), key = 0xC3A5 ∧ h < 8 :=
  ⟨up, 3, 1, 0xC3A5, false, by decide +kernel, by decide +kernel⟩

theorem witness_CoresAndWatchdogsComplete_2 : ∃ (s : State) (h b key : Nat) (m : Bool), key ≠ 0xC3A5 ∧ h < 8 :=
  ⟨up, 3, 1, 5, false, by decide +kernel, by decide +kernel⟩

theorem witness_CoresAndWatchdogsComplete_3 : ∃ (s : State) (hart : Nat), hart < 8 ∧ s.coreUp = true :=
  ⟨up.mCore (fun x => { x with inReset := false }), 3, by decide +kernel, by decide +kernel⟩

theorem witness_CoresAndWatchdogsComplete_4 : ∃ (s : State) (hart : Nat), hart < 8 ∧ s.coreUp = true :=
  ⟨up.mCore (fun x => { x with inReset := false }), 3, by decide +kernel, by decide +kernel⟩

theorem witness_CoresAndWatchdogsComplete_5 : ∃ (s : State) (who : Initiator) (key : Nat), mayWrite R.CORESYS.MWDOG_KICK_KEY who = true ∧ key = 0x5AC3 :=
  ⟨up, mgt, 0x5AC3, by decide +kernel, by decide +kernel⟩

theorem witness_CoresAndWatchdogsComplete_6 : ∃ (s : State) (who : Initiator) (key : Nat), mayWrite R.CORESYS.MWDOG_KICK_KEY who = true ∧ key ≠ 0x5AC3 :=
  ⟨up, mgt, 5, by decide +kernel, by decide +kernel⟩

theorem witness_CoresAndWatchdogsComplete_8 : ∃ (s : State) (h b : Nat), s.domOn 4 = true :=
  ⟨up, 0, 1, by decide +kernel⟩

theorem witness_CoresAndWatchdogsComplete_9 : ∃ (s : State) (h b : Nat), s.domOn 4 = true :=
  ⟨up, 0, 1, by decide +kernel⟩

theorem witness_CoresAndWatchdogsComplete_11 : ∃ (s : State), s.core.inReset = true ∧ s.domOn 4 = true ∧ s.coreHeld = false :=
  ⟨{ up with mono := 5000, core := { up.core with inReset := true } }, by decide +kernel, by decide +kernel, by decide +kernel⟩

theorem witness_CoresAndWatchdogsComplete_12 : ∃ (s : State) (hart : Nat), hart < 10 ∧ s.mtimecmp hart ≤ s.mono ∧ s.core.timers.contains hart = false :=
  ⟨((up.wr (R.CORESYS.MTIMECMP_LO_VALUE 3) 0).wr (R.CORESYS.MTIMECMP_HI_VALUE 3) 0), 3, by decide +kernel, by decide +kernel, by decide +kernel⟩

theorem witness_CoresAndWatchdogsComplete_13 : ∃ (s u : State) (who : Initiator) (k : Nat) (y : AdmSlot), Reaches s who R.ADMQ.ADM_TAKE_TAKE 0 u ∧ u.admOldest = some (k, y) :=
  ⟨up.mCore (fun x => { x with adm := [(3, some ({ order := 0, port := 0, cid := 7, uid := 1, opcode := 9, sqe := [], st := 1, replay := false, ranges := [], toHost := false } : AdmSlot))] }), _, pol, 3, ({ order := 0, port := 0, cid := 7, uid := 1, opcode := 9, sqe := [], st := 1, replay := false, ranges := [], toHost := false } : AdmSlot), ⟨by decide +kernel, by decide +kernel, rfl⟩, by decide +kernel⟩

theorem witness_CoresAndWatchdogsComplete_14 : ∃ (s u v : State) (who : Initiator) (value : Nat) (y : AdmSlot) (d : Cmd), Reaches s who R.ADMQ.ADM_CPL_GO 0 u ∧ bit value 31 = true ∧ u.armed = [] ∧ u.core.adm.get none (bits value 0 6) = some y ∧ y.st = 2 ∧ u.cmdOf y.uid = some d ∧ statusReserved (bits value 8 3) (bits value 16 8) = false ∧ statusListed (bits value 8 3) (bits value 16 8) = true ∧ v = (u.set R.ADMQ.ADM_CPL_RES_CODE 0).dropAdm d.uid :=
  ⟨(hostUp (aCmd .admin 0 9)).mCore (fun x => { x with adm := [(3, some { ({ order := 0, port := 0, cid := 7, uid := 1, opcode := 9, sqe := [], st := 1, replay := false, ranges := [], toHost := false } : AdmSlot) with st := 2 })] }), _, _, pol, 0x80000003, { ({ order := 0, port := 0, cid := 7, uid := 1, opcode := 9, sqe := [], st := 1, replay := false, ranges := [], toHost := false } : AdmSlot) with st := 2 }, aCmd .admin 0 9, ⟨by decide +kernel, by decide +kernel, rfl⟩, by decide +kernel, by decide +kernel, by decide +kernel, by decide +kernel, by decide +kernel, by decide +kernel, by decide +kernel, rfl⟩

theorem witness_CoresAndWatchdogsComplete_15 : ∃ (s u : State) (who : Initiator) (value code : Nat), Reaches s who R.ADMQ.ADM_CPL_GO 0 u ∧ bit value 31 = true ∧ u.armed = [] ∧ (code = (if (u.core.adm.get none (bits value 0 6)).all (fun y => decide (y.st ≠ 2) || (u.cmdOf y.uid).isNone) then 1 else if statusReserved (bits value 8 3) (bits value 16 8) then 2 else if statusListed (bits value 8 3) (bits value 16 8) then 0 else 3)) ∧ code ≠ 0 :=
  ⟨up, _, pol, 0x80000003, 1, ⟨by decide +kernel, by decide +kernel, rfl⟩, by decide +kernel, by decide +kernel, by decide +kernel, by decide +kernel⟩

theorem witness_CodeFlashCommandsComplete_1 : ∃ (s v : State) (who : Initiator) (a : Nat), mayWrite R.CFLASH.FL_CMD_OP who = true ∧ s.rd R.CFLASH.FL_STAT_BUSY = 0 ∧ s.armed = [] ∧ s.flCode who true (s.rd R.CFLASH.FL_ADDR_ADDR) false = 0 ∧ a = s.rd R.CFLASH.FL_ADDR_ADDR ∧ v = (s.set R.CFLASH.FL_STAT_CODE 0).wr R.CFLASH.FL_STAT_BUSY 1 :=
  ⟨up.wr R.CFLASH.FL_ADDR_ADDR 1738752, _, pol, 1738752, by decide +kernel, by decide +kernel, by decide +kernel, by decide +kernel, by decide +kernel, rfl⟩

theorem witness_CodeFlashCommandsComplete_2 : ∃ (s v : State) (who : Initiator) (a code : Nat), mayWrite R.CFLASH.FL_CMD_OP who = true ∧ s.rd R.CFLASH.FL_STAT_BUSY = 0 ∧ s.armed = [] ∧ s.flCode who true (s.rd R.CFLASH.FL_ADDR_ADDR) false = code ∧ code ≠ 0 ∧ a = s.rd R.CFLASH.FL_ADDR_ADDR ∧ (v = (s.set R.CFLASH.FL_STAT_CODE code).count (if code = 2 then R.CFLASH.REFUSED_SELF_BANK else R.CFLASH.REFUSED_OTHER)) :=
  ⟨up, _, pol, 0, 1, by decide +kernel, by decide +kernel, by decide +kernel, by decide +kernel, by decide +kernel, by decide +kernel, rfl⟩

theorem witness_CodeFlashCommandsComplete_3 : ∃ (s v : State) (who : Initiator) (a : Nat), mayWrite R.CFLASH.FL_CMD_OP who = true ∧ s.rd R.CFLASH.FL_STAT_BUSY = 0 ∧ s.armed = [] ∧ s.flCode who false (s.rd R.CFLASH.FL_ADDR_ADDR) false = 0 ∧ a = s.rd R.CFLASH.FL_ADDR_ADDR ∧ v = (s.set R.CFLASH.FL_STAT_CODE 0).wr R.CFLASH.FL_STAT_BUSY 1 :=
  ⟨up.wr R.CFLASH.FL_ADDR_ADDR 1738752, _, pol, 1738752, by decide +kernel, by decide +kernel, by decide +kernel, by decide +kernel, by decide +kernel, rfl⟩

theorem witness_CodeFlashCommandsComplete_4 : ∃ (s v : State) (who : Initiator) (a code : Nat), mayWrite R.CFLASH.FL_CMD_OP who = true ∧ s.rd R.CFLASH.FL_STAT_BUSY = 0 ∧ s.armed = [] ∧ s.flCode who false (s.rd R.CFLASH.FL_ADDR_ADDR) false = code ∧ code ≠ 0 ∧ a = s.rd R.CFLASH.FL_ADDR_ADDR ∧ (v = (s.set R.CFLASH.FL_STAT_CODE code).count (if code = 2 then R.CFLASH.REFUSED_SELF_BANK else R.CFLASH.REFUSED_OTHER)) :=
  ⟨up, _, pol, 0, 1, by decide +kernel, by decide +kernel, by decide +kernel, by decide +kernel, by decide +kernel, by decide +kernel, rfl⟩

theorem witness_CodeFlashCommandsComplete_5 : ∃ (s u v : State) (bank : Nat) (y : FlOp), s.cf.run.get none bank = some y ∧ s.flSuspended bank = false ∧ (u = (if y.rank = 2 then (s.flIdle bank).permDone true else (s.flIdle bank).mNv fun n => if y.op = 1 then n.eraseSector y.sector else n.programWords y.addr y.words)) ∧ (v = (if y.rank = 4 then u.set R.CFLASH.FL_STAT_BUSY 0 else u)) :=
  ⟨up.mCf (fun x => { x with run := [(0, some ({ rank := 4, op := 1, sector := 3400, addr := 1740800, words := [], from_ := 0 } : FlOp))] }), _, _, 0, ({ rank := 4, op := 1, sector := 3400, addr := 1740800, words := [], from_ := 0 } : FlOp), by decide +kernel, by decide +kernel, rfl, rfl⟩

theorem witness_CodeFlashCommandsComplete_6 : ∃ (s : State) (bank : Nat) (y : FlOp), s.cf.run.get none bank = some y ∧ s.flSuspended bank = false ∧ (y.op ≠ 2 ∨ 2 ≤ y.words.length) ∧ (y.from_ + (if y.op = 1 then 50000 else 5000) ≤ s.mono) :=
  ⟨(({ up with mono := 60000 } : State).mCf (fun x => { x with run := [(0, some ({ rank := 4, op := 1, sector := 3400, addr := 1740800, words := [], from_ := 0 } : FlOp))] })), 0, ({ rank := 4, op := 1, sector := 3400, addr := 1740800, words := [], from_ := 0 } : FlOp), by decide +kernel, by decide +kernel, by decide +kernel, by decide +kernel⟩

theorem witness_CodeFlashCommandsComplete_7 : ∃ (s : State) (who : Initiator) (addr d : Nat), s.dst ≠ 0 ∧ addr / 8 < 4194304 ∧ s.armed = [] ∧ inDevrec (addr / 4096) = false ∧ s.execOnly (addr / 4096) = false ∧ s.flashWord (addr / 8) = some d :=
  ⟨up, pol, 0x4008, 0xFFFFFFFFFFFFFFFF, by decide +kernel, by decide +kernel, by decide +kernel, by decide +kernel, by decide +kernel, by decide +kernel⟩

theorem witness_CodeFlashCommandsComplete_8 : ∃ (s : State) (who : Initiator) (addr : Nat), s.dst ≠ 0 ∧ addr / 8 < 4194304 ∧ s.armed = [] ∧ inDevrec (addr / 4096) = true :=
  ⟨up, pol, 30429184, by decide +kernel, by decide +kernel, by decide +kernel, by decide +kernel⟩

theorem witness_CodeFlashCommandsComplete_9 : ∃ (s : State) (who : Initiator) (addr : Nat), s.dst ≠ 0 ∧ addr / 8 < 4194304 ∧ s.armed = [] ∧ inDevrec (addr / 4096) = false ∧ s.execOnly (addr / 4096) = true :=
  ⟨(((up.wr R.CFLASH.XWIN_VALID 1 0 0).wr R.CFLASH.XWIN_BASE 4 0 0).wr R.CFLASH.XWIN_SECTORS 1 0 0), pol, 0x4008, by decide +kernel, by decide +kernel, by decide +kernel, by decide +kernel, by decide +kernel⟩

theorem witness_FirmwareUpdatesComplete_1 : ∃ (s : State) (who : Initiator), serves who (s.rd R.GATE.PIECE_SRC) = true :=
  ⟨up, pol, by decide +kernel⟩

theorem witness_FirmwareUpdatesComplete_2 : ∃ (s : State), s.rd R.GATE.LOCK_HELD = 1 ∧ s.cf.commit = none :=
  ⟨up.wr R.GATE.LOCK_HELD 1, by decide +kernel, by decide +kernel⟩

theorem witness_FirmwareUpdatesComplete_3 : ∃ (s u : State) (who : Initiator) (slot k : Nat), serves who (s.rd R.GATE.COMMIT_SRC) = true ∧ s.cf.commit = none ∧ s.cf.recOpen = false ∧ s.dst ≠ 6 ∧ slot = s.rd R.GATE.COMMIT_SLOT ∧ slot ≤ 2 ∧ s.updateBar (s.rd R.GATE.COMMIT_SRC) 4 5 = none ∧ s.downloaded (s.rd R.GATE.COMMIT_SRC) = true ∧ s.rd R.GATE.LOCK_HELD = 1 ∧ k = s.commitSlot slot ∧ k ≠ 0 ∧ s.slotRuns k = false ∧ s.hasRole k = false ∧ u = ((s.wr R.GATE.COMMIT_RES_BUSY 1).wr R.GATE.PUMP_STAT_SPACE 64).wr R.GATE.PUMP_STAT_WORDS 0 :=
  ⟨(((((up.wr R.BELL.HU_STAT_OK 1).wr R.GATE.LOCK_HELD 1).wr R.GATE.COMMIT_SLOT 2).wr R.GATE.BOOT_INFO_RUN_POLICY 1).wr R.GATE.BOOT_INFO_RUN_MGMT 1).mCf (fun x => { x with cover := [(0, [(0, 0)])], microcode := 1 }), _, pol, 2, 2, by decide +kernel, by decide +kernel, by decide +kernel, by decide +kernel, by decide +kernel, by decide +kernel, by decide +kernel, by decide +kernel, by decide +kernel, by decide +kernel, by decide +kernel, by decide +kernel, by decide +kernel, rfl⟩

theorem witness_FirmwareUpdatesComplete_4 : ∃ (s : State) (who : Initiator), serves who (s.rd R.GATE.COMMIT_SRC) = true ∧ (s.cf.commit.isSome = true ∨ s.cf.recOpen = true ∨ s.dst = 6) :=
  ⟨up.mCf (fun x => { x with recOpen := true }), pol, by decide +kernel, by decide +kernel⟩

theorem witness_FirmwareUpdatesComplete_5 : ∃ (s u : State) (who : Initiator) (slot k : Nat), serves who (s.rd R.GATE.COMMIT_SRC) = true ∧ s.cf.commit = none ∧ s.cf.recOpen = false ∧ s.dst ≠ 6 ∧ slot = s.rd R.GATE.COMMIT_SLOT ∧ slot ≤ 2 ∧ s.updateBar (s.rd R.GATE.COMMIT_SRC) 4 5 = none ∧ s.downloaded (s.rd R.GATE.COMMIT_SRC) = true ∧ s.rd R.GATE.LOCK_HELD = 1 ∧ k = s.commitSlot slot ∧ k ≠ 0 ∧ s.slotRuns k = false ∧ s.hasRole k = false ∧ u = ((s.wr R.GATE.COMMIT_RES_BUSY 1).wr R.GATE.PUMP_STAT_SPACE 64).wr R.GATE.PUMP_STAT_WORDS 0 :=
  ⟨(((((up.wr R.BELL.HU_STAT_OK 1).wr R.GATE.LOCK_HELD 1).wr R.GATE.COMMIT_SLOT 2).wr R.GATE.BOOT_INFO_RUN_POLICY 1).wr R.GATE.BOOT_INFO_RUN_MGMT 1).mCf (fun x => { x with cover := [(0, [(0, 0)])], microcode := 1 }), _, pol, 2, 2, by decide +kernel, by decide +kernel, by decide +kernel, by decide +kernel, by decide +kernel, by decide +kernel, by decide +kernel, by decide +kernel, by decide +kernel, by decide +kernel, by decide +kernel, by decide +kernel, by decide +kernel, rfl⟩

theorem witness_FirmwareUpdatesComplete_6 : ∃ (s : State) (who : Initiator), serves who (s.rd R.GATE.COMMIT_SRC) = true ∧ (s.cf.commit.isSome = true ∨ s.cf.recOpen = true ∨ s.dst = 6) :=
  ⟨up.mCf (fun x => { x with recOpen := true }), pol, by decide +kernel, by decide +kernel⟩

theorem witness_FirmwareUpdatesComplete_7 : ∃ (s u : State) (who : Initiator) (slot k : Nat), serves who (s.rd R.GATE.COMMIT_SRC) = true ∧ s.cf.commit = none ∧ s.cf.recOpen = false ∧ s.dst ≠ 6 ∧ slot = s.rd R.GATE.COMMIT_SLOT ∧ slot ≤ 2 ∧ s.updateBar (s.rd R.GATE.COMMIT_SRC) 4 5 = none ∧ s.downloaded (s.rd R.GATE.COMMIT_SRC) = true ∧ s.rd R.GATE.LOCK_HELD = 1 ∧ k = s.commitSlot slot ∧ k ≠ 0 ∧ s.slotRuns k = false ∧ s.hasRole k = false ∧ s.allowance ≠ 0 ∧ s.dst = 4 ∧ u = ((s.wr R.GATE.COMMIT_RES_BUSY 1).wr R.GATE.PUMP_STAT_SPACE 64).wr R.GATE.PUMP_STAT_WORDS 0 :=
  ⟨(((((up.wr R.BELL.HU_STAT_OK 1).wr R.GATE.LOCK_HELD 1).wr R.GATE.COMMIT_SLOT 2).wr R.GATE.BOOT_INFO_RUN_POLICY 1).wr R.GATE.BOOT_INFO_RUN_MGMT 1).mCf (fun x => { x with cover := [(0, [(0, 0)])], microcode := 1 }), _, pol, 2, 2, by decide +kernel, by decide +kernel, by decide +kernel, by decide +kernel, by decide +kernel, by decide +kernel, by decide +kernel, by decide +kernel, by decide +kernel, by decide +kernel, by decide +kernel, by decide +kernel, by decide +kernel, by decide +kernel, by decide +kernel, rfl⟩

theorem witness_FirmwareUpdatesComplete_8 : ∃ (s : State) (who : Initiator), serves who (s.rd R.GATE.COMMIT_SRC) = true ∧ (s.cf.commit.isSome = true ∨ s.cf.recOpen = true ∨ s.dst = 6) :=
  ⟨up.mCf (fun x => { x with recOpen := true }), pol, by decide +kernel, by decide +kernel⟩

theorem witness_FirmwareUpdatesComplete_9 : ∃ (s : State) (who : Initiator) (slot k src : Nat), serves who (s.rd R.GATE.COMMIT_SRC) = true ∧ s.cf.commit = none ∧ s.cf.recOpen = false ∧ s.dst ≠ 6 ∧ slot = s.rd R.GATE.COMMIT_SLOT ∧ slot ≤ 2 ∧ s.updateBar (s.rd R.GATE.COMMIT_SRC) 4 5 = none ∧ src = s.rd R.GATE.COMMIT_SRC ∧ k = s.commitSlot slot ∧ k ≠ 0 :=
  ⟨(((((up.wr R.BELL.HU_STAT_OK 1).wr R.GATE.LOCK_HELD 1).wr R.GATE.COMMIT_SLOT 2).wr R.GATE.BOOT_INFO_RUN_POLICY 1).wr R.GATE.BOOT_INFO_RUN_MGMT 1).mCf (fun x => { x with cover := [(0, [(0, 0)])], microcode := 1 }), pol, 2, 2, 0, by decide +kernel, by decide +kernel, by decide +kernel, by decide +kernel, by decide +kernel, by decide +kernel, by decide +kernel, by decide +kernel, by decide +kernel, by decide +kernel⟩

theorem witness_FirmwareUpdatesComplete_10 : ∃ (s : State) (who : Initiator) (hi : Nat) (y : Commit), s.cf.commit = some y ∧ serves who y.src = true ∧ y.activating = false ∧ y.queue.length < 64 ∧ y.taken + y.queue.length < y.total :=
  ⟨up.mCf (fun x => { x with commit := some ({ action := 0, slot := 2, src := 0, total := 1024, erased := 1, taken := 512 } : Commit) }), pol, 5, ({ action := 0, slot := 2, src := 0, total := 1024, erased := 1, taken := 512 } : Commit), by decide +kernel, by decide +kernel, by decide +kernel, by decide +kernel, by decide +kernel⟩

theorem witness_FirmwareUpdatesComplete_11 : ∃ (s u : State) (y : Commit), s.cf.commit = some y ∧ y.written = true ∧ y.activating = false ∧ s.armed = [] ∧ u = (s.showSlot y.slot (s.slotValid y.slot)).showTested :=
  ⟨up.mCf (fun x => { x with commit := some { ({ action := 1, slot := 2, src := 0, total := 1024, erased := 1, taken := 512 } : Commit) with written := true } }), _, { ({ action := 1, slot := 2, src := 0, total := 1024, erased := 1, taken := 512 } : Commit) with written := true }, by decide +kernel, by decide +kernel, by decide +kernel, by decide +kernel, rfl⟩

theorem witness_FirmwareUpdatesComplete_12 : ∃ (s u : State) (who : Initiator) (y : Commit), mayWrite R.GATE.ACT_READY_READY who = true ∧ s.cf.commit = some y ∧ y.activating = true ∧ s.dst = 5 ∧ s.core.inReset = false ∧ u = s.wr R.DEVSTATE.QZ_LAST_PAUSE ((s.mono - y.started) / 100) :=
  ⟨((inState 5).mCore fun x => { x with inReset := false }).mCf (fun x => { x with commit := some { ({ action := 3, slot := 2, src := 0, total := 1024, erased := 1, taken := 512 } : Commit) with activating := true } }), _, pol, { ({ action := 3, slot := 2, src := 0, total := 1024, erased := 1, taken := 512 } : Commit) with activating := true }, by decide +kernel, by decide +kernel, by decide +kernel, by decide +kernel, by decide +kernel, rfl⟩

theorem witness_FirmwareUpdatesComplete_13 : ∃ (s u v : State) (y : Commit), s.cf.commit = some y ∧ y.activating = true ∧ s.dst = 5 ∧ (u = (s.mCore fun x => { x with inReset := false }).startImage s.cf.prevPolicy s.cf.prevMgmt s.cf.prevMicro) ∧ v = ((u.wr R.DEVSTATE.QZ_LAST_PAUSE ((u.mono - y.started) / 100)).wr R.DEVSTATE.QZ_LAST_ABANDONED 1).record 8 0x2E1 [y.slot, y.allow, 0, 0] :=
  ⟨((inState 5).mCore fun x => { x with inReset := false }).mCf (fun x => { x with commit := some { ({ action := 3, slot := 2, src := 0, total := 1024, erased := 1, taken := 512 } : Commit) with activating := true } }), _, _, { ({ action := 3, slot := 2, src := 0, total := 1024, erased := 1, taken := 512 } : Commit) with activating := true }, by decide +kernel, by decide +kernel, by decide +kernel, rfl, rfl⟩

theorem witness_ConfigurationRecordsComplete_1 : ∃ (s u : State) (who : Initiator), mayWrite R.GATE.REC_CMD_OP who = true ∧ s.cf.commit = none ∧ s.cf.recOpen = false ∧ s.dst ≠ 6 ∧ (u = s.mCf fun x => { x with recOpen := true, recWords := [] }) :=
  ⟨up, _, mgt, by decide +kernel, by decide +kernel, by decide +kernel, by decide +kernel, rfl⟩

theorem witness_ConfigurationRecordsComplete_2 : ∃ (s : State) (who : Initiator), mayWrite R.GATE.REC_CMD_OP who = true ∧ (s.cf.commit.isSome = true ∨ s.cf.recOpen = true ∨ s.dst = 6) :=
  ⟨up.mCf (fun x => { x with recOpen := true }), mgt, by decide +kernel, by decide +kernel⟩

theorem witness_ConfigurationRecordsComplete_3 : ∃ (s u : State) (who : Initiator) (r : CfgRec), mayWrite R.GATE.REC_CMD_OP who = true ∧ s.cf.commit = none ∧ s.cf.recOpen = true ∧ r = { type := s.rd R.GATE.REC_TYPE_TYPE, format := s.rd R.GATE.REC_TYPE_FORMAT, seq := s.nv.cfgSeq + 1, len := s.rd R.GATE.REC_LEN_BYTES, payload := s.cf.recWords } ∧ s.rd R.GATE.OWNER_LOCK = 0 ∧ (r.type < 0x100 ∨ s.cfgFormats.contains r.format = true) ∧ r.payload.length = ceilDiv r.len 8 ∧ (u = (if 65536 < cfgStart (cfgUsed 0 s.nv.cfgA) r.size + r.size then s.cfgCompact else s)) :=
  ⟨((up.wr R.GATE.REC_TYPE_TYPE 15).wr R.GATE.REC_LEN_BYTES 8).mCf (fun x => { x with recOpen := true, recWords := [5] }), _, mgt, { type := 15, format := 0, seq := 1, len := 8, payload := [5] }, by decide +kernel, by decide +kernel, by decide +kernel, by decide +kernel, by decide +kernel, by decide +kernel, by decide +kernel, rfl⟩

theorem witness_ConfigurationRecordsComplete_4 : ∃ (s : State) (who : Initiator), mayWrite R.GATE.REC_CMD_OP who = true ∧ s.cf.commit = none ∧ s.cf.recOpen = true :=
  ⟨up.mCf (fun x => { x with recOpen := true }), mgt, by decide +kernel, by decide +kernel, by decide +kernel⟩

theorem witness_ConfigurationRecordsComplete_5 : ∃ (s u v : State) (who : Initiator) (value : Bool), mayWrite R.GATE.OWNER_LOCK who = true ∧ (u = (s.wr R.GATE.OWNER_LOCK (b2n value)).mNv fun n => { n with owner := value }) ∧ u.mode 3 = false ∧ (v = (u.wr R.DEVSTATE.RO_CAUSE_OWNER (b2n value)).mNv fun n => { n with roCause := if value then setBit n.roCause 2 else clrBit n.roCause 2 }) :=
  ⟨up, _, _, .mi, true, by decide +kernel, rfl, by decide +kernel, rfl⟩

theorem witness_ConfigurationRecordsComplete_6 : ∃ (s : State) (who : Initiator) (hi : Nat), s.cf.commit = none ∧ mayWrite R.GATE.PUMP_HI_VALUE who = true ∧ s.cf.recOpen = true :=
  ⟨up.mCf (fun x => { x with recOpen := true }), mgt, 5, by decide +kernel, by decide +kernel, by decide +kernel⟩

theorem witness_LogbookCommandsComplete_1 : ∃ (s : State) (i : Nat) (q : LogReq) (rest : List LogReq), nextPort s.log.ports (s.log.lastPort + 1) 117 = some i ∧ s.log.ports.get [] i = q :: rest :=
  ⟨up.mLog (fun l => { l with ports := [(5, [({ code := 0x105, inj := false, source := 5, at_ := 0, snaps := [0, 0, 0, 0], fw := false } : LogReq)])] }), 5, ({ code := 0x105, inj := false, source := 5, at_ := 0, snaps := [0, 0, 0, 0], fw := false } : LogReq), [], by decide +kernel, by decide +kernel⟩

theorem witness_LogbookCommandsComplete_2 : ∃ (s u v : State) (saved : List LogRec), u = s.set R.LOG.LOG_STAT_SAVING 0 ∧ saved = newest u.log.unsaved u.stored ∧ (v = (u.mNv fun n => { n with ring := newest 65536 (n.ring ++ saved) }).mLog fun l => { l with unsaved := 0 }) :=
  ⟨up, _, _, [], rfl, by decide +kernel, rfl⟩

theorem witness_LogbookCommandsComplete_4 : ∃ (s : State) (who : Initiator), mayRelease who = true ∧ s.rd R.LOG.LOG_STAT_FAULT_FROZEN ≠ 0 :=
  ⟨up.wr R.LOG.LOG_STAT_FAULT_FROZEN 1, mgt, by decide +kernel, by decide +kernel⟩

theorem witness_LogbookCommandsComplete_5 : ∃ (s u : State) (who : Initiator) (b : Nat), b = logBank who ∧ freezeRefused s = false ∧ u = ((s.wr R.LOG.LOG_CTRL_FREEZE 1 0 b).wr R.LOG.LOG_STAT_FREEZE_BY (setBit (s.rd R.LOG.LOG_STAT_FREEZE_BY) (b - 1))).wr R.LOG.LOG_STAT_FROZEN 1 :=
  ⟨up, _, mgt, 2, by decide +kernel, by decide +kernel, rfl⟩

theorem witness_LogbookCommandsComplete_6 : ∃ (s u : State) (who : Initiator) (b left : Nat), b = logBank who ∧ left = clrBit (s.rd R.LOG.LOG_STAT_FREEZE_BY) (b - 1) ∧ u = (s.wr R.LOG.LOG_CTRL_FREEZE 0 0 b).wr R.LOG.LOG_STAT_FREEZE_BY left :=
  ⟨up, _, mgt, 2, 0, by decide +kernel, by decide +kernel, rfl⟩

theorem witness_LogbookCommandsComplete_7 : ∃ (s : State), s.rd R.LOG.LOG_STAT_FROZEN = 1 :=
  ⟨up.wr R.LOG.LOG_STAT_FROZEN 1, by decide +kernel⟩

theorem witness_LogbookCommandsComplete_8 : ∃ (s u : State) (who : Initiator) (b : Nat), mayWrite R.LOG.FW_POST_GO who = true ∧ b = logBank who ∧ s.rd R.LOG.FW_RES_CODE 0 b ≠ 4 ∧ 0x380 ≤ s.rd R.LOG.FW_CODE_CODE 0 b ∧ u = s.wr R.LOG.FW_RES_CODE 4 0 b :=
  ⟨up.wr R.LOG.FW_CODE_CODE 0x380 0 1, _, pol, 1, by decide +kernel, by decide +kernel, by decide +kernel, by decide +kernel, rfl⟩

theorem witness_LogbookCommandsComplete_9 : ∃ (s : State) (who : Initiator) (b : Nat), mayWrite R.LOG.FW_POST_GO who = true ∧ b = logBank who ∧ s.rd R.LOG.FW_RES_CODE 0 b ≠ 4 ∧ s.rd R.LOG.FW_CODE_CODE 0 b < 0x380 :=
  ⟨up, pol, 1, by decide +kernel, by decide +kernel, by decide +kernel, by decide +kernel⟩

theorem witness_LogbookCommandsComplete_10 : ∃ (s : State) (who : Initiator) (b : Nat), b = logBank who ∧ s.rd R.LOG.CUR_AREA_AREA 0 b = 1 :=
  ⟨up.wr R.LOG.CUR_AREA_AREA 1 0 1, pol, 1, by decide +kernel, by decide +kernel⟩

theorem witness_LogbookCommandsComplete_11 : ∃ (s : State) (who : Initiator) (b : Nat) (r : LogRec), b = logBank who ∧ s.rd R.LOG.CUR_AREA_AREA 0 b ≠ 1 ∧ s.stored.head? = some r :=
  ⟨up.mLog (fun l => { l with ring := [({ code := 0x105, flags := 0, source := 5, epoch := 0, mono := 0, wall := 0, seq := 3, snaps := [0, 0, 0, 0], suppressed := 0 } : LogRec)] }), pol, 1, ({ code := 0x105, flags := 0, source := 5, epoch := 0, mono := 0, wall := 0, seq := 3, snaps := [0, 0, 0, 0], suppressed := 0 } : LogRec), by decide +kernel, by decide +kernel, by decide +kernel⟩

theorem witness_LogbookCommandsComplete_12 : ∃ (s : State) (who : Initiator) (b : Nat), b = logBank who ∧ s.rd R.LOG.CUR_AREA_AREA 0 b ≠ 1 ∧ s.stored = [] :=
  ⟨up, pol, 1, by decide +kernel, by decide +kernel, by decide +kernel⟩

theorem witness_LogbookCommandsComplete_13 : ∃ (s : State) (who : Initiator) (b : Nat), b = logBank who ∧ s.rd R.LOG.CUR_AREA_AREA 0 b = 1 :=
  ⟨up.wr R.LOG.CUR_AREA_AREA 1 0 1, pol, 1, by decide +kernel, by decide +kernel⟩

theorem witness_LogbookCommandsComplete_14 : ∃ (s : State) (who : Initiator) (b : Nat) (r : LogRec), b = logBank who ∧ s.rd R.LOG.CUR_AREA_AREA 0 b ≠ 1 ∧ s.stored.getLast? = some r :=
  ⟨up.mLog (fun l => { l with ring := [({ code := 0x105, flags := 0, source := 5, epoch := 0, mono := 0, wall := 0, seq := 3, snaps := [0, 0, 0, 0], suppressed := 0 } : LogRec)] }), pol, 1, ({ code := 0x105, flags := 0, source := 5, epoch := 0, mono := 0, wall := 0, seq := 3, snaps := [0, 0, 0, 0], suppressed := 0 } : LogRec), by decide +kernel, by decide +kernel, by decide +kernel⟩

theorem witness_LogbookCommandsComplete_15 : ∃ (s : State) (who : Initiator) (b : Nat), b = logBank who ∧ s.rd R.LOG.CUR_AREA_AREA 0 b ≠ 1 ∧ s.stored = [] :=
  ⟨up, pol, 1, by decide +kernel, by decide +kernel, by decide +kernel⟩

theorem witness_LogbookCommandsComplete_16 : ∃ (s u : State) (who : Initiator), u = s.win0 (logBank who) :=
  ⟨up, _, pol, rfl⟩

theorem witness_LogbookCommandsComplete_18 : ∃ (s u : State) (who : Initiator) (ms y : Nat), mayWrite R.TIME.WALL_SET_HI_MS who = true ∧ y = s.rd R.TIME.WALL_SET_LO_MS + ms % 2 ^ 16 * 2 ^ 32 ∧ (u = ((s.mLog fun l => { l with wallOff := (y : Int) - (s.mono / 100000 : Nat) }).wr R.TIME.WALL_HI_VALID 1).count R.TIME.TIME_SETS_COUNT) :=
  ⟨up, _, pol, 5, 21474836480, by decide +kernel, by decide +kernel, rfl⟩

theorem witness_InjectionCommandsComplete_1 : ∃ (s u v w : State) (who : Initiator) (page mode count : Nat) (y : Armed), MayInject s who page u ∧ mode < 4 ∧ count < 256 ∧ ((u.armed.any fun a => decide (a.page = page)) = false) ∧ u.armCheck page mode count = 0 ∧ v = ((u.set R.COMMON.INJ_CTRL_RESULT 0 page).wr R.COMMON.INJ_CTRL_MODE mode page).wr R.COMMON.INJ_CTRL_COUNT count page ∧ (y = { page := page, point := v.rd R.COMMON.INJ_SEL_POINT page, sub := v.rd R.COMMON.INJ_SEL_SUB page, param := v.rd R.COMMON.INJ_SEL_PARAM page, mode := mode, left := if mode = 2 then 0xFF else if mode = 1 then count else 1 }) ∧ (w = (((v.mArmed fun l => l ++ [y]).wr R.INJFAB.ARMED_COUNT (v.armed.length + 1)).wr R.COMMON.INJ_CTRL_ARM 1 page).wr R.COMMON.INJ_CTRL_LEFT y.left page) :=
  ⟨up.wr R.DEVSTATE.MODE_CUR_MODES 32, _, _, _, mgt, 8, 0, 1, { page := 8, point := 0, sub := 0, param := 0, mode := 0, left := 1 }, ⟨by decide +kernel, by decide +kernel, by decide +kernel, by decide +kernel, by decide +kernel, rfl⟩, by decide +kernel, by decide +kernel, by decide +kernel, by decide +kernel, rfl, by decide +kernel, rfl⟩

theorem witness_InjectionCommandsComplete_2 : ∃ (s u v w x : State) (who : Initiator) (page mode count code : Nat), MayInject s who page u ∧ mode < 4 ∧ count < 256 ∧ ((u.armed.any fun a => decide (a.page = page)) = false) ∧ code = u.armCheck page mode count ∧ code ≠ 0 ∧ v = u.set R.COMMON.INJ_CTRL_RESULT code page ∧ (w = if code = 6 ∨ mode = 3 ∨ count = 0 then v else (v.wr R.COMMON.INJ_CTRL_MODE mode page).wr R.COMMON.INJ_CTRL_COUNT count page) ∧ x = (w.count R.COMMON.INJ_COUNT_REFUSED page).count R.INJFAB.REFUSED_COUNT :=
  ⟨up, _, _, _, _, mgt, 8, 0, 1, 1, ⟨by decide +kernel, by decide +kernel, by decide +kernel, by decide +kernel, by decide +kernel, rfl⟩, by decide +kernel, by decide +kernel, by decide +kernel, by decide +kernel, by decide +kernel, rfl, rfl, rfl⟩

theorem witness_InjectionCommandsComplete_3 : ∃ (s u : State) (who : Initiator) (page mode count : Nat), MayInject s who page u ∧ mode < 4 ∧ count < 256 ∧ ((u.armed.any fun a => decide (a.page = page)) = true) :=
  ⟨up.mArmed (fun _ => [{ page := 8, point := 0, sub := 0, param := 0, mode := 0, left := 1 }]), _, mgt, 8, 1, 2, ⟨by decide +kernel, by decide +kernel, by decide +kernel, by decide +kernel, by decide +kernel, rfl⟩, by decide +kernel, by decide +kernel, by decide +kernel⟩

theorem witness_InjectionCommandsComplete_4 : ∃ (s u : State) (who : Initiator) (page : Nat), MayInject s who page u :=
  ⟨up, _, mgt, 8, ⟨by decide +kernel, by decide +kernel, by decide +kernel, by decide +kernel, by decide +kernel, rfl⟩⟩

theorem witness_InjectionCommandsComplete_5 : ∃ (s : State) (who : Initiator), mayWrite R.INJFAB.DISARM_ALL who = true :=
  ⟨up, mgt, by decide +kernel⟩

theorem witness_RegisterAccessesComplete_1 : ∃ (s u v : State) (who : Initiator) (addr p off : Nat), regOf who addr = some (p, off) ∧ Shows s who p off u ∧ (¬(p = 0x18 ∧ off = 0x15C)) ∧ v = (u.readWord who (s.isl.gated.contains (pageIsland p)) p off).2 :=
  ⟨up, _, _, mgt, regAddr mgt 2 256, 2, 256, by decide +kernel, ⟨by decide +kernel, by decide +kernel, by decide +kernel, by decide +kernel, by decide +kernel, rfl⟩, by decide +kernel, rfl⟩

theorem witness_RegisterAccessesComplete_2 : ∃ (s u v : State) (who : Initiator) (addr p off : Nat), regOf who addr = some (p, off) ∧ Shows s who p off u ∧ (¬(p = 0x18 ∧ off = 0x15C)) ∧ v = (u.readWord who (s.isl.gated.contains (pageIsland p)) p off).2 :=
  ⟨up, _, _, mgt, regAddr mgt 2 256, 2, 256, by decide +kernel, ⟨by decide +kernel, by decide +kernel, by decide +kernel, by decide +kernel, by decide +kernel, rfl⟩, by decide +kernel, rfl⟩

theorem witness_RegisterAccessesComplete_3 : ∃ (s : State) (who : Initiator) (addr p off : Nat), regOf who addr = some (p, off) ∧ isPage p = true ∧ off % 4 = 0 ∧ who ≠ .mi ∧ s.answers p = false :=
  ⟨up.wr R.POWER.DOM_STAT_ON 1, mgt, regAddr mgt 0x13 256, 0x13, 256, by decide +kernel, by decide +kernel, by decide +kernel, by decide +kernel, by decide +kernel⟩

theorem witness_RegisterAccessesComplete_4 : ∃ (s u : State) (who : Initiator) (addr p off : Nat), regOf who addr = some (p, off) ∧ isPage p = true ∧ off % 4 = 0 ∧ who ≠ .mi ∧ s.answers p = true ∧ ((s.crossTo (initIsland who) p).ownCheck who p off).1 = true ∧ u = ((s.crossTo (initIsland who) p).ownCheck who p off).2 :=
  ⟨up, _, mgt, regAddr mgt 0x20 256, 0x20, 256, by decide +kernel, by decide +kernel, by decide +kernel, by decide +kernel, by decide +kernel, by decide +kernel, rfl⟩

theorem witness_RegisterAccessesComplete_5 : ∃ (s : State) (who : Initiator) (addr p off value : Nat) (t : State), regOf who addr = some (p, off) ∧ isPage p = true ∧ off % 4 = 0 ∧ s.rowWrite who p off (value % 2 ^ 32) = some t :=
  ⟨(up.wr R.SWEEP.SWEEP_STAT_CORE_PAUSE 1), pol, regAddr pol 0x16 256, 0x16, 256, 1, _, by decide +kernel, by decide +kernel, by decide +kernel, rfl⟩

theorem witness_RegisterAccessesComplete_6 : ∃ (s u : State) (who : Initiator) (addr p off value : Nat), regOf who addr = some (p, off) ∧ off % 4 = 0 ∧ s.rowWrite who p off (value % 2 ^ 32) = none ∧ Opens s who p off u :=
  ⟨up, _, pol, regAddr pol 0x18 0x140, 0x18, 0x140, 0, by decide +kernel, by decide +kernel, by decide +kernel, ⟨by decide +kernel, by decide +kernel, by decide +kernel, by decide +kernel, rfl, by decide +kernel⟩⟩

theorem witness_RegisterAccessesComplete_7 : ∃ (s : State) (who : Initiator) (addr p off width : Nat) (write : Bool), regOf who addr = some (p, off) ∧ isPage p = false :=
  ⟨up, mgt, regAddr mgt 0xF 256, 0xF, 256, 4, false, by decide +kernel, by decide +kernel⟩

theorem witness_RegisterAccessesComplete_8 : ∃ (s u : State) (who : Initiator) (addr p off width : Nat) (write : Bool), regOf who addr = some (p, off) ∧ isPage p = true ∧ (width ≠ 4 ∨ off % 4 ≠ 0) ∧ s.answers p = true ∧ u = (s.crossTo (initIsland who) p).record (pageIsland p) 0x022 [p, off, width, initCode who] :=
  ⟨up, _, mgt, regAddr mgt 2 258, 2, 258, 4, true, by decide +kernel, by decide +kernel, by decide +kernel, by decide +kernel, rfl⟩

theorem witness_RegisterAccessesComplete_9 : ∃ (s : State) (nmd0 nmd1 p first n : Nat), s.dst ≠ 0 ∧ miSpan nmd0 nmd1 = some (p, first, n) :=
  ⟨up, 0x4002, 2, 2, 64, 2, by decide +kernel, by decide +kernel⟩

theorem witness_RegisterAccessesComplete_10 : ∃ (s : State) (nmd0 nmd1 : Nat), s.dst ≠ 0 ∧ miSpan nmd0 nmd1 = none :=
  ⟨up, 0x4002, 0, by decide +kernel, by decide +kernel⟩

theorem witness_RegisterAccessesComplete_11 : ∃ (s : State) (nmd0 nmd1 p first n : Nat) (data : List Nat), s.dst ≠ 0 ∧ miSpan nmd0 nmd1 = some (p, first, n) ∧ data.length = n :=
  ⟨up, 0x6002, 1, 2, 96, 1, [7], by decide +kernel, by decide +kernel, by decide +kernel⟩

theorem witness_RegisterAccessesComplete_12 : ∃ (s : State) (nmd0 nmd1 : Nat) (data : List Nat), s.dst ≠ 0 ∧ ((miSpan nmd0 nmd1).all (fun e => decide (data.length ≠ e.2.2)) = true) :=
  ⟨up, 0x6002, 1, [7, 8], by decide +kernel, by decide +kernel⟩

theorem witness_RegisterAccessesComplete_13 : ∃ (s : State) (opcode : Nat), s.dst ≠ 0 ∧ opcode ≠ 0xC0 ∧ opcode ≠ 0xC1 ∧ s.dev.mgmtUp = true :=
  ⟨up.mDev (fun d => { d with mgmtUp := true }), 1, by decide +kernel, by decide +kernel, by decide +kernel, by decide +kernel⟩

theorem witness_CommonRegistersComplete_1 : ∃ (s u : State) (who : Initiator) (page : Nat), Opens s who page 0x008 u ∧ mayTouch who page R.COMMON.PAGE_CTRL_SOFT_CLEAR = true :=
  ⟨up, _, mgt, 2, ⟨by decide +kernel, by decide +kernel, by decide +kernel, by decide +kernel, rfl, by decide +kernel⟩, by decide +kernel⟩

theorem witness_CommonRegistersComplete_2 : ∃ (s u : State) (who : Initiator) (page mask : Nat), Opens s who page 0x018 u ∧ mayTouch who page R.COMMON.EVT_PEND_PEND = true :=
  ⟨up, _, mgt, 2, 3, ⟨by decide +kernel, by decide +kernel, by decide +kernel, by decide +kernel, rfl, by decide +kernel⟩, by decide +kernel⟩

theorem witness_CommonRegistersComplete_3 : ∃ (s u : State) (who : Initiator) (page mask : Nat), Opens s who page 0x01C u ∧ mayTouch who page R.COMMON.EVT_FORCE_FORCE = true ∧ mask % 256 ≠ 0 :=
  ⟨up, _, mgt, 2, 3, ⟨by decide +kernel, by decide +kernel, by decide +kernel, by decide +kernel, rfl, by decide +kernel⟩, by decide +kernel, by decide +kernel⟩

theorem witness_CommonRegistersComplete_4 : ∃ (s u : State) (who : Initiator) (page : Nat), Opens s who page 0x02C u ∧ page ≠ 0x0A ∧ u.rd R.COMMON.PAGE_LOCK_LOCK page ≠ 1 ∧ mayLock who page = true :=
  ⟨up, _, .bootRom, 2, ⟨by decide +kernel, by decide +kernel, by decide +kernel, by decide +kernel, rfl, by decide +kernel⟩, by decide +kernel, by decide +kernel, by decide +kernel⟩

theorem witness_CommonRegistersComplete_5 : ∃ (s u : State) (who : Initiator) (page event : Nat), Opens s who page 0x040 u ∧ mayTouch who page R.COMMON.CNT_SEL_EVENT = true :=
  ⟨up, _, mgt, 2, 3, ⟨by decide +kernel, by decide +kernel, by decide +kernel, by decide +kernel, rfl, by decide +kernel⟩, by decide +kernel⟩

theorem witness_CommonRegistersComplete_6 : ∃ (s u : State) (who : Initiator) (page d : Nat) (vote : Bool), Opens s who page 0x008 u ∧ d = islandDomain (pageIsland page) ∧ d ≠ 0 ∧ bit (u.rd (voteField who)) d ≠ vote ∧ mayTouch who page R.COMMON.PAGE_CTRL_VOTE = true :=
  ⟨up, _, mgt, 0x13, 2, true, ⟨by decide +kernel, by decide +kernel, by decide +kernel, by decide +kernel, rfl, by decide +kernel⟩, by decide +kernel, by decide +kernel, by decide +kernel, by decide +kernel⟩

theorem witness_TestAndTracePortsComplete_1 : ∃ (s : State) (cells : List Nat), s.dst ≠ 0 ∧ s.dev.boardTest = true :=
  ⟨up.mDev (fun d => { d with boardTest := true }), [1], by decide +kernel, by decide +kernel⟩

theorem witness_TestAndTracePortsComplete_2 : ∃ (s : State) (cells : List Nat), s.dst ≠ 0 ∧ s.dev.boardTest = false :=
  ⟨up, [1], by decide +kernel, by decide +kernel⟩

theorem witness_TestAndTracePortsComplete_3 : ∃ (s : State) (captured preload : List Nat), s.dst ≠ 0 ∧ s.dev.boardTest = true :=
  ⟨up.mDev (fun d => { d with boardTest := true }), [1], [2], by decide +kernel, by decide +kernel⟩

theorem witness_TestAndTracePortsComplete_4 : ∃ (s : State) (captured preload : List Nat), s.dst ≠ 0 ∧ s.dev.boardTest = false :=
  ⟨up, [1], [2], by decide +kernel, by decide +kernel⟩

theorem witness_TestAndTracePortsComplete_5 : ∃ (s : State), s.dst ≠ 0 :=
  ⟨up, by decide +kernel⟩

theorem witness_TestAndTracePortsComplete_6 : ∃ (s : State) (code : Nat), s.dst ≠ 0 :=
  ⟨up, 255, by decide +kernel⟩

theorem witness_TestAndTracePortsComplete_7 : ∃ (s u : State) (value : Nat), s.dst ≠ 0 ∧ bit (value % 2 ^ 20) 0 = false ∧ (u = s.mJtag fun j => { j with ir := 0x20, shift := value % 2 ^ 32, driven := [] }) :=
  ⟨up, _, 2, by decide +kernel, by decide +kernel, rfl⟩

theorem witness_TestAndTracePortsComplete_8 : ∃ (s u : State) (value : Nat), s.dst ≠ 0 ∧ bit (value % 2 ^ 20) 0 = true ∧ (u = s.mJtag fun j => { j with ir := 0x20, shift := value % 2 ^ 32, driven := [] }) :=
  ⟨up, _, 3, by decide +kernel, by decide +kernel, rfl⟩

theorem witness_TestAndTracePortsComplete_9 : ∃ (s : State), s.dst ≠ 0 :=
  ⟨up, by decide +kernel⟩

theorem witness_TestAndTracePortsComplete_10 : ∃ (s : State), s.dst ≠ 0 :=
  ⟨up, by decide +kernel⟩

theorem witness_TestAndTracePortsComplete_11 : ∃ (s : State), s.dst ≠ 0 ∧ bit s.jtag.ktrCfg 0 = true :=
  ⟨up.mJtag fun j => { j with ktrCfg := 1 }, by decide +kernel, by decide +kernel⟩

theorem witness_TrstResetsOnlyTheTestAccessPort_1 : ∃ (s : State), s.dst ≠ 0 :=
  ⟨up, by decide +kernel⟩

theorem witness_TrstResetsOnlyTheTestAccessPort_2 : ∃ (s : State), s.dst = 0 :=
  ⟨inState 0, by decide +kernel⟩

theorem witness_OnlyItsOwnerWritesAVote : (∃ (s : State) (who : Initiator) (domains : Nat), s.armed = []) :=
  ⟨up, pol, 32, by decide⟩

theorem witness_AFailedWakeIsALostCrossing_1 : (∃ (s : State) (src dst : Nat), crossing src dst = true ∧ s.isl.gated.contains dst = true) :=
  ⟨up.mIsl (fun x => { x with gated := [21] }), 2, 21, by decide, by decide⟩

theorem witness_AFailedWakeIsALostCrossing_2 : (∃ (s : State) (src dst : Nat), crossing src dst = true ∧ s.islandOn src = true ∧ s.islandOn dst = true) :=
  ⟨up, 2, 21, by decide, by decide +kernel, by decide +kernel⟩

theorem witness_AWriteIntoAnUnpoweredDomainIsDropped : (∃ (s : State) (who : Initiator) (a b : Nat) (x y : Bool) (e : Instr × Field), CrossingWrite who a b x y e ∧ s.answers (pageOf e.2 0) = false) :=
  ⟨up.wr R.POWER.DOM_STAT_ON 1, pol, 0, 0, false, false, (.admTake pol, R.ADMQ.ADM_TAKE_TAKE), by decide, by decide +kernel⟩

theorem witness_AWriteWithoutTheRightIsCountedOnly_1 : (∃ (s : State) (who : Initiator) (a b : Nat) (x y : Bool) (e : Instr × Field), CrossingWrite who a b x y e ∧ s.answers (pageOf e.2 0) = true ∧ mayWrite e.2 who = false) :=
  ⟨up, mgt, 0, 0, false, false, (.admTake mgt, R.ADMQ.ADM_TAKE_TAKE), by decide, by decide +kernel, by decide⟩

theorem witness_AWriteWithoutTheRightIsCountedOnly_2 : (∃ (who : Initiator) (a b : Nat) (x : Bool) (e : Instr × Field), WatchWrite who a b x e ∧ mayWrite e.2 who = false) :=
  ⟨pol, 0, 0, false, (.ownerLockWrite pol false, R.GATE.OWNER_LOCK), by decide, by decide⟩

theorem witness_AnOffDeviceDoesNothing : (∃ (s : State) (a b : Nat) (l : List Nat) (c : Instr), s.dst = 0 ∧ s.core.inReset = true ∧ s.dev.railStage = 0 ∧ OffIdle a b l c) :=
  ⟨inState 0, 0, 0, [], .idcode, by decide +kernel, by decide, by decide, by decide⟩

end Sys2Proof.Tests
end

/-! ## Counters (R12, R594, R597, R598)

Adding to a counter writes its field once and then raises common events. Those events stand in the first
0x100 bytes of a page, so a counter above them keeps the value it was given. -/

section
namespace Sys2Proof.Proofs

open Sys2Proof Sys2Proof.Machine Sys2Proof.Laws

/-! ### Places of the register store -/

/-- Two entries share a place of the register store only where page, offset, lowest bit and bank entry agree. -/
theorem key_eq_iff {f g : Field} {i j b d : Nat} (hf : f.off < 0x1000) (hg : g.off < 0x1000) (hfl : f.lo < 32)
    (hgl : g.lo < 32) (hb : b < 0x10000) (hd : d < 0x10000) :
    f.key i b = g.key j d ↔ (f.page + i, f.off, f.lo, b) = (g.page + j, g.off, g.lo, d) := by
  simp only [Field.key, Prod.mk.injEq]
  constructor
  · intro h
    omega
  · rintro ⟨hp, ho, hl, he⟩
    rw [hp, ho, hl, he]

/-- Entry `b` of field `f` lies in a page above the common registers, which fill its first 0x100 bytes (R597). -/
structure AboveCommon (f : Field) (b : Nat) : Prop where
  low : 0x100 ≤ f.off
  high : f.off < 0x1000
  bit : f.lo < 32
  entry : b < 0x10000

/-- `g` is one of the common registers of a page. -/
structure IsCommon (g : Field) : Prop where
  off : g.off < 0x100
  bit : g.lo < 32

theorem isCommon_events : IsCommon R.COMMON.EVT_RAW_EVENTS := ⟨by decide, by decide⟩

theorem isCommon_count : IsCommon R.COMMON.CNT_VAL_COUNT := ⟨by decide, by decide⟩

theorem common_key_ne {f g : Field} {b : Nat} (hg : IsCommon g) (hf : AboveCommon f b) (p i : Nat) :
    g.key p 0 ≠ f.key i b := by
  have hoff : g.off < f.off := Nat.lt_of_lt_of_le hg.off hf.low
  intro h
  rw [key_eq_iff (hoff.trans hf.high) hf.high hg.bit hf.bit (by decide) hf.entry, Prod.mk.injEq, Prod.mk.injEq] at h
  obtain ⟨-, ho, -⟩ := h
  exact hoff.ne ho

/-! ### States that differ in common registers alone -/

/-- `t` is `s` but for values of common registers. -/
structure SameAboveCommon (s t : State) : Prop where
  sorted : Tbl.sorted t.regs = true
  rest : t = { s with regs := t.regs }
  rd : ∀ {f : Field} {b : Nat}, AboveCommon f b → ∀ i, t.rd f i b = s.rd f i b

theorem SameAboveCommon.refl {s : State} (h : Tbl.sorted s.regs = true) : SameAboveCommon s s :=
  ⟨h, rfl, fun _ _ => rfl⟩

theorem SameAboveCommon.wr {s t : State} (h : SameAboveCommon s t) {g : Field} (hg : IsCommon g) (v p : Nat) :
    SameAboveCommon s (t.wr g v p) where
  sorted := sorted_wr t g v p 0 h.sorted
  rest := congrArg (fun u : State => { u with regs := (t.wr g v p).regs }) h.rest
  rd hf i := (rd_wr_ne t g _ v p 0 i _ h.sorted (common_key_ne hg hf p i)).trans (h.rd hf i)

theorem SameAboveCommon.ite {s t u : State} {c : Prop} [Decidable c] (ht : SameAboveCommon s t)
    (hu : SameAboveCommon s u) : SameAboveCommon s (if c then t else u) := by
  split
  · exact ht
  · exact hu

/-- A common event touches its page's EVT_RAW and CNT_VAL (R597, R598), which are common registers. -/
theorem SameAboveCommon.raise {s t : State} (h : SameAboveCommon s t) (p e : Nat) :
    SameAboveCommon s (t.raise p e) :=
  have hev := h.wr isCommon_events (setBit (t.rd R.COMMON.EVT_RAW_EVENTS p) e) p
  (hev.wr isCommon_count _ p).ite hev

/-! ### What a counter holds after an addition -/

/-- What hardware loads into counter `f` when it has come to `v`: its highest value at most where it saturates. -/
def counterLoad (f : Field) (v : Nat) : Nat := if f.sat then min v (2 ^ f.width - 1) else v

/-- A field truncates what its counter loads: to the sum held at its highest value, or modulo its width. -/
theorem counterLoad_mod (f : Field) (v : Nat) :
    counterLoad f v % 2 ^ f.width = if f.sat then min v (2 ^ f.width - 1) else v % 2 ^ f.width := by
  have hpos : 0 < 2 ^ f.width := Nat.two_pow_pos f.width
  unfold counterLoad
  split
  · exact Nat.mod_eq_of_lt (by omega)
  · rfl

@[simp] theorem count_zero (s : State) (f : Field) (i b : Nat) : s.count f i b 0 = s := rfl

/-- An addition is one write of the counter, followed by changes of common registers alone. -/
theorem count_sameAboveCommon {s : State} {n : Nat} (f : Field) (i b : Nat) (h : Tbl.sorted s.regs = true)
    (hn : n ≠ 0) :
    SameAboveCommon (s.wr f (counterLoad f (s.rd f i b + n)) i b) (s.count f i b n) := by
  have hw : (if f.sat then s.wr f (min (s.rd f i b + n) (2 ^ f.width - 1)) i b else s.wr f (s.rd f i b + n) i b)
      = s.wr f (counterLoad f (s.rd f i b + n)) i b := by
    unfold counterLoad
    split <;> rfl
  simp only [State.count, if_neg hn, hw]
  have h₀ := SameAboveCommon.refl (sorted_wr s f (counterLoad f (s.rd f i b + n)) i b h)
  have h₁ := (h₀.raise (pageOf f i) 1).ite (c := f.cls = 1) ((h₀.raise (pageOf f i) 2).ite (c := f.cls = 2) h₀)
  exact (h₁.raise (pageOf f i) 6).ite h₁

theorem rd_count {s : State} {f : Field} {b n : Nat} (i : Nat) (h : Tbl.sorted s.regs = true) (hf : AboveCommon f b)
    (hn : n ≠ 0) :
    (s.count f i b n).rd f i b =
      if f.sat then min (s.rd f i b + n) (2 ^ f.width - 1) else (s.rd f i b + n) % 2 ^ f.width := by
  rw [(count_sameAboveCommon f i b h hn).rd hf i, rd_wr _ _ _ _ _ h, counterLoad_mod]

theorem count_rest {s : State} {n : Nat} (f : Field) (i b : Nat) (h : Tbl.sorted s.regs = true) (hn : n ≠ 0) :
    s.count f i b n = { s with regs := (s.count f i b n).regs } :=
  (count_sameAboveCommon f i b h hn).rest

/-- Settles O14: an addition of 0 changes nothing, and any other is one write and common events. -/
theorem countersSaturateOrWrap : Obligations.CountersSaturateOrWrap := by
  unfold Obligations.CountersSaturateOrWrap
  intro s f i b n hs hlow hhigh hbit hb hv
  by_cases hn : n = 0
  · subst hn
    refine ⟨?_, rfl⟩
    rw [count_zero, Nat.add_zero, Nat.mod_eq_of_lt hv, min_eq_left (Nat.le_sub_one_of_lt hv), ite_self]
  · exact ⟨rd_count i hs ⟨hlow, hhigh, hbit, hb⟩ hn, count_rest f i b hs hn⟩

end Sys2Proof.Proofs
end

/-! ## The timing promise (R49 to R97)

The pitch commands of firmware, host reads and deadlines, the operations of a die, and the admission of I/O commands. -/

section
namespace Sys2Proof.Proofs

open Sys2Proof Sys2Proof.Machine Sys2Proof.Laws Sys2Proof.Safety

/-! ### Injection points and register accesses -/

/-- With nothing armed an evaluation fires nothing and changes nothing (R568). -/
theorem fire_of_disarmed {s : State} (h : s.armed = []) (p point : Nat) (sel : Nat → Nat → Bool) :
    s.fire p point sel = (false, s) := by
  simp [State.fire, h]

theorem stallFire_of_disarmed {s : State} (h : s.armed = []) (ch die point param : Nat) :
    s.stallFire ch die point param = (false, s) :=
  fire_of_disarmed h _ _ _

/-- A permitted access takes its effect in the state after the crossing. -/
theorem access_of_reaches {s u : State} {who : Initiator} {f : Field} {i : Nat} (h : Reaches s who f i u) (off : Nat)
    (write : Bool) (g : State → State) : s.access who (pageOf f i) off write g = g u := by
  obtain ⟨hon, -, rfl⟩ := h
  exact if_pos hon

theorem mayWrite_of_reaches {s u : State} {who : Initiator} {f : Field} {i : Nat} (h : Reaches s who f i u) :
    mayWrite f who = true := by
  obtain ⟨-, hmay, -⟩ := h
  exact hmay

/-! ### The pitch service of firmware -/

/-- A PITCH_CMD of firmware that finds the service free takes its effect (R95). -/
theorem pitchCmd_of_reaches {s u : State} {who : Initiator} (h : Reaches s who R.INTAKE.PITCH_CMD_OP 0 u)
    (hbusy : u.rd R.INTAKE.PITCH_CMD_BUSY = 0) (g : State → State) : pitchCmd who s g = g u := by
  rw [pitchCmd, access_of_reaches h]
  simp [mayWrite_of_reaches h, hbusy]

/-- RENT rents where the check returns code 0, and otherwise shows the code and the resource that failed (R94). -/
theorem pitchCmdRent_of_reaches {s u : State} {who : Initiator} (h : Reaches s who R.INTAKE.PITCH_CMD_OP 0 u)
    (hbusy : u.rd R.INTAKE.PITCH_CMD_BUSY = 0) :
    exec (.pitchCmdRent who) s = .next
      (if (u.rentCheck u.window (some (u.rd R.INTAKE.PITCH_SEL_PITCH)) true).1 = 0 then
        (u.rentAt (u.rd R.INTAKE.PITCH_SEL_PITCH) 1 0 u.window).pitchResult 0 0
      else u.pitchResult (u.rentCheck u.window (some (u.rd R.INTAKE.PITCH_SEL_PITCH)) true).1
        (u.rentCheck u.window (some (u.rd R.INTAKE.PITCH_SEL_PITCH)) true).2) := by
  rw [exec_pitchCmdRent, execPitchCmdRent, pitchCmd_of_reaches h hbusy]
  dsimp only
  obtain ⟨_ | k, r⟩ := u.rentCheck u.window (some (u.rd R.INTAKE.PITCH_SEL_PITCH)) true
  · rfl
  · rfl

/-- Settles O26: each command reaches the pitch service, finds it free, and takes the branch its hypotheses name. -/
theorem firmwarePitchCommandsComplete : Obligations.FirmwarePitchCommandsComplete := by
  unfold Obligations.FirmwarePitchCommandsComplete
  refine ⟨?rent, ?rentFails, ?returned, ?load, ?test, ?bind, ?refill⟩
  case rent =>
    intro s u who hu hbusy hcheck
    rw [pitchCmdRent_of_reaches hu hbusy, if_pos hcheck]
  case rentFails =>
    intro s u who hu hbusy hcheck
    rw [pitchCmdRent_of_reaches hu hbusy, if_neg hcheck]
  case returned =>
    intro s u who hu hbusy hstate howner
    rw [exec_pitchCmdReturn, execPitchCmdReturn, pitchCmd_of_reaches hu hbusy]
    simp only [hstate, howner, ne_eq, not_true_eq_false, or_self, if_false]
  case load =>
    intro s u who k hu hbusy hk
    rw [exec_pitchCmdLoad, execPitchCmdLoad, pitchCmd_of_reaches hu hbusy, hk]
  case test =>
    intro s u who hu hbusy
    rw [exec_pitchCmdTest, execPitchCmdTest, pitchCmd_of_reaches hu hbusy]
  case bind =>
    intro s u who value port hu hport hqueue hfree hnamed
    subst hport
    rw [exec_qbCfgWrite, execQbCfgWrite, access_of_reaches hu]
    have hnamed' : ¬(bit value 10 = true ∧
        ((u.pitch (bits value 0 10)).state ≠ 1 ∨ (u.pitch (bits value 0 10)).owner ≠ 1)) := by
      rintro ⟨hb, hp⟩
      obtain ⟨hstate, howner⟩ := hnamed hb
      exact hp.elim (absurd hstate) (absurd howner)
    simp [mayWrite_of_reaches hu, hfree, Option.isSome_iff_ne_none.mp hqueue, hnamed']
  case refill =>
    rintro s u v rfl rfl
    rfl

/-! ### Host reads and deadlines -/

/-- Settles O23: each command finds the read or the command it names, and nothing armed fails it. -/
theorem hostReadsAndDeadlinesComplete : Obligations.HostReadsAndDeadlinesComplete := by
  unfold Obligations.HostReadsAndDeadlinesComplete
  refine ⟨?completion, ?timeout, ?residency, ?deadline⟩
  case completion =>
    intro s port tag n ok e harmed htag hcmd
    simp only [exec_hostReadCompletion, execHostReadCompletion, htag, fire_of_disarmed harmed, hcmd]
    cases ok with
    | true => rfl
    | false => rfl
  case timeout =>
    intro s port tag n e htag hcmd
    simp only [exec_completionTimeout, execCompletionTimeout, htag, hcmd]
  case residency =>
    rintro s u v port sqid cid sector data e rfl hcmd hkind hstage hstarted hsector harrived hlast rfl
    simp only [exec_writeDataResidency, execWriteDataResidency, hcmd]
    rw [if_pos ⟨hkind, hstage, hstarted, hsector, harrived⟩, if_neg (fun h => hlast h.1)]
  case deadline =>
    rintro s u v port sqid cid e hcmd hstage hfirst hclimb rfl rfl
    have hgo : ¬(e.stage ≠ .accepted ∨ s.isDataFirst e = true
        ∨ (s.st.reads.filter fun r => decide (r.src = .cmd e.uid) && decide (0 < r.step)) = []) := by
      rintro (h | h | h)
      · exact h hstage
      · exact absurd (hfirst.symm.trans h) Bool.false_ne_true
      · exact hclimb h
    rw [State.cmdOn] at hcmd
    rw [exec_deadlineFirstExpiry, execDeadlineFirstExpiry, hcmd]
    exact congrArg Host.Outcome.next (if_neg hgo)

/-! ### Stalls -/

/-- A change of a die depends on what it makes of that die alone. -/
theorem mDie_congr {s : State} {k : Nat} {g g' : Die → Die} (h : g (s.die k) = g' (s.die k)) :
    s.mDie k g = s.mDie k g' := by
  unfold State.mDie State.mSt
  unfold State.die at h
  dsimp only
  rw [h]

/-- A die that begins to sense `r` out of state `back` (R78, R293). -/
def senseDie (back : Nat) (r : MRead) (d : Die) : Die :=
  { d with
    back := back, state := 2, senses := d.senses + 1, lastUrgent := decide (r.cls = 0)
    lastAged := if r.cls = 0 then d.lastAged else decide (r.cls = 2) && decide (4 ≤ r.passed) }

/-- With nothing armed a status answer of a die in service is the die's own (R291, R571). -/
theorem statusPoll_of_disarmed {s : State} {ch die status : Nat} (hon : s.dieOn ch die = true) (hstatus : status ≠ 0)
    (harmed : s.armed = []) : exec (.statusPoll ch die status) s = .next (s.pollReal ch die status) := by
  simp [execStatusPoll, hon, hstatus, stallFire_of_disarmed harmed]

/-- Good status ends the program a die runs (R243, R295). -/
theorem pollReal_program_good {s : State} {ch die : Nat} (h : (s.die (ch * 16 + die)).state = 4) :
    s.pollReal ch die 1 = ((s.mDie (ch * 16 + die) fun d => { d with oddStatus := 0 }).mDie (ch * 16 + die)
      fun d => { d with opTimeouts := 0 }).programOver (ch * 16 + die) true true := by
  simp [State.pollReal, h]

/-- Settles O33: each command finds its die, its channel or its read ready, and nothing armed changes the answer. -/
theorem stallOperationsComplete : Obligations.StallOperationsComplete := by
  unfold Obligations.StallOperationsComplete
  refine ⟨?sense, ?sendRead, ?sendLoad, ?status, ?programGood, ?programSuspend, ?eraseSuspend, ?abandon, ?erase, ?close⟩
  case sense =>
    rintro s u v w ch die r - rfl hon hidle hsenses hpick hv rfl hback
    have hstart : v.mDie (ch * 16 + die) (fun d => senseDie d.state r d) = v.mDie (ch * 16 + die) fun d => senseDie 1 r d :=
      mDie_congr (by rw [hback])
    simp only [senseDie] at hstart
    have hspent : ¬ 4 ≤ ((s.grantSlots (ch * 16 + die)).die (ch * 16 + die)).senses := by omega
    rw [← hstart, hv]
    simp [execSenseStart, hon, hidle, hspent, hpick]
  case sendRead =>
    intro s ch r aged harmed hstate hpick
    simp [execChannelBurst, hstate, hpick, stallFire_of_disarmed harmed]
  case sendLoad =>
    intro s ch k n aged hstate hpick hload
    simp [execChannelBurst, hstate, hpick, hload]
  case status =>
    intro s ch die status hon hstatus harmed
    exact statusPoll_of_disarmed hon hstatus harmed
  case programGood =>
    rintro s u ch die hon harmed hstate rfl -
    rw [statusPoll_of_disarmed hon one_ne_zero harmed, pollReal_program_good hstate]
  case programSuspend =>
    rintro s u ch die rfl hstate hsusp hmay hwait hrun
    simp only [exec_programSuspend, execProgramSuspend]
    rw [if_pos ⟨hstate, hsusp, hmay, hwait, hrun⟩]
  case eraseSuspend =>
    rintro s u ch die rfl hstate hsusp hmay hwait hrun
    simp only [exec_eraseSuspend, execEraseSuspend]
    rw [if_pos ⟨hstate, hsusp, hmay, hwait, hrun⟩]
  case abandon =>
    rintro s u v ch die rfl hstate hsusp hwait hrun rfl
    simp only [exec_loadAbandon, execLoadAbandon]
    rw [if_pos ⟨hstate, hsusp, hwait, hrun⟩]
  case erase =>
    rintro s u ch die b t rfl herase hon hstate hwait hqueued hheld
    simp [execEraseStart, herase, hon, hstate, hwait, hqueued, hheld]
  case close =>
    intro s ch die herase
    simp only [exec_erasePendingClose, execErasePendingClose]
    rw [if_pos herase]

/-! ### An admitted Write under a pitch of class 0 -/

/-- The I/O queue of the counterexample, which offers its one command. -/
def boundQueue : Sq := { port := 0, id := 1, size := 64, cq := 1, prio := 0, ring := [1] }

/-- A staged Write of one block. -/
def stagedWrite : Cmd :=
  { uid := 1, port := 0, sqid := 1, cid := 7, kind := .write, opcode := 1, nsid := 1, slba := 0, nlb := 1, flags := 0
    dw := [], ranges := [], payload := [] }

/-- A device in SERVICE with RECORD set, whose queue is bound to a RENTED write pitch of class 0 that can pay for the
staged Write. -/
def boundWrite : State :=
  let s := ((State.reset.wr R.DEVSTATE.DEV_STATE_STATE 4).wr R.POWER.DOM_STAT_ON 0x1FFFF).wr R.DEVSTATE.MODE_CUR_MODES 1
  let s := (s.wr R.INTAKE.QB_CFG_BOUND 1 0 (qb 0 1)).wr R.INTAKE.QB_CFG_PITCH 4 0 (qb 0 1)
  let s := (s.wr R.BELL.BELL_CAP_MIB 178).mPit fun x => { x with
    table := [(4, { state := 1, owner := 1, c := { cls := 0, dir := 1, maxSize := 8 }, ops := 65536, units := 65536 })] }
  let s := s.mHost fun h => { h with
    p0 := { perst := true, linkUp := true, en := true, rdy := true }
    sqs := [boundQueue]
    cmds := [stagedWrite], nextUid := 2 }
  let s := s.mCiph fun x => { x with media := [(0, { loaded := true, seq := 1, k1 := 1, k2 := 2 })] }
  s.mLed fun l => { l with ns := [(1, { st := 2, block := 4096, nsze := 1000, ius := 1000, attached := 1, grans := [0] })] }

/-- The Write as `Admits` accepts it: 8 sectors, due 8 µs after acceptance. -/
def acceptedWrite : Cmd := { stagedWrite with stage := .accepted, pitch := some 4, cls := 0, deadline := some 800, sectors := 8 }

/-- The state after the acceptance that `Admits` describes. -/
def acceptedState : State :=
  ((boundWrite.askLocks stagedWrite).accept stagedWrite (boundWrite.admission stagedWrite)).writePrefetch acceptedWrite

theorem admits_boundWrite :
    Admits boundWrite 0 1 7 .write boundQueue stagedWrite acceptedWrite (boundWrite.admission stagedWrite) acceptedState :=
  ⟨by decide +kernel, by decide +kernel, rfl, rfl, by decide, by decide +kernel, by decide +kernel, by decide +kernel, rfl,
    by decide +kernel, by decide +kernel, by decide +kernel, rfl, rfl⟩

/-- INTAKE notes that the requests of a command under a pitch of class 0 are kept ones (R152). -/
theorem keptReq_serveIo_boundWrite : (boundWrite.serveIo 0 1 7 .write).keptReq 1 = true := by decide +kernel

/-- What the statement says of the admitted Write does not note it. -/
theorem keptReq_askHostCrates_acceptedState :
    ((acceptedState.askHostCrates acceptedWrite (boundWrite.admission stagedWrite)
      ((acceptedState.ns acceptedWrite.nsid).iusOf acceptedWrite.slba acceptedWrite.nlb).length).startGranted).keptReq 1
      = false := by decide +kernel

/-- Refutes O22: a Write admitted under a RENTED pitch of class 0 is noted as one whose lock requests are kept ones
(R152), and the next state of the fourth clause, built on the state `Admits` describes, leaves that note out. -/
theorem not_ioCommandsComplete : ¬ Obligations.IoCommandsComplete := by
  unfold Obligations.IoCommandsComplete
  rintro ⟨-, -, -, hwrite, -⟩
  have hnext := hwrite _ _ _ _ _ _ _ _ _ admits_boundWrite
  rw [exec_write, execWrite, Host.Outcome.next.injEq] at hnext
  have hkept := keptReq_serveIo_boundWrite
  rw [hnext, keptReq_askHostCrates_acceptedState] at hkept
  exact absurd hkept (by decide)

end Sys2Proof.Proofs
end

/-! ## Modes and states (R119 to R136)

What the commands of one device state do in another, with the device that is OFF as the case of them all, and the ways
into and out of CLOSING and HALT. -/

section
namespace Sys2Proof.Proofs

open Sys2Proof Sys2Proof.Machine Sys2Proof.Laws Sys2Proof.Safety

/-! ### Commands outside the states they belong to -/

/-- A command whose guard turns it away leaves the state as it is (log entry 5). -/
theorem next_of_guard {g : Prop} [Decidable g] (s t : State) (h : g) :
    (Host.Outcome.next (if g then s else t) : Host.Outcome State Fault Refusal) = .next s :=
  congrArg _ (if_pos h)

/-- The commands of WAKE (R576 to R584). -/
abbrev WakeCommand (a b : Nat) (l : List Nat) (c : Instr) : Prop :=
  c ∈ [.strapSampleComplete l, .railStageValid a, .railEnableTimeout a, .bootSlotChoice, .ddr5TrainingComplete a b a,
   .wakeComplete, .wakeTimerExpiry]

theorem wakeDone_eq_false {s : State} (h : s.dst ≠ 1) : s.wakeDone = false := by
  simp [State.wakeDone, h]

theorem exec_of_wakeCommand {s : State} {a b : Nat} {l : List Nat} {c : Instr} (h : s.dst ≠ 1)
    (hc : WakeCommand a b l c) : exec c s = .next s := by
  simp only [WakeCommand, List.mem_cons, List.not_mem_nil, or_false] at hc
  rcases hc with rfl | rfl | rfl | rfl | rfl | rfl | rfl
  · exact next_of_guard s _ (.inl h)
  · exact next_of_guard s _ (.inl h)
  · exact next_of_guard s _ (.inl h)
  · exact next_of_guard s _ (.inl h)
  · exact next_of_guard s _ (.inl h)
  · exact next_of_guard s _ (wakeDone_eq_false h)
  · exact next_of_guard s _ (.inl h)

/-- The ends of SELF_TEST (R121, R122). -/
abbrev SelfTestCommand (a : Nat) (c : Instr) : Prop := c ∈ [.selfTestComplete a, .selfTestTimerExpiry]

theorem exec_of_selfTestCommand {s : State} {a : Nat} {c : Instr} (h : s.dst ≠ 2) (hc : SelfTestCommand a c) :
    exec c s = .next s := by
  simp only [SelfTestCommand, List.mem_cons, List.not_mem_nil, or_false] at hc
  rcases hc with rfl | rfl
  · exact next_of_guard s _ (.inl h)
  · exact next_of_guard s _ h

/-- The commands of REBUILD (R389 to R395). -/
abbrev RebuildCommand (a : Nat) (l : List Nat) (c : Instr) : Prop :=
  c ∈ [.rebuildPhaseComplete a l, .rebuildComplete, .rebuildTimerExpiry]

theorem exec_of_rebuildCommand {s : State} {a : Nat} {l : List Nat} {c : Instr} (h : s.dst ≠ 3)
    (hc : RebuildCommand a l c) : exec c s = .next s := by
  simp only [RebuildCommand, List.mem_cons, List.not_mem_nil, or_false] at hc
  rcases hc with rfl | rfl | rfl
  · exact next_of_guard s _ (.inl h)
  · exact next_of_guard s _ (.inl h)
  · exact next_of_guard s _ h

/-- The commands that end CLOSING (R379, R380). -/
abbrev ClosingCommand (c : Instr) : Prop := c ∈ [.closingBellComplete, .closingBellTimerExpiry]

theorem exec_of_closingCommand {s : State} {c : Instr} (h : s.dst ≠ 6) (hc : ClosingCommand c) :
    exec c s = .next s := by
  simp only [ClosingCommand, List.mem_cons, List.not_mem_nil, or_false] at hc
  rcases hc with rfl | rfl
  · exact next_of_guard s _ (.inl h)
  · exact next_of_guard s _ h

/-- The command by which HALT ends by itself (R125). -/
abbrev HaltCommand (c : Instr) : Prop := c ∈ [.restartDwellExpiry]

theorem exec_of_haltCommand {s : State} {c : Instr} (h : s.dst ≠ 7) (hc : HaltCommand c) : exec c s = .next s := by
  obtain rfl := List.mem_singleton.mp hc
  exact next_of_guard s _ (.inl h)

/-- The instructions of the test access port and the events of the trace port (R629 to R634). -/
abbrev TestPortCommand (a : Nat) (l : List Nat) (c : Instr) : Prop :=
  c ∈ [.extest l, .samplePreload l l, .idcode, .bypass a, .ktrCfg a, .ktrStat, .trstNAssert, .ktrTrigIn, .ktrSync]

/-- Without VDD_WATCH there is no access port to act on (R629). -/
theorem tap_of_off {s : State} (h : s.dst = 0) (g : JtagSt → JtagSt) : s.tap g = .next s :=
  next_of_guard s _ h

theorem exec_of_testPortCommand {s : State} {a : Nat} {l : List Nat} {c : Instr} (h : s.dst = 0)
    (hc : TestPortCommand a l c) : exec c s = .next s := by
  simp only [TestPortCommand, List.mem_cons, List.not_mem_nil, or_false] at hc
  rcases hc with rfl | rfl | rfl | rfl | rfl | rfl | rfl | rfl | rfl
  · exact tap_of_off h _
  · exact tap_of_off h _
  · exact tap_of_off h _
  · exact tap_of_off h _
  · exact next_of_guard s _ h
  · exact tap_of_off h _
  · exact tap_of_off h _
  · exact next_of_guard s _ h
  · exact next_of_guard s _ (.inl h)

/-- What the supply and the voltage regulators tell WATCH (R380, R621). -/
abbrev SupplyCommand (c : Instr) : Prop := c ∈ [.vddWatchLoss, .vrAlertN]

theorem exec_of_supplyCommand {s : State} {c : Instr} (h : s.dst = 0) (hc : SupplyCommand c) :
    exec c s = .next s := by
  simp only [SupplyCommand, List.mem_cons, List.not_mem_nil, or_false] at hc
  rcases hc with rfl | rfl
  · exact next_of_guard s _ h
  · exact next_of_guard s _ h

/-- What the NVMe-MI endpoint and code flash are asked for (R511 to R513, R606). -/
abbrev BusCommand (a b : Nat) (l : List Nat) (c : Instr) : Prop :=
  c ∈ [.miRegisterRead a b, .miRegisterWrite a b l, .miOtherCommand a, .codeFlashDataRead .bootRom a]

theorem exec_of_busCommand {s : State} {a b : Nat} {l : List Nat} {c : Instr} (h : s.dst = 0)
    (hc : BusCommand a b l c) : exec c s = .next s := by
  simp only [BusCommand, List.mem_cons, List.not_mem_nil, or_false] at hc
  rcases hc with rfl | rfl | rfl | rfl
  · exact next_of_guard s _ h
  · exact next_of_guard s _ h
  · exact next_of_guard s _ (.inl h)
  · exact next_of_guard s _ (.inl h)

/-- The power commands of a device in SERVICE or QUIESCE (R466, R479, R480). -/
abbrev PowerCommand (a : Nat) (c : Instr) : Prop :=
  c ∈ [.domainPowerOn a, .domainPowerOff a, .nonopEntry, .apstItptExpiry]

/-- Whether or not an entry to a non-operational state waits, it is made in SERVICE alone (R479). -/
theorem exec_nonopEntry_of_not_service {s : State} (h : s.dst ≠ 4) : exec .nonopEntry s = .next s := by
  rw [exec_nonopEntry, execNonopEntry]
  cases s.pwr.entering with
  | none => rfl
  | some w => exact next_of_guard s _ (.inl h)

theorem exec_of_powerCommand {s : State} {a : Nat} {c : Instr} (h4 : s.dst ≠ 4) (h5 : s.dst ≠ 5)
    (hc : PowerCommand a c) : exec c s = .next s := by
  simp only [PowerCommand, List.mem_cons, List.not_mem_nil, or_false] at hc
  rcases hc with rfl | rfl | rfl | rfl
  · exact next_of_guard s _ (.inr (.inr (.inl ⟨h4, h5⟩)))
  · exact next_of_guard s _ (.inr (.inr (.inr (.inr (.inr (.inl ⟨h4, h5⟩))))))
  · exact exec_nonopEntry_of_not_service h4
  · exact next_of_guard s _ h4

/-- The ends of an activation, which runs in QUIESCE (R531, R532). -/
abbrev ActivationCommand (c : Instr) : Prop := c ∈ [.actReady .bootRom, .activationAllowanceExpiry]

theorem exec_of_activationCommand {s : State} {c : Instr} (h : s.dst ≠ 5) (hc : ActivationCommand c) :
    exec c s = .next s := by
  simp only [ActivationCommand, List.mem_cons, List.not_mem_nil, or_false] at hc
  rcases hc with rfl | rfl
  · have hmay : mayWrite R.GATE.ACT_READY_READY .bootRom ≠ false := by decide
    rw [exec_actReady, execActReady, if_neg hmay]
    cases s.cf.commit with
    | none => rfl
    | some k => exact next_of_guard s _ (.inr (.inl h))
  · rw [exec_activationAllowanceExpiry, execActivationAllowanceExpiry]
    cases s.cf.commit with
    | none => rfl
    | some k => exact next_of_guard s _ (.inr h)

/-- The periodic work by which tables become durable (R323, R376, R387). -/
abbrev UpkeepCommand (c : Instr) : Prop := c ∈ [.rollingWalk, .recordsSave, .journalFlush, .scrubStateSave]

theorem exec_of_upkeepCommand {s : State} {c : Instr} (h3 : s.dst < 3) (hc : UpkeepCommand c) :
    exec c s = .next s := by
  simp only [UpkeepCommand, List.mem_cons, List.not_mem_nil, or_false] at hc
  rcases hc with rfl | rfl | rfl | rfl
  · exact next_of_guard s _ (.inl (by omega))
  · exact congrArg Host.Outcome.next (if_neg (by omega))
  · exact congrArg Host.Outcome.next (if_neg (by omega))
  · exact congrArg Host.Outcome.next (if_neg (by omega))

/-- The commands an OFF device is given are those of the states it is not in, and those that need WATCH. -/
theorem offIdle_iff (a b : Nat) (l : List Nat) (c : Instr) :
    OffIdle a b l c ↔ WakeCommand a b l c ∨ SelfTestCommand a c ∨ RebuildCommand a l c ∨ ClosingCommand c
      ∨ HaltCommand c ∨ SupplyCommand c ∨ TestPortCommand a l c ∨ BusCommand a b l c
      ∨ PowerCommand a c ∨ ActivationCommand c ∨ UpkeepCommand c := by
  simp only [WakeCommand, SelfTestCommand, RebuildCommand, ClosingCommand, HaltCommand, SupplyCommand, TestPortCommand,
    BusCommand, PowerCommand, ActivationCommand, UpkeepCommand, ← List.mem_append]
  rfl

/-- Settles O60: each command belongs to a state other than OFF or needs WATCH, and outside it passes. -/
theorem anOffDeviceDoesNothing : Obligations.AnOffDeviceDoesNothing := by
  unfold Obligations.AnOffDeviceDoesNothing
  intro s a b l c hoff _ _ hc
  have hnot : ∀ {n : Nat}, n ≠ 0 → s.dst ≠ n := fun hn h => hn (h.symm.trans hoff)
  rcases (offIdle_iff a b l c).mp hc with h | h | h | h | h | h | h | h | h | h | h
  · exact exec_of_wakeCommand (hnot (by decide)) h
  · exact exec_of_selfTestCommand (hnot (by decide)) h
  · exact exec_of_rebuildCommand (hnot (by decide)) h
  · exact exec_of_closingCommand (hnot (by decide)) h
  · exact exec_of_haltCommand (hnot (by decide)) h
  · exact exec_of_supplyCommand hoff h
  · exact exec_of_testPortCommand hoff h
  · exact exec_of_busCommand hoff h
  · exact exec_of_powerCommand (hnot (by decide)) (hnot (by decide)) h
  · exact exec_of_activationCommand (hnot (by decide)) h
  · exact exec_of_upkeepCommand (by omega) h

/-! ### CLOSING and HALT (R121, R125, R368 to R380) -/

/-- Settles O19: each event finds the device in the state its clause names, and takes that branch. -/
theorem closingAndHalt : Obligations.ClosingAndHalt := by
  unfold Obligations.ClosingAndHalt
  refine ⟨?comparator, ?pwrFail, ?holdupOk, ?holdupFail, ?durable, ?unitFail, ?complete, ?timer, ?orderly, ?restart,
    ?dwell⟩
  case comparator =>
    intro s harmed h1 h2
    simp [execPowerFailDetect, harmed, h1, h2]
  case pwrFail =>
    intro s
    simp [execPowerFailDetect]
  case holdupOk =>
    rintro s u hon hlow rfl
    simp [execHoldupThresholdCrossing, hon, hlow, b2n]
  case holdupFail =>
    rintro s u up hon hchange rfl
    simp [execHoldupThresholdCrossing, hon, hchange]
  case durable =>
    intro s unit n hn
    simp only [exec_bellUnitDurable, execBellUnitDurable, hn]
  case unitFail =>
    rintro s u v unit n hn hfails rfl rfl
    have hagain : n.fails ≠ 0 := by omega
    cases hblock : (s.count R.BELL.BELL_FAIL_PROG).bellBlock n.die <;>
      simp only [exec_bellUnitFail, execBellUnitFail, hn, hblock, if_neg hagain]
  case complete =>
    rintro s u hclosing hdone rfl
    simp [execClosingBellComplete, hclosing, hdone]
  case timer =>
    rintro s u hclosing rfl
    simp [execClosingBellTimerExpiry, hclosing]
  case orderly =>
    intro s who hmay hserving
    simp [execHaltCtrlOrderly, hmay, hserving]
  case restart =>
    intro s who hmay hhalt
    simp [execHaltCtrlRestart, hmay, hhalt]
  case dwell =>
    intro s hhalt hmay hfew
    simp [execRestartDwellExpiry, hhalt, hmay, hfew]

end Sys2Proof.Proofs
end

/-! ## Command intake (R137 to R171)

Who executes an admin command and what it then does, and the resets of a port and of its controller. -/

section
namespace Sys2Proof.Proofs

open Sys2Proof Sys2Proof.Machine Sys2Proof.Laws Sys2Proof.Safety

/-! ### Who executes an admin command (R138, R498) -/

/-- A staged admin command of the opcode its row executes takes its effect. -/
theorem admin_of_hasAdmin {s : State} {port cid opcode : Nat} {e : Cmd} (h : HasAdmin s port cid opcode e)
    (f : Cmd → State → State) : s.admin port cid opcode f = f e s := by
  obtain ⟨hcmd, hop, hstaged⟩ := h
  simp only [State.admin, hcmd]
  exact if_pos ⟨hop, hstaged⟩

/-- A command that firmware executes takes its effect as handed over, in the state after that. -/
theorem firm_of_firmRuns {s u : State} {port cid opcode : Nat} {e d : Cmd} (h : FirmRuns s port cid opcode e d u)
    (f : Cmd → State → State) : s.firm port cid opcode f = f d u := by
  obtain ⟨hcmd, hop, hservice, hfirm, rfl, hd, hup⟩ := h
  have hruns : ¬(e.opcode ≠ opcode ∨ s.dst ≠ 4 ∨ e.hardware = true) := by simp [hop, hservice, hfirm]
  simp only [State.firm, hcmd]
  rw [if_neg hruns]
  simp only [hd]
  exact if_pos hup

/-- A Set or Get Features row executes the commands of its own feature. -/
theorem forFeature_of_fid {fid : Nat} {c : Cmd} (h : bits (c.cdw 10) 0 8 = fid) (f : Cmd → State → State)
    (s : State) : forFeature fid f c s = f c s :=
  if_pos h

/-! ### What several rows share -/

/-- Get Log Page returns what a supported page holds from the offset on; with RAE set it leaves the events masked. -/
theorem getLog_of_logPage {s : State} {c : Cmd} {len off n : Nat} {pg : Nat → Nat}
    (hoff : off = c.cdw 12 + c.cdw 13 * 2 ^ 32)
    (hn : n = (bits (c.cdw 10) 16 16 + bits (c.cdw 11) 0 16 * 0x10000 + 1) * 4)
    (hpage : s.logPage (bits (c.cdw 10) 0 8) s.free = some (len, pg)) (hlen : off ≤ len) (halign : off % 4 = 0)
    (hexport : bits (c.cdw 10) 0 8 = 0xC4 → off % 64 = 0) (hrae : bit (c.cdw 10) 15 = true) :
    getLog c s = s.fresh.2.reply c 0 0 false 0 [pageSlice pg off (min n (len - off))] := by
  subst hoff hn
  have hok : ¬(len < c.cdw 12 + c.cdw 13 * 2 ^ 32 ∨ (c.cdw 12 + c.cdw 13 * 2 ^ 32) % 4 ≠ 0
      ∨ (bits (c.cdw 10) 0 8 = 0xC4 ∧ (c.cdw 12 + c.cdw 13 * 2 ^ 32) % 64 ≠ 0)) := by
    rintro (hlt | hmod | ⟨hlid, hmod⟩)
    · exact hlt.not_ge hlen
    · exact hmod halign
    · exact hmod (hexport hlid)
  simp only [getLog, State.fresh, hpage]
  rw [if_neg hok, if_pos hrae]

/-- In SERVICE a Mode Control that names no reserved bit is accepted and asks for its change (R130). -/
theorem setModes_of_service {s : State} {c : Cmd} (hsave : bit (c.cdw 10) 31 = false)
    (hbits : Nat.land (Nat.lor (bits (c.cdw 11) 0 8) (bits (c.cdw 11) 8 8)) 0xEC = 0) (hservice : s.dst = 4) :
    setModes c s = ((s.unstage c).mCmd c.uid fun d => { d with stage := .accepted, acceptedAt := s.mono }).askMode .host
      (bits (c.cdw 11) 0 8) (bits (c.cdw 11) 8 8) c.uid := by
  have hnamed : ¬(Nat.land (Nat.lor (bits (c.cdw 11) 0 8) (bits (c.cdw 11) 8 8)) 0xEC ≠ 0) := not_not.mpr hbits
  simp only [setModes, hsave, Bool.false_eq_true, if_false]
  rw [if_neg hnamed, if_pos hservice]

/-- Hardware executes Set and Get Features of Mode Control itself. -/
theorem hardware_of_modeControl {c : Cmd} (hop : c.opcode = 0x09 ∨ c.opcode = 0x0A)
    (hfid : bits (c.cdw 10) 0 8 = 0xC0) : c.hardware = true := by
  rcases hop with hop | hop
  · simp [Cmd.hardware, hop, hfid]
  · simp [Cmd.hardware, hop, hfid]

/-- A Pitch Bind binds a queue that exists where it names no pitch, or one it may be bound to (R64, R93). -/
theorem bindCmd_of_mayBind {s : State} {c : Cmd} (hq : bits (c.cdw 10) 0 16 ≠ 0)
    (hsq : (s.sqOf c.port (bits (c.cdw 10) 0 16)).isSome = true)
    (hpitch : bit (c.cdw 11) 10 = true →
      (s.pitch (bits (c.cdw 11) 0 10)).state = 1 ∧ (s.pitch (bits (c.cdw 11) 0 10)).owner = 0 ∧ s.split = false) :
    bindCmd c s = (s.bindQueue (qb c.port (bits (c.cdw 10) 0 16)) (c.cdw 11)).complete c 0 0 := by
  have hfound : ¬(bits (c.cdw 10) 0 16 = 0 ∨ (s.sqOf c.port (bits (c.cdw 10) 0 16)).isNone = true) := by
    simp [hq, Option.isSome_iff_ne_none.mp hsq]
  have hmay : ¬(bit (c.cdw 11) 10 = true ∧ ((s.pitch (bits (c.cdw 11) 0 10)).state ≠ 1
      ∨ (s.pitch (bits (c.cdw 11) 0 10)).owner ≠ 0
      ∨ (s.split = true ∧ (s.pitch (bits (c.cdw 11) 0 10)).port ≠ c.port))) := by
    rintro ⟨hbound, hbad⟩
    obtain ⟨hstate, howner, hsplit⟩ := hpitch hbound
    simp [hstate, howner, hsplit] at hbad
  rw [bindCmd, if_neg hfound, if_neg hmay]

/-- A Sanitize action starts where its entry condition holds, no owner lock stands and none is in force (R131, R133). -/
theorem sanitizeCmd_of_ready {s : State} {c : Cmd} {act : Nat} (kind : Nat) (hact : act = 2 ∨ act = 4)
    (ha : bits (c.cdw 10) 0 3 = act) (howner : s.rd R.DEVSTATE.RO_CAUSE_OWNER = 0) (h1 : s.nv.sanitize ≠ 1)
    (h2 : s.nv.sanitize ≠ 2) (hready : s.sanitizeReady = true) :
    sanitizeCmd act kind c s = (s.startSanitize kind).finish c 0 0 := by
  have hlisted : ¬(act ≠ 1 ∧ act ≠ 2 ∧ act ≠ 4) := by omega
  simp [sanitizeCmd, ha, hlisted, howner, h1, h2, hready]

/-! ### The commands INTAKE and WATCH execute -/

/-- Settles O24: each command finds what its clause names, and its effect takes that branch. -/
theorem hardwareAdminCommandsComplete : Obligations.HardwareAdminCommandsComplete := by
  unfold Obligations.HardwareAdminCommandsComplete
  refine ⟨?createSq, ?createCq, ?deleteCq, ?deleteSq, ?abort, ?event, ?log, ?modesSet, ?featuresSet, ?modesGet,
    ?featuresGet, ?rent, ?giveBack, ?unbind, ?bind⟩
  case createSq =>
    intro s port cid e h hcq hcqOf hq hmax hsqOf hsize hcontig
    rw [exec_createIoSq, execCreateIoSq, admin_of_hasAdmin h]
    simp [createSq, hcq, Option.isSome_iff_ne_none.mp hcqOf, hq, Nat.not_lt.mpr hmax, hsqOf, hsize,
      hcontig]
  case createCq =>
    intro s port cid e h hq hmax hcqOf hsize hcontig hvector
    rw [exec_createIoCq, execCreateIoCq, admin_of_hasAdmin h]
    have hreach : ¬(bit (e.cdw 11) 1 = true ∧ s.queueMax ≤ bits (e.cdw 11) 16 16) := fun ⟨hon, hhigh⟩ =>
      (hvector hon).not_ge hhigh
    simp [createCq, hq, Nat.not_lt.mpr hmax, hcqOf, hsize, hcontig, hreach]
  case deleteCq =>
    intro s port cid e h hq hcqOf hunused
    rw [exec_deleteIoCq, execDeleteIoCq, admin_of_hasAdmin h]
    simp only [deleteCq, hunused]
    simp [hq, Option.isSome_iff_ne_none.mp hcqOf]
  case deleteSq =>
    intro s port cid e h hq hsqOf hidle
    have hnone : (s.host.cmds.filter fun d =>
        decide (d.port = e.port) && decide (d.sqid = bits (e.cdw 10) 0 16) && !d.kept) = [] :=
      List.filter_eq_nil_iff.mpr fun d hd hd' =>
        List.any_eq_false.mp hidle d hd (Bool.and_eq_true_iff.mp hd').1
    rw [exec_deleteIoSq, execDeleteIoSq, admin_of_hasAdmin h]
    simp only [deleteSq, hnone, List.foldl_nil, hidle]
    simp [hq, Option.isSome_iff_ne_none.mp hsqOf]
  case abort =>
    intro s port cid e h hmissed
    rw [exec_abort, execAbort, admin_of_hasAdmin h]
    simp only [abortCmd, hmissed]
  case event =>
    intro s port cid e h hfew hnone hsame
    rw [exec_asynchronousEventRequest, execAsynchronousEventRequest, admin_of_hasAdmin h]
    simp only [eventRequest, hsame, hnone]
    rw [if_neg (Nat.not_le.mpr hfew)]
  case log =>
    intro s port cid e len n pg h hlid hpage hlen halign hn hrae
    have ⟨hcmd, hop, _⟩ := h
    have hhardware : e.hardware = true := by simpa [Cmd.hardware, hop] using hlid
    have hexport : bits (e.cdw 10) 0 8 ≠ 0xC4 := by omega
    simp only [exec_getLogPage, execGetLogPage, hcmd, hhardware, admin_of_hasAdmin h]
    exact congrArg _ (getLog_of_logPage rfl hn hpage hlen (by omega) (absurd · hexport) hrae)
  case modesSet =>
    rintro s u port cid e h hfid hsave hbits hservice rfl
    rw [exec_modeControlSet, execModeControlSet, admin_of_hasAdmin h, forFeature_of_fid hfid,
      setModes_of_service hsave hbits hservice]
  case featuresSet =>
    rintro s u port cid e h hfid hsave hbits hservice rfl
    have ⟨hcmd, hop, _⟩ := h
    simp only [exec_setFeatures, execSetFeatures, hcmd, hardware_of_modeControl (.inl hop) hfid, admin_of_hasAdmin h,
      setModes_of_service hsave hbits hservice, if_true]
  case modesGet =>
    intro s port cid e h hfid
    rw [exec_modeControlGet, execModeControlGet, admin_of_hasAdmin h, forFeature_of_fid hfid, getModes]
  case featuresGet =>
    intro s port cid e h hfid
    have ⟨hcmd, hop, _⟩ := h
    simp only [exec_getFeatures, execGetFeatures, hcmd, hardware_of_modeControl (.inr hop) hfid, admin_of_hasAdmin h,
      getModes, if_true]
  case rent =>
    intro s port cid e h htest hany hcheck
    rw [exec_pitchRent, execPitchRent, admin_of_hasAdmin h]
    generalize hrent :
      s.rentCheck (contractOf fun i => e.payload.getD i 0) (some (bits (e.cdw 10) 0 10)) true = r at hcheck
    obtain ⟨code, res⟩ := r
    obtain rfl : code = 0 := hcheck
    simp only [rentCmd, htest, hany, Bool.not_false, Bool.false_eq_true, if_false, hrent]
  case giveBack =>
    intro s port cid e h hstate howner
    rw [exec_pitchReturn, execPitchReturn, admin_of_hasAdmin h]
    simp [returnCmd, hstate, howner]
  case unbind =>
    intro s port cid e h hq hsqOf hfree
    rw [exec_pitchBind, execPitchBind, admin_of_hasAdmin h, bindCmd_of_mayBind hq hsqOf (by simp [hfree])]
  case bind =>
    intro s port cid e h hq hsqOf _ hstate howner hsplit
    rw [exec_pitchBind, execPitchBind, admin_of_hasAdmin h,
      bindCmd_of_mayBind hq hsqOf fun _ => ⟨hstate, howner, hsplit⟩]

/-! ### The commands policy firmware executes -/

/-- A Set Features that firmware executes and that is not to be saved reaches the setting of its feature. -/
theorem setOther_powerManagement {s : State} {c : Cmd} (hfid : bits (c.cdw 10) 0 8 = 0x02)
    (hsave : bit (c.cdw 10) 31 = false) : setOther c s = setPower c s := by
  simp [setOther, hfid, hsave, featureListed]

theorem setOther_timestamp {s : State} {c : Cmd} (hfid : bits (c.cdw 10) 0 8 = 0x0E)
    (hsave : bit (c.cdw 10) 31 = false) : setOther c s = setTimestamp c s := by
  simp [setOther, hfid, hsave, featureListed]

theorem getOther_timestamp {s : State} {c : Cmd} (hfid : bits (c.cdw 10) 0 8 = 0x0E) :
    getOther c s = s.finish c 0 0 false 0 [s.timestamp] := by
  simp [getOther, hfid, featureListed]

/-- A sanitize in force ends once no block is left to erase and no die erases (R131). -/
theorem sanitize_ends {s : State} {busy : Bool} (hkind : s.nv.sanitize = 1 ∨ s.nv.sanitize = 2)
    (hmode : s.mode 3 = true) (htodo : s.sw.sanTodo = []) (hidle : busy = false) :
    ¬((s.nv.sanitize ≠ 1 ∧ s.nv.sanitize ≠ 2) ∨ s.mode 3 = false ∨ s.sw.sanTodo ≠ [] ∨ busy = true) := by
  have hforce : ¬(s.nv.sanitize ≠ 1 ∧ s.nv.sanitize ≠ 2) := by omega
  simp [hforce, hmode, htodo, hidle]

/-- Settles O25: firmware runs each command, and its effect takes the branch its clause names. -/
theorem firmwareAdminCommandsComplete : Obligations.FirmwareAdminCommandsComplete := by
  unfold Obligations.FirmwareAdminCommandsComplete
  refine ⟨?log, ?identify, ?power, ?timestampSet, ?timestampGet, ?create, ?attach, ?format, ?formatEnd, ?blockErase,
    ?cryptoErase, ?exitFailure, ?sanitizeFailed, ?sanitizeDone, ?download, ?commit⟩
  case log =>
    intro s u port cid e d len n pg h hpage hlen halign hn hrae
    have ⟨hcmd, _, _, hfirm, _⟩ := h
    simp only [exec_getLogPage, execGetLogPage, hcmd, hfirm, firm_of_firmRuns h, Bool.false_eq_true, if_false]
    exact congrArg _ (getLog_of_logPage rfl hn hpage hlen (by omega) (fun _ => by omega) hrae)
  case identify =>
    intro s u port cid e d pg h hdata
    rw [exec_identify, execIdentify, firm_of_firmRuns h]
    simp only [identifyCmd, State.fresh, hdata]
  case power =>
    rintro s u v port cid e d h hfid hsave hlow rfl
    rw [exec_powerManagementSet, execPowerManagementSet, firm_of_firmRuns h, forFeature_of_fid hfid,
      setOther_powerManagement hfid hsave]
    simp only [setPower]
    rw [if_neg (Nat.not_lt.mpr hlow)]
  case timestampSet =>
    intro s u port cid e d h hfid hsave
    rw [exec_timestampSet, execTimestampSet, firm_of_firmRuns h, forFeature_of_fid hfid, setOther_timestamp hfid hsave,
      setTimestamp]
  case timestampGet =>
    intro s u port cid e d h hfid
    rw [exec_timestampGet, execTimestampGet, firm_of_firmRuns h, forFeature_of_fid hfid, getOther_timestamp hfid]
  case create =>
    intro s u port cid e d id h hbusy hroom hcreate hformat hsize hid hfits
    rw [exec_namespaceManagement, execNamespaceManagement, firm_of_firmRuns h]
    have hwaits : ¬(u.rd R.LEDGER.NS_CMD_BUSY = 1 ∨ u.journalFull = true) := by simp [hbusy, hroom]
    simp only [nsManagement, hcreate]
    rw [if_neg hwaits]
    simp only [createNs, hid]
    rw [if_neg (Nat.not_lt.mpr hformat), if_neg hsize, if_neg (Nat.not_lt.mpr hfits)]
  case attach =>
    intro s u port cid e d h hroom hready hattach hctrls hcontroller hfree
    rw [exec_namespaceAttachment, execNamespaceAttachment, firm_of_firmRuns h]
    simp [nsAttach, hroom, hready, hattach, hctrls, List.contains_iff_mem.mp hcontroller, hfree]
  case format =>
    rintro s u v port cid e d h hidle hready hattached hformat hses hbusy hroom rfl
    rw [exec_formatNvm, execFormatNvm, firm_of_firmRuns h]
    simp [formatCmd, hidle, hready, hattached, Nat.not_lt.mpr hformat, Nat.not_lt.mpr hses, hbusy, hroom]
  case formatEnd =>
    rintro s u nsid e hformatting hdone hspare rfl hsame hcmd
    have hends : ¬((s.ns nsid).formatting = false ∨ s.led.nsCmd.isSome = true) := by simp [hformatting, hdone]
    simp only [exec_formatComplete, execFormatComplete]
    rw [if_neg hends, if_pos (hsame ▸ hspare), hcmd]
  case blockErase =>
    intro s u port cid e d h hact howner h1 h2 hready
    rw [exec_sanitizeBlockErase, execSanitizeBlockErase, firm_of_firmRuns h,
      sanitizeCmd_of_ready 1 (.inl rfl) hact howner h1 h2 hready]
  case cryptoErase =>
    intro s u port cid e d h hact howner h1 h2 hready
    rw [exec_sanitizeCryptoErase, execSanitizeCryptoErase, firm_of_firmRuns h,
      sanitizeCmd_of_ready 2 (.inr rfl) hact howner h1 h2 hready]
  case exitFailure =>
    intro s u port cid e d h hact hfailed
    rw [exec_sanitizeExitFailureMode, execSanitizeExitFailureMode, firm_of_firmRuns h]
    simp [exitFailure, hact, hfailed]
  case sanitizeFailed =>
    intro s hkind hmode htodo hidle
    simp only [exec_sanitizeComplete, execSanitizeComplete, hidle]
    rw [if_neg (sanitize_ends hkind hmode htodo rfl)]
    rfl
  case sanitizeDone =>
    rintro s u hkind hmode htodo hidle rfl
    simp only [exec_sanitizeComplete, execSanitizeComplete, hidle]
    rw [if_neg (sanitize_ends hkind hmode htodo rfl)]
    rfl
  case download =>
    rintro s u v port cid e d h hoff rfl hcode
    rw [exec_firmwareImageDownload, execFirmwareImageDownload, firm_of_firmRuns h]
    simp only [downloadCmd, hoff, if_false, hcode]
  case commit =>
    rintro s u v port cid e d h hnew hnone hclosed rfl
    rw [exec_firmwareCommit, execFirmwareCommit, firm_of_firmRuns h]
    simp [firmwareCommitCmd, hnew, hnone, hclosed]

/-! ### Resets of a port and of its controller (R156, R158, R588 to R590) -/

/-- A reset of a port's link resets its controller, but in CLOSING and HALT only takes the link down (R590). -/
theorem resetPort_eq (s : State) (port : Nat) (f : Field) :
    s.resetPort port f =
      if 6 ≤ (s.dropLink port).dst then s.dropLink port else ((s.dropLink port).count f).joinReset port :=
  rfl

/-- Settles O27: each request finds its port as its clause says, and takes its effect. -/
theorem portResetsComplete : Obligations.PortResetsComplete := by
  unfold Obligations.PortResetsComplete
  refine ⟨?enable, ?clear, ?complete, ?shutdown, ?shutdownEnd, ?assert, ?deassert, ?hot, ?down, ?flr, ?up, ?mps⟩
  case enable =>
    intro s port ams his hlink hen hreset
    simp [execCcEnSet, his, hlink, hen, hreset]
  case clear =>
    intro s port his hen
    simp [execCcEnClear, his, hen]
  case complete =>
    rintro s port q rfl hreset
    simp [execControllerResetComplete, hreset]
  case shutdown =>
    intro s port shn his hen hshn hshst
    simp [execShutdownNotification, his, hen, hshn, hshst]
  case shutdownEnd =>
    intro s port hshst hidle hresident
    rw [exec_shutdownComplete, execShutdownComplete, if_pos ⟨hshst, hidle, hresident⟩]
  case assert =>
    intro s port his hon hperst
    simp [execPerstNAssert, his, hon, hperst]
  case deassert =>
    intro s port his hon
    simp [execPerstNDeassert, his, hon]
  case hot =>
    intro s port his hlink
    simp [execHotReset, his, hlink, resetPort_eq]
  case down =>
    intro s port his hlink
    simp [execLinkDown, his, hlink, resetPort_eq]
  case flr =>
    intro s port his hlink hdst
    simp [execFlr, his, hlink, hdst]
  case up =>
    intro s port width rate his hperst hon hwidth hrate hmax
    have htrains : ¬(s.portIs port = false ∨ (s.port port).perst = false ∨ s.domOn 1 = false
        ∨ (if s.split then [1, 2, 4, 8] else [1, 2, 4, 8, 16]).contains width = false
        ∨ linkRates.contains rate = false ∨ 1280 / 2 ^ s.rd R.BOOT.STRAP_RATE < rate) := by
      simp only [his, hperst, hon, hwidth, hrate, Nat.not_lt.mpr hmax]
      decide
    rw [exec_linkUp, execLinkUp, if_neg htrains]
  case mps =>
    intro s port mps his hlink hmps
    rw [exec_deviceControlWrite, execDeviceControlWrite, if_pos ⟨his, hlink, hmps⟩]

end Sys2Proof.Proofs
end

/-! ## The line cache (R199 to R222)

Fills, prefetched lines, and the operations of the range engine. -/

section
namespace Sys2Proof.Proofs

open Sys2Proof Sys2Proof.Machine Sys2Proof.Laws Sys2Proof.Safety

/-! ### Range operations (R210 to R212, R217) -/

/-- The state in which the engine has cleared the results of the last range operation and runs `o` (R210). -/
def rangeStarted (u : State) (o : RangeOp) : State :=
  (((((u.wr R.LCACHE.RANGE_RES_BAD_RANGE 0).wr R.LCACHE.RANGE_RES_LINES 0).wr R.LCACHE.RANGE_SKIP_LOCKED 0).wr
    R.LCACHE.RANGE_SKIP2_DIRTY 0).wr R.LCACHE.RANGE_WB_LINES 0).startOp o

/-- A RANGE_CMD that finds the engine free and names ALL or a good range starts (R210, R222). -/
theorem rangeCmd_of_reaches {s u : State} {who : Initiator} {all : Bool} (hu : Reaches s who R.LCACHE.RANGE_CMD_OP 0 u)
    (hfree : u.rd R.LCACHE.STAT_BUSY = 0) (hgood : all = true ∨ u.badRange = false) (op : Nat) (force : Bool)
    (start : State → State) :
    rangeCmd who op force all s start =
      start (rangeStarted u { op := op, lines := [], force := force, all := all, ways := 0 }) := by
  have hbusy : ¬ u.rd R.LCACHE.STAT_BUSY = 1 := by omega
  have hrange : ¬(all = false ∧ u.badRange = true) := by
    rintro ⟨rfl, hbad⟩
    simp [hbad] at hgood
  rw [rangeCmd, access_of_reaches hu, mayWrite_of_reaches hu, if_neg Bool.true_eq_false_eq_False, if_neg hbusy,
    if_neg hrange]
  rfl

/-- Settles O29: each command finds the line, the engine or the operation that its clause names. -/
theorem cacheFillsAndRangesComplete : Obligations.CacheFillsAndRangesComplete := by
  unfold Obligations.CacheFillsAndRangesComplete
  refine ⟨?fill, ?wasted, ?tray, ?clean, ?invalidate, ?cleanInvalidate, ?prefetch, ?complete⟩
  case fill =>
    rintro s u line ok harmed hwanted rfl
    simp only [exec_lcacheFill, execLcacheFill, hwanted, fire_of_disarmed (s := s.mLc _) harmed, if_true]
  case wasted =>
    intro s line hissued
    simp only [exec_prefetchArrival, execPrefetchArrival, hissued, true_or, if_true]
  case tray =>
    rintro s u line hissued rfl hback hway hwanted hroom
    simp only [exec_prefetchArrival, execPrefetchArrival]
    rw [if_pos hissued, if_neg (by simp [hback, hway]), if_neg (ne_true_of_eq_false hwanted),
      if_neg (Nat.not_le.mpr hroom)]
  case clean =>
    intro s u who force all hu hfree hgood
    exact congrArg _ (rangeCmd_of_reaches hu hfree hgood 1 force id)
  case invalidate =>
    intro s u who force all hu hfree hgood
    exact congrArg _ (rangeCmd_of_reaches hu hfree hgood 2 force id)
  case cleanInvalidate =>
    intro s u who force all hu hfree hgood
    exact congrArg _ (rangeCmd_of_reaches hu hfree hgood 3 force id)
  case prefetch =>
    rintro s u v who all hu hfree hgood rfl
    exact congrArg _ (rangeCmd_of_reaches hu hfree hgood 4 false _)
  case complete =>
    rintro s u v o hop hlow hhigh rfl rfl
    have hruns : ¬(o.op = 0 ∨ 4 < o.op) := by omega
    have hwalks : ¬ o.op = 4 := by omega
    simp only [exec_rangeOpComplete, execRangeOpComplete, hop]
    rw [if_neg hruns, if_neg hwalks]

end Sys2Proof.Proofs
end

/-! ## The crate yard's memory (R257)

What a stored byte reads as, and what every command keeps: the order of the register store, the canonical form of crate
memory and of the FIRMWARE region, and their bytes where the command stores none. -/

section
namespace Sys2Proof.Proofs

open Sys2Proof Sys2Proof.Machine Sys2Proof.Laws Sys2Proof.Safety

/-! ### Every command keeps what is known of the state -/

/-- What is known of `s` before a command of which it is given whether it stores to memory and whether it changes what is
kept without power. -/
def keptOf (s : State) (stores keeps : Bool) : Kept where
  queue := s.pending
  mono := s.mono
  epoch := s.nv.epoch
  perm := s.nv.perm
  stores := stores
  cells := s.cr.mem
  firmware := s.dram
  keeps := keeps
  nv := s.nv

theorem keep_keptOf {s : State} (stores keeps : Bool) (h : Canonical s) : Keep (keptOf s stores keeps) s := by
  obtain ⟨hregs, hmem, hdram⟩ := h
  exact ⟨rfl, rfl, rfl, List.prefix_rfl, hregs, hmem, hdram, fun _ => ⟨rfl, rfl⟩, fun _ => rfl⟩

theorem canonical_of_keep {K : Kept} {s : State} (h : Keep K s) : Canonical s := ⟨h.regs, h.mem, h.dram⟩

/-- A state that keeps what is known keeps it also when its own time base and epoch are taken as the known ones. -/
theorem keep_retimed {K : Kept} {s : State} (h : Keep K s) : Keep { K with mono := s.mono, epoch := s.nv.epoch } s :=
  ⟨h.queue, rfl, rfl, h.perm, h.regs, h.mem, h.dram, h.cells, h.kept⟩

/-- Every command but the two that set the time base keeps what is known; memory and what is kept without power may
differ only where the command is listed as one that stores or writes them. -/
theorem keepO_exec {K : Kept} {c : Instr} {s : State} (hs : Keep K s) (hc : setsTimeBase c = false)
    (hS : storesBytes c = true → K.stores = true) (hN : writesKept c = true → K.keeps = true) : KeepO K (exec c s) := by
  cases c with
  | powerOnResetRelease => exact nomatch hc
  | vddWatchLoss => exact nomatch hc
  | strapSampleComplete => exact keep_execStrapSampleComplete (hN rfl) _ s hs
  | railStageValid => exact keep_execRailStageValid _ s hs
  | railEnableTimeout => exact keep_execRailEnableTimeout (hS rfl) (hN rfl) _ s hs
  | railOutOfWindow => exact keep_execRailOutOfWindow (hS rfl) (hN rfl) _ s hs
  | bootSlotChoice => exact keep_execBootSlotChoice (hN rfl) s hs
  | ddr5TrainingComplete => exact keep_execDdr5TrainingComplete _ _ _ s hs
  | wakeComplete => exact keep_execWakeComplete (hN rfl) s hs
  | wakeTimerExpiry => exact keep_execWakeTimerExpiry (hN rfl) s hs
  | selfTestPhaseComplete => exact keep_execSelfTestPhaseComplete (hS rfl) (hN rfl) _ _ _ _ s hs
  | selfTestComplete => exact keep_execSelfTestComplete (hN rfl) _ s hs
  | selfTestTimerExpiry => exact keep_execSelfTestTimerExpiry (hN rfl) s hs
  | rebuildPhaseComplete => exact keep_execRebuildPhaseComplete (hS rfl) (hN rfl) _ _ s hs
  | rebuildComplete => exact keep_execRebuildComplete (hN rfl) s hs
  | rebuildTimerExpiry => exact keep_execRebuildTimerExpiry (hN rfl) s hs
  | validWalkComplete => exact keep_execValidWalkComplete s hs
  | powerFailDetect => exact keep_execPowerFailDetect (hS rfl) (hN rfl) _ s hs
  | holdupThresholdCrossing => exact keep_execHoldupThresholdCrossing _ _ s hs
  | bellUnitDurable => exact keep_execBellUnitDurable _ s hs
  | bellUnitFail => exact keep_execBellUnitFail (hN rfl) _ s hs
  | closingBellComplete => exact keep_execClosingBellComplete (hN rfl) s hs
  | closingBellTimerExpiry => exact keep_execClosingBellTimerExpiry (hN rfl) s hs
  | haltCtrlOrderly => exact keep_execHaltCtrlOrderly (hS rfl) (hN rfl) _ s hs
  | haltCtrlRestart => exact keep_execHaltCtrlRestart (hS rfl) (hN rfl) _ s hs
  | restartDwellExpiry => exact keep_execRestartDwellExpiry (hS rfl) (hN rfl) s hs
  | modeReq => exact keep_execModeReq _ _ _ s hs
  | modeInstant => exact keep_execModeInstant (hN rfl) s hs
  | inServiceRise => exact keep_execInServiceRise _ s hs
  | sqDoorbell => exact keep_execSqDoorbell _ _ _ s hs
  | sqeArrival => exact keep_execSqeArrival _ _ _ _ _ _ _ _ _ s hs
  | intakeEvaluation => exact keep_execIntakeEvaluation (hS rfl) s hs
  | returnWaitExpiry => exact keep_execReturnWaitExpiry _ _ _ s hs
  | tokenRefill => exact keep_execTokenRefill s hs
  | rltBlockShift => exact keep_execRltBlockShift s hs
  | deadlineFirstExpiry => exact keep_execDeadlineFirstExpiry (hS rfl) _ _ _ s hs
  | read => exact keep_execRead (hS rfl) _ _ _ s hs
  | write => exact keep_execWrite (hS rfl) _ _ _ s hs
  | flush => exact keep_execFlush (hS rfl) _ _ _ s hs
  | flushComplete => exact keep_execFlushComplete _ _ _ s hs
  | writeUncorrectable => exact keep_execWriteUncorrectable (hS rfl) _ _ _ s hs
  | compare => exact keep_execCompare (hS rfl) _ _ _ s hs
  | writeZeroes => exact keep_execWriteZeroes (hS rfl) _ _ _ s hs
  | datasetManagement => exact keep_execDatasetManagement (hS rfl) _ _ _ s hs
  | verify => exact keep_execVerify (hS rfl) _ _ _ s hs
  | createIoSq => exact keep_execCreateIoSq _ _ s hs
  | deleteIoSq => exact keep_execDeleteIoSq (hS rfl) _ _ s hs
  | createIoCq => exact keep_execCreateIoCq _ _ s hs
  | deleteIoCq => exact keep_execDeleteIoCq _ _ s hs
  | getLogPage => exact keep_execGetLogPage _ _ s hs
  | identify => exact keep_execIdentify _ _ s hs
  | abort => exact keep_execAbort (hS rfl) _ _ s hs
  | setFeatures => exact keep_execSetFeatures (hN rfl) _ _ s hs
  | getFeatures => exact keep_execGetFeatures _ _ s hs
  | modeControlSet => exact keep_execModeControlSet _ _ s hs
  | modeControlGet => exact keep_execModeControlGet _ _ s hs
  | powerManagementSet => exact keep_execPowerManagementSet (hN rfl) _ _ s hs
  | timestampSet => exact keep_execTimestampSet (hN rfl) _ _ s hs
  | timestampGet => exact keep_execTimestampGet _ _ s hs
  | asynchronousEventRequest => exact keep_execAsynchronousEventRequest _ _ s hs
  | namespaceManagement => exact keep_execNamespaceManagement _ _ s hs
  | namespaceAttachment => exact keep_execNamespaceAttachment _ _ s hs
  | formatNvm => exact keep_execFormatNvm _ _ s hs
  | formatComplete => exact keep_execFormatComplete (hN rfl) _ s hs
  | sanitizeBlockErase => exact keep_execSanitizeBlockErase (hN rfl) _ _ s hs
  | sanitizeCryptoErase => exact keep_execSanitizeCryptoErase (hN rfl) _ _ s hs
  | sanitizeExitFailureMode => exact keep_execSanitizeExitFailureMode (hN rfl) _ _ s hs
  | sanitizeComplete => exact keep_execSanitizeComplete (hS rfl) (hN rfl) _ s hs
  | firmwareImageDownload => exact keep_execFirmwareImageDownload _ _ s hs
  | firmwareCommit => exact keep_execFirmwareCommit (hN rfl) _ _ s hs
  | pitchRent => exact keep_execPitchRent _ _ s hs
  | pitchReturn => exact keep_execPitchReturn _ _ s hs
  | pitchBind => exact keep_execPitchBind _ _ s hs
  | pitchCmdRent => exact keep_execPitchCmdRent _ s hs
  | pitchCmdReturn => exact keep_execPitchCmdReturn _ s hs
  | pitchCmdLoad => exact keep_execPitchCmdLoad _ s hs
  | pitchCmdTest => exact keep_execPitchCmdTest _ s hs
  | qbCfgWrite => exact keep_execQbCfgWrite _ _ s hs
  | ccEnClear => exact keep_execCcEnClear (hS rfl) _ s hs
  | controllerResetComplete => exact keep_execControllerResetComplete _ s hs
  | ccEnSet => exact keep_execCcEnSet _ _ s hs
  | shutdownNotification => exact keep_execShutdownNotification _ _ s hs
  | shutdownComplete => exact keep_execShutdownComplete _ s hs
  | perstNAssert => exact keep_execPerstNAssert (hS rfl) _ s hs
  | perstNDeassert => exact keep_execPerstNDeassert _ s hs
  | hotReset => exact keep_execHotReset (hS rfl) _ s hs
  | flr => exact keep_execFlr (hS rfl) _ s hs
  | linkDown => exact keep_execLinkDown (hS rfl) _ s hs
  | linkUp => exact keep_execLinkUp _ _ _ s hs
  | deviceControlWrite => exact keep_execDeviceControlWrite _ _ s hs
  | creditReceive => exact keep_execCreditReceive _ _ s hs
  | creditRelease => exact keep_execCreditRelease _ _ s hs
  | creditAdvertise => exact keep_execCreditAdvertise _ _ s hs
  | hostReadCompletion => exact keep_execHostReadCompletion (hS rfl) _ _ _ s hs
  | writeDataResidency => exact keep_execWriteDataResidency (hS rfl) _ _ _ _ _ s hs
  | halfMoveReceipt => exact keep_execHalfMoveReceipt _ s hs
  | lcacheFill => exact keep_execLcacheFill _ _ s hs
  | prefetchArrival => exact keep_execPrefetchArrival _ _ s hs
  | cixRebalance => exact keep_execCixRebalance _ s hs
  | nsCmdInit => exact keep_execNsCmdInit _ s hs
  | nsCmdRelease => exact keep_execNsCmdRelease _ s hs
  | nsCmdDeallocAll => exact keep_execNsCmdDeallocAll _ s hs
  | nsCmdComplete => exact keep_execNsCmdComplete (hS rfl) s hs
  | cixProbeGo => exact keep_execCixProbeGo _ s hs
  | dramWriteRefused => exact keep_execDramWriteRefused _ _ s hs
  | rangeClean => exact keep_execRangeClean _ _ _ s hs
  | rangeInvalidate => exact keep_execRangeInvalidate _ _ _ s hs
  | rangeCleanInvalidate => exact keep_execRangeCleanInvalidate _ _ _ s hs
  | rangePrefetch => exact keep_execRangePrefetch _ _ s hs
  | rangeOpComplete => exact keep_execRangeOpComplete s hs
  | lockApply => exact keep_execLockApply _ s hs
  | lockSyncComplete => exact keep_execLockSyncComplete s hs
  | cacheDisable => exact keep_execCacheDisable _ s hs
  | cacheDisableComplete => exact keep_execCacheDisableComplete s hs
  | cacheEnable => exact keep_execCacheEnable _ s hs
  | wayPowerOff => exact keep_execWayPowerOff _ _ s hs
  | wayDrainComplete => exact keep_execWayDrainComplete _ s hs
  | wayPowerOn => exact keep_execWayPowerOn _ _ s hs
  | rowTake => exact keep_execRowTake (hS rfl) _ s hs
  | padWaitExpiry => exact keep_execPadWaitExpiry (hS rfl) _ s hs
  | stripeWaitExpiry => exact keep_execStripeWaitExpiry (hS rfl) _ s hs
  | crateGrantRequest => exact keep_execCrateGrantRequest _ _ _ _ _ _ _ s hs
  | crateFree => exact keep_execCrateFree (hS rfl) _ _ s hs
  | crateReferenceRelease => exact keep_execCrateReferenceRelease (hS rfl) _ _ s hs
  | lendGo => exact keep_execLendGo (hS rfl) _ _ s hs
  | returnHandle => exact keep_execReturnHandle (hS rfl) _ _ s hs
  | winDataAccess => exact keep_execWinDataAccess (hS rfl) _ _ _ s hs
  | senseStart => exact keep_execSenseStart _ _ s hs
  | channelBurst => exact keep_execChannelBurst (hS rfl) _ s hs
  | statusPoll => exact keep_execStatusPoll (hS rfl) (hN rfl) _ _ _ s hs
  | programSuspend => exact keep_execProgramSuspend _ _ s hs
  | eraseSuspend => exact keep_execEraseSuspend _ _ s hs
  | loadAbandon => exact keep_execLoadAbandon _ _ s hs
  | eraseStart => exact keep_execEraseStart _ _ s hs
  | erasePendingClose => exact keep_execErasePendingClose _ _ s hs
  | readTimeout => exact keep_execReadTimeout (hS rfl) (hN rfl) _ _ s hs
  | programTimeout => exact keep_execProgramTimeout (hS rfl) (hN rfl) _ _ s hs
  | eraseTimeout => exact keep_execEraseTimeout (hS rfl) (hN rfl) _ _ s hs
  | suspendTimeout => exact keep_execSuspendTimeout _ _ s hs
  | resetTimeout => exact keep_execResetTimeout (hS rfl) (hN rfl) _ _ _ s hs
  | featureTimeout => exact keep_execFeatureTimeout (hS rfl) (hN rfl) _ _ s hs
  | zqIntervalExpiry => exact keep_execZqIntervalExpiry (hS rfl) (hN rfl) _ _ _ s hs
  | identityCheck => exact keep_execIdentityCheck (hS rfl) (hN rfl) _ _ _ s hs
  | vccqFlOutOfRange => exact keep_execVccqFlOutOfRange (hS rfl) (hN rfl) _ s hs
  | hardDecodeComplete => exact keep_execHardDecodeComplete (hS rfl) _ _ _ _ s hs
  | softPassComplete => exact keep_execSoftPassComplete (hS rfl) _ _ s hs
  | fullSoftDecodeComplete => exact keep_execFullSoftDecodeComplete (hS rfl) _ _ s hs
  | softWaitExpiry => exact keep_execSoftWaitExpiry (hS rfl) _ s hs
  | scrubPace => exact keep_execScrubPace s hs
  | scrubCycleEnd => exact keep_execScrubCycleEnd s hs
  | scrubStateSave => exact keep_execScrubStateSave (hN rfl) s hs
  | correctableError => exact keep_execCorrectableError _ _ _ s hs
  | uncorrectableError => exact keep_execUncorrectableError (hS rfl) (hN rfl) _ _ _ s hs
  | memoryScrubWalk => exact keep_execMemoryScrubWalk _ _ _ s hs
  | camParityWalk => exact keep_execCamParityWalk _ s hs
  | victimName => exact keep_execVictimName _ s hs
  | hardwareVictimNaming => exact keep_execHardwareVictimNaming _ s hs
  | victimWalkTimeout => exact keep_execVictimWalkTimeout _ s hs
  | sweepCopyStart => exact keep_execSweepCopyStart (hS rfl) _ s hs
  | victimErase => exact keep_execVictimErase _ s hs
  | sweepCtrlResume => exact keep_execSweepCtrlResume _ s hs
  | sweepEpoch => exact keep_execSweepEpoch (hN rfl) s hs
  | lapComplete => exact keep_execLapComplete (hN rfl) s hs
  | lapLate => exact keep_execLapLate s hs
  | rollingWalk => exact keep_execRollingWalk s hs
  | journalFlush => exact keep_execJournalFlush (hN rfl) s hs
  | recordsSave => exact keep_execRecordsSave (hN rfl) s hs
  | cipherUnitComplete => exact keep_execCipherUnitComplete (hS rfl) _ _ s hs
  | mediaKeyGenerate => exact keep_execMediaKeyGenerate _ s hs
  | keyRecordWritten => exact keep_execKeyRecordWritten (hN rfl) _ s hs
  | jobGo => exact keep_execJobGo _ _ _ s hs
  | jobComplete => exact keep_execJobComplete (hS rfl) (hN rfl) _ s hs
  | jobAbort => exact keep_execJobAbort (hS rfl) (hN rfl) _ _ s hs
  | jobSave => exact keep_execJobSave (hS rfl) (hN rfl) _ _ s hs
  | jobRestore => exact keep_execJobRestore _ _ s hs
  | loadPlain => exact keep_execLoadPlain _ _ _ s hs
  | generate => exact keep_execGenerate (hS rfl) (hN rfl) _ _ _ s hs
  | loadWrapped => exact keep_execLoadWrapped _ _ _ s hs
  | clear => exact keep_execClear _ _ _ s hs
  | porterBurst => exact keep_execPorterBurst (hS rfl) (hN rfl) _ s hs
  | descriptorStart => exact keep_execDescriptorStart (hS rfl) _ s hs
  | writeResponseError => exact keep_execWriteResponseError (hS rfl) _ s hs
  | porterTimerExpiry => exact keep_execPorterTimerExpiry _ s hs
  | chCtrlGo => exact keep_execChCtrlGo _ _ s hs
  | chCtrlStop => exact keep_execChCtrlStop _ _ s hs
  | channelStopComplete => exact keep_execChannelStopComplete (hS rfl) _ s hs
  | chCtrlEnable => exact keep_execChCtrlEnable _ _ _ s hs
  | cplPop => exact keep_execCplPop (hS rfl) _ _ s hs
  | islandGate => exact keep_execIslandGate _ s hs
  | islandWake => exact keep_execIslandWake _ _ s hs
  | wakeFailure => exact keep_execWakeFailure (hS rfl) (hN rfl) _ _ s hs
  | crossingWatchdogExpiry => exact keep_execCrossingWatchdogExpiry (hS rfl) (hN rfl) _ _ s hs
  | polVoteWrite => exact keep_execPolVoteWrite _ _ s hs
  | mgtVoteWrite => exact keep_execMgtVoteWrite _ _ s hs
  | domainPowerOn => exact keep_execDomainPowerOn (hS rfl) (hN rfl) _ s hs
  | domainPowerOff => exact keep_execDomainPowerOff _ s hs
  | dvfsReq => exact keep_execDvfsReq _ _ _ s hs
  | vddSettled => exact keep_execVddSettled s hs
  | nonopEntry => exact keep_execNonopEntry (hN rfl) s hs
  | apstItptExpiry => exact keep_execApstItptExpiry s hs
  | nonopExitComplete => exact keep_execNonopExitComplete (hS rfl) (hN rfl) s hs
  | temperatureSample => exact keep_execTemperatureSample (hS rfl) (hN rfl) _ s hs
  | tempHistorySample => exact keep_execTempHistorySample s hs
  | wdogKick => exact keep_execWdogKick _ _ s hs
  | wdogWarning => exact keep_execWdogWarning _ s hs
  | wdogExpiry => exact keep_execWdogExpiry (hS rfl) (hN rfl) _ s hs
  | mwdogKick => exact keep_execMwdogKick _ _ s hs
  | mwdogExpiry => exact keep_execMwdogExpiry (hN rfl) s hs
  | coreRstGo => exact keep_execCoreRstGo (hS rfl) (hN rfl) _ s hs
  | coreResetRelease => exact keep_execCoreResetRelease s hs
  | machineTimerInterrupt => exact keep_execMachineTimerInterrupt _ s hs
  | admTake => exact keep_execAdmTake _ s hs
  | admCplGo => exact keep_execAdmCplGo _ _ s hs
  | flCmdErase => exact keep_execFlCmdErase (hN rfl) _ s hs
  | flCmdProgram => exact keep_execFlCmdProgram (hN rfl) _ s hs
  | flashOperationComplete => exact keep_execFlashOperationComplete (hN rfl) _ s hs
  | flashOperationSuspend => exact keep_execFlashOperationSuspend _ s hs
  | pieceReport => exact keep_execPieceReport _ s hs
  | slotLockHoldExpiry => exact keep_execSlotLockHoldExpiry s hs
  | commitAction000b => exact keep_execCommitAction000b (hN rfl) _ s hs
  | commitAction001b => exact keep_execCommitAction001b (hN rfl) _ s hs
  | commitAction010b => exact keep_execCommitAction010b (hN rfl) _ s hs
  | commitAction011b => exact keep_execCommitAction011b (hN rfl) _ s hs
  | pumpWrite => exact keep_execPumpWrite (hN rfl) _ _ s hs
  | slotWriteComplete => exact keep_execSlotWriteComplete (hS rfl) (hN rfl) s hs
  | actReady => exact keep_execActReady (hN rfl) _ s hs
  | activationAllowanceExpiry => exact keep_execActivationAllowanceExpiry (hS rfl) (hN rfl) s hs
  | recCmdBegin => exact keep_execRecCmdBegin _ s hs
  | recCmdEnd => exact keep_execRecCmdEnd (hN rfl) _ s hs
  | recCmdCancel => exact keep_execRecCmdCancel _ s hs
  | ownerLockWrite => exact keep_execOwnerLockWrite (hN rfl) _ _ s hs
  | recordStore => exact keep_execRecordStore (hN rfl) s hs
  | ringSave => exact keep_execRingSave (hN rfl) _ s hs
  | faultRelease => exact keep_execFaultRelease _ s hs
  | logCtrlFreeze => exact keep_execLogCtrlFreeze _ _ s hs
  | freezeMaxExpiry => exact keep_execFreezeMaxExpiry s hs
  | fwPost => exact keep_execFwPost _ s hs
  | curCmdOldest => exact keep_execCurCmdOldest _ s hs
  | curCmdNewest => exact keep_execCurCmdNewest _ s hs
  | win0Read => exact keep_execWin0Read _ s hs
  | win15Read => exact keep_execWin15Read _ s hs
  | wallSetHi => exact keep_execWallSetHi (hN rfl) _ _ s hs
  | rateBucketRefill => exact keep_execRateBucketRefill _ s hs
  | tallyRound => exact keep_execTallyRound s hs
  | tallyClr => exact keep_execTallyClr _ s hs
  | injArm => exact keep_execInjArm (hS rfl) (hN rfl) _ _ _ _ s hs
  | injDisarm => exact keep_execInjDisarm _ _ s hs
  | disarmAll => exact keep_execDisarmAll _ s hs
  | miRegisterRead => exact keep_execMiRegisterRead _ _ s hs
  | miRegisterWrite => exact keep_execMiRegisterWrite (hS rfl) (hN rfl) _ _ _ s hs
  | miOtherCommand => exact keep_execMiOtherCommand _ s hs
  | registerWrite => exact keep_execRegisterWrite (hS rfl) (hN rfl) _ _ _ s hs
  | rcFieldRead => exact keep_execRcFieldRead _ _ s hs
  | loWordRead => exact keep_execLoWordRead _ _ s hs
  | pageAccessFault => exact keep_execPageAccessFault _ _ _ _ s hs
  | softClear => exact keep_execSoftClear _ _ s hs
  | evtPendClear => exact keep_execEvtPendClear _ _ _ s hs
  | evtForce => exact keep_execEvtForce _ _ _ s hs
  | pageLock => exact keep_execPageLock _ _ s hs
  | cntSelWrite => exact keep_execCntSelWrite _ _ _ s hs
  | pageCtrlVote => exact keep_execPageCtrlVote _ _ _ s hs
  | extest => exact keep_execExtest _ s hs
  | samplePreload => exact keep_execSamplePreload _ _ s hs
  | idcode => exact keep_execIdcode s hs
  | bypass => exact keep_execBypass _ s hs
  | ktrCfg => exact keep_execKtrCfg _ s hs
  | ktrStat => exact keep_execKtrStat s hs
  | trstNAssert => exact keep_execTrstNAssert s hs
  | ktrTrigIn => exact keep_execKtrTrigIn s hs
  | ktrSync => exact keep_execKtrSync s hs
  | cqHeadDoorbell => exact keep_execCqHeadDoorbell _ _ _ s hs
  | completionTimeout => exact keep_execCompletionTimeout (hS rfl) _ _ s hs
  | vrAlertN => exact keep_execVrAlertN s hs
  | porterWriteResponse => exact keep_execPorterWriteResponse (hS rfl) _ s hs
  | codeFlashDataRead => exact keep_execCodeFlashDataRead _ _ s hs
  | registerReadRefused => exact keep_execRegisterReadRefused _ _ s hs

theorem eq_of_setsTimeBase {c : Instr} (h : setsTimeBase c = true) :
    (∃ testEn, c = .powerOnResetRelease testEn) ∨ c = .vddWatchLoss := by
  cases c with
  | powerOnResetRelease testEn => exact .inl ⟨testEn, rfl⟩
  | vddWatchLoss => exact .inr rfl
  | _ => cases h

/-- Every command keeps what is known, but for the time base and the epoch where it sets them. -/
theorem keep_exec {K : Kept} {c : Instr} {s t : State} (hs : Keep K s) (hS : storesBytes c = true → K.stores = true)
    (hN : writesKept c = true → K.keeps = true) (ht : exec c s = .next t) :
    Keep { K with mono := t.mono, epoch := t.nv.epoch } t := by
  cases hc : setsTimeBase c with
  | false => exact keep_retimed ((keepO_exec hs hc hS hN).get t ht)
  | true =>
    obtain ⟨testEn, rfl⟩ | rfl := eq_of_setsTimeBase hc
    · exact keep_execPowerOnResetRelease (hS rfl) (hN rfl) testEn s t hs ht
    · exact keep_execVddWatchLoss (hS rfl) (hN rfl) s t hs ht

theorem canonical_exec {c : Instr} {s t : State} (hs : Canonical s) (ht : exec c s = .next t) : Canonical t :=
  canonical_of_keep (keep_exec (keep_keptOf true true hs) (fun _ => rfl) (fun _ => rfl) ht)

theorem canonical_tick {s : State} (hs : Canonical s) : Canonical (tick s) :=
  canonical_of_keep (keep_tick s (keep_keptOf true true hs))

/-- Settles O6: a step is a tick or a command, and each keeps the canonical forms. -/
theorem everyStepKeepsTheCanonicalForms : Obligations.EveryStepKeepsTheCanonicalForms := by
  unfold Obligations.EveryStepKeepsTheCanonicalForms
  intro s t hs ht
  cases hp : s.pending with
  | nil =>
    simp only [step, hp] at ht
    cases ht
    exact canonical_tick hs
  | cons c rest =>
    have hrest : Canonical { s with pending := rest } := hs
    simp only [step, hp] at ht
    exact canonical_exec hrest ht

/-- A command that is not listed as storing leaves both memories as they are. -/
theorem memory_exec_of_not_storesBytes {c : Instr} {s t : State} (hs : Canonical s) (hc : storesBytes c = false)
    (ht : exec c s = .next t) : t.cr.mem = s.cr.mem ∧ t.dram = s.dram :=
  (keep_exec (keep_keptOf false true hs) (fun h => hc.symm.trans h) (fun _ => rfl) ht).cells rfl

/-- Settles O11: such a command leaves both memories as they are, so each byte reads the same. -/
theorem onlyStoringCommandsChangeMemory : Obligations.OnlyStoringCommandsChangeMemory := by
  unfold Obligations.OnlyStoringCommandsChangeMemory
  intro c s t hs hc ht
  obtain ⟨hmem, hdram⟩ := memory_exec_of_not_storesBytes hs hc ht
  rw [hmem, hdram]
  exact ⟨fun _ => rfl, fun _ => rfl⟩

/-! ### What stored bytes read as -/

/-- A table from which entries are taken out by key reads the default at the keys taken out, and elsewhere as before. -/
theorem tbl_get_filter_key {α : Type} (d : α) (p : Nat → Bool) (t : Tbl α) (k : Nat) :
    Tbl.get d (t.filter fun e => p e.1) k = if p k then Tbl.get d t k else d := by
  induction t with
  | nil => simp [Tbl.get]
  | cons e t ih =>
    rw [List.filter_cons]
    by_cases hk : e.1 = k
    · subst hk
      cases hp : p e.1 <;> simp [hp, Tbl.get, ih]
    · cases hp : p e.1 <;> simp [hk, Tbl.get, ih]

theorem byteAt_set {m : List Host.Cell} (h : Tbl.wf (0 : BitVec 8) m = true) (a b x : Nat) :
    byteAt (Tbl.set (0 : BitVec 8) m a (BitVec.ofNat 8 b)) x = if a = x then b % 256 else byteAt m x := by
  obtain ⟨hsorted, -⟩ := Bool.and_eq_true_iff.mp h
  rw [byteAt, tbl_get_set _ _ _ _ _ hsorted, apply_ite BitVec.toNat, BitVec.toNat_ofNat]
  rfl

/-- Stored bytes read back, each modulo 256, and every other address reads as before. -/
theorem byteAt_putBytes {m : List Host.Cell} (h : Tbl.wf (0 : BitVec 8) m = true) (a x : Nat) (l : List Nat) :
    byteAt (putBytes m a l) x = if a ≤ x ∧ x < a + l.length then l.getD (x - a) 0 % 256 else byteAt m x := by
  induction l generalizing m a with
  | nil => rw [putBytes, if_neg (by simp)]
  | cons b l ih =>
    rw [putBytes, ih (tbl_wf_set _ _ _ _ h), byteAt_set h, List.length_cons]
    obtain hlt | rfl | hgt := Nat.lt_trichotomy x a
    · rw [if_neg (by omega), if_neg (by omega), if_neg (by omega)]
    · rw [if_neg (by omega), if_pos rfl, if_pos (by omega), Nat.sub_self, List.getD_cons_zero]
    · have hsub : x - a = x - (a + 1) + 1 := by omega
      have hrange : a + 1 ≤ x ∧ x < a + 1 + l.length ↔ a ≤ x ∧ x < a + (l.length + 1) := by omega
      rw [if_neg (show ¬a = x by omega), hsub, List.getD_cons_succ]
      simp only [hrange]

/-- A cleared range reads zero, and every other address reads as before. -/
theorem byteAt_zeroBytes (m : List Host.Cell) (a n x : Nat) :
    byteAt (zeroBytes m a n) x = if a ≤ x ∧ x < a + n then 0 else byteAt m x := by
  rw [byteAt, zeroBytes, tbl_get_filter_key _ fun k => !(decide (a ≤ k) && decide (k < a + n))]
  simp only [← Bool.decide_and, Bool.not_eq_true', decide_eq_false_iff_not, ite_not]
  split
  · rfl
  · rfl

/-- Settles O15: bytes are stored one address after the other, and a range is cleared by taking its entries out. -/
theorem storedBytesReadBack : Obligations.StoredBytesReadBack := by
  unfold Obligations.StoredBytesReadBack
  exact ⟨fun _ a x l h => byteAt_putBytes h a x l, fun m a n x _ => byteAt_zeroBytes m a n x⟩

end Sys2Proof.Proofs
end

/-! ## Stalls and flash channels (R287 to R302)

What a die that is busy does when its time has run out, the checks a channel makes at an interval, and the supply of a
stall group. -/

section
namespace Sys2Proof.Proofs

open Sys2Proof Sys2Proof.Machine Sys2Proof.Laws Sys2Proof.Safety

/-- Settles O34: each timeout finds the die in the state it is about, a check finds its channel in service with nothing
armed, and each takes the branch its hypotheses name. -/
theorem stallTimeoutsAndChecksComplete : Obligations.StallTimeoutsAndChecksComplete := by
  unfold Obligations.StallTimeoutsAndChecksComplete
  refine ⟨?read, ?program, ?erase, ?suspend, ?reset, ?feature, ?zq, ?identity, ?supply⟩
  case read =>
    rintro s u v ch die l hsensing rfl hreads rfl rfl
    rw [exec_readTimeout, execReadTimeout, State.readTimeout]
    dsimp only
    rw [if_neg (not_or.mpr ⟨not_not.mpr hsensing, hreads⟩), if_neg Bool.false_ne_true]
  case program =>
    intro s ch die hprogram
    rw [exec_programTimeout, execProgramTimeout, State.programTimeout, if_neg (not_not.mpr hprogram),
      if_neg Bool.false_ne_true]
  case erase =>
    intro s ch die herase
    rw [exec_eraseTimeout, execEraseTimeout, State.eraseTimeout, if_neg (not_not.mpr herase),
      if_neg Bool.false_ne_true]
  case suspend =>
    intro s ch die hsuspending
    have hgo : ¬((s.die (ch * 16 + die)).state ≠ 5 ∧ (s.die (ch * 16 + die)).state ≠ 8) := by omega
    exact congrArg Host.Outcome.next (if_neg hgo)
  case reset =>
    intro s ch die target hreset
    exact congrArg Host.Outcome.next (if_neg (not_not.mpr hreset))
  case feature =>
    rintro s u ch die hon hreset rfl
    have hgo : ¬(s.dieOn ch die = false ∨ (s.die (ch * 16 + die)).state = 10) := by simp [hon, hreset]
    exact congrArg Host.Outcome.next (if_neg hgo)
  case zq =>
    rintro s u ch die hservice harmed rfl
    rw [exec_zqIntervalExpiry, execZqIntervalExpiry, if_neg (not_not.mpr hservice), stallFire_of_disarmed harmed]
    rfl
  case identity =>
    intro s ch die hservice harmed
    rw [exec_identityCheck, execIdentityCheck, if_neg (not_not.mpr hservice), stallFire_of_disarmed harmed]
    rfl
  case supply =>
    intro s group hgroup
    exact congrArg Host.Outcome.next (if_pos hgroup)

end Sys2Proof.Proofs
end

/-! ## Media integrity (R310 to R332)

A decode that ends with no point armed, the soft jobs, the patrol scrub's clock, and the errors the memory checkers
find. -/

section
namespace Sys2Proof.Proofs

open Sys2Proof Sys2Proof.Machine Sys2Proof.Laws Sys2Proof.Safety

/-! ### Decodes (R311 to R315) -/

/-- With nothing armed a hard decode at or above the step its last LADDER firing named fails by no injection (R571). -/
theorem hardFire_of_disarmed {s : State} {r : MRead} (h : s.armed = []) (hstep : r.failTo ≤ r.step) :
    s.hardFire r = (false, s) := by
  have hladder : s.ladderFire r = (false, s) := by
    rw [State.ladderFire, if_neg (Nat.not_lt.mpr hstep), fire_of_disarmed h]
    rfl
  rw [State.hardFire, fire_of_disarmed h]
  exact hladder

theorem headerFire_of_disarmed {s : State} (h : s.armed = []) (r : MRead) : s.headerFire r = (false, s) := by
  rw [State.headerFire, fire_of_disarmed h]
  rfl

/-- A running soft job ends when its own kind of job is done (R313). -/
theorem softDone_of_running {s : State} {read : Nat} {r : MRead} {j : SoftJob} (hread : s.readOf read = some r)
    (hjob : s.jobOf r = some j) (hrun : j.running = true) (ok : Bool) :
    s.softDone read j.full ok = s.softEnd r j.full ok := by
  simp only [State.softDone, hread, hjob]
  exact if_pos ⟨hrun, trivial⟩

/-! ### Memory walks (R326, R329) -/

/-- With nothing armed a walker's visit of a word of a checked group is the correction it makes, if any (R326). -/
theorem memoryScrubWalk_of_disarmed {s : State} {group : Nat} (hgroup : group ≤ 24) (h : s.armed = []) (addr : Nat)
    (bad : Bool) : exec (.memoryScrubWalk group addr bad) s =
      .next (if bad then s.fresh.2.corrected group (addr % 2 ^ 40) (Config.freeValue s.free) else s) := by
  simp only [exec_memoryScrubWalk, execMemoryScrubWalk, fire_of_disarmed h, if_true]
  rw [if_neg (Nat.not_lt.mpr hgroup)]
  rfl

/-- With nothing armed the walk of the key copies handles the rows it finds bad, and nothing else (R329). -/
theorem camParityWalk_of_disarmed {s : State} (h : s.armed = []) (bad : List (Nat × Nat)) :
    exec (.camParityWalk bad) s = .next (bad.foldl camRow s) := by
  simp only [exec_camParityWalk, execCamParityWalk, fire_of_disarmed h, if_neg Bool.false_ne_true]

/-- Settles O35: each command finds its read, its job, its device state or its group as its clause says, and nothing
armed fails a decode or answers for a checker. -/
theorem decodeScrubAndMemoryComplete : Obligations.DecodeScrubAndMemoryComplete := by
  unfold Obligations.DecodeScrubAndMemoryComplete
  refine ⟨?hard, ?soft, ?full, ?waited, ?pace, ?cycle, ?save, ?corrects, ?uncorrected, ?walk, ?keys⟩
  case hard =>
    rintro s u v read iters r y harmed hread hstage hstep hfail rfl hcounted hreadAfter rfl hpass
    have hgo : ¬(r.st ≠ 4 ∨ 9 ≤ r.step) := by omega
    simp only [exec_hardDecodeComplete, execHardDecodeComplete, hread, hardFire_of_disarmed harmed hfail]
    rw [if_neg hgo]
    simp only [Bool.not_false, Bool.and_true, if_true, headerFire_of_disarmed hcounted, hreadAfter,
      Option.getD_some, hpass]
  case soft =>
    intro s read ok r j hread hjob hrun hkind
    rw [exec_softPassComplete, execSoftPassComplete, ← hkind, softDone_of_running hread hjob hrun]
  case full =>
    intro s read ok r j hread hjob hrun hkind
    rw [exec_fullSoftDecodeComplete, execFullSoftDecodeComplete, ← hkind, softDone_of_running hread hjob hrun]
  case waited =>
    rintro s u read r j hread hjob hrank hidle hkept hkind rfl
    have hleaves : ¬(j.rank ≠ 1 ∨ j.running = true ∨ j.preempted = true ∨ j.full = true) := by
      simp [hrank, hidle, hkept, hkind]
    simp only [exec_softWaitExpiry, execSoftWaitExpiry, hread, hjob]
    rw [if_neg hleaves]
  case pace =>
    rintro s u rfl hstate
    exact congrArg Host.Outcome.next (if_pos hstate)
  case cycle =>
    rintro s u rfl hstate
    have hgo : ¬(s.scrubTime.dst ≠ 4 ∧ s.scrubTime.dst ≠ 5) := by omega
    exact congrArg Host.Outcome.next (if_neg hgo)
  case save =>
    intro s hlow hhigh
    exact congrArg Host.Outcome.next (if_pos ⟨hlow, hhigh⟩)
  case corrects =>
    intro s group addr syndrome hgroup
    exact congrArg Host.Outcome.next (if_neg (Nat.not_lt.mpr hgroup))
  case uncorrected =>
    intro s group addr what hgroup
    exact congrArg Host.Outcome.next (if_neg (Nat.not_lt.mpr hgroup))
  case walk =>
    intro s group addr bad hgroup harmed
    exact memoryScrubWalk_of_disarmed hgroup harmed addr bad
  case keys =>
    intro s bad harmed
    exact camParityWalk_of_disarmed harmed bad

end Sys2Proof.Proofs
end

/-! ## Checkpoints (R376, R383 to R388)

The ends of a lap, the step of the rolling walk, and the two saves. -/

section
namespace Sys2Proof.Proofs

open Sys2Proof Sys2Proof.Machine Sys2Proof.Laws

/-- Settles O37: a lap that runs gives its numbers to its end, a lateness not yet counted is counted, the walk's place
holds a line, and the two saves stand in the device states that allow them. -/
theorem checkpointsComplete : Obligations.CheckpointsComplete := by
  unfold Obligations.CheckpointsComplete
  refine ⟨?lap, ?late, ?walk, ?journal, ?records⟩
  case lap =>
    rintro s u v w num start next no hlap rfl rfl rfl
    rw [exec_lapComplete, execLapComplete, hlap]
  case late =>
    intro s hlap hlate
    have hcounts : ¬(s.bell.lap.isNone = true ∨ s.bell.lapLate = true) := by
      simp [Option.isNone_eq_false_iff.mpr hlap, hlate]
    exact congrArg Host.Outcome.next (if_neg hcounts)
  case walk =>
    rintro s u a i hstate rfl hline rfl
    have hlines : s.allLines ≠ [] := List.ne_nil_of_mem (List.mem_of_getElem? hline)
    have hgo : ¬((s.dst ≠ 4 ∧ s.dst ≠ 5) ∨ s.allLines = []) := by
      simp only [hlines, or_false]
      omega
    rw [exec_rollingWalk, execRollingWalk]
    simp only [if_neg hgo, hline]
  case journal =>
    intro s hlow hhigh
    exact congrArg Host.Outcome.next (if_pos ⟨hlow, hhigh⟩)
  case records =>
    intro s hstate
    exact congrArg Host.Outcome.next (if_pos hstate)

end Sys2Proof.Proofs
end

/-! ## The cipher (R400 to R419)

The round trip of a blob, media units and media keys, and the jobs of the user pages. -/

section
namespace Sys2Proof.Proofs

open Sys2Proof Sys2Proof.Machine Sys2Proof.Laws Sys2Proof.Safety

/-! ### Byte strings of a fixed length -/

@[simp] theorem bytesOf_length (n v : Nat) : (bytesOf v n).length = n := by
  induction n generalizing v with
  | zero => rfl
  | succ n ih => simp [bytesOf, ih]

@[simp] theorem beBytes_length (v n : Nat) : (beBytes v n).length = n := by simp [beBytes]

@[simp] theorem xorBytes_length (a b : List Nat) : (xorBytes a b).length = min a.length b.length := by
  simp [xorBytes]

theorem ofBytes_bytesOf {n v : Nat} (h : v < 256 ^ n) : ofBytes (bytesOf v n) = v := by
  induction n generalizing v with
  | zero => exact (Nat.lt_one_iff.mp h).symm
  | succ n ih =>
    have hrest : v / 256 < 256 ^ n := Nat.div_lt_of_lt_mul (by rwa [← Nat.pow_succ'])
    rw [bytesOf, ofBytes, ih hrest, Nat.mod_mod, Nat.mod_add_div]

/-- Bytes combined twice with as long a key stream are the bytes again. -/
theorem xorBytes_xorBytes {a k : List Nat} (h : a.length ≤ k.length) : xorBytes (xorBytes a k) k = a := by
  induction a generalizing k with
  | nil => rfl
  | cons x a ih =>
    cases k with
    | nil => simp at h
    | cons y k =>
      have hrest := ih (Nat.le_of_succ_le_succ h)
      simp only [xorBytes] at hrest
      simp only [xorBytes, List.zip_cons_cons, List.map_cons, hrest]
      exact congrArg (· :: a) (Nat.xor_xor_cancel_right x y)

/-! ### Counter mode undoes itself (R403, R413) -/

/-- The first block of a byte string in counter mode, and the rest from the next counter. -/
theorem ctrBlocks_pieces_succ {bs : List Nat} (h : bs ≠ []) (k : Nat) (gcm : Bool) (n c : Nat) :
    (ctrBlocks k gcm (pieces 16 (n + 1) bs) c).1 = xorBytes (bs.take 16) (beBytes (aes k c) 16)
      ++ (ctrBlocks k gcm (pieces 16 n (bs.drop 16)) (nextCtr gcm c)).1 := by
  rw [pieces, if_neg h]
  rfl

theorem ctrBlocks_pieces_nil (k : Nat) (gcm : Bool) (n c : Nat) : (ctrBlocks k gcm (pieces 16 n []) c).1 = [] := by
  cases n
  · rfl
  · rfl

theorem ctrBlocks_pieces_length (k : Nat) (gcm : Bool) {n : Nat} {bs : List Nat} (c : Nat) (h : bs.length ≤ 16 * n) :
    (ctrBlocks k gcm (pieces 16 n bs) c).1.length = bs.length := by
  induction n generalizing bs c with
  | zero => rw [List.length_eq_zero_iff.mp (Nat.le_zero.mp h)]; rfl
  | succ n ih =>
    by_cases hbs : bs = []
    · rw [hbs, ctrBlocks_pieces_nil]
    · have hrest : (bs.drop 16).length ≤ 16 * n := by rw [List.length_drop]; omega
      rw [ctrBlocks_pieces_succ hbs, List.length_append, ih _ hrest, xorBytes_length, beBytes_length, List.length_take,
        List.length_drop]
      omega

/-- A first block and what comes after it, put together, are cut apart again. -/
theorem take_drop_block {first rest : List Nat} {len : Nat} (hfirst : first.length = min 16 len)
    (hrest : rest.length = len - 16) : (first ++ rest).take 16 = first ∧ (first ++ rest).drop 16 = rest := by
  rcases Nat.le_total 16 len with hfull | hpart
  · have h16 : first.length = 16 := by omega
    exact ⟨List.take_left' h16, List.drop_left' h16⟩
  · obtain rfl : rest = [] := List.length_eq_zero_iff.mp (by omega)
    have h16 : first.length ≤ 16 := by omega
    simp [List.take_of_length_le h16, List.drop_of_length_le h16]

theorem ctrBlocks_pieces_twice (k : Nat) (gcm : Bool) {n : Nat} {bs : List Nat} (c : Nat) (h : bs.length ≤ 16 * n) :
    (ctrBlocks k gcm (pieces 16 n (ctrBlocks k gcm (pieces 16 n bs) c).1) c).1 = bs := by
  induction n generalizing bs c with
  | zero => rw [List.length_eq_zero_iff.mp (Nat.le_zero.mp h)]; rfl
  | succ n ih =>
    by_cases hbs : bs = []
    · rw [hbs, ctrBlocks_pieces_nil, ctrBlocks_pieces_nil]
    · have hrest : (bs.drop 16).length ≤ 16 * n := by rw [List.length_drop]; omega
      have hlen := ctrBlocks_pieces_length k gcm c h
      have hout : (ctrBlocks k gcm (pieces 16 (n + 1) bs) c).1 ≠ [] := by
        rwa [ne_eq, ← List.length_eq_zero_iff, hlen, List.length_eq_zero_iff]
      rw [ctrBlocks_pieces_succ hout, ctrBlocks_pieces_succ hbs]
      have hfirst : (xorBytes (bs.take 16) (beBytes (aes k c) 16)).length = min 16 bs.length := by simp
      have hafter : (ctrBlocks k gcm (pieces 16 n (bs.drop 16)) (nextCtr gcm c)).1.length = bs.length - 16 := by
        rw [ctrBlocks_pieces_length k gcm _ hrest, List.length_drop]
      obtain ⟨htake, hdrop⟩ := take_drop_block hfirst hafter
      rw [htake, hdrop, ih _ hrest, xorBytes_xorBytes (by simp), List.take_append_drop]

theorem ctrBytes_length (k : Nat) (gcm : Bool) (bs : List Nat) (c : Nat) :
    (ctrBytes k gcm bs c).1.length = bs.length :=
  ctrBlocks_pieces_length k gcm c (by omega)

/-- A byte string enciphered from a counter is deciphered from the same counter. -/
theorem ctrBytes_ctrBytes (k : Nat) (gcm : Bool) (bs : List Nat) (c : Nat) :
    (ctrBytes k gcm (ctrBytes k gcm bs c).1 c).1 = bs := by
  have hblocks : blocks16 (ctrBytes k gcm bs c).1 = pieces 16 (bs.length / 16 + 1) (ctrBytes k gcm bs c).1 := by
    rw [blocks16, ctrBytes_length]
  rw [ctrBytes, hblocks]
  exact ctrBlocks_pieces_twice k gcm c (by omega)

/-! ### Blobs (R408, R409, R414) -/

@[simp] theorem gcmTag_length (k j0 acc : Nat) : (gcmTag k j0 acc).length = 16 := by simp [gcmTag]

@[simp] theorem gcmSeal_cipher_length (k iv : Nat) (aad plain : List Nat) :
    (gcmSeal k iv aad plain).1.length = plain.length :=
  ctrBytes_length k true plain _

@[simp] theorem gcmSeal_tag_length (k iv : Nat) (aad plain : List Nat) : (gcmSeal k iv aad plain).2.length = 16 :=
  gcmTag_length _ _ _

/-- What is sealed opens under the same key, IV and AAD: the tag is taken over the same ciphertext and lengths, and the
key stream is the same. -/
theorem gcmOpen_gcmSeal (k iv : Nat) (aad plain : List Nat) :
    gcmOpen k iv aad (gcmSeal k iv aad plain).1 (gcmSeal k iv aad plain).2 = some plain := by
  have htag : gcmTag k (gcmJ0 iv) (ghash (gcmH k) (ghash (gcmH k) (ghash (gcmH k) 0 aad) (gcmSeal k iv aad plain).1)
      (lengthBlock aad.length (gcmSeal k iv aad plain).1.length)) = (gcmSeal k iv aad plain).2 := by
    rw [gcmSeal_cipher_length]
    rfl
  rw [gcmOpen, if_pos htag]
  exact congrArg some (ctrBytes_ctrBytes k true plain _)

/-- The bytes of a blob (R409): version, purpose, INDEX and SEQ, the IV, the ciphertext, the tag, and the bytes
reserved. -/
def blobOf (purpose : Nat) (index seq iv cipher tag : List Nat) : List Nat :=
  [1, purpose] ++ index ++ seq ++ iv ++ cipher ++ tag ++ List.replicate 12 0

section BlobFields

variable (purpose : Nat) {index seq iv cipher tag : List Nat} (hindex : index.length = 2) (hseq : seq.length = 4)
  (hiv : iv.length = 12) (hcipher : cipher.length = 80) (htag : tag.length = 16)
include hindex hseq hiv hcipher htag

theorem blobOf_length : (blobOf purpose index seq iv cipher tag).length = 128 := by
  simp [blobOf, hindex, hseq, hiv, hcipher, htag]

/-- A blob opens for its purpose by its INDEX, its first 8 bytes as AAD, its IV, ciphertext and tag. -/
theorem openBlob_blobOf : openBlob purpose (blobOf purpose index seq iv cipher tag) =
    (gcmOpen Config.wrapKey (beNum iv) ([1, purpose] ++ index ++ seq) cipher tag).map fun p => (ofBytes index, p) := by
  have hlen := blobOf_length purpose hindex hseq hiv hcipher htag
  have haad : (blobOf purpose index seq iv cipher tag).take 8 = [1, purpose] ++ index ++ seq := by
    simp [blobOf, List.take_append, hindex, hseq]
  have hindexAt : ((blobOf purpose index seq iv cipher tag).drop 2).take 2 = index := by
    simp [blobOf, hindex]
  have hivAt : ((blobOf purpose index seq iv cipher tag).drop 8).take 12 = iv := by
    simp [blobOf, List.drop_append, List.drop_of_length_le, hindex, hseq, hiv]
  have hcipherAt : ((blobOf purpose index seq iv cipher tag).drop 20).take 80 = cipher := by
    simp [blobOf, List.drop_append, List.drop_of_length_le, hindex, hseq, hiv, hcipher]
  have htagAt : ((blobOf purpose index seq iv cipher tag).drop 100).take 16 = tag := by
    simp [blobOf, List.drop_append, List.drop_of_length_le, hindex, hseq, hiv, hcipher, htag]
  rw [openBlob, if_pos ⟨hlen, rfl, rfl⟩, haad, hindexAt, hivAt, hcipherAt, htagAt]
  cases gcmOpen Config.wrapKey (beNum iv) ([1, purpose] ++ index ++ seq) cipher tag
  · rfl
  · rfl

end BlobFields

/-- A blob opens for no purpose but its own. -/
theorem openBlob_of_other_purpose {purpose other : Nat} (h : other ≠ purpose) (index seq iv cipher tag : List Nat) :
    openBlob other (blobOf purpose index seq iv cipher tag) = none := by
  refine if_neg ?_
  rintro ⟨-, -, hpurpose⟩
  exact h hpurpose.symm

/-- The blob that the device wraps: SEQ and IV from the wrap counter, the payload sealed under the wrap key (R409). -/
theorem wrapBlob_eq_blobOf (s : State) (purpose index : Nat) (payload : List Nat) :
    ∃ seq iv : List Nat, seq.length = 4 ∧ iv.length = 12 ∧ (s.wrapBlob purpose index payload).1 =
      blobOf purpose (bytesOf index 2) seq iv
        (gcmSeal Config.wrapKey (beNum iv) ([1, purpose] ++ bytesOf index 2 ++ seq) payload).1
        (gcmSeal Config.wrapKey (beNum iv) ([1, purpose] ++ bytesOf index 2 ++ seq) payload).2 :=
  ⟨bytesOf s.takeWrap.1 4, List.replicate 4 0 ++ bytesOf s.takeWrap.1 8, by simp, by simp, rfl⟩

/-- Settles O41: the fields of the blob are cut out as they were put together, and what was sealed opens. -/
theorem aWrappedBlobOpens : Obligations.AWrappedBlobOpens := by
  unfold Obligations.AWrappedBlobOpens
  intro s purpose index payload hindex hpayload
  obtain ⟨seq, iv, hseq, hiv, hblob⟩ := wrapBlob_eq_blobOf s purpose index payload
  have hcipher :=
    (gcmSeal_cipher_length Config.wrapKey (beNum iv) ([1, purpose] ++ bytesOf index 2 ++ seq) payload).trans hpayload
  have htag := gcmSeal_tag_length Config.wrapKey (beNum iv) ([1, purpose] ++ bytesOf index 2 ++ seq) payload
  rw [hblob]
  refine ⟨?length, ?opens, ?otherwise⟩
  case length => exact blobOf_length purpose (bytesOf_length 2 index) hseq hiv hcipher htag
  case opens =>
    rw [openBlob_blobOf purpose (bytesOf_length 2 index) hseq hiv hcipher htag, gcmOpen_gcmSeal, Option.map_some,
      ofBytes_bytesOf hindex]
  case otherwise =>
    intro other hother
    exact openBlob_of_other_purpose hother _ _ _ _ _

/-! ### Media units and media keys (R401 to R410, R417) -/

/-- With nothing armed no slot error is injected (R571). -/
theorem slotFire_of_disarmed {s : State} (h : s.armed = []) (slot : Nat) : s.slotFire slot = s := by
  rw [State.slotFire, fire_of_disarmed h]
  rfl

/-- Settles O38: nothing armed fails a slot, each pipe finds its unit, the checks of GENERATE are passed or not as its
clause says, and a key waits for its record. -/
theorem cipherMediaCommandsComplete : Obligations.CipherMediaCommandsComplete := by
  unfold Obligations.CipherMediaCommandsComplete
  refine ⟨?encipher, ?decipher, ?generate, ?refused, ?dropped, ?written, ?notWritten⟩
  case encipher =>
    rintro s u id p hunit harmed rfl
    have hslots : ∀ l : List UnitIu, l.foldl (fun t i => t.slotFire (i.nsid - 1)) s = s :=
      List.foldl_fixed' fun i => slotFire_of_disarmed harmed _
    simp only [exec_cipherUnitComplete, execCipherUnitComplete, if_true, hunit, hslots]
  case decipher =>
    intro s id r y hread hgot hstage harmed
    simp only [exec_cipherUnitComplete, execCipherUnitComplete, if_false, hread, hgot, hstage, if_true,
      slotFire_of_disarmed harmed, Bool.false_eq_true]
  case generate =>
    rintro s u who slot hu hbusy rfl hpermitted huse
    rw [exec_mediaKeyGenerate, execMediaKeyGenerate, access_of_reaches hu]
    simp only [mayWrite_of_reaches hu, hbusy, hpermitted, huse, Bool.true_eq_false, if_false, ne_eq,
      not_true_eq_false, zero_ne_one]
  case refused =>
    intro s u who hu hbusy hpermitted
    rw [exec_mediaKeyGenerate, execMediaKeyGenerate, access_of_reaches hu]
    simp only [mayWrite_of_reaches hu, hbusy, hpermitted, Bool.true_eq_false, if_false, if_true, zero_ne_one]
  case dropped =>
    intro s u who hu hbusy
    rw [exec_mediaKeyGenerate, execMediaKeyGenerate, access_of_reaches hu]
    simp only [mayWrite_of_reaches hu, hbusy, Bool.true_eq_false, if_false, if_true]
  case written =>
    rintro s u v slot k1 k2 hgenerating rfl rfl
    simp only [exec_keyRecordWritten, execKeyRecordWritten, hgenerating, if_true]
  case notWritten =>
    rintro s u hgenerating rfl
    obtain ⟨⟨slot, k1, k2⟩, hkey⟩ := Option.ne_none_iff_exists'.mp hgenerating
    simp only [exec_keyRecordWritten, execKeyRecordWritten, hkey, if_false, Bool.false_eq_true]

/-! ### Jobs of the user pages (R411 to R418) -/

/-- A command that reaches a user page it owns, with no job running there, takes its effect (R411, R418). -/
theorem onPage_of_reachesUser {s u : State} {who : Initiator} {page : Nat} (h : ReachesUser s who page u) (off : Nat)
    (g : State → State) : s.onPage who page off g = g u := by
  obtain ⟨hpage, hon, hfire, rfl, hmay, hbusy⟩ := h
  rw [State.onPage, if_neg (Nat.not_le.mpr hpage), State.access, if_pos hon]
  simp only [hmay, hfire, hbusy, Bool.true_eq_false, Bool.false_eq_true, if_false, zero_ne_one]

/-- Settles O39: GO, SAVE and RESTORE reach their page idle and take the branch their hypotheses name; a running job
moves its bytes where its source and destination pass, and ends with code 5 where one does not. -/
theorem cipherJobsComplete : Obligations.CipherJobsComplete := by
  unfold Obligations.CipherJobsComplete
  refine ⟨?starts, ?refused, ?ends, ?unusable, ?aborted, ?saved, ?restored⟩
  case starts =>
    rintro s u v who page flags j hu rfl hpasses rfl
    rw [exec_jobGo, execJobGo, onPage_of_reachesUser hu]
    simp only [hpasses]
  case refused =>
    rintro s u v who page flags code j hu rfl hrefused rfl
    rw [exec_jobGo, execJobGo, onPage_of_reachesUser hu]
    simp only [hrefused]
  case ends =>
    rintro s u page n sk dk j hjob rfl rfl rfl hsrc hdst rfl
    simp only [exec_jobComplete, execJobComplete, hjob, hsrc, hdst, Bool.true_eq_false, or_self, if_false]
  case unusable =>
    intro s page j hjob hfails
    simp only [exec_jobComplete, execJobComplete, hjob, if_pos hfails]
  case aborted =>
    rintro s u who page hpage hon rfl hmay
    rw [exec_jobAbort, execJobAbort, if_neg (Nat.not_le.mpr hpage), State.access, if_pos hon,
      if_neg (ne_false_of_eq_true hmay)]
  case saved =>
    rintro s u v who page y hu hchain hdst rfl
    rw [exec_jobSave, execJobSave, onPage_of_reachesUser hu]
    simp only [hchain, hdst, Bool.true_eq_false, if_false]
  case restored =>
    intro s u who page hu hsrc
    rw [exec_jobRestore, execJobRestore, onPage_of_reachesUser hu]
    simp only [hsrc, Bool.true_eq_false, if_false]
    rcases openBlob 3 (u.srcBytes (u.rd R.CUSER.JOB_SRC_KIND page) (u.jobSrc page) 128) with _ | ⟨index, payload⟩
    · rfl
    · cases hslot : u.genSlot (Chain.ofPayload payload).slot
      · simp only [hslot, Option.any_none]
      · simp only [hslot, Option.any_some]

end Sys2Proof.Proofs
end

/-! ## The Porter (R420 to R440)

The start of a descriptor, the bursts of a port, write responses, timers and the controls of a firmware channel. -/

section
namespace Sys2Proof.Proofs

open Sys2Proof Sys2Proof.Machine Sys2Proof.Laws Sys2Proof.Safety

/-! ### The start of a descriptor (R428 to R430) -/

theorem limFire_of_disarmed {s : State} (h : s.armed = []) (limit : Nat) : s.limFire limit = (false, s) :=
  fire_of_disarmed h _ _ _

/-- Channel `ch` is a firmware channel that is enabled and at rest, with a descriptor in its ring and the start token
its start source asks for, in a device whose Porter runs (R428, R430). -/
structure DescWaits (s : State) (ch : Nat) : Prop where
  firmware : 8 ≤ ch
  inRange : ch < 64
  enabled : s.rd R.PCHAN.CH_CTRL_ENABLE ch = 1
  rests : s.chState ch ≤ 1
  idle : (s.pch ch).desc = none
  waits : s.ringWaits ch = true
  token : s.rd R.PCHAN.CH_CFG_START_KIND ch = 0 ∨ s.rd R.PCHAN.CH_STAT_TOKENS ch ≠ 0
  runs : s.por.stopped = false
  beforeClosing : s.dst < 6

/-- The state in which the channel has spent the token of its start source (R430). -/
def tokenSpent (s : State) (ch : Nat) : State :=
  if s.rd R.PCHAN.CH_CFG_START_KIND ch = 0 then s
  else s.wr R.PCHAN.CH_STAT_TOKENS (s.rd R.PCHAN.CH_STAT_TOKENS ch - 1) ch

/-- The state in which the channel runs descriptor `d` with no byte moved (R428). -/
def descTaken (s : State) (ch : Nat) (d : PDesc) : State :=
  (s.mCh ch fun x => { x with desc := some d, out := 0, poisoned := false, passed := 0 }).set R.PCHAN.CH_STAT_STATE 4 ch

/-- The outcome of a descriptor's checks: one that fails ends with the code of its check and moves nothing, a host
address that no window allows being counted under limit 0 as well; one that passes holds its crates and moves through
the port of its host window (R429, R501). -/
def descChecked (v : State) (ch : Nat) (d : PDesc) : Option (Nat × Option Nat) → State
  | some (code, some host) =>
    ((v.refuse 0 4 ch host false).mCh ch fun x => { x with desc := some { d with sk := 0, dk := 0 } }).endDesc ch code false
  | some (code, none) => (v.mCh ch fun x => { x with desc := some { d with sk := 0, dk := 0 } }).endDesc ch code false
  | none => (d.crates.foldl (fun t n => t.takeRef n) v).mCh ch fun x => { x with desc := some { d with
      port := ((if d.dk = 2 then v.hostAllows ch d.dst d.len true else none).orElse fun _ =>
        if d.sk = 2 then v.hostAllows ch d.src d.len false else none).getD 0 } }

theorem tokenSpent_armed (s : State) (ch : Nat) : (tokenSpent s ch).armed = s.armed := by
  rw [tokenSpent, apply_ite State.armed, wr_armed, ite_self]

/-- With nothing armed, a descriptor that waits is taken and its own checks decide (R428, R429). -/
theorem exec_descriptorStart_of_waits {s u v : State} {ch : Nat} {d : PDesc} {rsv : Bool} (h : DescWaits s ch)
    (harmed : s.armed = []) (hu : u = tokenSpent s ch) (hfetch : u.fetchDesc ch = (d, rsv)) (hv : v = descTaken u ch d)
    (hvarmed : v.armed = []) :
    exec (.descriptorStart ch) s = .next (descChecked v ch d (v.descFault ch d rsv)) := by
  obtain ⟨hfirmware, hrange, henabled, hrests, hidle, hwaits, htoken, hruns, hopen⟩ := h
  have hguard : ¬(ch < 8 ∨ 64 ≤ ch ∨ s.rd R.PCHAN.CH_CTRL_ENABLE ch = 0 ∨ 1 < s.chState ch ∨ (s.pch ch).desc.isSome
      ∨ s.ringWaits ch = false ∨ (s.rd R.PCHAN.CH_CFG_START_KIND ch ≠ 0 ∧ s.rd R.PCHAN.CH_STAT_TOKENS ch = 0)
      ∨ s.por.stopped ∨ 6 ≤ s.dst) := by
    simp only [hidle, henabled, hwaits, hruns, Option.isSome_none, Bool.false_eq_true, Bool.true_eq_false, false_or]
    omega
  have huarmed : u.armed = [] := hu ▸ (tokenSpent_armed s ch).trans harmed
  rw [exec_descriptorStart, execDescriptorStart]
  dsimp only
  rw [if_neg hguard, ← tokenSpent, ← hu, fire_of_disarmed huarmed, hfetch]
  dsimp only
  rw [← descTaken, ← hv, limFire_of_disarmed hvarmed, ite_self]
  dsimp only
  rcases v.descFault ch d rsv with _ | ⟨code, _ | host⟩
  · rfl
  · rfl
  · rfl

/-! ### Bursts and responses (R424, R432 to R434) -/

/-- Settles O42: a waiting descriptor is taken and the outcome of its checks names the branch; the port serves the
burst picked; a response belongs to the descriptor before the running one while that one waits for any. -/
theorem porterTransfersComplete : Obligations.PorterTransfersComplete := by
  unfold Obligations.PorterTransfersComplete
  refine ⟨?moves, ?ended, ?refused, ?burst, ?previousGood, ?runningGood, ?late, ?early⟩
  case moves =>
    intro s u v ch d rsv hfirmware hrange hen hrests hidle hwaits htoken hruns hopen harmed hu hfetch hv hvarmed hpasses
    rw [exec_descriptorStart_of_waits ⟨hfirmware, hrange, hen, hrests, hidle, hwaits, htoken, hruns, hopen⟩ harmed hu
      hfetch hv hvarmed, hpasses, descChecked]
  case ended =>
    intro s u v ch code d rsv hfirmware hrange hen hrests hidle hwaits htoken hruns hopen harmed hu hfetch hv hvarmed
      hfails
    rw [exec_descriptorStart_of_waits ⟨hfirmware, hrange, hen, hrests, hidle, hwaits, htoken, hruns, hopen⟩ harmed hu
      hfetch hv hvarmed, hfails, descChecked]
  case refused =>
    intro s u v ch code host d rsv hfirmware hrange hen hrests hidle hwaits htoken hruns hopen harmed hu hfetch hv
      hvarmed hfails
    rw [exec_descriptorStart_of_waits ⟨hfirmware, hrange, hen, hrests, hidle, hwaits, htoken, hruns, hopen⟩ harmed hu
      hfetch hv hvarmed, hfails, descChecked]
  case burst =>
    rintro s u prt ch pri aged hruns hpick rfl
    simp only [exec_porterBurst, execPorterBurst, hruns, hpick, Bool.false_eq_true, if_false]
  case previousGood =>
    intro s ch d hprev harmed
    simp only [exec_porterWriteResponse, execPorterWriteResponse, hprev, fire_of_disarmed harmed, Bool.false_eq_true,
      if_false]
  case runningGood =>
    intro s ch hprev hout
    simp only [exec_porterWriteResponse, execPorterWriteResponse, hprev, if_neg hout]
  case late =>
    intro s ch d hprev
    simp only [exec_writeResponseError, execWriteResponseError, hprev]
  case early =>
    rintro s u ch d hprev hdesc hout rfl
    simp only [exec_writeResponseError, execWriteResponseError, hprev, hdesc, if_neg hout]

/-! ### Timers and the controls of a firmware channel (R431, R436, R439) -/

/-- A control that reaches a firmware channel it owns takes its effect (R434, R439). -/
theorem onChan_of_reachesChan {s u : State} {who : Initiator} {ch : Nat} (h : ReachesChan s who ch u) (off : Nat)
    (g : State → State) : s.onChan who ch off g = g u := by
  obtain ⟨hfirmware, hrange, hon, hfire, rfl, howner⟩ := h
  rw [State.onChan, if_neg (by omega), State.access, if_pos hon]
  simp only [howner, hfire, Bool.true_eq_false, Bool.false_eq_true, if_false]

/-- Settles O43: each control acts in the state its owner reaches; a timer that is enabled and a stopping channel with
no response outstanding pass their guards. -/
theorem porterControlsComplete : Obligations.PorterControlsComplete := by
  unfold Obligations.PorterControlsComplete
  refine ⟨?timer, ?go, ?stop, ?enable, ?pop, ?stopped⟩
  case timer =>
    rintro s u v w timer hrange henabled rfl rfl rfl
    have hguard : ¬(16 ≤ timer ∨ s.rd (R.PORTER.TMR_CTRL_ENABLE timer) = 0) := by omega
    rw [exec_porterTimerExpiry, execPorterTimerExpiry, if_neg hguard]
  case go =>
    intro s u who ch hu
    rw [exec_chCtrlGo, execChCtrlGo, onChan_of_reachesChan hu]
  case stop =>
    intro s u who ch hu
    rw [exec_chCtrlStop, execChCtrlStop, onChan_of_reachesChan hu]
  case enable =>
    intro s u who ch on hu
    rw [exec_chCtrlEnable, execChCtrlEnable, onChan_of_reachesChan hu]
  case pop =>
    intro s u who ch hu
    rw [exec_cplPop, execCplPop, onChan_of_reachesChan hu]
  case stopped =>
    rintro s u ch hstate hprev hout rfl
    have hguard : ¬(s.chState ch ≠ 5 ∨ (s.pch ch).prevOut ≠ 0 ∨ (s.pch ch).out ≠ 0) := by omega
    exact congrArg Host.Outcome.next (if_neg hguard)

end Sys2Proof.Proofs
end

/-! ## Islands, crossings and rights (R441 to R463, R499, R500)

How a register write reaches the island of its page, what becomes of one that its page's domain or its initiator's right
turns away, and the loss of a crossing. -/

section
namespace Sys2Proof.Proofs

open Sys2Proof Sys2Proof.Machine Sys2Proof.Laws Sys2Proof.Safety

/-! ### Register writes that give a command (R460, R500, R607) -/

/-- A command that a register write into another domain gives is that access (R460), and its page denies it to an
initiator with no write path to the field that carries it (R607). -/
theorem access_of_crossingWrite {who : Initiator} {a b : Nat} {x y : Bool} {e : Instr × Field}
    (h : CrossingWrite who a b x y e) (s : State) :
    ∃ g : State → State, exec e.1 s = .next (s.access who (pageOf e.2 0) e.2.off true g)
      ∧ ∀ u, mayWrite e.2 who = false → g u = u.denyWrite who e.2 := by
  by_cases hwin : e = (.winDataAccess who true b, R.CRATEYD.WIN_DATA_DATA)
  · subst hwin
    exact ⟨_, rfl, fun _ hmay => if_pos ⟨rfl, hmay⟩⟩
  · simp only [CrossingWrite, List.mem_cons, hwin, List.not_mem_nil, false_or, or_false] at h
    rcases h with rfl | rfl | rfl | rfl | rfl | rfl | rfl | rfl | rfl | rfl | rfl | rfl | rfl | rfl | rfl | rfl | rfl
      | rfl | rfl | rfl | rfl | rfl | rfl | rfl
    all_goals exact ⟨_, rfl, fun _ hmay => if_pos hmay⟩

/-- A command that a register write to WATCH gives is denied to an initiator with no write path to its field. -/
theorem exec_of_watchWrite {who : Initiator} {a b : Nat} {x : Bool} {e : Instr × Field} (h : WatchWrite who a b x e)
    (hmay : mayWrite e.2 who = false) (s : State) : exec e.1 s = .next (s.denyWrite who e.2) := by
  simp only [WatchWrite, List.mem_cons, List.not_mem_nil, or_false] at h
  rcases h with rfl | rfl | rfl | rfl | rfl | rfl | rfl | rfl | rfl | rfl | rfl | rfl
  case inl => exact congrArg Host.Outcome.next (if_neg (ne_true_of_eq_false hmay))
  all_goals exact congrArg Host.Outcome.next (if_pos hmay)

/-- Settles O58: the command is an access, and the source side of the crossing answers it. -/
theorem aWriteIntoAnUnpoweredDomainIsDropped : Obligations.AWriteIntoAnUnpoweredDomainIsDropped := by
  unfold Obligations.AWriteIntoAnUnpoweredDomainIsDropped
  intro s who a b x y e he hoff
  obtain ⟨g, haccess, -⟩ := access_of_crossingWrite he s
  rw [haccess, State.access, if_neg (ne_true_of_eq_false hoff)]
  rfl

/-- Settles O59: an access that its page answers takes its effect there, which is the denial; a write to WATCH is denied
where it stands. -/
theorem aWriteWithoutTheRightIsCountedOnly : Obligations.AWriteWithoutTheRightIsCountedOnly := by
  unfold Obligations.AWriteWithoutTheRightIsCountedOnly
  refine ⟨?crossing, ?watch⟩
  case crossing =>
    intro s who a b x y e he hon hmay
    obtain ⟨g, haccess, hdenied⟩ := access_of_crossingWrite he s
    rw [haccess, State.access, if_pos hon, hdenied _ hmay]
    rfl
  case watch =>
    intro s who a b x e he hmay
    exact exec_of_watchWrite he hmay s

/-! ### Gating and waking (R450, R451) -/

@[simp] theorem raise_armed (s : State) (p e : Nat) : (s.raise p e).armed = s.armed := by
  simp only [State.raise, apply_ite State.armed, wr_armed, ite_self]

@[simp] theorem count_armed (s : State) (f : Field) (i b n : Nat) : (s.count f i b n).armed = s.armed := by
  simp only [State.count, apply_ite State.armed, raise_armed, wr_armed, ite_self]

@[simp] theorem peak_armed (s : State) (f : Field) (v i b : Nat) : (s.peak f v i b).armed = s.armed := by
  simp only [State.peak, apply_ite State.armed, wr_armed, ite_self]

/-- Settles O44: an island that no condition of R450 keeps running is gated, a gated one wakes with no point armed to
report it, and a lost crossing has two ends that its watchdog or the failed wake names. -/
theorem islandsAndCrossingsComplete : Obligations.IslandsAndCrossingsComplete := by
  unfold Obligations.IslandsAndCrossingsComplete
  refine ⟨?gate, ?wake, ?fails, ?expires⟩
  case gate =>
    intro s island hisland hrunning hmay hon henabled
    have hgates : ¬(117 ≤ island ∨ s.isl.gated.contains island = true ∨ s.neverGated island = true
        ∨ s.islandOn island = false ∨ s.rd R.XCLK.GATE_CFG_ENABLE 0 island = 0) := by
      simp only [hrunning, hmay, hon, henabled, Bool.false_eq_true, Bool.true_eq_false, or_false]
      exact Nat.not_le.mpr hisland
    exact congrArg Host.Outcome.next (if_neg hgates)
  case wake =>
    rintro s u island ns hgated harmed rfl
    have hcounted : (((s.mIsl fun x => { x with gated := x.gated.filter fun n => decide (n ≠ island) }).count
        R.XCLK.WAKE_CNT_COUNT).peak R.XCLK.WAKE_MAX_NS ns).armed = [] := by
      rw [peak_armed, count_armed, mIsl_armed, harmed]
    rw [exec_islandWake, execIslandWake, State.wakeIsland, if_neg (ne_false_of_eq_true hgated)]
    dsimp only
    rw [fire_of_disarmed hcounted, if_neg Bool.false_ne_true]
  case fails =>
    intro s src dst hcrossing hgated
    have hfails : ¬(crossing src dst = false ∨ s.isl.gated.contains dst = false) := by
      simp only [hcrossing, hgated, Bool.true_eq_false, or_self, not_false_eq_true]
    exact congrArg Host.Outcome.next (if_neg hfails)
  case expires =>
    intro s src dst hcrossing hsrc hdst
    have hexpires : ¬(crossing src dst = false ∨ s.islandOn src = false ∨ s.islandOn dst = false) := by
      simp only [hcrossing, hsrc, hdst, Bool.true_eq_false, or_self, not_false_eq_true]
    exact congrArg Host.Outcome.next (if_neg hexpires)

/-- Settles O57: both are reported by the same counter, latch and record, and cost what the table says. -/
theorem aFailedWakeIsALostCrossing : Obligations.AFailedWakeIsALostCrossing := by
  unfold Obligations.AFailedWakeIsALostCrossing
  obtain ⟨-, -, hfails, hexpires⟩ := islandsAndCrossingsComplete
  intro s src dst wake hcrossing hends
  cases wake with
  | true => exact hfails s src dst hcrossing hends
  | false => exact hexpires s src dst hcrossing hends.1 hends.2

end Sys2Proof.Proofs
end

/-! ## Power (R464 to R487)

Votes, domains, the clocks and the voltage, and the ways into and out of a non-operational state. -/

section
namespace Sys2Proof.Proofs

open Sys2Proof Sys2Proof.Machine Sys2Proof.Laws Sys2Proof.Safety

/-! ### Votes (R466, R469, R481) -/

/-- A write of a vote register by its owner loads the domains it names but WATCH, and is treated under R481. -/
theorem voteWrite_of_mayWrite {s : State} {who : Initiator} {f : Field} (hmay : mayWrite f who = true)
    (harmed : s.armed = []) (domains : Nat) :
    s.voteWrite who f domains = (s.wr f (clrBit (domains % 2 ^ 17) 0)).heedVotes := by
  simp only [State.voteWrite, limFire_of_disarmed harmed, hmay, Bool.true_eq_false, Bool.false_eq_true, if_false]

/-- A write of a vote register by another initiator leaves it as it was (R469, R500). -/
theorem voteWrite_of_not_mayWrite {s : State} {who : Initiator} {f : Field} (hmay : mayWrite f who = false)
    (harmed : s.armed = []) (domains : Nat) :
    s.voteWrite who f domains = (s.count R.POWER.VOTE_REFUSED_COUNT).refuse 7 (initCode who) (initHart who)
      (regAddr who (pageOf f 0) f.off) := by
  simp only [State.voteWrite, limFire_of_disarmed harmed, hmay, if_true]

theorem voteWrite_of_disarmed {s : State} (harmed : s.armed = []) (who : Initiator) (f : Field) (domains : Nat) :
    s.voteWrite who f domains = if mayWrite f who then (s.wr f (clrBit (domains % 2 ^ 17) 0)).heedVotes
      else (s.count R.POWER.VOTE_REFUSED_COUNT).refuse 7 (initCode who) (initHart who)
        (regAddr who (pageOf f 0) f.off) := by
  cases hmay : mayWrite f who with
  | true => exact voteWrite_of_mayWrite hmay harmed domains
  | false => exact voteWrite_of_not_mayWrite hmay harmed domains

/-- All but the boot ROM write a field by their bit of its mask (R12). -/
theorem mayWrite_of_ne_bootRom {who : Initiator} (h : who ≠ .bootRom) (f : Field) :
    mayWrite f who = decide (f.who / initMask who % 2 = 1) := by
  rw [mayWrite, decide_eq_false h, Bool.false_or]

/-- Settles O56: a write of either register is what its owner's or another's write of a vote is, and the masks of the two
fields name one core each. -/
theorem onlyItsOwnerWritesAVote : Obligations.OnlyItsOwnerWritesAVote := by
  unfold Obligations.OnlyItsOwnerWritesAVote
  refine ⟨?writes, ?owners⟩
  case writes =>
    intro s who domains harmed
    exact ⟨congrArg _ (voteWrite_of_disarmed harmed who _ domains),
      congrArg _ (voteWrite_of_disarmed harmed who _ domains)⟩
  case owners =>
    intro h b m
    have hpolicy : Initiator.policy h m b ≠ .bootRom := by simp
    have hmgmt : Initiator.mgmt h b ≠ .bootRom := by simp
    have hpol : R.POWER.POL_VOTE_DOMAINS.who = 1 := rfl
    have hmgt : R.POWER.MGT_VOTE_DOMAINS.who = 6 := rfl
    simp [mayWrite_of_ne_bootRom hpolicy, mayWrite_of_ne_bootRom hmgmt, initMask, hpol, hmgt]

/-! ### Domains, clocks and states (R466 to R482) -/

/-- Settles O45: votes by their owner, domains by the conditions of R466 and R468, a request by its two parts, and each
entry, wait, exit and idle time by the guards its clause names. -/
theorem powerDomainsAndStatesComplete : Obligations.PowerDomainsAndStatesComplete := by
  unfold Obligations.PowerDomainsAndStatesComplete
  refine ⟨?polOwner, ?polOther, ?mgtOwner, ?mgtOther, ?domainOn, ?domainOff, ?request, ?settled, ?entry, ?waits, ?exit,
    ?idle⟩
  case polOwner =>
    intro s who domains hmay harmed
    exact congrArg _ (voteWrite_of_mayWrite hmay harmed domains)
  case polOther =>
    intro s who domains hmay harmed
    exact congrArg _ (voteWrite_of_not_mayWrite hmay harmed domains)
  case mgtOwner =>
    intro s who domains hmay harmed
    exact congrArg _ (voteWrite_of_mayWrite hmay harmed domains)
  case mgtOther =>
    intro s who domains hmay harmed
    exact congrArg _ (voteWrite_of_not_mayWrite hmay harmed domains)
  case domainOn =>
    intro s domain hpos hlt hstate hoff hvoted hplan hlower
    have hasked : ¬(domain = 0 ∨ 17 ≤ domain ∨ (s.dst ≠ 4 ∧ s.dst ≠ 5) ∨ s.domOn domain = true
        ∨ s.voted domain = false) := by
      simp only [hoff, hvoted, Bool.false_eq_true, Bool.true_eq_false, or_false]
      omega
    have hstays : ¬(planOff s.eff domain = true ∧ s.pwr.exiting = false) := by
      rintro ⟨hkept, hstill⟩
      simp [hkept, hstill] at hplan
    rw [exec_domainPowerOn, execDomainPowerOn, if_neg hasked, if_neg hstays, if_neg (ne_true_of_eq_false hlower)]
  case domainOff =>
    intro s domain h0 hlt h1 h3 hdata hstate hexit hvoted
    have hgoes : ¬(domain = 0 ∨ 17 ≤ domain ∨ domain = 1 ∨ domain = 3 ∨ (domain = 2 ∧ s.eff ≠ 4)
        ∨ (s.dst ≠ 4 ∧ s.dst ≠ 5) ∨ s.pwr.exiting = true ∨ s.voted domain = true) := by
      simp only [hexit, hvoted, Bool.false_eq_true, or_false]
      omega
    exact congrArg Host.Outcome.next (if_neg hgoes)
  case request =>
    rintro s u v w who clk vdd ck vd holdC holdV hmay harmed rfl rfl rfl rfl rfl rfl rfl
    simp only [exec_dvfsReq, execDvfsReq, hmay, limFire_of_disarmed harmed, Bool.true_eq_false, Bool.false_eq_true,
      if_false, decide_eq_true_eq]
  case settled =>
    intro s
    rfl
  case entry =>
    intro s d hentering hservice hdeeper hwanted hfree
    have hgo : ¬(s.dst ≠ 4 ∨ d ≤ s.eff ∨ s.wantPs ≠ d) := by omega
    simp only [exec_nonopEntry, execNonopEntry, hentering, hfree]
    rw [if_neg hgo]
    rfl
  case waits =>
    rintro s u d hentering hservice hdeeper hwanted hblocked hfirst rfl
    have hgo : ¬(s.dst ≠ 4 ∨ d ≤ s.eff ∨ s.wantPs ≠ d) := by omega
    simp only [exec_nonopEntry, execNonopEntry, hentering, hblocked, hfirst]
    rw [if_neg hgo]
    rfl
  case exit =>
    rintro s u v w hexiting heff rfl rfl rfl
    have hgo : ¬(s.pwr.exiting = false ∨ s.eff ≤ 2) := by
      simp only [hexiting, Bool.true_eq_false, false_or]
      exact Nat.not_le.mpr heff
    exact congrArg Host.Outcome.next (if_neg hgo)
  case idle =>
    rintro s u v l hservice rfl hsome rfl rfl
    rw [exec_apstItptExpiry, execApstItptExpiry, if_neg (not_not.mpr hservice)]
    exact congrArg Host.Outcome.next (if_neg hsome)

end Sys2Proof.Proofs
end

/-! ## Processors (R488 to R509)

Watchdogs, the resets of CORE, timers, and the admin commands firmware takes and completes. -/

section
namespace Sys2Proof.Proofs

open Sys2Proof Sys2Proof.Machine Sys2Proof.Laws Sys2Proof.Safety

/-! ### What a write leaves a field of another place -/

theorem tbl_get_erase_of_ne {α : Type} (d : α) {k j : Nat} (h : k ≠ j) (t : Tbl α) :
    Tbl.get d (Tbl.erase t k) j = Tbl.get d t j := by
  induction t with
  | nil => rfl
  | cons e t ih =>
    by_cases hk : e.1 = k
    · simp [Tbl.erase, Tbl.get, hk, h]
    · simp [Tbl.erase, Tbl.get, hk, ih]

/-- A field reads as before in any register store, in order or not, after a write to another place. -/
theorem rd_wr_of_key_ne (s : State) {f g : Field} {i b j c : Nat} (h : f.key i b ≠ g.key j c) (v : Nat) :
    (s.wr f v i b).rd g j c = s.rd g j c := by
  rw [State.rd, wr_regs, State.rd]
  unfold Tbl.set
  split
  · exact tbl_get_erase_of_ne _ h _
  · rw [tbl_get_insert, if_neg h]

/-- The fields by which the admin queue shows its slots (R508). -/
def admShown : List Field :=
  [R.ADMQ.ADM_USE_HELD, R.ADMQ.ADM_HAND_SLOT, R.ADMQ.ADM_HAND_OPCODE, R.ADMQ.ADM_HAND_REPLAY, R.ADMQ.ADM_HAND_PORT,
   R.ADMQ.ADM_HAND_VALID]

section ShownSlots

variable {g : Field} (hg : ∀ f ∈ admShown, f.key 0 0 ≠ g.key 0 0)
include hg

theorem rd_admShow (s : State) : s.admShow.rd g = s.rd g := by
  simp only [admShown, List.forall_mem_cons] at hg
  obtain ⟨hheld, hslot, hop, hreplay, hport, hvalid, -⟩ := hg
  unfold State.admShow
  dsimp only
  cases (s.wr R.ADMQ.ADM_USE_HELD ((s.admSlots.filter fun e => decide (e.2.st = 2)).length)).admOldest with
  | none => rw [rd_wr_of_key_ne _ hvalid, rd_wr_of_key_ne _ hheld]
  | some e => rw [rd_wr_of_key_ne _ hvalid, rd_wr_of_key_ne _ hport, rd_wr_of_key_ne _ hreplay, rd_wr_of_key_ne _ hop,
      rd_wr_of_key_ne _ hslot, rd_wr_of_key_ne _ hheld]

omit hg in
theorem rd_seatAdm (l : List AdmSlot) (s : State) : (seatAdm s l).rd g = s.rd g := by
  induction l generalizing s with
  | nil => rfl
  | cons x t ih =>
    unfold seatAdm
    cases firstFrom (fun k => (s.core.adm.get none k).isNone) 64 0 with
    | none => rfl
    | some k => exact ih _

theorem rd_dropAdm (s : State) (uid : Nat) : (s.dropAdm uid).rd g = s.rd g :=
  (rd_admShow hg _).trans (rd_seatAdm _ _)

end ShownSlots

/-! ### Completions of admin commands (R502) -/

/-- Code 0 raises no event. -/
theorem set_cplRes_zero (s : State) : s.set R.ADMQ.ADM_CPL_RES_CODE 0 = s.wr R.ADMQ.ADM_CPL_RES_CODE 0 := rfl

theorem rd_cplDword_dropAdm {g : Field} (h : g = R.ADMQ.ADM_CPL_DW0_VALUE ∨ g = R.ADMQ.ADM_CPL_DW1_VALUE) (s : State)
    (uid : Nat) : ((s.set R.ADMQ.ADM_CPL_RES_CODE 0).dropAdm uid).rd g = s.rd g := by
  have hshown : ∀ f ∈ admShown, f.key 0 0 ≠ g.key 0 0 := by rcases h with rfl | rfl <;> decide
  have hres : R.ADMQ.ADM_CPL_RES_CODE.key 0 0 ≠ g.key 0 0 := by rcases h with rfl | rfl <;> decide
  rw [rd_dropAdm hshown, set_cplRes_zero, rd_wr_of_key_ne s hres]

/-- The command that firmware holds in a slot of the admin queue. -/
def heldIn (u : State) (slot : Nat) : Option Cmd :=
  match u.core.adm.get none slot with
  | some x => if x.st = 2 then u.cmdOf x.uid else none
  | none => none

/-- The code of the first check of R502 that the completion of `held` with a status fails, 0 for none. -/
def completionCode (held : Option Cmd) (sct sc : Nat) : Nat :=
  if held.isNone then 1 else if statusReserved sct sc then 2 else if statusListed sct sc = false then 3 else 0

/-- Firmware is shown the code of the check that a completion fails, which counts under limit 1. -/
def completionRefused (u : State) (who : Initiator) (code : Nat) : State :=
  (u.set R.ADMQ.ADM_CPL_RES_CODE code).refuse 1 (initCode who) (initHart who)
    (regAddr who (pageOf R.ADMQ.ADM_CPL_GO 0) R.ADMQ.ADM_CPL_GO.off)

/-- The command that firmware completes leaves its slot, with the status, dwords and bits that `value` and ADM_CPL give. -/
def completionMade (u : State) (value : Nat) (d : Cmd) : State :=
  ((u.set R.ADMQ.ADM_CPL_RES_CODE 0).dropAdm d.uid).complete d (bits value 8 3) (bits value 16 8) (bit value 24)
    (u.rd R.ADMQ.ADM_CPL_DW0_VALUE) [] (u.rd R.ADMQ.ADM_CPL_DW1_VALUE) (bit value 25)

/-- With nothing armed a completion that GO asks for is refused by the first check it fails, and else made (R502). -/
theorem admCplGo_of_reaches {s u : State} {who : Initiator} {value : Nat} (hu : Reaches s who R.ADMQ.ADM_CPL_GO 0 u)
    (hgo : bit value 31 = true) (harmed : u.armed = []) :
    exec (.admCplGo who value) s = .next
      (if completionCode (heldIn u (bits value 0 6)) (bits value 8 3) (bits value 16 8) ≠ 0 then
        completionRefused u who (completionCode (heldIn u (bits value 0 6)) (bits value 8 3) (bits value 16 8))
      else match heldIn u (bits value 0 6) with
        | some d => completionMade u value d
        | none => u) := by
  rw [exec_admCplGo, execAdmCplGo, access_of_reaches hu]
  simp only [mayWrite_of_reaches hu, hgo, limFire_of_disarmed harmed, Bool.true_eq_false, Bool.false_eq_true, if_false]
  unfold heldIn
  rcases u.core.adm.get none (bits value 0 6) with _ | y
  · rfl
  · cases hheld : (if y.st = 2 then u.cmdOf y.uid else none) with
    | none => simp only [hheld]; rfl
    | some d => simp only [hheld]; rfl

/-- The statement's words for the code that a completion is shown. -/
theorem completionCode_heldIn (u : State) (slot sct sc : Nat) :
    completionCode (heldIn u slot) sct sc =
      if (u.core.adm.get none slot).all (fun y => decide (y.st ≠ 2) || (u.cmdOf y.uid).isNone) then 1
      else if statusReserved sct sc then 2 else if statusListed sct sc then 0 else 3 := by
  have hnone : (heldIn u slot).isNone =
      (u.core.adm.get none slot).all fun y => decide (y.st ≠ 2) || (u.cmdOf y.uid).isNone := by
    unfold heldIn
    cases u.core.adm.get none slot with
    | none => rfl
    | some y => by_cases hst : y.st = 2 <;> simp [hst]
  rw [completionCode, hnone]
  cases statusListed sct sc
  · rfl
  · rfl

/-- Settles O46: each key, watchdog, reset and timer stands as its clause says, and a command that reaches the admin queue
is taken, completed or refused by its first failing check. -/
theorem coresAndWatchdogsComplete : Obligations.CoresAndWatchdogsComplete := by
  unfold Obligations.CoresAndWatchdogsComplete
  refine ⟨?kick, ?badKick, ?warning, ?expiry, ?mgmtKick, ?mgmtBadKick, ?mgmtExpiry, ?mgmtReset, ?policyReset, ?denied,
    ?release, ?timer, ?take, ?complete, ?refused⟩
  case kick =>
    intro s h b key m hkey hhart
    exact congrArg Host.Outcome.next (if_pos ⟨hkey, hhart⟩)
  case badKick =>
    intro s h b key m hkey hhart
    exact congrArg Host.Outcome.next (if_neg fun hgood => hkey hgood.1)
  case warning =>
    intro s hart hhart hup
    exact congrArg Host.Outcome.next (if_pos ⟨hhart, hup⟩)
  case expiry =>
    intro s hart hhart hup
    exact congrArg Host.Outcome.next (if_pos ⟨hhart, hup⟩)
  case mgmtKick =>
    intro s who key hmay hkey
    rw [exec_mwdogKick, execMwdogKick, if_neg (ne_false_of_eq_true hmay), if_pos hkey]
  case mgmtBadKick =>
    intro s who key hmay hkey
    rw [exec_mwdogKick, execMwdogKick, if_neg (ne_false_of_eq_true hmay), if_neg hkey]
  case mgmtExpiry =>
    intro s
    rfl
  case mgmtReset =>
    intro s h b hon
    exact congrArg Host.Outcome.next (if_pos hon)
  case policyReset =>
    intro s h b hon
    exact congrArg Host.Outcome.next (if_pos hon)
  case denied =>
    intro s h b
    rfl
  case release =>
    intro s hreset hon hfree
    have hgo : ¬(s.core.inReset = false ∨ s.domOn 4 = false ∨ s.coreHeld = true) := by
      simp only [hreset, hon, hfree, Bool.true_eq_false, Bool.false_eq_true, or_self, not_false_eq_true]
    exact congrArg Host.Outcome.next (if_neg hgo)
  case timer =>
    intro s hart hhart hreached hquiet
    exact congrArg Host.Outcome.next (if_pos ⟨hhart, hreached, hquiet⟩)
  case take =>
    intro s u who k y hu holdest
    rw [exec_admTake, execAdmTake, access_of_reaches hu]
    simp only [mayWrite_of_reaches hu, holdest, Bool.true_eq_false, if_false]
  case complete =>
    rintro s u v who value y d hu hgo harmed hslot hheld hcmd hfree hlisted rfl
    have hheldIn : heldIn u (bits value 0 6) = some d := by
      simp only [heldIn, hslot, hheld, if_true, hcmd]
    have hpasses : completionCode (some d) (bits value 8 3) (bits value 16 8) = 0 := by
      simp [completionCode, hfree, hlisted]
    rw [admCplGo_of_reaches hu hgo harmed, hheldIn, if_neg (not_not.mpr hpasses), rd_cplDword_dropAdm (.inl rfl),
      rd_cplDword_dropAdm (.inr rfl)]
    rfl
  case refused =>
    rintro s u who value code hu hgo harmed hcode hfails
    rw [← completionCode_heldIn] at hcode
    rw [admCplGo_of_reaches hu hgo harmed, ← hcode, if_pos hfails]
    rfl

end Sys2Proof.Proofs
end

/-! ## Code flash and the Gate (R510 to R537)

What is kept without power, the operations and reads of code flash, updates of firmware, and configuration records. -/

section
namespace Sys2Proof.Proofs

open Sys2Proof Sys2Proof.Machine Sys2Proof.Laws Sys2Proof.Safety

/-- Settles O12: such a command keeps what is known of the state, the state kept without power with it. -/
theorem onlyWritingCommandsChangeWhatIsKept : Obligations.OnlyWritingCommandsChangeWhatIsKept := by
  unfold Obligations.OnlyWritingCommandsChangeWhatIsKept
  intro c s t hs hc ht
  exact (keep_exec (keep_keptOf true false hs) (fun _ => rfl) (fun h => hc.symm.trans h) ht).kept rfl

/-! ### Operations and reads of code flash (R511 to R517) -/

/-- The operation that a command of FL_CMD asks for on the word at FL_ADDR. -/
def flAsked (s : State) (erase : Bool) : FlOp :=
  { rank := 4, op := if erase then 1 else 2, sector := s.rd R.CFLASH.FL_ADDR_ADDR / 512, addr := s.rd R.CFLASH.FL_ADDR_ADDR
    words := if erase then [] else [((s.set R.CFLASH.FL_STAT_CODE 0).wr R.CFLASH.FL_STAT_BUSY 1).rd64
      R.CFLASH.FL_WDATA_LO_VALUE R.CFLASH.FL_WDATA_HI_VALUE], from_ := 0 }

section FlashCommands

variable {s : State} {who : Initiator} {erase : Bool} (hmay : mayWrite R.CFLASH.FL_CMD_OP who = true)
  (hidle : s.rd R.CFLASH.FL_STAT_BUSY = 0) (harmed : s.armed = [])
include hmay hidle harmed

/-- A command that passes its checks waits for its bank (R517). -/
theorem flCommand_of_passes (hcode : s.flCode who erase (s.rd R.CFLASH.FL_ADDR_ADDR) false = 0) :
    s.flCommand who erase =
      ((s.set R.CFLASH.FL_STAT_CODE 0).wr R.CFLASH.FL_STAT_BUSY 1).flAsk (flAsked s erase) := by
  simp only [State.flCommand, hmay, hidle, limFire_of_disarmed harmed, hcode, Bool.true_eq_false, if_false, if_true,
    zero_ne_one]
  rfl

/-- A command that fails a check shows the code of the first one (R517). -/
theorem flCommand_of_fails {code : Nat} (hcode : s.flCode who erase (s.rd R.CFLASH.FL_ADDR_ADDR) false = code)
    (hfails : code ≠ 0) {v : State}
    (hv : v = (s.set R.CFLASH.FL_STAT_CODE code).count
      (if code = 2 then R.CFLASH.REFUSED_SELF_BANK else R.CFLASH.REFUSED_OTHER)) :
    s.flCommand who erase =
      if code = 1 then v.refuse 8 (initCode who) (initHart who) (8 * s.rd R.CFLASH.FL_ADDR_ADDR) false else v := by
  subst hv
  simp only [State.flCommand, hmay, hidle, limFire_of_disarmed harmed, hcode, hfails, Bool.true_eq_false, if_false,
    zero_ne_one]

end FlashCommands

/-- A read inside the array of a device that is not OFF is answered (R511). -/
theorem flashRead_answered {s : State} {addr : Nat} (hon : s.dst ≠ 0) (hrange : addr / 8 < 4194304) :
    ¬(s.dst = 0 ∨ 4194304 ≤ addr / 8) := by omega

/-- The sector of a byte of the array. -/
theorem byte_sector (addr : Nat) : addr / 8 / 512 = addr / 4096 := by omega

/-- Settles O47: nothing armed changes a check or a read; an operation that is not suspended ends, and one that has run
long enough is suspended. -/
theorem codeFlashCommandsComplete : Obligations.CodeFlashCommandsComplete := by
  unfold Obligations.CodeFlashCommandsComplete
  refine ⟨?erase, ?eraseFails, ?program, ?programFails, ?ends, ?suspends, ?read, ?devrec, ?execOnly⟩
  case erase =>
    rintro s v who a hmay hidle harmed hcode rfl rfl
    exact congrArg _ (flCommand_of_passes hmay hidle harmed hcode)
  case eraseFails =>
    rintro s v who a code hmay hidle harmed hcode hfails rfl hv
    exact congrArg _ (flCommand_of_fails hmay hidle harmed hcode hfails hv)
  case program =>
    rintro s v who a hmay hidle harmed hcode rfl rfl
    exact congrArg _ (flCommand_of_passes hmay hidle harmed hcode)
  case programFails =>
    rintro s v who a code hmay hidle harmed hcode hfails rfl hv
    exact congrArg _ (flCommand_of_fails hmay hidle harmed hcode hfails hv)
  case ends =>
    rintro s u v bank y hrun hawake rfl rfl
    simp only [exec_flashOperationComplete, execFlashOperationComplete, hrun, hawake, Bool.false_eq_true, if_false]
  case suspends =>
    intro s bank y hrun hawake hlong hran
    have hgo : ¬(s.flSuspended bank = true ∨ (y.op = 2 ∧ y.words.length < 2)
        ∨ s.mono < y.from_ + (if y.op = 1 then 50000 else 5000)) := by
      simp only [hawake, Bool.false_eq_true, false_or]
      omega
    simp only [exec_flashOperationSuspend, execFlashOperationSuspend, hrun]
    rw [if_neg hgo]
  case read =>
    intro s who addr d hon hrange harmed hdevrec hopen hword
    simp only [exec_codeFlashDataRead, execCodeFlashDataRead, fire_of_disarmed harmed, Bool.false_eq_true, if_false,
      byte_sector, hdevrec, hopen, hword]
    exact congrArg Host.Outcome.next (if_neg (flashRead_answered hon hrange))
  case devrec =>
    intro s who addr hon hrange harmed hdevrec
    simp only [exec_codeFlashDataRead, execCodeFlashDataRead, fire_of_disarmed harmed, Bool.false_eq_true, if_false,
      byte_sector, hdevrec, if_true]
    exact congrArg Host.Outcome.next (if_neg (flashRead_answered hon hrange))
  case execOnly =>
    intro s who addr hon hrange harmed hdevrec hclosed
    simp only [exec_codeFlashDataRead, execCodeFlashDataRead, fire_of_disarmed harmed, Bool.false_eq_true, if_false,
      byte_sector, hdevrec, hclosed, if_true]
    exact congrArg Host.Outcome.next (if_neg (flashRead_answered hon hrange))

/-! ### Pieces and commits (R525 to R530) -/

/-- The state in which the Gate has taken a commit of an image, and erases the header sector of its slot first (R530). -/
def imageCommitted (s : State) (src slot action : Nat) : State :=
  let u := ((s.wr R.GATE.COMMIT_RES_BUSY 1).wr R.GATE.PUMP_STAT_SPACE 64).wr R.GATE.PUMP_STAT_WORDS 0
  let c : Commit := { action := action, slot := slot, src := src, total := u.rd R.GATE.STG_LEN_DWORDS 0 src / 2 }
  (u.mCf fun x => { x with commit := some c }).flAsk
    { rank := 3, op := 1, sector := slotSector slot, addr := slotSector slot * 512, words := [], from_ := 0 }

/-- A commit that an initiator serving its source asks for is taken by a Gate that is free, before CLOSING (R528). -/
structure GateFree (s : State) (who : Initiator) : Prop where
  serves : serves who (s.rd R.GATE.COMMIT_SRC) = true
  idle : s.cf.commit = none
  closed : s.cf.recOpen = false
  state : s.dst ≠ 6

/-- A free Gate makes the checks of a commit of an image (R529). -/
theorem commitGo_image {s : State} {who : Initiator} (h : GateFree s who) (slot : Nat) {action : Nat} (himage : action ≠ 2)
    (hknown : action ≤ 3) : s.commitGo who slot action = s.commitImage (s.rd R.GATE.COMMIT_SRC) slot action := by
  obtain ⟨hserves, hidle, hclosed, hstate⟩ := h
  simp [State.commitGo, hserves, hidle, hclosed, hstate, himage, Nat.not_lt.mpr hknown]

/-- A free Gate makes the commit of a role (R528). -/
theorem commitGo_role {s : State} {who : Initiator} (h : GateFree s who) (slot : Nat) :
    s.commitGo who slot 2 = s.commitRole (s.rd R.GATE.COMMIT_SRC) slot := by
  obtain ⟨hserves, hidle, hclosed, hstate⟩ := h
  simp [State.commitGo, hserves, hidle, hclosed, hstate]

/-- A commit that finds the Gate at work, or the device in CLOSING, is dropped and counted (R536). -/
theorem commitGo_of_gateBusy {s : State} {who : Initiator} (hserves : serves who (s.rd R.GATE.COMMIT_SRC) = true)
    (hbusy : s.cf.commit.isSome = true ∨ s.cf.recOpen = true ∨ s.dst = 6) (slot action : Nat) :
    s.commitGo who slot action = s.count R.GATE.GATE_REFUSED_COUNT := by
  simp only [State.commitGo, hserves, Bool.true_eq_false, if_false]
  exact if_pos hbusy

/-- The checks of R529 that the commit of an image passes on the slot it takes. -/
structure ImagePasses (s : State) (src slot k : Nat) : Prop where
  named : slot ≤ 2
  free : s.updateBar src 4 5 = none
  downloaded : s.downloaded src = true
  held : s.rd R.GATE.LOCK_HELD = 1
  takes : k = s.commitSlot slot
  found : k ≠ 0
  idle : s.slotRuns k = false
  roleless : s.hasRole k = false

/-- The commit of an image that passes its checks begins; an activation needs an allowance and SERVICE as well. -/
theorem commitImage_of_passes {s : State} {src slot k action : Nat} (h : ImagePasses s src slot k)
    (hactivates : action = 3 → s.allowance ≠ 0 ∧ s.dst = 4) :
    s.commitImage src slot action = imageCommitted s src k action := by
  obtain ⟨hnamed, hfree, hdownloaded, hheld, rfl, hfound, hidle, hroleless⟩ := h
  have hmay : ¬(action = 3 ∧ (s.allowance = 0 ∨ s.dst ≠ 4)) := by
    rintro ⟨h3, hnot⟩
    obtain ⟨hallowance, hservice⟩ := hactivates h3
    exact hnot.elim hallowance (absurd hservice)
  have hready : ¬(s.downloaded src = false ∨ s.rd R.GATE.LOCK_HELD = 0) := by simp [hdownloaded, hheld]
  have hslot : ¬(s.commitSlot slot = 0 ∨ s.slotRuns (s.commitSlot slot) = true ∨ s.hasRole (s.commitSlot slot) = true) := by
    simp [hfound, hidle, hroleless]
  rw [State.commitImage, if_neg (Nat.not_lt.mpr hnamed)]
  simp only [hfree]
  rw [if_neg hready, if_neg hslot, if_neg hmay]
  rfl

/-- The commit of a role on a slot that is found changes the roles at once (R528, R533). -/
theorem commitRole_of_found {s : State} {src slot k : Nat} (hnamed : slot ≤ 2) (hfree : s.updateBar src 4 5 = none)
    (htakes : k = s.commitSlot slot) (hfound : k ≠ 0) :
    s.commitRole src slot =
      if s.nv.desc.trial = k ∧ s.rd R.GATE.BOOT_INFO_RUN_POLICY = k then
        (s.appendDesc fun d => { d with current := k, trial := 0, boots := 0 }).commitDone src 0 0 false
      else if s.nv.desc.current = k ∧ s.rd R.GATE.BOOT_INFO_RUN_POLICY = k then s.commitDone src 0 0 false
      else if s.rd R.GATE.SLOT_INFO_VALID 0 k = 1 then
        (s.appendDesc fun d => { d with next := k }).commitDone src 0 0 false
      else s.commitDone src 2 0 false := by
  subst htakes
  rw [State.commitRole, if_neg (Nat.not_lt.mpr hnamed)]
  simp only [hfree]
  rw [if_neg hfound]

/-- Settles O48: the Gate is free or not for each commit, whose checks pass; a commit that is under way takes its words, is
verified with no point armed, and ends by its firmware or by its allowance. -/
theorem firmwareUpdatesComplete : Obligations.FirmwareUpdatesComplete := by
  unfold Obligations.FirmwareUpdatesComplete
  refine ⟨?piece, ?lockHold, ?write, ?writeBusy, ?next, ?nextBusy, ?activate, ?activateBusy, ?role, ?pump, ?written, ?ready,
    ?allowance⟩
  case piece =>
    intro s who hserves
    exact congrArg Host.Outcome.next (if_neg (ne_false_of_eq_true hserves))
  case lockHold =>
    intro s hheld hidle
    exact congrArg Host.Outcome.next (if_pos ⟨hheld, Option.isNone_iff_eq_none.mpr hidle⟩)
  case write =>
    rintro s u who slot k hserves hidle hclosed hstate rfl hnamed hfree hdownloaded hheld htakes hfound hquiet hroleless rfl
    rw [exec_commitAction000b, execCommitAction000b,
      commitGo_image ⟨hserves, hidle, hclosed, hstate⟩ _ (by decide : 0 ≠ 2) (by decide)]
    exact congrArg _ (commitImage_of_passes ⟨hnamed, hfree, hdownloaded, hheld, htakes, hfound, hquiet, hroleless⟩
      fun h => absurd h (by decide))
  case writeBusy =>
    intro s who hserves hbusy
    exact congrArg _ (commitGo_of_gateBusy hserves hbusy _ _)
  case next =>
    rintro s u who slot k hserves hidle hclosed hstate rfl hnamed hfree hdownloaded hheld htakes hfound hquiet hroleless rfl
    rw [exec_commitAction001b, execCommitAction001b,
      commitGo_image ⟨hserves, hidle, hclosed, hstate⟩ _ (by decide : 1 ≠ 2) (by decide)]
    exact congrArg _ (commitImage_of_passes ⟨hnamed, hfree, hdownloaded, hheld, htakes, hfound, hquiet, hroleless⟩
      fun h => absurd h (by decide))
  case nextBusy =>
    intro s who hserves hbusy
    exact congrArg _ (commitGo_of_gateBusy hserves hbusy _ _)
  case activate =>
    rintro s u who slot k hserves hidle hclosed hstate rfl hnamed hfree hdownloaded hheld htakes hfound hquiet hroleless
      hallowance hservice rfl
    rw [exec_commitAction011b, execCommitAction011b,
      commitGo_image ⟨hserves, hidle, hclosed, hstate⟩ _ (by decide : 3 ≠ 2) (by decide)]
    exact congrArg _ (commitImage_of_passes ⟨hnamed, hfree, hdownloaded, hheld, htakes, hfound, hquiet, hroleless⟩
      fun _ => ⟨hallowance, hservice⟩)
  case activateBusy =>
    intro s who hserves hbusy
    exact congrArg _ (commitGo_of_gateBusy hserves hbusy _ _)
  case role =>
    rintro s who slot k src hserves hidle hclosed hstate rfl hnamed hfree rfl htakes hfound
    rw [exec_commitAction010b, execCommitAction010b, commitGo_role ⟨hserves, hidle, hclosed, hstate⟩]
    exact congrArg _ (commitRole_of_found hnamed hfree htakes hfound)
  case pump =>
    intro s who hi y hcommit hserves hwriting hroom hmore
    have hqueues : ¬(y.activating = true ∨ 64 ≤ y.queue.length ∨ y.total ≤ y.taken + y.queue.length) := by
      simp only [hwriting, Bool.false_eq_true, false_or]
      omega
    simp only [exec_pumpWrite, execPumpWrite, hcommit, hserves, Bool.true_eq_false, if_false]
    rw [if_neg hqueues]
  case written =>
    rintro s u y hcommit hwritten hwriting harmed rfl
    have hverifies : ¬(y.written = false ∨ y.activating = true) := by simp [hwritten, hwriting]
    simp only [exec_slotWriteComplete, execSlotWriteComplete, hcommit, fire_of_disarmed harmed, Bool.not_false,
      Bool.true_and]
    exact congrArg Host.Outcome.next (if_neg hverifies)
  case ready =>
    rintro s u who y hmay hcommit hactivating hquiesce hruns rfl
    have hends : ¬(y.activating = false ∨ s.dst ≠ 5 ∨ s.core.inReset = true) := by simp [hactivating, hquiesce, hruns]
    rw [exec_actReady, execActReady, if_neg (ne_false_of_eq_true hmay), hcommit]
    exact congrArg Host.Outcome.next (if_neg hends)
  case allowance =>
    intro s u v y hcommit hactivating hquiesce hu hv
    have hends : ¬(y.activating = false ∨ s.dst ≠ 5) := by simp [hactivating, hquiesce]
    rw [hv, hu, exec_activationAllowanceExpiry, execActivationAllowanceExpiry, hcommit]
    exact congrArg Host.Outcome.next (if_neg hends)

/-! ### Configuration records and the owner lock (R534 to R539) -/

/-- Settles O49: a record command finds the Gate free or at work, an open record passes its checks, and the owner lock is
written outside a sanitize. -/
theorem configurationRecordsComplete : Obligations.ConfigurationRecordsComplete := by
  unfold Obligations.ConfigurationRecordsComplete
  refine ⟨?begins, ?refused, ?ends, ?cancelled, ?owner, ?fills⟩
  case begins =>
    rintro s u who hmay hidle hclosed hstate rfl
    have hfree : ¬(s.cf.commit.isSome = true ∨ s.cf.recOpen = true ∨ s.dst = 6) := by simp [hidle, hclosed, hstate]
    rw [exec_recCmdBegin, execRecCmdBegin, if_neg (ne_false_of_eq_true hmay), if_neg hfree]
  case refused =>
    intro s who hmay hbusy
    rw [exec_recCmdBegin, execRecCmdBegin, if_neg (ne_false_of_eq_true hmay), if_pos hbusy]
  case ends =>
    rintro s u who r hmay hidle hopen hr hunlocked hformat hlength rfl
    have hidle' : ¬ s.cf.commit.isSome = true := by simp [hidle]
    have hfits : ¬(0x100 ≤ r.type ∧ s.cfgFormats.contains r.format = false) := by
      rintro ⟨hcfg, hunknown⟩
      rcases hformat with hlow | hknown
      · omega
      · exact ne_true_of_eq_false hunknown hknown
    have hlocked : ¬ s.rd R.GATE.OWNER_LOCK = 1 := by omega
    rw [exec_recCmdEnd, execRecCmdEnd, if_neg (ne_false_of_eq_true hmay), if_neg hidle', if_neg (ne_false_of_eq_true hopen)]
    subst hr
    simp only [decide_eq_true_eq]
    rw [if_neg hlocked, if_neg hfits, if_neg (not_not.mpr hlength)]
  case cancelled =>
    intro s who hmay hidle hopen
    have hidle' : ¬ s.cf.commit.isSome = true := by simp [hidle]
    rw [exec_recCmdCancel, execRecCmdCancel, if_neg (ne_false_of_eq_true hmay), if_neg hidle', if_pos hopen]
  case owner =>
    rintro s u v who value hmay rfl hmode rfl
    rw [exec_ownerLockWrite, execOwnerLockWrite, if_neg (ne_false_of_eq_true hmay)]
    exact congrArg Host.Outcome.next (if_neg fun h => ne_true_of_eq_false hmode h.2)
  case fills =>
    intro s who hi hidle hmay hopen
    simp only [exec_pumpWrite, execPumpWrite, hidle, hmay, hopen, Bool.true_eq_false, if_false, if_true]

end Sys2Proof.Proofs
end

/-! ## Logbook and time (R541 to R565)

The time base, the permanent area, a step on an empty queue, and the commands of the Logbook. -/

section
namespace Sys2Proof.Proofs

open Sys2Proof Sys2Proof.Machine Sys2Proof.Laws Sys2Proof.Safety

/-- Settles O8: every such command keeps what is known of the state, MONOTONIC with it. -/
theorem onlyThePowerSupplyResetsMonotonic : Obligations.OnlyThePowerSupplyResetsMonotonic := by
  unfold Obligations.OnlyThePowerSupplyResetsMonotonic
  intro c s t hs hc ht
  exact ((keepO_exec (keep_keptOf true true hs) hc (fun _ => rfl) (fun _ => rfl)).get t ht).mono

/-- With no command waiting the step is the tick. -/
theorem step_of_pending_nil {s : State} (h : s.pending = []) : step s = .next (tick s) := by
  unfold step
  rw [h]

/-- A step of a device with a command in front runs it on the state whose queue is the rest. -/
theorem step_of_pending_cons {s : State} {c : Instr} {rest : List Instr} (h : s.pending = c :: rest) :
    step s = exec c { s with pending := rest } := by
  unfold step
  rw [h]

/-- Settles O10: a step is a tick or a command, and each keeps the records of the permanent area in front of what it adds. -/
theorem thePermanentAreaOnlyGrows : Obligations.ThePermanentAreaOnlyGrows := by
  unfold Obligations.ThePermanentAreaOnlyGrows
  intro s t hs ht
  cases hp : s.pending with
  | nil =>
    rw [step_of_pending_nil hp] at ht
    cases ht
    exact (keep_tick s (keep_keptOf true true hs)).perm
  | cons c rest =>
    have hrest : Canonical { s with pending := rest } := hs
    rw [step_of_pending_cons hp] at ht
    exact (keep_exec (keep_keptOf true true hrest) (fun _ => rfl) (fun _ => rfl) ht).perm

/-- Settles O2: the step is the tick, which an OFF device does not have. -/
theorem anEmptyQueueTicks : Obligations.AnEmptyQueueTicks := by
  unfold Obligations.AnEmptyQueueTicks
  refine ⟨?ticks, ?rests⟩
  case ticks =>
    intro s hempty hon
    exact (step_of_pending_nil hempty).trans (congrArg Host.Outcome.next (if_neg hon))
  case rests =>
    intro s hempty hoff
    exact (step_of_pending_nil hempty).trans (congrArg Host.Outcome.next (if_pos hoff))

/-- Settles O50: each command of the Logbook finds what it names: a record at a port, a frozen ring, a free bank, the
area its cursor is in. -/
theorem logbookCommandsComplete : Obligations.LogbookCommandsComplete := by
  unfold Obligations.LogbookCommandsComplete
  refine ⟨?store, ?saved, ?saveFails, ?release, ?freeze, ?unfreeze, ?maximum, ?post, ?postRefused, ?oldestPermanent,
    ?oldest, ?oldestOfNone, ?newestPermanent, ?newest, ?newestOfNone, ?firstWord, ?lastWord, ?wall, ?refill⟩
  case store =>
    intro s i q rest hport hrecords
    simp only [exec_recordStore, execRecordStore, hport, hrecords]
  case saved =>
    rintro s u v saved rfl rfl rfl
    rfl
  case saveFails =>
    intro s
    rfl
  case release =>
    intro s who hmay hfrozen
    rw [exec_faultRelease, execFaultRelease, if_neg (ne_false_of_eq_true hmay), if_neg hfrozen]
  case freeze =>
    rintro s u who b rfl hfree rfl
    simp only [exec_logCtrlFreeze, execLogCtrlFreeze, hfree, Bool.false_eq_true, if_false, if_true, decide_eq_true_eq,
      wr_mono]
  case unfreeze =>
    rintro s u who b left rfl rfl rfl
    rfl
  case maximum =>
    intro s hfrozen
    rw [exec_freezeMaxExpiry, execFreezeMaxExpiry, if_pos hfrozen]
  case post =>
    rintro s u who b hmay rfl hfree hcode rfl
    rw [exec_fwPost, execFwPost, if_neg (ne_false_of_eq_true hmay)]
    exact congrArg Host.Outcome.next ((if_neg hfree).trans (if_neg (Nat.not_lt.mpr hcode)))
  case postRefused =>
    rintro s who b hmay rfl hfree hcode
    rw [exec_fwPost, execFwPost, if_neg (ne_false_of_eq_true hmay)]
    exact congrArg Host.Outcome.next ((if_neg hfree).trans (if_pos hcode))
  case oldestPermanent =>
    rintro s who b rfl harea
    exact congrArg Host.Outcome.next (if_pos harea)
  case oldest =>
    rintro s who b r rfl harea hfirst
    simp only [exec_curCmdOldest, execCurCmdOldest, if_neg harea, hfirst]
  case oldestOfNone =>
    rintro s who b rfl harea hnone
    simp only [exec_curCmdOldest, execCurCmdOldest, if_neg harea, hnone, List.head?_nil]
  case newestPermanent =>
    rintro s who b rfl harea
    exact congrArg Host.Outcome.next (if_pos harea)
  case newest =>
    rintro s who b r rfl harea hlast
    simp only [exec_curCmdNewest, execCurCmdNewest, if_neg harea, hlast]
  case newestOfNone =>
    rintro s who b rfl harea hnone
    simp only [exec_curCmdNewest, execCurCmdNewest, if_neg harea, hnone, List.getLast?_nil]
  case firstWord =>
    rintro s u who rfl
    rfl
  case lastWord =>
    intro s who
    rfl
  case wall =>
    rintro s u who ms y hmay rfl rfl
    exact congrArg Host.Outcome.next (if_pos hmay)
  case refill =>
    intro s code
    rfl

end Sys2Proof.Proofs
end

/-! ## Injection (R566 to R575) -/

section
namespace Sys2Proof.Proofs

open Sys2Proof Sys2Proof.Machine Sys2Proof.Laws Sys2Proof.Safety

theorem isPage_of_mayInject {s u : State} {who : Initiator} {p : Nat} (h : MayInject s who p u) : isPage p = true := by
  obtain ⟨hpage, -⟩ := h
  exact hpage

/-- An access that an initiator may make to the injection registers of a page takes its effect. -/
theorem injAccess_of_mayInject {s u : State} {who : Initiator} {p : Nat} (h : MayInject s who p u) (off : Nat)
    (g : State → State) : s.injAccess who p off g = g u := by
  obtain ⟨-, hon, hpoints, hquiet, hinitiator, rfl⟩ := h
  have hmay : ¬(initCode who = 1 ∨ ((s.crossTo (initIsland who) p).limFire 13).1 = true) := by
    simp only [hinitiator, hquiet, Bool.false_eq_true, or_self, not_false_eq_true]
  rw [State.injAccess, State.access, if_pos hon, if_neg hpoints]
  exact if_neg hmay

/-- Arming reaches the page with its MODE and COUNT, which are within their widths. -/
theorem exec_injArm_of_mayInject {s u : State} {who : Initiator} {page mode count : Nat} (h : MayInject s who page u)
    (hmode : mode < 4) (hcount : count < 256) : exec (.injArm who page mode count) s = .next (u.injArm who page mode count) := by
  rw [exec_injArm, execInjArm, if_pos (isPage_of_mayInject h), injAccess_of_mayInject h, Nat.mod_eq_of_lt hmode,
    Nat.mod_eq_of_lt hcount]

/-- An arming that passes its checks has a mode and a count that check 6 takes (R567). -/
theorem armCheck_ne_zero {s : State} {p mode count : Nat} (h : mode = 3 ∨ count = 0) : s.armCheck p mode count ≠ 0 := by
  unfold State.armCheck
  simp only [h, or_true, if_true]
  split_ifs <;> decide

/-- With no point of the page armed, an arming that passes its checks arms the point that the page names (R567). -/
theorem injArm_of_passes {s v w : State} {who : Initiator} {p mode count : Nat} {y : Armed}
    (hnone : (s.armed.any fun a => decide (a.page = p)) = false) (hcode : s.armCheck p mode count = 0)
    (hv : v = ((s.set R.COMMON.INJ_CTRL_RESULT 0 p).wr R.COMMON.INJ_CTRL_MODE mode p).wr R.COMMON.INJ_CTRL_COUNT count p)
    (hy : y = { page := p, point := v.rd R.COMMON.INJ_SEL_POINT p, sub := v.rd R.COMMON.INJ_SEL_SUB p
                param := v.rd R.COMMON.INJ_SEL_PARAM p, mode := mode
                left := if mode = 2 then 0xFF else if mode = 1 then count else 1 })
    (hw : w = (((v.mArmed fun l => l ++ [y]).wr R.INJFAB.ARMED_COUNT (v.armed.length + 1)).wr
      R.COMMON.INJ_CTRL_ARM 1 p).wr R.COMMON.INJ_CTRL_LEFT y.left p) :
    s.injArm who p mode count =
      (w.record 8 0x018 [p, w.injSel p, w.injCtrl p, initCode who]).evalNow p := by
  have htaken : ¬((0 : Nat) = 6 ∨ mode = 3 ∨ count = 0) := by
    rintro (h | h)
    · exact absurd h (by decide)
    · exact armCheck_ne_zero h hcode
  subst hw hy hv
  rw [State.injArm, if_neg (ne_true_of_eq_false hnone)]
  simp only [hcode, if_neg htaken, ne_eq, not_true_eq_false, if_false]

/-- With no point of the page armed, an arming that fails a check shows its code, and the refusal is counted and recorded
(R567). -/
theorem injArm_of_fails {s : State} {who : Initiator} {p mode count code : Nat} {v w x : State}
    (hnone : (s.armed.any fun a => decide (a.page = p)) = false) (hcode : code = s.armCheck p mode count) (hfails : code ≠ 0)
    (hv : v = s.set R.COMMON.INJ_CTRL_RESULT code p)
    (hw : w = if code = 6 ∨ mode = 3 ∨ count = 0 then v
      else (v.wr R.COMMON.INJ_CTRL_MODE mode p).wr R.COMMON.INJ_CTRL_COUNT count p)
    (hx : x = (w.count R.COMMON.INJ_COUNT_REFUSED p).count R.INJFAB.REFUSED_COUNT) :
    s.injArm who p mode count = x.record 8 0x018 [p, x.injSel p, x.injCtrl p, initCode who] := by
  subst hcode hv hw hx
  rw [State.injArm, if_neg (ne_true_of_eq_false hnone)]
  exact if_pos hfails

/-- Settles O51: each command reaches its page; an arming finds the page armed or not, and its checks passed or not. -/
theorem injectionCommandsComplete : Obligations.InjectionCommandsComplete := by
  unfold Obligations.InjectionCommandsComplete
  refine ⟨?arms, ?refused, ?armed, ?disarms, ?disarmsAll⟩
  case arms =>
    intro s u v w who page mode count y h hmode hcount hnone hcode hv hy hw
    rw [exec_injArm_of_mayInject h hmode hcount, injArm_of_passes hnone hcode hv hy hw]
  case refused =>
    intro s u v w x who page mode count code h hmode hcount hnone hcode hfails hv hw hx
    rw [exec_injArm_of_mayInject h hmode hcount, injArm_of_fails hnone hcode hfails hv hw hx]
  case armed =>
    intro s u who page mode count h hmode hcount hsome
    rw [exec_injArm_of_mayInject h hmode hcount, State.injArm, if_pos hsome]
  case disarms =>
    intro s u who page h
    rw [exec_injDisarm, execInjDisarm, if_pos (isPage_of_mayInject h), injAccess_of_mayInject h]
  case disarmsAll =>
    intro s who hmay
    rw [exec_disarmAll, execDisarmAll, if_neg (ne_false_of_eq_true hmay), State.disarmThose, List.filter_true, List.foldl_map]

end Sys2Proof.Proofs
end

/-! ## Startup and reset (R579 to R591)

The state at reset, the power-on reset and the loss of WATCH power, straps and the slot choice, and TRST_N. -/

section
namespace Sys2Proof.Proofs

open Sys2Proof Sys2Proof.Machine Sys2Proof.Laws Sys2Proof.Safety

theorem canonical_reset : Canonical State.reset := ⟨sorted_reset, rfl, rfl⟩

/-- Settles O5: the device state is the one the reset values of its register name. -/
theorem resetIsCanonical : Obligations.ResetIsCanonical := by
  unfold Obligations.ResetIsCanonical
  have hwake : State.reset.dst = 1 := by decide +kernel
  exact ⟨canonical_reset, rfl, rfl, rfl, rfl, hwake⟩

/-- Settles O55: the test access port is reset where it has power. -/
theorem trstResetsOnlyTheTestAccessPort : Obligations.TrstResetsOnlyTheTestAccessPort := by
  unfold Obligations.TrstResetsOnlyTheTestAccessPort
  refine ⟨?powered, ?off⟩
  case powered =>
    intro s hon
    exact congrArg Host.Outcome.next (if_neg hon)
  case off =>
    intro s hoff
    exact congrArg Host.Outcome.next (if_pos hoff)

/-! ### What a record leaves unchanged

A record that WATCH stores changes registers, the Logbook, the queue of code flash and the trace port. -/

/-- The contents of the media, and the board-test strap as it was taken. -/
def mediaAndTest (s : State) : Tbl (Option Cw) × Bool := (s.nv.media, s.dev.boardTest)

@[simp] theorem mediaAndTest_wr (s : State) (f : Field) (v i b : Nat) : mediaAndTest (s.wr f v i b) = mediaAndTest s := (rfl)

@[simp] theorem mediaAndTest_mLog (s : State) (g : LogSt → LogSt) : mediaAndTest (s.mLog g) = mediaAndTest s := (rfl)

@[simp] theorem mediaAndTest_mJtag (s : State) (g : JtagSt → JtagSt) : mediaAndTest (s.mJtag g) = mediaAndTest s := (rfl)

@[simp] theorem mediaAndTest_raise (s : State) (p e : Nat) : mediaAndTest (s.raise p e) = mediaAndTest s := by
  simp only [State.raise, apply_ite mediaAndTest, mediaAndTest_wr, ite_self]

@[simp] theorem mediaAndTest_set (s : State) (f : Field) (v i b : Nat) : mediaAndTest (s.set f v i b) = mediaAndTest s := by
  rw [State.set]
  split
  · exact mediaAndTest_raise ..
  · rfl

@[simp] theorem mediaAndTest_count (s : State) (f : Field) (i b n : Nat) :
    mediaAndTest (s.count f i b n) = mediaAndTest s := by
  simp only [State.count, apply_ite mediaAndTest, mediaAndTest_raise, mediaAndTest_wr, ite_self]

@[simp] theorem mediaAndTest_countErase (s : State) (sector : Nat) :
    mediaAndTest (s.countErase sector) = mediaAndTest s := by
  simp only [mediaAndTest, State.countErase, State.mNv]
  split <;> rfl

@[simp] theorem mediaAndTest_flNext (s : State) (bank : Nat) : mediaAndTest (s.flNext bank) = mediaAndTest s := by
  unfold State.flNext
  split
  · simp only [mediaAndTest_wr, apply_ite mediaAndTest, mediaAndTest_countErase, ite_self]
    rfl
  · rfl

@[simp] theorem mediaAndTest_keep (s : State) (q : LogReq) (dropped : Bool) :
    mediaAndTest (s.keep q dropped) = mediaAndTest s := by
  unfold State.keep
  lift_lets -underBinder
  intro sup perm skip valid r frozen freezes ring logged
  have hlogged : mediaAndTest logged = mediaAndTest s := mediaAndTest_mLog ..
  clear_value logged
  intro numbered
  have hnumbered : mediaAndTest numbered = mediaAndTest s := by
    simp only [numbered, State.wr64, mediaAndTest_wr, hlogged]
  clear_value numbered
  intro used
  have hused : mediaAndTest used = mediaAndTest s := by
    simp only [used, mediaAndTest_wr, hnumbered]
  clear_value used
  intro skipped
  have hskipped : mediaAndTest skipped = mediaAndTest s := by
    simp only [skipped, apply_ite mediaAndTest, mediaAndTest_count, hused, ite_self]
  clear_value skipped
  intro saving shown
  have hshown : mediaAndTest shown = mediaAndTest s := by
    simp only [shown, saving, apply_ite mediaAndTest, mediaAndTest_set, mediaAndTest_wr, hskipped, ite_self]
  clear_value shown
  intro asked
  have hasked : mediaAndTest asked = mediaAndTest s := by
    simp only [asked, apply_ite mediaAndTest, mediaAndTest_flNext, hshown, ite_self]
  exact (mediaAndTest_mJtag ..).trans hasked

@[simp] theorem mediaAndTest_store (s : State) (q : LogReq) (dropped : Bool) :
    mediaAndTest (s.store q dropped) = mediaAndTest s := by
  simp only [State.store, apply_ite mediaAndTest, mediaAndTest_keep, mediaAndTest_set, mediaAndTest_count, mediaAndTest_wr,
    mediaAndTest_mLog, ite_self]

@[simp] theorem mediaAndTest_recordNow (s : State) (code : Nat) (snaps : List Nat) :
    mediaAndTest (s.recordNow code snaps) = mediaAndTest s :=
  mediaAndTest_store ..

@[simp] theorem mediaAndTest_showStep (s : State) : mediaAndTest s.showStep = mediaAndTest s := (rfl)

@[simp] theorem mediaAndTest_traceOff (s : State) : mediaAndTest s.traceOff = mediaAndTest s := (rfl)

/-- WAKE begins with the board-test strap and the media as they are: it counts a block of wrap values and clears the rest
of what startup has reached. -/
@[simp] theorem mediaAndTest_startWake (s : State) : mediaAndTest s.startWake = mediaAndTest s := by
  unfold State.startWake
  lift_lets -underBinder
  intro cleared
  have hcleared : mediaAndTest cleared = mediaAndTest s := by
    simp only [cleared, List.foldl_cons, List.foldl_nil, mediaAndTest_wr]
  clear_value cleared
  intro traced
  have htraced : mediaAndTest traced = mediaAndTest s := by
    simp only [traced, apply_ite mediaAndTest, mediaAndTest_traceOff, mediaAndTest_wr, hcleared, ite_self]
  clear_value traced
  intro wrap
  clear_value wrap
  intro wrapped device opened
  have hopened : mediaAndTest opened = mediaAndTest traced := rfl
  clear_value opened
  rw [mediaAndTest_showStep, mediaAndTest_wr, hopened, htraced]

/-! ### The power-on reset -/

/-- The state at the release of the power-on reset, before WATCH shows what code flash holds (R543, R579): all but the
state kept without power, the commands that wait and the hosts is as at reset. -/
def poweredOn (s : State) (testEn : Bool) : State :=
  { State.reset with
    nv := { s.nv with epoch := (s.nv.epoch + 1) % 2 ^ 32 }, free := s.free, pending := s.pending
    host := { p0 := s.host.p0.fresh, p1 := s.host.p1.fresh, nextUid := s.host.nextUid }
    dev := { boardTest := testEn } }

theorem canonical_poweredOn (s : State) (testEn : Bool) : Canonical (poweredOn s testEn) := ⟨sorted_reset, rfl, rfl⟩

/-- From the state at the release of the power-on reset WATCH only writes registers, counts, starts WAKE and makes
records: what these keep holds of the state that the command answers. -/
theorem powerOnResetRelease_induction {P : State → Prop} {s t : State} {testEn : Bool}
    (hoff : s.dst = 0 ∨ (s.dst = 1 ∧ s.rd R.TIME.EPOCH_VALUE = 0)) (hwr : ∀ u f v i b, P u → P (u.wr f v i b))
    (hcount : ∀ u f, P u → P (u.count f)) (hwake : ∀ u, P u → P u.startWake)
    (hrecord : ∀ u code snaps, P u → P (u.recordNow code snaps)) (hstart : P (poweredOn s testEn))
    (ht : execPowerOnResetRelease testEn s = .next t) : P t := by
  have hgo : ¬(s.dst ≠ 0 ∧ (s.dst ≠ 1 ∨ s.rd R.TIME.EPOCH_VALUE ≠ 0)) := by
    rcases hoff with hoff | ⟨hwake, hepoch⟩
    · simp [hoff]
    · simp [hwake, hepoch]
  unfold execPowerOnResetRelease at ht
  injection ht with ht
  split at ht
  case isTrue hon => exact absurd hon hgo
  case isFalse =>
    subst ht
    refine hrecord _ _ _ (hrecord _ _ _ (hwake _ (hwr _ _ _ _ _ (hcount _ _ ?_))))
    refine hwr _ _ _ _ _ (hwr _ _ _ _ _ (hwr _ _ _ _ _ (hwr _ _ _ _ _ ?_)))
    refine hwr _ _ _ _ _ (hwr _ _ _ _ _ (hwr _ _ _ _ _ (hwr _ _ _ _ _ (hwr _ _ _ _ _ (hwr _ _ _ _ _ ?_)))))
    exact hwr _ _ _ _ _ (hwr _ _ _ _ _ (hwr _ _ _ _ _ hstart))

theorem next_of_powerOnResetRelease (testEn : Bool) (s : State) : ∃ t, execPowerOnResetRelease testEn s = .next t := by
  unfold execPowerOnResetRelease
  exact ⟨_, rfl⟩

/-- The power-on reset keeps what is known of the state at its release: no byte is stored. -/
theorem keep_of_powerOnResetRelease {s t : State} {testEn : Bool}
    (hoff : s.dst = 0 ∨ (s.dst = 1 ∧ s.rd R.TIME.EPOCH_VALUE = 0)) (ht : execPowerOnResetRelease testEn s = .next t) :
    Keep (keptOf (poweredOn s testEn) false true) t :=
  powerOnResetRelease_induction hoff (fun _ _ _ _ _ => keep_wr _ _ _ _ _) (fun _ _ => keep_count _ _ _ _ _)
    (fun _ => keep_startWake rfl _) (fun _ _ _ => keep_recordNow rfl _ _ _)
    (keep_keptOf false true (canonical_poweredOn s testEn)) ht

/-- The power-on reset leaves the media as they are and takes TEST_EN. -/
theorem mediaAndTest_of_powerOnResetRelease {s t : State} {testEn : Bool}
    (hoff : s.dst = 0 ∨ (s.dst = 1 ∧ s.rd R.TIME.EPOCH_VALUE = 0)) (ht : execPowerOnResetRelease testEn s = .next t) :
    mediaAndTest t = (s.nv.media, testEn) :=
  powerOnResetRelease_induction (P := fun u => mediaAndTest u = (s.nv.media, testEn)) hoff
    (fun _ _ _ _ _ => (mediaAndTest_wr ..).trans) (fun _ _ => (mediaAndTest_count ..).trans)
    (fun _ => (mediaAndTest_startWake _).trans) (fun _ _ _ => (mediaAndTest_recordNow ..).trans) rfl ht

/-- The loss of WATCH power leaves the epoch record: it cuts the operations of code flash and writes what CLOSING has
left of the bell record. -/
theorem epoch_of_vddWatchLoss {s t : State} (hs : Canonical s) (ht : execVddWatchLoss s = .next t) :
    t.nv.epoch = s.nv.epoch := by
  unfold execVddWatchLoss at ht
  injection ht with ht
  split at ht
  case isTrue => rw [ht]
  case isFalse =>
    have hbell : Keep (keptOf s true true) (if s.dst = 6 then s.bellWrite false else s) :=
      keep_ite (fun _ => keep_bellWrite rfl _ _ (keep_keptOf true true hs)) fun _ => keep_keptOf true true hs
    generalize (if s.dst = 6 then s.bellWrite false else s) = u at hbell ht
    have hcut := keep_flStop rfl _ 1 true (keep_flStop rfl _ 0 true hbell)
    subst ht
    exact hcut.epoch

/-- Settles O9: the epoch is known of every other command; each of the two leaves it or adds one. -/
theorem onlyAPowerOnAdvancesTheEpoch : Obligations.OnlyAPowerOnAdvancesTheEpoch := by
  unfold Obligations.OnlyAPowerOnAdvancesTheEpoch
  refine ⟨?others, ?loss, ?release⟩
  case others =>
    intro c s t hs hc ht
    exact ((keepO_exec (keep_keptOf true true hs) hc (fun _ => rfl) (fun _ => rfl)).get t ht).epoch
  case loss =>
    intro s t hs ht
    exact epoch_of_vddWatchLoss hs ht
  case release =>
    intro testEn s t _ hoff ht
    exact (keep_of_powerOnResetRelease (.inl hoff) ht).epoch

/-! ### Straps (R580) -/

/-- The strap fields take the bits of a sample that is steady in all of them. -/
def strapsTaken (s : State) (y : Nat) : State :=
  (((((s.wr R.BOOT.STRAP_LEGACY y).wr R.BOOT.STRAP_SPLIT (y / 2)).wr R.BOOT.STRAP_RATE (y / 4)).wr
    R.BOOT.STRAP_MGTBUS (y / 16)).wr R.BOOT.STRAP_MIADDR (y / 32)).wr R.BOOT.STRAP_UNSTABLE 0

/-- The straps are sampled and the first rail stage is enabled. -/
def strapped (s : State) (y : Nat) : State :=
  let u := (strapsTaken s y).wr R.POWER.DVFS_STAT_VDD 10
  (u.mDev fun d => { d with strapped := true, enables := 1, railFrom := u.mono }).showStep

theorem without_zero {y : Nat} (h : y < 256) : without y 0 = y := by
  have hall : ∀ z : Fin 256, without z 0 = z := by decide +kernel
  exact hall ⟨y, h⟩

theorem rd_modes_strapsTaken (s : State) (y : Nat) :
    (strapsTaken s y).rd R.DEVSTATE.MODE_CUR_MODES = s.rd R.DEVSTATE.MODE_CUR_MODES := by
  unfold strapsTaken
  repeat rw [rd_wr_of_key_ne _ (by decide)]

/-- A sample that is steady, and that finds LEGACY as it stands, makes no record. -/
theorem exec_strapSampleComplete_of_steady {s : State} {samples : List Nat} {y : Nat} (hwake : s.dst = 1)
    (hfirst : s.dev.strapped = false) (hsteady : unstable samples = 0) (hy : y = samples.headD 0 % 256)
    (hnew : bit y 0 = false) (hmode : s.mode 7 = false) : exec (.strapSampleComplete samples) s = .next (strapped s y) := by
  have hgo : ¬(s.dst ≠ 1 ∨ s.dev.strapped = true) := by simp [hwake, hfirst]
  have hsample : without y 0 = y := without_zero (by omega)
  have hlegacy : clrBit ((strapsTaken s y).rd R.DEVSTATE.MODE_CUR_MODES) 7
      = (strapsTaken s y).rd R.DEVSTATE.MODE_CUR_MODES := by
    rw [rd_modes_strapsTaken, clrBit]
    exact if_neg (ne_true_of_eq_false hmode)
  refine congrArg Host.Outcome.next ((if_neg hgo).trans ?_)
  simp only [hsteady, ← hy, hsample, hnew, if_true, Bool.false_eq_true, if_false]
  unfold strapsTaken at hlegacy
  rw [if_pos hlegacy]
  rfl

/-- Past the two writes that follow the straps, a field of another key reads as the straps have left it. -/
theorem rd_strapped (s : State) (y : Nat) {f : Field} (hvdd : R.POWER.DVFS_STAT_VDD.key 0 0 ≠ f.key 0 0)
    (hstep : R.BOOT.WAKE_STEP_STEP.key 0 0 ≠ f.key 0 0) : (strapped s y).rd f = (strapsTaken s y).rd f :=
  (rd_wr_of_key_ne _ hstep _).trans (rd_wr_of_key_ne (strapsTaken s y) hvdd 10)

/-- Each strap field holds its bits of the sample. -/
theorem rd_strapsTaken {s : State} (h : Tbl.sorted s.regs = true) (y : Nat) :
    (strapsTaken s y).rd R.BOOT.STRAP_LEGACY = y % 2 ∧ (strapsTaken s y).rd R.BOOT.STRAP_SPLIT = bits y 1 1
      ∧ (strapsTaken s y).rd R.BOOT.STRAP_RATE = bits y 2 2 ∧ (strapsTaken s y).rd R.BOOT.STRAP_MGTBUS = bits y 4 1
      ∧ (strapsTaken s y).rd R.BOOT.STRAP_MIADDR = bits y 5 3 ∧ (strapsTaken s y).rd R.BOOT.STRAP_UNSTABLE = 0 := by
  unfold strapsTaken
  refine ⟨?legacy, ?split, ?rate, ?mgtbus, ?miaddr, ?unstable⟩
  all_goals
    repeat rw [rd_wr_of_key_ne _ (by decide)]
    rw [rd_wr]
    · rfl
    · apply_rules [sorted_wr]

/-- Settles O16: the power-on reset stores no byte and leaves the media; a steady sample loads the strap fields; the slot
choice is the first startable slot. -/
theorem powerOnAndStraps : Obligations.PowerOnAndStraps := by
  unfold Obligations.PowerOnAndStraps
  refine ⟨?powerOn, ?loss, ?straps, ?slot⟩
  case powerOn =>
    intro s testEn hoff
    obtain ⟨t, ht⟩ := next_of_powerOnResetRelease testEn s
    have hkept := keep_of_powerOnResetRelease hoff ht
    obtain ⟨hmem, hdram⟩ := hkept.cells rfl
    obtain ⟨hmedia, htest⟩ := Prod.mk.inj (mediaAndTest_of_powerOnResetRelease hoff ht)
    exact ⟨t, ht, hkept.mono, hkept.epoch, htest, hmem, hdram, hkept.queue, hmedia⟩
  case loss =>
    intro s u hon hopen hu
    subst hu
    rw [exec_vddWatchLoss, execVddWatchLoss, if_neg hon, if_neg hopen]
  case straps =>
    intro s samples y hwake hfirst hsteady hy hnew hmode hsorted
    have hlow : y % 2 = 0 := by simpa [bit] using hnew
    obtain ⟨hlegacy, hreads⟩ := rd_strapsTaken hsorted y
    have hread := fun {f : Field} => rd_strapped s y (f := f)
    refine ⟨strapped s y, exec_strapSampleComplete_of_steady hwake hfirst hsteady hy hnew hmode, rfl, rfl, ?_⟩
    rw [hread (by decide) (by decide), hread (by decide) (by decide), hread (by decide) (by decide),
      hread (by decide) (by decide), hread (by decide) (by decide), hread (by decide) (by decide)]
    exact ⟨hlegacy.trans hlow, hreads⟩
  case slot =>
    intro s u v hwake hstrapped hnormal hfree hu hv
    have hgo : ¬(s.dst ≠ 1 ∨ s.dev.strapped = false ∨ s.dev.boardTest = true ∨ s.cf.chosen ≠ 0) := by
      simp [hwake, hstrapped, hnormal, hfree]
    cases hslot : (firstSlot u [s.loadConfig.startCandidate.2, u.nv.desc.current, 3 - u.nv.desc.current].eraseDups).2 with
    | none => simp only [exec_bootSlotChoice, execBootSlotChoice, if_neg hgo, ← hu, ← hv, hslot]
    | some k => simp only [exec_bootSlotChoice, execBootSlotChoice, if_neg hgo, ← hu, ← hv, hslot]

end Sys2Proof.Proofs
end

/-! ## The register map (R594 to R607)

Loads and reads of fields, accesses to registers by a core and through the NVMe-MI window, and the common registers. -/

section
namespace Sys2Proof.Proofs

open Sys2Proof Sys2Proof.Machine Sys2Proof.Laws Sys2Proof.Safety

/-- Settles O13: the store reads what was loaded at its key, and fields of different places have different keys. -/
theorem aRegisterWriteChangesItsFieldAlone : Obligations.ARegisterWriteChangesItsFieldAlone := by
  unfold Obligations.ARegisterWriteChangesItsFieldAlone
  intro s f g v i b j d hsorted hfoff hgoff hflo hglo hb hd
  refine ⟨rd_wr s f v i b hsorted, fun hplace => ?other, rfl⟩
  have hkey : f.key i b ≠ g.key j d := fun h => hplace ((key_eq_iff hfoff hgoff hflo hglo hb hd).mp h)
  exact rd_wr_ne s f g v i b j d hsorted hkey

/-! ### Reads (R460, R604, R607) -/

/-- An access at an aligned offset of a page that is one is well formed. -/
theorem not_malformed {p off : Nat} (hpage : isPage p = true) (haligned : off % 4 = 0) :
    ¬(isPage p = false ∨ off % 4 ≠ 0) := by
  simp only [hpage, haligned, Bool.true_eq_false, ne_eq, not_true_eq_false, or_self, not_false_eq_true]

/-- A read that its page answers gives its word, and the state after what the read does. -/
theorem readReg_of_shows {s u : State} {who : Initiator} {p off : Nat} (h : Shows s who p off u)
    (hwindow : ¬(p = 0x18 ∧ off = 0x15C)) :
    s.readReg who p off = ⟨(u.readWord who (s.isl.gated.contains (pageIsland p)) p off).1, 0,
      (u.readWord who (s.isl.gated.contains (pageIsland p)) p off).2⟩ := by
  obtain ⟨hpage, haligned, hmi, hon, howner, rfl⟩ := h
  have hvisible : ¬(who = .mi ∧ miReads p off = false) := fun ⟨hwho, hhidden⟩ => ne_true_of_eq_false hhidden (hmi hwho)
  rw [State.readReg, if_neg (not_malformed hpage haligned), if_neg hvisible, if_neg (ne_false_of_eq_true hon)]
  simp only [howner, Bool.false_eq_true, if_false]
  exact if_neg hwindow

/-- A core's read of a register whose domain is off meets a bus error (R460). -/
theorem readReg_of_off {s : State} {who : Initiator} {p off : Nat} (hpage : isPage p = true) (haligned : off % 4 = 0)
    (hcore : who ≠ .mi) (hoff : s.answers p = false) :
    s.readReg who p off = ⟨0x0FF00FF0, 2, s.offAccess who p off false⟩ := by
  have hvisible : ¬(who = .mi ∧ miReads p off = false) := fun h => hcore h.1
  rw [State.readReg, if_neg (not_malformed hpage haligned), if_neg hvisible, if_pos hoff]

/-- A core's read of a page whose owner turns it away is refused (R411, R440). -/
theorem readReg_of_owned {s : State} {who : Initiator} {p off : Nat} (hpage : isPage p = true) (haligned : off % 4 = 0)
    (hcore : who ≠ .mi) (hon : s.answers p = true) (howner : ((s.crossTo (initIsland who) p).ownCheck who p off).1 = true) :
    s.readReg who p off = ⟨0, 1, ((s.crossTo (initIsland who) p).ownCheck who p off).2⟩ := by
  have hvisible : ¬(who = .mi ∧ miReads p off = false) := fun h => hcore h.1
  rw [State.readReg, if_neg (not_malformed hpage haligned), if_neg hvisible, if_neg (ne_false_of_eq_true hon)]
  exact if_pos howner

/-- A read that is answered gives its word to its initiator. -/
theorem toBus_of_answered (word : Nat) (t : State) (who : Initiator) : (ReadResult.mk word 0 t).toBus who = t.answer [word] :=
  if_neg fun h => absurd h.1 (Nat.zero_ne_add_one 1)

/-- A read that is refused gives zero. -/
theorem toBus_of_refused (t : State) (who : Initiator) : (ReadResult.mk 0 1 t).toBus who = t.answer [0] :=
  if_neg fun h => absurd h.1 (Nat.succ_ne_self 1).symm

/-- A core's read that meets a bus error is an access fault. -/
theorem toBus_of_busError (word : Nat) (t : State) {who : Initiator} (hcore : who ≠ .mi) :
    (ReadResult.mk word 2 t).toBus who = t.busError :=
  if_pos ⟨rfl, hcore⟩

/-! ### Writes (R418, R439, R595, R650) -/

/-- A write that its owner lets in takes its effect. -/
theorem onOwned_of_opens {s u : State} {who : Initiator} {p off : Nat} (h : Opens s who p off u) (g : State → State) :
    (s.crossTo (initIsland who) p).onOwned who p off g = g u := by
  obtain ⟨-, -, hchannel, howner, rfl, hidle⟩ := h
  rw [State.onOwned, if_neg hchannel]
  simp only [howner, Bool.false_eq_true, if_false]
  exact if_neg hidle

/-- A write to a common register that reaches its page takes its effect. -/
theorem onCommon_of_opens {s u : State} {who : Initiator} {p off : Nat} (h : Opens s who p off u) (g : State → State) :
    s.onCommon who p off g = g u := by
  obtain ⟨hpage, hon, -⟩ := id h
  rw [State.onCommon, if_neg (ne_false_of_eq_true hpage), State.access, if_pos hon, onOwned_of_opens h]

/-- An access of an index that no page has is recorded and meets a bus error. -/
theorem pageFault_of_noPage {s : State} {who : Initiator} {p : Nat} (hnone : isPage p = false) (off width : Nat)
    (write : Bool) :
    s.pageFault who p off width write = (s.record (initIsland who) 0x022 [p, off, width, initCode who]).busError :=
  if_pos hnone

/-- An access of the wrong width or alignment is recorded by its page, and a read meets a bus error. -/
theorem pageFault_of_page {s : State} {who : Initiator} {p : Nat} (hpage : isPage p = true) (hon : s.answers p = true)
    (off width : Nat) (write : Bool) :
    s.pageFault who p off width write =
      if write then (s.crossTo (initIsland who) p).record (pageIsland p) 0x022 [p, off, width, initCode who]
      else ((s.crossTo (initIsland who) p).record (pageIsland p) 0x022 [p, off, width, initCode who]).busError := by
  rw [State.pageFault, if_neg (ne_false_of_eq_true hpage)]
  simp only [State.access, if_pos hon]

/-- Settles O52: the address names a register; the page answers the read or turns it away, takes the write by a row or by
its fields, or faults; the window names dwords of its own or not. -/
theorem registerAccessesComplete : Obligations.RegisterAccessesComplete := by
  unfold Obligations.RegisterAccessesComplete
  refine ⟨?rcRead, ?loRead, ?off, ?owned, ?row, ?fields, ?noPage, ?malformed, ?miRead, ?miReadNone, ?miWrite, ?miWriteNone,
    ?miOther⟩
  case rcRead =>
    rintro s u v who addr p off hreg hshows hwindow rfl
    simp only [exec_rcFieldRead, execRcFieldRead, hreg, readReg_of_shows hshows hwindow, toBus_of_answered]
  case loRead =>
    rintro s u v who addr p off hreg hshows hwindow rfl
    simp only [exec_loWordRead, execLoWordRead, hreg, readReg_of_shows hshows hwindow, toBus_of_answered]
  case off =>
    intro s who addr p off hreg hpage haligned hcore hoff
    simp only [exec_registerReadRefused, execRegisterReadRefused, hreg, readReg_of_off hpage haligned hcore hoff]
    exact congrArg Host.Outcome.next (toBus_of_busError _ _ hcore)
  case owned =>
    rintro s u who addr p off hreg hpage haligned hcore hon howner rfl
    simp only [exec_registerReadRefused, execRegisterReadRefused, hreg, readReg_of_owned hpage haligned hcore hon howner]
    exact congrArg Host.Outcome.next (toBus_of_refused _ who)
  case row =>
    intro s who addr p off value t hreg hpage haligned hrow
    simp only [exec_registerWrite, execRegisterWrite, hreg, State.writeReg, if_neg (not_malformed hpage haligned), hrow]
  case fields =>
    intro s u who addr p off value hreg haligned hrow hopens
    obtain ⟨hpage, hon, -⟩ := id hopens
    simp only [exec_registerWrite, execRegisterWrite, hreg, State.writeReg, if_neg (not_malformed hpage haligned), hrow,
      State.access, if_pos hon]
    exact congrArg Host.Outcome.next (onOwned_of_opens hopens _)
  case noPage =>
    intro s who addr p off width write hreg hnone
    have hfaults : ¬(width = 4 ∧ off % 4 = 0 ∧ isPage p = true) := by simp [hnone]
    simp only [exec_pageAccessFault, execPageAccessFault, hreg, if_neg hfaults, pageFault_of_noPage hnone]
  case malformed =>
    rintro s u who addr p off width write hreg hpage hwrong hon rfl
    have hfaults : ¬(width = 4 ∧ off % 4 = 0 ∧ isPage p = true) := by
      rintro ⟨hwidth, haligned, -⟩
      exact hwrong.elim (· hwidth) (· haligned)
    simp only [exec_pageAccessFault, execPageAccessFault, hreg, if_neg hfaults, pageFault_of_page hpage hon]
  case miRead =>
    intro s nmd0 nmd1 p first n hon hspan
    simp only [exec_miRegisterRead, execMiRegisterRead, if_neg hon, hspan]
  case miReadNone =>
    intro s nmd0 nmd1 hon hspan
    simp only [exec_miRegisterRead, execMiRegisterRead, if_neg hon, hspan]
  case miWrite =>
    intro s nmd0 nmd1 p first n data hon hspan hlength
    simp only [exec_miRegisterWrite, execMiRegisterWrite, if_neg hon, hspan]
    exact congrArg Host.Outcome.next (if_neg (not_not.mpr hlength))
  case miWriteNone =>
    intro s nmd0 nmd1 data hon hall
    cases hspan : miSpan nmd0 nmd1 with
    | none => simp only [exec_miRegisterWrite, execMiRegisterWrite, if_neg hon, hspan]
    | some e =>
      obtain ⟨p, first, n⟩ := e
      have hlength : data.length ≠ n := by simpa [hspan] using hall
      simp only [exec_miRegisterWrite, execMiRegisterWrite, if_neg hon, hspan]
      exact congrArg Host.Outcome.next (if_pos hlength)
  case miOther =>
    intro s opcode hon hread hwrite hup
    have hpassed : ¬(s.dst = 0 ∨ opcode = 0xC0 ∨ opcode = 0xC1) := not_or.mpr ⟨hon, not_or.mpr ⟨hread, hwrite⟩⟩
    simp only [exec_miOtherCommand, execMiOtherCommand, if_neg hpassed, hup, if_true]

/-! ### The common registers (R597 to R601) -/

/-- Settles O53: each write reaches its page, and its initiator has the right. -/
theorem commonRegistersComplete : Obligations.CommonRegistersComplete := by
  unfold Obligations.CommonRegistersComplete
  refine ⟨?clears, ?pending, ?forces, ?locks, ?selects, ?votes⟩
  case clears =>
    intro s u who page hopens hmay
    rw [exec_softClear, execSoftClear, onCommon_of_opens hopens, State.softClear, if_neg (ne_false_of_eq_true hmay)]
  case pending =>
    intro s u who page mask hopens hmay
    rw [exec_evtPendClear, execEvtPendClear, onCommon_of_opens hopens, State.pendClear, if_neg (ne_false_of_eq_true hmay)]
  case forces =>
    intro s u who page mask hopens hmay hsome
    rw [exec_evtForce, execEvtForce, onCommon_of_opens hopens, State.forceEvents, if_neg (ne_false_of_eq_true hmay),
      if_neg hsome]
  case locks =>
    intro s u who page hopens hhealth hopen hmay
    have hlocks : ¬(page = 0x0A ∨ u.rd R.COMMON.PAGE_LOCK_LOCK page = 1) := not_or.mpr ⟨hhealth, hopen⟩
    rw [exec_pageLock, execPageLock, onCommon_of_opens hopens, State.lockPage, if_neg hlocks,
      if_neg (ne_false_of_eq_true hmay)]
  case selects =>
    intro s u who page event hopens hmay
    rw [exec_cntSelWrite, execCntSelWrite, onCommon_of_opens hopens, State.selectEvent, if_neg (ne_false_of_eq_true hmay)]
  case votes =>
    rintro s u who page d vote hopens rfl hdomain hchanges hmay
    rw [exec_pageCtrlVote, execPageCtrlVote, onCommon_of_opens hopens, State.pageVote]
    exact congrArg Host.Outcome.next ((if_neg (not_or.mpr ⟨hdomain, hchanges⟩)).trans (if_neg (ne_false_of_eq_true hmay)))

end Sys2Proof.Proofs
end

/-! ## Steps and words -/

section
namespace Sys2Proof.Proofs

open Sys2Proof Sys2Proof.Machine Sys2Proof.Laws Sys2Proof.Safety

/-- Settles O7: the command in front keeps the queue of the state it runs on, which is the rest. -/
theorem aStepTakesOneCommandFromTheQueue : Obligations.AStepTakesOneCommandFromTheQueue := by
  unfold Obligations.AStepTakesOneCommandFromTheQueue
  intro s t c rest hs hp ht
  have hrest : Canonical { s with pending := rest } := hs
  rw [step_of_pending_cons hp] at ht
  exact (keep_exec (keep_keptOf true true hrest) (fun _ => rfl) (fun _ => rfl) ht).queue

/-- Settles O1: with the command in front taken off, the queue is the one the state had. -/
theorem stepRunsTheCommandInFront : Obligations.StepRunsTheCommandInFront := by
  unfold Obligations.StepRunsTheCommandInFront
  intro c s
  exact step_of_pending_cons rfl

/-- Settles O3: the decoder answers no word, so placing one leaves the state. -/
theorem noWordSpellsACommand : Obligations.NoWordSpellsACommand := by
  unfold Obligations.NoWordSpellsACommand
  intro nbits w s
  exact ⟨rfl, rfl⟩

/-- Settles O4: the meaning of every command is a next state. -/
theorem everyCommandIsAnswered : Obligations.EveryCommandIsAnswered := by
  unfold Obligations.EveryCommandIsAnswered
  intro c s
  cases c with
  | _ => exact ⟨_, rfl⟩

end Sys2Proof.Proofs
end
